-- ==== Sys2Proof/Word.lean ====
section
/-!
DEFINITION. The words of the hub: bytes, registers of the porter cores, 128-byte lines, and sparse maps.
-/
namespace Sys2Proof

abbrev Byte := BitVec 8
abbrev Half := BitVec 16
abbrev Word := BitVec 32
abbrev Dword := BitVec 64
/-- A vector register of a porter core (R217). -/
abbrev Vec := BitVec 128
/-- The data of one 128-byte line, byte 0 in the low bits (R11, R315). -/
abbrev Line := BitVec 1024
/-- A hub address (R34): a 52-bit number, kept as a Nat where it is only compared and added to. -/
abbrev HA := Nat
/-- A sparse map: pairs of a key and a value, the keys rising, no value equal to what an unlisted key reads as. -/
abbrev SMap (α : Type) := List (Nat × α)

end Sys2Proof
end

