-- ==== Sys2Proof/Machine/Maps.lean ====
section
/-!
DEFINITION. Sparse maps with a default, in one canonical form: keys strictly rising, no entry equal to the default.
Memory and every large array of the hub (cores, clusters, slices, registers, slots, queues) are kept in this form,
so that equal contents are equal data.
-/
namespace Sys2Proof.Machine

variable {α : Type}

/-- The value listed at a key, if any. -/
def smFind : SMap α → Nat → Option α
  | [], _ => none
  | (k, v) :: m, a => if k = a then some v else smFind m a

/-- The value at a key, the default where none is listed. -/
def smGet (d : α) (m : SMap α) (a : Nat) : α := (smFind m a).getD d

/-- The map without a key. -/
def smErase : SMap α → Nat → SMap α
  | [], _ => []
  | (k, v) :: m, a => if k = a then m else (k, v) :: smErase m a

/-- The map with a value listed at a key, in key order. -/
def smInsert : SMap α → Nat → α → SMap α
  | [], a, v => [(a, v)]
  | (k, w) :: m, a, v =>
    if a < k then (a, v) :: (k, w) :: m
    else if a = k then (a, v) :: m
    else (k, w) :: smInsert m a v

/-- Writes a value at a key: the default removes the entry. -/
def smSet [DecidableEq α] (d : α) (m : SMap α) (a : Nat) (v : α) : SMap α :=
  if v = d then smErase m a else smInsert m a v

/-- Applies a function to the value at a key. -/
def smMod [DecidableEq α] (d : α) (m : SMap α) (a : Nat) (f : α → α) : SMap α :=
  smSet d m a (f (smGet d m a))

/-- The first key, if the map lists one, is above a bound. -/
def smAbove : SMap α → Nat → Bool
  | [], _ => true
  | (k, _) :: _, b => decide (b < k)

/-- The canonical form: keys strictly rising and no entry equal to the default. -/
def smWf [DecidableEq α] (d : α) : SMap α → Bool
  | [] => true
  | (k, v) :: m => decide (v ≠ d) && smAbove m k && smWf d m

/-- The keys listed in a map. -/
def smKeys (m : SMap α) : List Nat := m.map (fun p => p.1)

/-- A list with a number kept in rising order without repeats. -/
def setAdd : List Nat → Nat → List Nat
  | [], a => [a]
  | k :: m, a => if a < k then a :: k :: m else if a = k then k :: m else k :: setAdd m a

/-- A list without a number. -/
def setDel (m : List Nat) (a : Nat) : List Nat := m.filter (fun k => k != a)

/-- The list with position `i` replaced; unchanged where there is no such position. -/
def listSet : List α → Nat → α → List α
  | [], _, _ => []
  | _ :: l, 0, v => v :: l
  | a :: l, i + 1, v => a :: listSet l i v

/-- The element at a position, a default beyond the end. -/
def listGet (d : α) : List α → Nat → α
  | [], _ => d
  | a :: _, 0 => a
  | _ :: l, i + 1 => listGet d l i

/-- Changes the first element that a test accepts. -/
def listModFirst (p : α → Bool) (f : α → α) : List α → List α
  | [] => []
  | a :: l => if p a then f a :: l else a :: listModFirst p f l

/-- Removes the first element that a test accepts. -/
def listDelFirst (p : α → Bool) : List α → List α
  | [] => []
  | a :: l => if p a then l else a :: listDelFirst p l

/-- The numbers from `a`, `n` of them. -/
def span : Nat → Nat → List Nat
  | _, 0 => []
  | a, n + 1 => a :: span (a + 1) n

/-- Bits `hi` to `lo` of a number. -/
def bitsOf (v hi lo : Nat) : Nat := (v / 2 ^ lo) % 2 ^ (hi + 1 - lo)

/-- A number with bits `hi` to `lo` replaced. -/
def setBitsOf (v hi lo x : Nat) : Nat :=
  v - bitsOf v hi lo * 2 ^ lo + (x % 2 ^ (hi + 1 - lo)) * 2 ^ lo

/-- Bit `i` of a number. -/
def bitOf (v i : Nat) : Bool := (v / 2 ^ i) % 2 == 1

/-- A number with bit `i` set or cleared. -/
def setBitOf (v i : Nat) (b : Bool) : Nat := setBitsOf v i i (if b then 1 else 0)

/-- A Bool as a number. -/
def b2n (b : Bool) : Nat := if b then 1 else 0

/-- The bytes of a number, least significant first (R11). -/
def toBytes : Nat → Nat → List Byte
  | 0, _ => []
  | n + 1, v => BitVec.ofNat 8 v :: toBytes n (v / 256)

/-- The number that bytes spell, least significant first (R11). -/
def ofBytes : List Byte → Nat
  | [] => 0
  | b :: l => b.toNat + 256 * ofBytes l

/-- Bytes `off` to `off + n - 1` of a list, as a number, least significant first. -/
def fieldOf (l : List Byte) (off n : Nat) : Nat := ofBytes ((l.drop off).take n)

/-- Counts up to the all-ones value of a width and stays there. -/
def satAdd (width v k : Nat) : Nat := min (v + k) (2 ^ width - 1)

end Sys2Proof.Machine
end

