-- ==== Sys2Proof/Machine/Codec.lean ====
section
/-!
DEFINITION. CRC-32C (R283) and the bale codecs (R286 to R289): canonical prefix codes, expansion and compression.
-/
namespace Sys2Proof.Machine

/-- One bit step of the reflected CRC-32C, polynomial 0x1EDC_6F41. -/
def crcStep (c : Nat) : Nat := if c % 2 = 1 then Nat.xor (c / 2) 0x82F63B78 else c / 2

/-- One byte into the CRC. -/
def crcByte (c : Nat) (b : Byte) : Nat :=
  crcStep (crcStep (crcStep (crcStep (crcStep (crcStep (crcStep (crcStep (Nat.xor c b.toNat))))))))

/-- CRC-32C of bytes: initial value and final XOR 0xFFFF_FFFF (R283). -/
def crc32c (l : List Byte) : Nat := Nat.xor (l.foldl crcByte 0xFFFFFFFF) 0xFFFFFFFF

/-- Code lengths from their table: symbol 2k in bits 3:0 of byte k, symbol 2k + 1 in bits 7:4 (R287). -/
def lensOf : List Byte → List Nat
  | [] => []
  | b :: l => b.toNat % 16 :: b.toNat / 16 :: lensOf l

/-- The table of code lengths as bytes. -/
def lensBytes : List Nat → List Byte
  | a :: b :: l => BitVec.ofNat 8 (a % 16 + 16 * (b % 16)) :: lensBytes l
  | _ => []

/-- Symbols of one length, ascending. -/
def symsOf (lens : List Nat) (len : Nat) : List Nat :=
  (span 0 lens.length).zip lens |>.filterMap (fun p => if p.2 = len then some p.1 else none)

/-- One row of a code: its length, the first code of that length, and the symbols in order. -/
structure CodeRow where
  len   : Nat
  first : Nat
  syms  : List Nat
  deriving DecidableEq, Repr

/-- The rows of lengths `len` and up: the first code of length L + 1 is (first of L + number of L) doubled (R287). -/
def codeRows (lens : List Nat) : Nat → Nat → Nat → List CodeRow
  | 0, _, _ => []
  | k + 1, len, first =>
    let s := symsOf lens len
    { len := len, first := first, syms := s } :: codeRows lens k (len + 1) ((first + s.length) * 2)

/-- The canonical code of a length table: lengths 1 to 15, the first code of length 1 being 0 (R287). -/
def canonical (lens : List Nat) : List CodeRow := codeRows lens 15 1 0

/-- The sum of 2^(15 − L) over the symbols present. -/
def kraft (lens : List Nat) : Nat := lens.foldl (fun n l => if l = 0 then n else n + 2 ^ (15 - l)) 0

/-- A length table that R288 does not call invalid: some length is nonzero and the sum of 2^−L is at most 1. -/
def lensValid (lens : List Nat) : Bool := lens.any (fun l => l != 0) && decide (kraft lens ≤ 2 ^ 15)

/-- Bits of a byte, from bit 0 upward (R287). -/
def byteBits (b : Byte) : List Bool := (span 0 8).map (fun i => b.getLsbD i)

/-- Bits of a stream, from bit 0 of byte 0 upward. -/
def streamBits (l : List Byte) : List Bool := l.flatMap byteBits

/-- The symbol whose code of a length is a number, if there is one. -/
def codeSym (rows : List CodeRow) (len code : Nat) : Option Nat :=
  match rows.find? (fun r => r.len == len) with
  | some r => if r.first ≤ code ∧ code < r.first + r.syms.length then some (listGet 0 r.syms (code - r.first)) else none
  | none => none

/-- Decodes `n` symbols from a bit stream, the first bit read being the most significant of a code. None where the
stream runs out or holds a sequence that no code completes (R287, R288). -/
def decodeBits (rows : List CodeRow) : List Bool → Nat → Nat → Nat → Option (List Nat)
  | _, 0, _, _ => some []
  | [], _ + 1, _, _ => none
  | b :: bs, n + 1, len, code =>
    let code := 2 * code + (if b then 1 else 0)
    let len := len + 1
    match codeSym rows len code with
    | some s => (decodeBits rows bs n 0 0).map (fun l => s :: l)
    | none => if len < 15 then decodeBits rows bs (n + 1) len code else none

/-- Pairs of nibbles as bytes, the first in bits 3:0 (the element order of R106). -/
def nibblesToBytes : List Nat → List Byte
  | a :: b :: l => BitVec.ofNat 8 (a % 16 + 16 * (b % 16)) :: nibblesToBytes l
  | _ => []

/-- Bytes as nibbles. -/
def bytesToNibbles (l : List Byte) : List Nat := lensOf l

/-- Expands a bale's payload to its 65,536 bytes (R286 to R288). None for an invalid code. -/
def expandBale (codec fill payloadLen lengths : Nat) (payload : List Byte) : Option (List Byte) :=
  match codec with
  | 0 => if payloadLen = 65536 then some (payload.take 65536) else none
  | 1 => if payloadLen = 0 then some (List.replicate 65536 (BitVec.ofNat 8 fill)) else none
  | 2 =>
    let lens := lensOf (toBytes 8 lengths)
    if lensValid lens then
      (decodeBits (canonical lens) (streamBits (payload.take payloadLen)) 131072 0 0).map nibblesToBytes
    else none
  | 3 =>
    let lens := lensOf (payload.take 128)
    if decide (128 ≤ payloadLen) && lensValid lens then
      (decodeBits (canonical lens) (streamBits ((payload.take payloadLen).drop 128)) 65536 0 0).map
        (fun l => l.map (BitVec.ofNat 8))
    else none
  | _ => none

/-- The code of a symbol as bits, most significant first. -/
def codeOf (rows : List CodeRow) (sym : Nat) : Option (List Bool) :=
  rows.findSome? (fun r =>
    match (span 0 r.syms.length).find? (fun k => listGet 0 r.syms k == sym && decide (k < r.syms.length)) with
    | some k => some ((span 0 r.len).map (fun i => bitOf (r.first + k) (r.len - 1 - i)))
    | none => none)

/-- The stream of some symbols. None if a symbol has no code. -/
def encodeBits (rows : List CodeRow) : List Nat → Option (List Bool)
  | [] => some []
  | a :: l => match codeOf rows a, encodeBits rows l with
    | some c, some r => some (c ++ r)
    | _, _ => none

/-- Bits packed into bytes from bit 0 upward, the last byte filled with zeros; `n` bounds the number of bytes. -/
def packBits : Nat → List Bool → List Byte
  | 0, _ => []
  | _, [] => []
  | n + 1, l =>
    BitVec.ofNat 8 ((span 0 8).foldl (fun v i => if listGet false l i then v + 2 ^ i else v) 0) :: packBits n (l.drop 8)

/-- One way to compress a bale: codec, fill byte, payload, LENGTHS. -/
structure Packed where
  codec   : Nat
  fill    : Nat
  payload : List Byte
  lengths : Nat
  deriving DecidableEq, Repr

/-- Pack units of a payload (R284). -/
def unitsOf (len : Nat) : Nat := (len + 2047) / 2048

def Packed.units (p : Packed) : Nat := unitsOf p.payload.length

/-- Code lengths that a codec may choose for `n` symbols: one length of at most 15 for each, a valid code (R287, R288). -/
def lensFit (n : Nat) (lens : List Nat) : Bool := decide (lens.length = n) && lens.all (fun l => decide (l ≤ 15)) && lensValid lens

/-- The code that the codec uses for a stream of symbols: the lengths that it chose, if every symbol of the stream has one, else the
code of equal lengths `w`, which is valid for all 2^w symbols (R289, DESIGN CHOICE, log 125). -/
def codeFor (w : Nat) (lens syms : List Nat) : List Nat :=
  if lensFit (2 ^ w) lens && syms.all (fun a => listGet 0 lens a != 0) then lens else List.replicate (2 ^ w) w

/-- The ways that are allowed by a mask of codecs (bit k for codec k) besides RAW, given the code lengths that the
codec chose for NIB and for BYTE (R289). -/
def packings (mask : Nat) (nib byt : List Nat) (d : List Byte) : List Packed :=
  let nib := codeFor 4 nib (bytesToNibbles d)
  let byt := codeFor 8 byt (d.map (fun b => b.toNat))
  let raw : Packed := { codec := 0, fill := 0, payload := d, lengths := 0 }
  let fill := match d with
    | b :: l => if bitOf mask 1 && l.all (fun x => x == b) then
        [{ codec := 1, fill := b.toNat, payload := [], lengths := 0 : Packed }] else []
    | [] => []
  let nibP := if bitOf mask 2 then
      match encodeBits (canonical nib) (bytesToNibbles d) with
      | some bits => [{ codec := 2, fill := 0, payload := packBits 65536 bits, lengths := ofBytes (lensBytes nib) : Packed }]
      | none => []
    else []
  let bytP := if bitOf mask 3 then
      match encodeBits (canonical byt) (d.map (fun b => b.toNat)) with
      | some bits => [{ codec := 3, fill := 0, payload := lensBytes byt ++ packBits 65536 bits, lengths := 0 : Packed }]
      | none => []
    else []
  [raw] ++ fill ++ nibP ++ bytP

/-- The codec that gives the fewest pack units, ties to the lowest value (R289); payloads above 65,536 bytes do not
fit a slot. -/
def bestPacking (l : List Packed) : Option Packed :=
  l.foldl (fun b p =>
    if p.payload.length > 65536 then b
    else match b with
      | none => some p
      | some q => if p.units < q.units ∨ (p.units = q.units ∧ p.codec < q.codec) then some p else some q) none

end Sys2Proof.Machine
end

