-- ==== Sys2Proof/RegNames.lean ====
section
/-!
DEFINITION. The names of the hub's registers, the blocks they lie in, and how one register is named.
Rules R12 and R529 to R531, and the register tables of every chapter.
The Waybill reports where each block lies and the manual gives no base address, so a register is named by its
block, the block's number and its own number, and its offset inside the block is that of the register tables.
-/
namespace Sys2Proof

/-- A register block (the types of the Waybill, R531, the doorbell pages and the function's own control region). -/
inductive Block where
  | stg | tol | mec | prt | tir | sri | hbc | hbcCommon | ucs | noc | relay | cus | hpf
  deriving DecidableEq, Repr

/-- The registers of the hub, one constructor for each register table entry. -/
inductive RegName where
  /-- STG_PERIOD, R84. -/
  | stgPeriod
  /-- STG_NUMBER, R85. -/
  | stgNumber
  /-- STG_MARK_TIME, R85. -/
  | stgMarkTime
  /-- STG_HUB_TIME, R85. -/
  | stgHubTime
  /-- STG_STATUS, R86. -/
  | stgStatus
  /-- STG_LATE_STEPS, R87. -/
  | stgLateSteps
  /-- STG_SKEW_MAX, R87. -/
  | stgSkewMax
  /-- STG_INT_EN, R87. -/
  | stgIntEn
  /-- TOL_RULE_MATCH, R88. -/
  | tolRuleMatch
  /-- TOL_RULE_BUDGET, R89. -/
  | tolRuleBudget
  /-- TOL_MISS_COUNT, R90. -/
  | tolMissCount
  /-- TOL_LATE_READS, R90. -/
  | tolLateReads
  /-- TOL_LATE_WRITES, R90. -/
  | tolLateWrites
  /-- TOL_LATE_DELIVERED, R90. -/
  | tolLateDelivered
  /-- TOL_MISS_FIRST, R91. -/
  | tolMissFirst
  /-- TOL_INT_STATUS, R92. -/
  | tolIntStatus
  /-- TOL_INT_EN, R92. -/
  | tolIntEn
  /-- TOL_PROBE_SEL, R93. -/
  | tolProbeSel
  /-- TOL_PROBE_DATA, R93. -/
  | tolProbeData
  /-- MEC_ID, R177. -/
  | mecId
  /-- MEC_CTRL, R177. -/
  | mecCtrl
  /-- MEC_STATUS, R178. -/
  | mecStatus
  /-- MEC_SLOT_MAP, R179. -/
  | mecSlotMap
  /-- MEC_ACC_MAP, R179. -/
  | mecAccMap
  /-- MEC_SLOT_CTRL, R180. -/
  | mecSlotCtrl
  /-- MEC_SPARE, R180. -/
  | mecSpare
  /-- MEC_DESC_DONE, R181. -/
  | mecDescDone
  /-- MEC_BUSY_CLK, R181. -/
  | mecBusyClk
  /-- MEC_LOAD_STALL_CLK, R181. -/
  | mecLoadStallClk
  /-- MEC_SLOT_OVERRUN, R181. -/
  | mecSlotOverrun
  /-- MEC_CONV_NAN, R181. -/
  | mecConvNan
  /-- MEC_CONV_INF, R181. -/
  | mecConvInf
  /-- MEC_CONV_OVF, R181. -/
  | mecConvOvf
  /-- MEC_FMT_ERR, R181. -/
  | mecFmtErr
  /-- MEC_CUR_DESC, R182. -/
  | mecCurDesc
  /-- MEC_INT_STATUS, R183. -/
  | mecIntStatus
  /-- MEC_INT_EN, R183. -/
  | mecIntEn
  /-- MEC_WB_CTRL, R210. -/
  | mecWbCtrl
  /-- MEC_WB_STATUS, R210. -/
  | mecWbStatus
  /-- MEC_WB_INT_STATUS, R211. -/
  | mecWbIntStatus
  /-- MEC_WB_INT_EN, R211. -/
  | mecWbIntEn
  /-- MEC_WB_COL_TRIP, R212. -/
  | mecWbColTrip
  /-- MEC_WB_ROW_TRIP, R212. -/
  | mecWbRowTrip
  /-- MEC_WB_TRANSIENT, R212. -/
  | mecWbTransient
  /-- MEC_WB_REMAP, R212. -/
  | mecWbRemap
  /-- MEC_WB_UNRESOLVED, R212. -/
  | mecWbUnresolved
  /-- MEC_WB_NARROW_TILES, R212. -/
  | mecWbNarrowTiles
  /-- MEC_WB_ESCALATED, R212. -/
  | mecWbEscalated
  /-- MEC_WB_SENT_INF, R212. -/
  | mecWbSentInf
  /-- MEC_WB_SENT_NAN, R212. -/
  | mecWbSentNan
  /-- MEC_WB_SENT_THRESH, R212. -/
  | mecWbSentThresh
  /-- MEC_WB_UNCHECKED, R212. -/
  | mecWbUnchecked
  /-- MEC_WB_LAST, R213. -/
  | mecWbLast
  /-- PRT_BOOT_CTRL, R268. -/
  | prtBootCtrl
  /-- PRT_BOOT_STATUS, R268. -/
  | prtBootStatus
  /-- PRT_CL_STATUS, R269. -/
  | prtClStatus
  /-- PRT_CL_ROLE, R269. -/
  | prtClRole
  /-- PRT_CL_CORE_STATE, R269. -/
  | prtClCoreState
  /-- PRT_CL_STEPS, R270. -/
  | prtClSteps
  /-- PRT_CL_CANCELS, R270. -/
  | prtClCancels
  /-- PRT_CL_CMA_BUSY, R270. -/
  | prtClCmaBusy
  /-- PRT_CL_CONV_EXC, R270. -/
  | prtClConvExc
  /-- PRT_CL_L0_PARITY, R270. -/
  | prtClL0Parity
  /-- PRT_CL_CMA_MALFORMED, R270. -/
  | prtClCmaMalformed
  /-- PRT_CL_INT_STATUS, R271. -/
  | prtClIntStatus
  /-- PRT_CL_INT_EN, R271. -/
  | prtClIntEn
  /-- PRT_CL_SOFT, R271. -/
  | prtClSoft
  /-- TIR_CTRL, R310. -/
  | tirCtrl
  /-- TIR_STATUS, R310. -/
  | tirStatus
  /-- TIR_INT_STATUS, R311. -/
  | tirIntStatus
  /-- TIR_INT_EN, R311. -/
  | tirIntEn
  /-- TIR_LAST_ERR, R312. -/
  | tirLastErr
  /-- TIR_FILLS, R313. -/
  | tirFills
  /-- TIR_WRITEBACKS, R313. -/
  | tirWritebacks
  /-- TIR_MOVES, R313. -/
  | tirMoves
  /-- TIR_ERR_TIER, R313. -/
  | tirErrTier
  /-- TIR_ERR_UNCORR, R313. -/
  | tirErrUncorr
  /-- TIR_PARK_ERR, R313. -/
  | tirParkErr
  /-- TIR_WRITE_DROP, R313. -/
  | tirWriteDrop
  /-- TIR_RECOVERED, R313. -/
  | tirRecovered
  /-- TIR_IN_BYTES, R313. -/
  | tirInBytes
  /-- TIR_OUT_BYTES, R313. -/
  | tirOutBytes
  /-- TIR_TILE, R314. -/
  | tirTile
  /-- SRI_CTRL, R339. -/
  | sriCtrl
  /-- SRI_STATUS, R339. -/
  | sriStatus
  /-- SRI_WAY_OWNER, R340. -/
  | sriWayOwner
  /-- SRI_LOCK_WAYS, R339. -/
  | sriLockWays
  /-- SRI_INT_STATUS, R341. -/
  | sriIntStatus
  /-- SRI_INT_EN, R341. -/
  | sriIntEn
  /-- SRI_MAINT_ADDR, R342. -/
  | sriMaintAddr
  /-- SRI_MAINT_LEN, R342. -/
  | sriMaintLen
  /-- SRI_MAINT_CMD, R342. -/
  | sriMaintCmd
  /-- SRI_MAINT_STATUS, R342. -/
  | sriMaintStatus
  /-- SRI_MAINT_COUNT, R342. -/
  | sriMaintCount
  /-- SRI_MAINT_SETWAY, R342. -/
  | sriMaintSetway
  /-- SRI_HITS, R343. -/
  | sriHits
  /-- SRI_MISSES, R343. -/
  | sriMisses
  /-- SRI_MERGES, R343. -/
  | sriMerges
  /-- SRI_WRITEBACKS, R343. -/
  | sriWritebacks
  /-- SRI_DISCARD_DROPS, R343. -/
  | sriDiscardDrops
  /-- SRI_ENTRY_WAITS, R343. -/
  | sriEntryWaits
  /-- SRI_SLICE, R344. -/
  | sriSlice
  /-- SRI_DIR_CTRL, R409. -/
  | sriDirCtrl
  /-- SRI_DIR_INT_STATUS, R410. -/
  | sriDirIntStatus
  /-- SRI_DIR_INT_EN, R410. -/
  | sriDirIntEn
  /-- SRI_DIR_ADJ, R411. -/
  | sriDirAdj
  /-- SRI_DIR_DOMAIN_STATE, R412. -/
  | sriDirDomainState
  /-- SRI_DIR_DOMAIN_LOST, R412. -/
  | sriDirDomainLost
  /-- SRI_DIR_SNOOPS, R413. -/
  | sriDirSnoops
  /-- SRI_DIR_FORWARDS, R413. -/
  | sriDirForwards
  /-- SRI_DIR_FWD_MISS, R413. -/
  | sriDirFwdMiss
  /-- SRI_DIR_CONFLICTS, R413. -/
  | sriDirConflicts
  /-- SRI_DIR_BACKINV, R413. -/
  | sriDirBackinv
  /-- SRI_DIR_HOLD_WAITS, R413. -/
  | sriDirHoldWaits
  /-- SRI_DIR_LOST, R413. -/
  | sriDirLost
  /-- HBC_CFG, R373. -/
  | hbcCfg
  /-- HBC_STATUS, R373. -/
  | hbcStatus
  /-- HBC_SCRUB_CTRL, R374. -/
  | hbcScrubCtrl
  /-- HBC_SCRUB_STATUS, R374. -/
  | hbcScrubStatus
  /-- HBC_REPAIR_CTRL, R374. -/
  | hbcRepairCtrl
  /-- HBC_REPAIR_STATUS, R374. -/
  | hbcRepairStatus
  /-- HBC_CE_COUNT, R375. -/
  | hbcCeCount
  /-- HBC_UE_COUNT, R375. -/
  | hbcUeCount
  /-- HBC_ODECC_COUNT, R375. -/
  | hbcOdeccCount
  /-- HBC_SCRUB_CE, R375. -/
  | hbcScrubCe
  /-- HBC_SCRUB_UE, R375. -/
  | hbcScrubUe
  /-- HBC_RD_BYTES, R375. -/
  | hbcRdBytes
  /-- HBC_WR_BYTES, R375. -/
  | hbcWrBytes
  /-- HBC_ACT, R375. -/
  | hbcAct
  /-- HBC_TURN, R375. -/
  | hbcTurn
  /-- HBC_LAST_ERR, R376. -/
  | hbcLastErr
  /-- HBC_INT_STATUS, R377. -/
  | hbcIntStatus
  /-- HBC_INT_EN, R377. -/
  | hbcIntEn
  /-- HBC_GEOM, R378. -/
  | hbcGeom
  /-- HBC_GMAP, R378. -/
  | hbcGmap
  /-- NOC_CTRL, R449. -/
  | nocCtrl
  /-- NOC_INT_STATUS, R449. -/
  | nocIntStatus
  /-- NOC_INT_EN, R449. -/
  | nocIntEn
  /-- NOC_ERR_CE, R450. -/
  | nocErrCe
  /-- NOC_ERR_UE, R450. -/
  | nocErrUe
  /-- NOC_ERR_CRC, R450. -/
  | nocErrCrc
  /-- NOC_RSP_TIMEOUT, R450. -/
  | nocRspTimeout
  /-- NOC_LAST_ERR, R451. -/
  | nocLastErr
  /-- NOC_HIST_SEL, R452. -/
  | nocHistSel
  /-- NOC_HIST_BIN, R452. -/
  | nocHistBin
  /-- NOC_SEAM_WE, R452. -/
  | nocSeamWe
  /-- NOC_SEAM_EW, R452. -/
  | nocSeamEw
  /-- UCS_CTRL, R491. -/
  | ucsCtrl
  /-- UCS_STATUS, R491. -/
  | ucsStatus
  /-- UCS_MOD, R492. -/
  | ucsMod
  /-- UCS_DESC, R493. -/
  | ucsDesc
  /-- UCS_RX_MSG, R494. -/
  | ucsRxMsg
  /-- UCS_TX_MSG, R494. -/
  | ucsTxMsg
  /-- UCS_RETRY, R494. -/
  | ucsRetry
  /-- UCS_RETRAIN, R494. -/
  | ucsRetrain
  /-- UCS_PROTO_ERR, R494. -/
  | ucsProtoErr
  /-- UCS_BALE_TIMEOUT, R494. -/
  | ucsBaleTimeout
  /-- UCS_DISCARD, R494. -/
  | ucsDiscard
  /-- UCS_INT_STATUS, R495. -/
  | ucsIntStatus
  /-- UCS_INT_EN, R495. -/
  | ucsIntEn
  /-- UCS_LAST_ERR, R496. -/
  | ucsLastErr
  /-- HPF_ID, R537. -/
  | hpfId
  /-- HPF_STATUS, R537. -/
  | hpfStatus
  /-- HPF_BRINGUP, R655. -/
  | hpfBringup
  /-- HPF_WIN2_OFFSET, R538. -/
  | hpfWin2Offset
  /-- HPF_WIN4_OFFSET, R538. -/
  | hpfWin4Offset
  /-- HPF_ATTACH, R539. -/
  | hpfAttach
  /-- HPF_INT_STATUS, R540. -/
  | hpfIntStatus
  /-- HPF_INT_EN, R540. -/
  | hpfIntEn
  /-- HPF_TC_INV, R541. -/
  | hpfTcInv
  /-- HPF_TC_HITS, R542. -/
  | hpfTcHits
  /-- HPF_TC_MISSES, R542. -/
  | hpfTcMisses
  /-- HPF_TR_FAULTS, R542. -/
  | hpfTrFaults
  /-- HPF_MD_ABORTS, R542. -/
  | hpfMdAborts
  /-- HPF_BACKLOG_DROPS, R542. -/
  | hpfBacklogDrops
  /-- HPF_WR_DROP, R542. -/
  | hpfWrDrop
  /-- HPF_DENIED, R542. -/
  | hpfDenied
  /-- HPF_RD_POISONED, R542. -/
  | hpfRdPoisoned
  /-- HPF_FENCE, R432. -/
  | hpfFence
  /-- HPF_CMD_BUF, R550. -/
  | hpfCmdBuf
  /-- HPF_CMD, R550. -/
  | hpfCmd
  /-- HPF_CMD_STATUS, R550. -/
  | hpfCmdStatus
  /-- HPF_CMD_RESULT, R550. -/
  | hpfCmdResult
  /-- HPF_MBX_CTRL, R587. -/
  | hpfMbxCtrl
  /-- HPF_MBX_STATUS, R587. -/
  | hpfMbxStatus
  /-- HPF_MBX_LEN, R587. -/
  | hpfMbxLen
  /-- HPF_DB_TAIL, R555. -/
  | hpfDbTail
  /-- HPF_DB_EVT_HEAD, R555. -/
  | hpfDbEvtHead
  /-- HPF_DB_HEAD, R555. -/
  | hpfDbHead
  /-- HPF_DB_STATE, R555. -/
  | hpfDbState
  /-- HPF_RELAY_STATUS, R543. -/
  | hpfRelayStatus
  /-- HPF_RELAY_TX_BYTES, R543. -/
  | hpfRelayTxBytes
  /-- HPF_RELAY_RX_BYTES, R543. -/
  | hpfRelayRxBytes
  /-- HPF_RELAY_DROP, R543. -/
  | hpfRelayDrop
  /-- CUS_STATUS, R636. -/
  | cusStatus
  /-- CUS_SVN, R636. -/
  | cusSvn
  deriving DecidableEq, Repr

/-- One register: its name, the number of the block that holds it (engine, stack, site or function number,
otherwise 0) and its own number within the block (rule, partition, cluster, tile, page, otherwise 0). -/
structure Reg where
  name : RegName
  inst : Nat := 0
  idx  : Nat := 0
  deriving DecidableEq, Repr

end Sys2Proof
end

