-- ==== Sys2Proof/Ids.lean ====
section
/-!
DEFINITION. The names that commands and the state share: units, statuses, accessors, functions, links, reset causes.
-/
namespace Sys2Proof

/-- The status codes of R565. -/
inductive Status where
  | complete | late | aborted | tierError | uncorrectable | guardUnresolved | ownerGone | domainDown
  | translationFault | partitionReset | masterDisabled | licenceDenied
  deriving DecidableEq, Repr, Inhabited

/-- The code of a status (R565). -/
def Status.code : Status → Nat
  | .complete => 0 | .late => 1 | .aborted => 2 | .tierError => 3 | .uncorrectable => 4 | .guardUnresolved => 5
  | .ownerGone => 6 | .domainDown => 7 | .translationFault => 8 | .partitionReset => 9 | .masterDisabled => 10
  | .licenceDenied => 11

/-- The accessors of the object dictionary (R576): D0 and D1 to D8, the two management bindings, Customs. -/
inductive Accessor where
  | d (n : Fin 9)
  | mI3c | mPcie
  | customs
  deriving DecidableEq, Repr

/-- The INSTANCE of events about a staged set (0x0DE1, R594): 0 to 8 for D0 to D8, 9, 10, 11. -/
def Accessor.num : Accessor → Nat
  | .d n => n.val | .mI3c => 9 | .mPcie => 10 | .customs => 11

/-- The units that fire a mark (R49): tiles, engines, HBM controllers, sites, host ports, relay port, Customs. -/
inductive HubUnit where
  | tile (n : Fin 160)
  | engine (n : Fin 8)
  | hbm (n : Fin 8)
  | site (n : Fin 8)
  | hostPort (n : Fin 2)
  | relayPort
  | customs
  deriving DecidableEq, Repr

/-- A number for each unit that fires a mark. -/
def HubUnit.num : HubUnit → Nat
  | .tile n => n.val | .engine n => 160 + n.val | .hbm n => 168 + n.val | .site n => 176 + n.val
  | .hostPort n => 184 + n.val | .relayPort => 186 | .customs => 187

/-- A link of the host ports (R498): port 0 or 1, link A (0) or B (1). Its number is that of CONTROL_LINK (R580). -/
structure HLink where
  port : Fin 2
  b    : Fin 2
  deriving DecidableEq, Repr

def HLink.num (l : HLink) : Nat := l.port.val + 2 * l.b.val

/-- A function instance on the host ports: PF0 to PF8, or the PF0 view of a link (R499, R500). -/
inductive Func where
  | pf (n : Fin 9)
  | view (l : HLink)
  deriving DecidableEq, Repr

/-- The number under which a function's registers and state are kept: 0 to 8, and 9 to 12 for the views. -/
def Func.num : Func → Nat
  | .pf n => n.val | .view l => 9 + l.num

/-- Who issues an access: the rules give each issuer its own outcome (R36). -/
inductive Issuer where
  | core (n : Nat)          -- porter core
  | cma (cluster : Nat)
  | engine (n : Nat)
  | tier (tile : Nat)
  | host (fn : Nat)         -- host-port traffic of a function
  | copy (step : Nat)
  | relay
  | chiplet (site tag : Nat)
  | customs
  | hub
  deriving DecidableEq, Repr

/-- The types of a step (R558). -/
inductive StepType where
  | engine | porter | tier | copy | signal
  deriving DecidableEq, Repr

/-- The source classes of an event entry (R566). -/
inductive Source where
  | none | engine | porter | tier | copy | signal | hub
  deriving DecidableEq, Repr

def Source.code : Source → Nat
  | .none => 0 | .engine => 1 | .porter => 2 | .tier => 3 | .copy => 4 | .signal => 5 | .hub => 6

/-- The outcome of a fetch of host memory that the hub made: its data, or how it ended. -/
inductive Fetched where
  | data (bytes : List Byte)
  | error (st : Status)
  deriving DecidableEq, Repr

/-- Where a unit finishes cancelling a step (R61): an engine, a cluster, or a queue for its TIER and COPY steps. -/
inductive CancelUnit where
  | engine (e : Nat)
  | cluster (k : Nat)
  | queue (q : Nat)
  deriving DecidableEq, Repr

/-- What is unmasked or enabled (R512): MSI-X of the function, the function as a whole, one vector. -/
inductive MsixChange where
  | enable
  | function
  | vector (v : Nat)
  deriving DecidableEq, Repr

/-- A translation that an agent returned (R480, R517): the log2 of its page size, the translated address, the access it grants. -/
structure TransAnswer where
  log2  : Nat
  bus   : Nat
  read  : Bool
  write : Bool
  deriving DecidableEq, Repr

/-- What struck a core (R261): a parity error in a G or V register, or in a line of its L0 data cache or of its L0 instruction cache
(the address of the line / 64), a machine check with the failing structure's name in PRT_C_INFO, a failed self-test. -/
inductive CoreTrouble where
  | register
  | line (l : Nat)
  | codeLine (l : Nat)
  | machineCheck (what : BitVec 64)
  | selfTest
  deriving DecidableEq, Repr

/-- How a sector read of a stack ends (R362): no error, corrected, uncorrectable. -/
inductive SectorRead where
  | good | corrected | bad
  deriving DecidableEq, Repr

/-- Where a packet was lost (R451): network, freight plane, channel, router and port. -/
structure LostAt where
  net     : Nat
  plane   : Nat
  channel : Nat
  tile    : Nat
  port    : Nat
  deriving DecidableEq, Repr

/-- The packet that was lost (R444): the read data of a core's line, the write data of a core's line, a control message. -/
inductive LostPacket where
  | readData (n line : Nat)
  | writeData (n line : Nat)
  | control
  deriving DecidableEq, Repr

/-- What a fault in an engine's silicon did while a guard tile ran (R188 to R192): its vectors are counted from the tile's first. A physical column is 0 to 511, or 512 + k for spare column k; `hi` is the second logical
column that it carries (R145). The exact block sum of a column was off by a number (a cell, a weight as held, a segment adder); the FP32
total of a column was changed in some bits; the checksum column's own block sum was off; a column's own cell of the checksum row formed a
block contribution of which the image sum was off. -/
inductive Flaw where
  | blockSum (col : Nat) (hi : Bool) (vec blk : Nat) (delta : Int)
  | total (col : Nat) (hi : Bool) (vec : Nat) (mask : BitVec 32)
  | checkSum (vec blk : Nat) (delta : Int)
  | checkCell (col : Nat) (hi : Bool) (vec blk : Nat) (delta : Int)
  deriving DecidableEq, Repr

/-- By how much the exact block sum that a physical column gives for the checksum vector of a localizing rerun is off (R196). -/
structure FeedFlaw where
  col : Nat
  hi : Bool
  blk : Nat
  delta : Int
  deriving DecidableEq, Repr

/-- A line whose request reaches its stack's controller by one of the four attachment ports (R30). -/
structure PortLine where
  line : Nat
  port : Fin 4
  deriving DecidableEq, Repr

/-- Who holds an SPDM session (R632): the DOE of a link's function 0, or an MCTP binding. -/
inductive SpdmPath where
  | doe (link : Nat)
  | mctp (pcie : Bool)
  deriving DecidableEq, Repr

/-- An SPDM request of Customs (R629 to R632): GET_VERSION, GET_MEASUREMENTS of an index, the opening and the end of a session, any
other request. -/
inductive SpdmReq where
  | getVersion
  | measurement (index : Nat)
  | openSession
  | endSession
  | other (code : Nat)
  deriving DecidableEq, Repr

/-- A write of a function's host that no other command stands for: bytes to BAR0; in configuration space, Memory Space Enable and SERR#
Enable of Command, the base of a BAR, the size of a resizable BAR, MSI-X Enable and Function Mask, ATS Enable and PASID Enable set (R502,
R503, R505). -/
inductive HostChange where
  | bar0 (off : Nat) (bytes : List Byte)
  | command (mse serr : Bool)
  | barBase (bar base : Nat)
  | barSize (bar log2 : Nat)
  | msixControl (enable mask : Bool)
  | atsOn
  | pasidOn
  deriving DecidableEq, Repr

/-- A read that no other command stands for: bytes of a function's BAR0 or configuration space by its host, or, by the root of the
relay, bytes of the configuration space of a hub in the endpoint role. -/
inductive HostProbe where
  | bar0 (off len : Nat)
  | config (off len : Nat)
  | relay (off len : Nat)
  deriving DecidableEq, Repr

end Sys2Proof
end

