-- ==== Sys2Proof/Config.lean ====
section
/-!
DEFINITION. What the manual leaves open: the free values, constants with no body, so that no proof can see them.
A meaning applies each to the model's own counter, which advances at every draw, so that each drawing may differ; or
to the operands the value depends on.
-/
namespace Sys2Proof.Config

/-- Content of a byte of a granule whose content is not defined (R355, R372): the number of the draw and the
byte's address. -/
opaque undefByte : Nat → Nat → BitVec 8

/-- The data that a chiplet holds in a line it owns, where a unit of the hub reaches the line at one instant
(R390, R392): whether it is dirty, and the data. -/
opaque ownerDirty : Nat → Bool
opaque ownerLine : Nat → BitVec 1024

/-- A free line of data, where the manual says that content is not defined (R60, R322). -/
opaque undefLine : Nat → BitVec 1024

/-- A free number. -/
opaque freeNat : Nat → Nat

/-- What a count of latencies or of packets has come to (R447, R448), by the number of the draw and the register: the model
follows neither. -/
opaque traffic : Nat → Nat → Nat

/-- Bits drawn by the hub's random source (the nonce of R611 and R629). -/
opaque freeBits64 : Nat → BitVec 64

/-- A free 64-bit word: the content of a byte range or register that the manual leaves undefined. -/
opaque undefWord : Nat → BitVec 64

/-- The bytes of a porter core's boot ROM (R214), which the manual does not give. -/
opaque romByte : Nat → BitVec 8

/-- The adapter has acknowledged every flit of a home's messages on an old order module by now (R485). -/
opaque flitsAcked : Nat → Bool

/-- Data reaches its initiator at or after its deadline (R67). -/
opaque arrivesLate : Nat → Bool

/-- A status that the manual does not name. -/
opaque freeStatus : Nat → Status

/-- Where the Waybill places a block of registers (R530, R531), as an offset in the register aperture, and its size: the
manual gives neither. The key is the TYPE of the entry × 16 and its INSTANCE. -/
opaque blockBase : Nat → Nat
opaque blockSize : Nat → Nat

/-- SHA-384 and the ECDSA signature check over NIST P-384 (R610, R619), whose definitions stand outside the manual: the
digest of a message; whether a signature of a message passes under a public key. -/
opaque sha384 : List (BitVec 8) → List (BitVec 8)
opaque ecdsaOk : List (BitVec 8) → List (BitVec 8) → List (BitVec 8) → Bool

/-- The bytes that measurement block 6 digests (R630): life-cycle state and minimum SVNs. -/
opaque lifeBytes : Nat → Nat → Nat → List (BitVec 8)

/-- The bytes of an SPDM response (R629) that the manual does not give. -/
opaque spdmBytes : Nat → List (BitVec 8)

/-- A byte of configuration space that the manual leaves to PCIe (R502, R503): function and offset. -/
opaque configByte : Nat → Nat → BitVec 8

end Sys2Proof.Config
end

