-- ==== Sys2Proof/Machine/Attach.lean ====
section
/-!
DEFINITION. Where the blocks outside the tiles attach to the mesh (R26 to R31): attach tiles, attachment ports, the ports of a router
that have a link.
-/
namespace Sys2Proof.Machine

/-- A block that reaches the networks through attachment ports (R28). -/
inductive Attach where
  | hbm (h : Nat) | engine (e : Nat) | site (k : Nat) | customs | management | hostPort (p : Nat) | relay
  deriving DecidableEq, Repr

/-- The tile T(x,y) by its number 16y + x. -/
def tileNo (x y : Nat) : Nat := 16 * y + x
def tileCol (t : Nat) : Nat := t % 16
def tileRow (t : Nat) : Nat := t / 16

/-- The column of a block's attach tile in the half of the block: an East block sits at the mirror position of its West counterpart
(R28). -/
def halfCol (east : Bool) (x : Nat) : Nat := if east then 15 - x else x

/-- The attach tiles of a block, each at one attachment port; the number of a port is its place in this list (R28). -/
def attachTiles : Attach → List Nat
  | .hbm h =>
    let cols := if h < 4 then (span (4 * (h % 2)) 4) else (span (4 * (h % 2)) 4).reverse.map (fun x => 15 - x)
    cols.map (fun x => tileNo x (if h % 4 < 2 then 0 else 9))
  | .engine e => (span (1 + 2 * (e % 4)) 2).map (fun y => tileNo (halfCol (decide (4 ≤ e)) 0) y)
  | .site k => [tileNo (halfCol (decide (4 ≤ k)) 1) (match k % 4 with | 0 => 1 | 1 => 3 | 2 => 6 | _ => 8)]
  | .customs => [tileNo 2 4]
  | .management => [tileNo 2 5]
  | .hostPort p => [tileNo (halfCol (p == 1) 3) 4]
  | .relay => [tileNo 3 5]

/-- Every block that attaches to the mesh. -/
def attachBlocks : List Attach :=
  (span 0 8).map Attach.hbm ++ (span 0 8).map Attach.engine ++ (span 0 8).map Attach.site ++
  [.customs, .management, .hostPort 0, .hostPort 1, .relay]

/-- The block that the attachment port of a tile serves, if any (R27, R28). -/
def attachedAt (t : Nat) : Option Attach := attachBlocks.find? (fun b => (attachTiles b).contains t)

/-- A port of a router (R451): North, South, East, West, the tile port, the attachment port. -/
def portHasLink (t port : Nat) : Bool :=
  match port with
  | 0 => decide (tileRow t < 9) | 1 => decide (0 < tileRow t) | 2 => decide (tileCol t < 15) | 3 => decide (0 < tileCol t)
  | 4 => true
  | 5 => (attachedAt t).isSome
  | _ => false

/-- A place where a packet can be lost (R27, R451): a network, a freight plane, a channel that occurs, a router and a port of it that
carries traffic. -/
def placeOccurs (x : LostAt) : Bool :=
  decide (x.net < 2) && decide (x.plane < 2) && decide (x.channel ≤ 5) && decide (x.tile < 160) && portHasLink x.tile x.port

/-- Hop count of two tiles: the mesh distance. -/
def absDiff (a b : Nat) : Nat := (a - b) + (b - a)
def tileDist (a b : Nat) : Nat := absDiff (tileCol a) (tileCol b) + absDiff (tileRow a) (tileRow b)

/-- The attach tile of a site. -/
def siteTile (k : Nat) : Nat := (attachTiles (.site k)).headD 0

/-- The hop count between two sites' attach tiles (R394). -/
def siteDist (a b : Nat) : Nat := tileDist (siteTile a) (siteTile b)

/-- Two sites are adjacent (R31). -/
def sitesAdjacent (a b : Nat) : Bool := decide (absDiff a b = 1) && decide (a / 4 = b / 4) && decide (a < 8) && decide (b < 8)

end Sys2Proof.Machine
end

