-- ==== Sys2Proof/Machine/RegTable.lean ====
section
/-!
DEFINITION. The register tables: for each register its block, offset, spacing, count, width and fields, with the
access code and the reset value of each field (R12, and the rule named at each register in RegNames.lean).
Reserved bits carry no field: they read 0 and ignore writes (R16).
-/
namespace Sys2Proof.Machine

/-- The access codes of R12, without LK, which a field may carry besides one of these. -/
inductive Access where
  | ro | rw | w1c | wo | rc | st
  deriving DecidableEq, Repr

/-- One field of a register: its high and low bit, its access code, whether it carries LK, and its reset value. -/
structure RegField where
  hi  : Nat
  lo  : Nat
  acc : Access
  lk  : Bool
  rst : Nat
  deriving DecidableEq, Repr

/-- One entry of the register tables. -/
structure RegSpec where
  block  : Block
  off    : Nat
  stride : Nat
  count  : Nat
  width  : Nat
  fields : List RegField
  deriving DecidableEq, Repr

/-- The register tables of the manual. -/
def regSpec : RegName → RegSpec
  | .stgPeriod => ⟨.stg, 0x0, 0, 1, 32, [⟨3, 0, .st, false, 6⟩]⟩
  | .stgNumber => ⟨.stg, 0x8, 0, 1, 64, [⟨63, 0, .ro, false, 0⟩]⟩
  | .stgMarkTime => ⟨.stg, 0x10, 0, 1, 64, [⟨63, 0, .ro, false, 0⟩]⟩
  | .stgHubTime => ⟨.stg, 0x18, 0, 1, 64, [⟨63, 0, .ro, false, 0⟩]⟩
  | .stgStatus => ⟨.stg, 0x20, 0, 1, 32, [⟨7, 7, .w1c, false, 0⟩, ⟨6, 6, .w1c, false, 0⟩, ⟨5, 5, .ro, false, 0⟩, ⟨4, 4, .ro, false, 0⟩, ⟨3, 0, .ro, false, 0⟩]⟩
  | .stgLateSteps => ⟨.stg, 0x28, 0, 1, 32, [⟨31, 0, .rc, false, 0⟩]⟩
  | .stgSkewMax => ⟨.stg, 0x2C, 0, 1, 32, [⟨15, 0, .rc, false, 0⟩]⟩
  | .stgIntEn => ⟨.stg, 0x30, 0, 1, 32, [⟨1, 1, .rw, false, 0⟩, ⟨0, 0, .rw, false, 0⟩]⟩
  | .tolRuleMatch => ⟨.tol, 0x1000, 0x10, 576, 64, [⟨31, 31, .st, false, 0⟩, ⟨30, 28, .st, false, 0⟩, ⟨23, 12, .st, false, 0⟩, ⟨11, 0, .st, false, 0⟩]⟩
  | .tolRuleBudget => ⟨.tol, 0x1008, 0x10, 576, 64, [⟨51, 32, .st, false, 0xFFFFF⟩, ⟨19, 0, .st, false, 0⟩]⟩
  | .tolMissCount => ⟨.tol, 0x4000, 0x40, 9, 32, [⟨31, 0, .rc, false, 0⟩]⟩
  | .tolLateReads => ⟨.tol, 0x4004, 0x40, 9, 32, [⟨31, 0, .rc, false, 0⟩]⟩
  | .tolLateWrites => ⟨.tol, 0x4008, 0x40, 9, 32, [⟨31, 0, .rc, false, 0⟩]⟩
  | .tolLateDelivered => ⟨.tol, 0x400C, 0x40, 9, 32, [⟨31, 0, .rc, false, 0⟩]⟩
  | .tolMissFirst => ⟨.tol, 0x4010, 0x40, 9, 64, [⟨63, 63, .w1c, false, 0⟩, ⟨47, 36, .ro, false, 0⟩, ⟨35, 32, .ro, false, 0⟩, ⟨31, 0, .ro, false, 0⟩]⟩
  | .tolIntStatus => ⟨.tol, 0x4018, 0x40, 9, 32, [⟨1, 1, .w1c, false, 0⟩, ⟨0, 0, .w1c, false, 0⟩]⟩
  | .tolIntEn => ⟨.tol, 0x401C, 0x40, 9, 32, [⟨1, 1, .rw, false, 0⟩, ⟨0, 0, .rw, false, 0⟩]⟩
  | .tolProbeSel => ⟨.tol, 0x5000, 0, 1, 32, [⟨11, 0, .rw, false, 0⟩]⟩
  | .tolProbeData => ⟨.tol, 0x5008, 0, 1, 64, [⟨63, 54, .ro, false, 0x3FF⟩, ⟨47, 24, .ro, false, 0⟩, ⟨0, 0, .ro, false, 0⟩]⟩
  | .mecId => ⟨.mec, 0x0, 0, 1, 32, [⟨2, 0, .ro, false, 0⟩]⟩
  | .mecCtrl => ⟨.mec, 0x4, 0, 1, 32, [⟨1, 1, .rw, false, 0⟩, ⟨0, 0, .rw, false, 1⟩]⟩
  | .mecStatus => ⟨.mec, 0x8, 0, 1, 32, [⟨23, 20, .ro, false, 0xF⟩, ⟨19, 16, .ro, false, 0xF⟩, ⟨10, 8, .ro, false, 0⟩, ⟨7, 7, .ro, false, 0⟩, ⟨6, 6, .ro, false, 0⟩, ⟨5, 5, .ro, false, 0⟩, ⟨4, 4, .ro, false, 0⟩, ⟨3, 3, .ro, false, 0⟩]⟩
  | .mecSlotMap => ⟨.mec, 0x10, 0, 1, 64, [⟨63, 0, .ro, false, 0xFFFFFFFFFFFFFFFF⟩]⟩
  | .mecAccMap => ⟨.mec, 0x18, 0, 1, 32, [⟨31, 0, .ro, false, 0xFFFFFFFF⟩]⟩
  | .mecSlotCtrl => ⟨.mec, 0x20, 0, 1, 32, [⟨0, 0, .st, false, 0⟩]⟩
  | .mecSpare => ⟨.mec, 0x30, 0x4, 4, 32, [⟨31, 31, .ro, false, 0⟩, ⟨8, 0, .ro, false, 0⟩]⟩
  | .mecDescDone => ⟨.mec, 0x40, 0, 1, 32, [⟨31, 0, .rc, false, 0⟩]⟩
  | .mecBusyClk => ⟨.mec, 0x48, 0, 1, 64, [⟨63, 0, .rc, false, 0⟩]⟩
  | .mecLoadStallClk => ⟨.mec, 0x50, 0, 1, 64, [⟨63, 0, .rc, false, 0⟩]⟩
  | .mecSlotOverrun => ⟨.mec, 0x58, 0, 1, 32, [⟨31, 0, .rc, false, 0⟩]⟩
  | .mecConvNan => ⟨.mec, 0x60, 0, 1, 32, [⟨31, 0, .rc, false, 0⟩]⟩
  | .mecConvInf => ⟨.mec, 0x64, 0, 1, 32, [⟨31, 0, .rc, false, 0⟩]⟩
  | .mecConvOvf => ⟨.mec, 0x68, 0, 1, 32, [⟨31, 0, .rc, false, 0⟩]⟩
  | .mecFmtErr => ⟨.mec, 0x6C, 0, 1, 32, [⟨31, 0, .rc, false, 0⟩]⟩
  | .mecCurDesc => ⟨.mec, 0x70, 0, 1, 64, [⟨51, 7, .ro, false, 0⟩]⟩
  | .mecIntStatus => ⟨.mec, 0x80, 0, 1, 32, [⟨2, 2, .w1c, false, 0⟩, ⟨1, 1, .w1c, false, 0⟩, ⟨0, 0, .w1c, false, 0⟩]⟩
  | .mecIntEn => ⟨.mec, 0x84, 0, 1, 32, [⟨2, 2, .rw, false, 0⟩, ⟨1, 1, .rw, false, 0⟩, ⟨0, 0, .rw, false, 0⟩]⟩
  | .mecWbCtrl => ⟨.mec, 0x100, 0, 1, 32, [⟨0, 0, .rw, false, 0⟩]⟩
  | .mecWbStatus => ⟨.mec, 0x104, 0, 1, 32, [⟨4, 3, .ro, false, 0⟩, ⟨2, 2, .ro, false, 0⟩, ⟨1, 1, .ro, false, 0⟩, ⟨0, 0, .ro, false, 0⟩]⟩
  | .mecWbIntStatus => ⟨.mec, 0x108, 0, 1, 32, [⟨3, 3, .w1c, false, 0⟩, ⟨2, 2, .w1c, false, 0⟩, ⟨1, 1, .w1c, false, 0⟩, ⟨0, 0, .w1c, false, 0⟩]⟩
  | .mecWbIntEn => ⟨.mec, 0x10C, 0, 1, 32, [⟨3, 3, .rw, false, 0⟩, ⟨2, 2, .rw, false, 0⟩, ⟨1, 1, .rw, false, 0⟩, ⟨0, 0, .rw, false, 0⟩]⟩
  | .mecWbColTrip => ⟨.mec, 0x110, 0, 1, 32, [⟨31, 0, .rc, false, 0⟩]⟩
  | .mecWbRowTrip => ⟨.mec, 0x114, 0, 1, 32, [⟨31, 0, .rc, false, 0⟩]⟩
  | .mecWbTransient => ⟨.mec, 0x118, 0, 1, 32, [⟨31, 0, .rc, false, 0⟩]⟩
  | .mecWbRemap => ⟨.mec, 0x11C, 0, 1, 32, [⟨31, 0, .rc, false, 0⟩]⟩
  | .mecWbUnresolved => ⟨.mec, 0x120, 0, 1, 32, [⟨31, 0, .rc, false, 0⟩]⟩
  | .mecWbNarrowTiles => ⟨.mec, 0x124, 0, 1, 32, [⟨31, 0, .rc, false, 0⟩]⟩
  | .mecWbEscalated => ⟨.mec, 0x128, 0, 1, 32, [⟨31, 0, .rc, false, 0⟩]⟩
  | .mecWbSentInf => ⟨.mec, 0x12C, 0, 1, 32, [⟨31, 0, .rc, false, 0⟩]⟩
  | .mecWbSentNan => ⟨.mec, 0x130, 0, 1, 32, [⟨31, 0, .rc, false, 0⟩]⟩
  | .mecWbSentThresh => ⟨.mec, 0x134, 0, 1, 32, [⟨31, 0, .rc, false, 0⟩]⟩
  | .mecWbUnchecked => ⟨.mec, 0x138, 0, 1, 32, [⟨31, 0, .rc, false, 0⟩]⟩
  | .mecWbLast => ⟨.mec, 0x140, 0, 1, 64, [⟨63, 63, .w1c, false, 0⟩, ⟨62, 60, .ro, false, 0⟩, ⟨57, 48, .ro, false, 0x3FF⟩, ⟨44, 40, .ro, false, 0⟩, ⟨39, 32, .ro, false, 0⟩, ⟨31, 0, .ro, false, 0⟩]⟩
  | .prtBootCtrl => ⟨.prt, 0x0, 0, 1, 32, [⟨23, 16, .rw, false, 2⟩, ⟨10, 0, .rw, false, 0x64⟩]⟩
  | .prtBootStatus => ⟨.prt, 0x4, 0, 1, 32, [⟨26, 16, .ro, false, 0⟩, ⟨10, 0, .ro, false, 0⟩]⟩
  | .prtClStatus => ⟨.prt, 0x10000, 0x100, 1600, 32, [⟨23, 20, .ro, false, 0xF⟩, ⟨19, 16, .ro, false, 0⟩, ⟨11, 8, .ro, false, 0⟩, ⟨7, 7, .ro, false, 0⟩, ⟨6, 6, .ro, false, 0⟩, ⟨5, 5, .ro, false, 0⟩, ⟨4, 4, .ro, false, 0⟩, ⟨3, 3, .ro, false, 0⟩, ⟨0, 0, .ro, false, 0⟩]⟩
  | .prtClRole => ⟨.prt, 0x10004, 0x100, 1600, 32, [⟨2, 0, .st, false, 0⟩]⟩
  | .prtClCoreState => ⟨.prt, 0x10008, 0x100, 1600, 32, [⟨31, 0, .ro, false, 0⟩]⟩
  | .prtClSteps => ⟨.prt, 0x10010, 0x100, 1600, 32, [⟨31, 0, .rc, false, 0⟩]⟩
  | .prtClCancels => ⟨.prt, 0x10014, 0x100, 1600, 32, [⟨31, 0, .rc, false, 0⟩]⟩
  | .prtClCmaBusy => ⟨.prt, 0x10018, 0x100, 1600, 64, [⟨63, 0, .rc, false, 0⟩]⟩
  | .prtClConvExc => ⟨.prt, 0x10020, 0x100, 1600, 32, [⟨31, 0, .rc, false, 0⟩]⟩
  | .prtClL0Parity => ⟨.prt, 0x10024, 0x100, 1600, 32, [⟨31, 0, .rc, false, 0⟩]⟩
  | .prtClCmaMalformed => ⟨.prt, 0x10028, 0x100, 1600, 32, [⟨31, 0, .rc, false, 0⟩]⟩
  | .prtClIntStatus => ⟨.prt, 0x10030, 0x100, 1600, 32, [⟨3, 3, .w1c, false, 0⟩, ⟨2, 2, .w1c, false, 0⟩, ⟨1, 1, .w1c, false, 0⟩]⟩
  | .prtClIntEn => ⟨.prt, 0x10034, 0x100, 1600, 32, [⟨3, 1, .rw, false, 0⟩]⟩
  | .prtClSoft => ⟨.prt, 0x10038, 0x100, 1600, 32, [⟨15, 0, .wo, false, 0⟩]⟩
  | .tirCtrl => ⟨.tir, 0x0, 0, 1, 32, [⟨3, 1, .st, false, 7⟩]⟩
  | .tirStatus => ⟨.tir, 0x4, 0, 1, 32, [⟨0, 0, .ro, false, 0⟩]⟩
  | .tirIntStatus => ⟨.tir, 0x10, 0, 1, 32, [⟨3, 3, .w1c, false, 0⟩, ⟨2, 2, .w1c, false, 0⟩, ⟨1, 1, .w1c, false, 0⟩, ⟨0, 0, .w1c, false, 0⟩]⟩
  | .tirIntEn => ⟨.tir, 0x14, 0, 1, 32, [⟨3, 0, .rw, false, 0⟩]⟩
  | .tirLastErr => ⟨.tir, 0x20, 0, 1, 64, [⟨63, 63, .w1c, false, 0⟩, ⟨55, 48, .ro, false, 0⟩, ⟨47, 44, .ro, false, 0⟩, ⟨43, 42, .ro, false, 0⟩, ⟨25, 0, .ro, false, 0⟩]⟩
  | .tirFills => ⟨.tir, 0x1000, 0x40, 9, 32, [⟨31, 0, .rc, false, 0⟩]⟩
  | .tirWritebacks => ⟨.tir, 0x1004, 0x40, 9, 32, [⟨31, 0, .rc, false, 0⟩]⟩
  | .tirMoves => ⟨.tir, 0x1008, 0x40, 9, 32, [⟨31, 0, .rc, false, 0⟩]⟩
  | .tirErrTier => ⟨.tir, 0x100C, 0x40, 9, 32, [⟨31, 0, .rc, false, 0⟩]⟩
  | .tirErrUncorr => ⟨.tir, 0x1010, 0x40, 9, 32, [⟨31, 0, .rc, false, 0⟩]⟩
  | .tirParkErr => ⟨.tir, 0x1014, 0x40, 9, 32, [⟨31, 0, .rc, false, 0⟩]⟩
  | .tirWriteDrop => ⟨.tir, 0x1018, 0x40, 9, 32, [⟨31, 0, .rc, false, 0⟩]⟩
  | .tirRecovered => ⟨.tir, 0x101C, 0x40, 9, 32, [⟨31, 0, .rc, false, 0⟩]⟩
  | .tirInBytes => ⟨.tir, 0x1020, 0x40, 9, 64, [⟨63, 0, .rc, false, 0⟩]⟩
  | .tirOutBytes => ⟨.tir, 0x1028, 0x40, 9, 64, [⟨63, 0, .rc, false, 0⟩]⟩
  | .tirTile => ⟨.tir, 0x2000, 0x8, 160, 64, [⟨47, 32, .ro, false, 0⟩, ⟨27, 24, .ro, false, 0⟩, ⟨11, 0, .ro, false, 0⟩]⟩
  | .sriCtrl => ⟨.sri, 0x0, 0, 1, 32, [⟨4, 0, .st, false, 0xC⟩]⟩
  | .sriStatus => ⟨.sri, 0x4, 0, 1, 32, [⟨1, 1, .ro, false, 0⟩, ⟨0, 0, .ro, false, 0⟩]⟩
  | .sriWayOwner => ⟨.sri, 0x8, 0, 1, 64, [⟨63, 0, .ro, false, 0xEFFFFFFFFFFFFFFF⟩]⟩
  | .sriLockWays => ⟨.sri, 0x10, 0, 1, 32, [⟨15, 0, .ro, false, 0⟩]⟩
  | .sriIntStatus => ⟨.sri, 0x20, 0, 1, 32, [⟨2, 2, .w1c, false, 0⟩, ⟨1, 1, .w1c, false, 0⟩, ⟨0, 0, .w1c, false, 0⟩]⟩
  | .sriIntEn => ⟨.sri, 0x24, 0, 1, 32, [⟨2, 0, .rw, false, 0⟩]⟩
  | .sriMaintAddr => ⟨.sri, 0x1000, 0x40, 9, 64, [⟨51, 0, .rw, false, 0⟩]⟩
  | .sriMaintLen => ⟨.sri, 0x1008, 0x40, 9, 64, [⟨51, 0, .rw, false, 0⟩]⟩
  | .sriMaintCmd => ⟨.sri, 0x1010, 0x40, 9, 32, [⟨31, 31, .wo, false, 0⟩, ⟨4, 4, .rw, false, 0⟩, ⟨2, 0, .rw, false, 0⟩]⟩
  | .sriMaintStatus => ⟨.sri, 0x1014, 0x40, 9, 32, [⟨11, 8, .ro, false, 0⟩, ⟨0, 0, .ro, false, 0⟩]⟩
  | .sriMaintCount => ⟨.sri, 0x1018, 0x40, 9, 64, [⟨63, 32, .ro, false, 0⟩, ⟨31, 0, .ro, false, 0⟩]⟩
  | .sriMaintSetway => ⟨.sri, 0x1020, 0x40, 9, 64, [⟨63, 48, .rw, false, 0⟩, ⟨39, 32, .rw, false, 0xFF⟩, ⟨25, 16, .rw, false, 0x3FF⟩, ⟨9, 0, .rw, false, 0⟩]⟩
  | .sriHits => ⟨.sri, 0x2000, 0x40, 9, 64, [⟨63, 0, .rc, false, 0⟩]⟩
  | .sriMisses => ⟨.sri, 0x2008, 0x40, 9, 64, [⟨63, 0, .rc, false, 0⟩]⟩
  | .sriMerges => ⟨.sri, 0x2010, 0x40, 9, 32, [⟨31, 0, .rc, false, 0⟩]⟩
  | .sriWritebacks => ⟨.sri, 0x2014, 0x40, 9, 32, [⟨31, 0, .rc, false, 0⟩]⟩
  | .sriDiscardDrops => ⟨.sri, 0x2018, 0x40, 9, 32, [⟨31, 0, .rc, false, 0⟩]⟩
  | .sriEntryWaits => ⟨.sri, 0x201C, 0x40, 9, 32, [⟨31, 0, .rc, false, 0⟩]⟩
  | .sriSlice => ⟨.sri, 0x4000, 0x8, 160, 64, [⟨51, 48, .ro, false, 0⟩, ⟨47, 32, .ro, false, 0⟩, ⟨14, 14, .ro, false, 0⟩, ⟨13, 8, .ro, false, 0⟩, ⟨7, 0, .ro, false, 0⟩]⟩
  | .sriDirCtrl => ⟨.sri, 0x6000, 0, 1, 64, [⟨42, 42, .st, false, 0⟩, ⟨41, 32, .st, false, 0x64⟩, ⟨26, 16, .st, false, 0x10⟩, ⟨6, 0, .st, false, 4⟩]⟩
  | .sriDirIntStatus => ⟨.sri, 0x6010, 0, 1, 32, [⟨3, 3, .w1c, false, 0⟩, ⟨2, 2, .w1c, false, 0⟩, ⟨1, 1, .w1c, false, 0⟩, ⟨0, 0, .w1c, false, 0⟩]⟩
  | .sriDirIntEn => ⟨.sri, 0x6014, 0, 1, 32, [⟨3, 0, .rw, false, 0⟩]⟩
  | .sriDirAdj => ⟨.sri, 0x6040, 0x8, 8, 64, [⟨63, 0, .st, false, 0⟩]⟩
  | .sriDirDomainState => ⟨.sri, 0x6100, 0x20, 4, 64, [⟨63, 56, .ro, false, 0⟩, ⟨55, 47, .ro, false, 0⟩, ⟨46, 44, .ro, false, 0⟩, ⟨43, 41, .ro, false, 0⟩, ⟨40, 40, .ro, false, 0⟩, ⟨34, 32, .ro, false, 0⟩, ⟨31, 0, .ro, false, 0⟩]⟩
  | .sriDirDomainLost => ⟨.sri, 0x6108, 0x20, 4, 64, [⟨63, 63, .w1c, false, 0⟩, ⟨44, 0, .ro, false, 0⟩]⟩
  | .sriDirSnoops => ⟨.sri, 0x6200, 0x40, 4, 64, [⟨63, 0, .rc, false, 0⟩]⟩
  | .sriDirForwards => ⟨.sri, 0x6208, 0x40, 4, 32, [⟨31, 0, .rc, false, 0⟩]⟩
  | .sriDirFwdMiss => ⟨.sri, 0x620C, 0x40, 4, 32, [⟨31, 0, .rc, false, 0⟩]⟩
  | .sriDirConflicts => ⟨.sri, 0x6210, 0x40, 4, 32, [⟨31, 0, .rc, false, 0⟩]⟩
  | .sriDirBackinv => ⟨.sri, 0x6214, 0x40, 4, 32, [⟨31, 0, .rc, false, 0⟩]⟩
  | .sriDirHoldWaits => ⟨.sri, 0x6218, 0x40, 4, 32, [⟨31, 0, .rc, false, 0⟩]⟩
  | .sriDirLost => ⟨.sri, 0x621C, 0x40, 4, 32, [⟨31, 0, .rc, false, 0⟩]⟩
  | .hbcCfg => ⟨.hbc, 0x0, 0, 1, 32, [⟨11, 8, .ro, false, 0⟩, ⟨2, 2, .ro, false, 0⟩, ⟨1, 1, .ro, false, 0⟩, ⟨0, 0, .ro, false, 0⟩]⟩
  | .hbcStatus => ⟨.hbc, 0x4, 0, 1, 32, [⟨2, 2, .ro, false, 0⟩, ⟨1, 1, .ro, false, 0⟩, ⟨0, 0, .ro, false, 0⟩]⟩
  | .hbcScrubCtrl => ⟨.hbc, 0x10, 0, 1, 32, [⟨31, 31, .rw, false, 1⟩, ⟨15, 0, .rw, false, 0x18⟩]⟩
  | .hbcScrubStatus => ⟨.hbc, 0x14, 0, 1, 32, [⟨31, 16, .ro, false, 0⟩, ⟨9, 0, .ro, false, 0⟩]⟩
  | .hbcRepairCtrl => ⟨.hbc, 0x18, 0, 1, 32, [⟨8, 8, .rw, false, 1⟩, ⟨7, 0, .rw, false, 8⟩]⟩
  | .hbcRepairStatus => ⟨.hbc, 0x1C, 0, 1, 32, [⟨31, 21, .ro, false, 0⟩, ⟨20, 10, .ro, false, 0⟩, ⟨9, 0, .ro, false, 0⟩]⟩
  | .hbcCeCount => ⟨.hbc, 0x20, 0, 1, 32, [⟨31, 0, .rc, false, 0⟩]⟩
  | .hbcUeCount => ⟨.hbc, 0x24, 0, 1, 32, [⟨31, 0, .rc, false, 0⟩]⟩
  | .hbcOdeccCount => ⟨.hbc, 0x28, 0, 1, 32, [⟨31, 0, .rc, false, 0⟩]⟩
  | .hbcScrubCe => ⟨.hbc, 0x2C, 0, 1, 32, [⟨31, 0, .rc, false, 0⟩]⟩
  | .hbcScrubUe => ⟨.hbc, 0x30, 0, 1, 32, [⟨31, 0, .rc, false, 0⟩]⟩
  | .hbcRdBytes => ⟨.hbc, 0x40, 0, 1, 64, [⟨63, 0, .rc, false, 0⟩]⟩
  | .hbcWrBytes => ⟨.hbc, 0x48, 0, 1, 64, [⟨63, 0, .rc, false, 0⟩]⟩
  | .hbcAct => ⟨.hbc, 0x50, 0, 1, 64, [⟨63, 0, .rc, false, 0⟩]⟩
  | .hbcTurn => ⟨.hbc, 0x58, 0, 1, 64, [⟨63, 0, .rc, false, 0⟩]⟩
  | .hbcLastErr => ⟨.hbc, 0x60, 0, 1, 64, [⟨63, 63, .w1c, false, 0⟩, ⟨62, 60, .ro, false, 0⟩, ⟨59, 54, .ro, false, 0⟩, ⟨53, 50, .ro, false, 0⟩, ⟨49, 48, .ro, false, 0⟩, ⟨47, 32, .ro, false, 0⟩, ⟨31, 0, .ro, false, 0⟩]⟩
  | .hbcIntStatus => ⟨.hbc, 0x70, 0, 1, 32, [⟨4, 4, .w1c, false, 0⟩, ⟨3, 3, .w1c, false, 0⟩, ⟨2, 2, .w1c, false, 0⟩, ⟨1, 1, .w1c, false, 0⟩, ⟨0, 0, .w1c, false, 0⟩]⟩
  | .hbcIntEn => ⟨.hbc, 0x74, 0, 1, 32, [⟨4, 0, .rw, false, 0⟩]⟩
  | .hbcGeom => ⟨.hbcCommon, 0x0, 0, 1, 32, [⟨19, 10, .ro, false, 0⟩, ⟨9, 0, .ro, false, 0⟩]⟩
  | .hbcGmap => ⟨.hbcCommon, 0x1000, 0x8, 512, 64, [⟨63, 63, .ro, false, 0⟩, ⟨33, 32, .ro, false, 0⟩, ⟨24, 16, .ro, false, 0⟩, ⟨8, 0, .ro, false, 0⟩]⟩
  | .nocCtrl => ⟨.noc, 0x0, 0, 1, 32, [⟨9, 0, .st, false, 0x64⟩]⟩
  | .nocIntStatus => ⟨.noc, 0x10, 0, 1, 32, [⟨2, 2, .w1c, false, 0⟩, ⟨1, 1, .w1c, false, 0⟩, ⟨0, 0, .w1c, false, 0⟩]⟩
  | .nocIntEn => ⟨.noc, 0x14, 0, 1, 32, [⟨2, 0, .rw, false, 0⟩]⟩
  | .nocErrCe => ⟨.noc, 0x20, 0, 1, 32, [⟨31, 0, .rc, false, 0⟩]⟩
  | .nocErrUe => ⟨.noc, 0x24, 0, 1, 32, [⟨31, 0, .rc, false, 0⟩]⟩
  | .nocErrCrc => ⟨.noc, 0x28, 0, 1, 32, [⟨31, 0, .rc, false, 0⟩]⟩
  | .nocRspTimeout => ⟨.noc, 0x2C, 0, 1, 32, [⟨31, 0, .rc, false, 0⟩]⟩
  | .nocLastErr => ⟨.noc, 0x40, 0, 1, 64, [⟨63, 63, .w1c, false, 0⟩, ⟨62, 61, .ro, false, 0⟩, ⟨60, 60, .ro, false, 0⟩, ⟨59, 59, .ro, false, 0⟩, ⟨58, 56, .ro, false, 0⟩, ⟨55, 48, .ro, false, 0⟩, ⟨47, 45, .ro, false, 0⟩, ⟨31, 0, .ro, false, 0⟩]⟩
  | .nocHistSel => ⟨.noc, 0x100, 0x100, 8, 32, [⟨31, 31, .rw, false, 0⟩, ⟨13, 12, .rw, false, 0⟩, ⟨11, 0, .rw, false, 0⟩]⟩
  | .nocHistBin => ⟨.noc, 0x110, 0x4, 256, 32, [⟨31, 0, .rc, false, 0⟩]⟩
  | .nocSeamWe => ⟨.noc, 0x1000, 0x10, 10, 64, [⟨63, 0, .rc, false, 0⟩]⟩
  | .nocSeamEw => ⟨.noc, 0x1008, 0x10, 10, 64, [⟨63, 0, .rc, false, 0⟩]⟩
  | .ucsCtrl => ⟨.ucs, 0x0, 0, 1, 32, [⟨31, 31, .wo, false, 0⟩, ⟨23, 16, .rw, false, 0x10⟩, ⟨9, 8, .rw, false, 3⟩, ⟨1, 1, .rw, false, 1⟩, ⟨0, 0, .rw, false, 1⟩]⟩
  | .ucsStatus => ⟨.ucs, 0x4, 0, 1, 32, [⟨15, 13, .ro, false, 7⟩, ⟨12, 12, .ro, false, 0⟩, ⟨11, 11, .ro, false, 0⟩, ⟨10, 10, .ro, false, 0⟩, ⟨9, 9, .ro, false, 0⟩, ⟨7, 4, .ro, false, 0⟩, ⟨3, 0, .ro, false, 0⟩]⟩
  | .ucsMod => ⟨.ucs, 0x10, 0x4, 4, 32, [⟨11, 9, .ro, false, 0⟩, ⟨8, 8, .ro, false, 0⟩, ⟨7, 6, .ro, false, 0⟩, ⟨5, 4, .ro, false, 0⟩]⟩
  | .ucsDesc => ⟨.ucs, 0x40, 0x4, 16, 32, [⟨31, 0, .ro, false, 0⟩]⟩
  | .ucsRxMsg => ⟨.ucs, 0x80, 0, 1, 64, [⟨63, 0, .rc, false, 0⟩]⟩
  | .ucsTxMsg => ⟨.ucs, 0x88, 0, 1, 64, [⟨63, 0, .rc, false, 0⟩]⟩
  | .ucsRetry => ⟨.ucs, 0x90, 0, 1, 32, [⟨31, 0, .rc, false, 0⟩]⟩
  | .ucsRetrain => ⟨.ucs, 0x94, 0, 1, 32, [⟨31, 0, .rc, false, 0⟩]⟩
  | .ucsProtoErr => ⟨.ucs, 0x98, 0, 1, 32, [⟨31, 0, .rc, false, 0⟩]⟩
  | .ucsBaleTimeout => ⟨.ucs, 0x9C, 0, 1, 32, [⟨31, 0, .rc, false, 0⟩]⟩
  | .ucsDiscard => ⟨.ucs, 0xA0, 0, 1, 32, [⟨31, 0, .rc, false, 0⟩]⟩
  | .ucsIntStatus => ⟨.ucs, 0xC0, 0, 1, 32, [⟨5, 5, .w1c, false, 0⟩, ⟨4, 4, .w1c, false, 0⟩, ⟨3, 3, .w1c, false, 0⟩, ⟨2, 2, .w1c, false, 0⟩, ⟨1, 1, .w1c, false, 0⟩, ⟨0, 0, .w1c, false, 0⟩]⟩
  | .ucsIntEn => ⟨.ucs, 0xC4, 0, 1, 32, [⟨5, 0, .rw, false, 0⟩]⟩
  | .ucsLastErr => ⟨.ucs, 0xD0, 0, 1, 64, [⟨63, 63, .w1c, false, 0⟩, ⟨62, 60, .ro, false, 0⟩, ⟨59, 58, .ro, false, 0⟩, ⟨57, 55, .ro, false, 0⟩, ⟨54, 47, .ro, false, 0⟩, ⟨43, 32, .ro, false, 0⟩, ⟨31, 0, .ro, false, 0⟩]⟩
  | .hpfId => ⟨.hpf, 0x0, 0, 1, 32, [⟨7, 7, .ro, false, 0⟩, ⟨6, 6, .ro, false, 0⟩, ⟨5, 5, .ro, false, 0⟩, ⟨4, 4, .ro, false, 0⟩, ⟨3, 0, .ro, false, 0⟩]⟩
  | .hpfStatus => ⟨.hpf, 0x4, 0, 1, 32, [⟨31, 20, .ro, false, 0⟩, ⟨3, 3, .ro, false, 0⟩, ⟨2, 2, .ro, false, 0⟩, ⟨1, 1, .ro, false, 0⟩, ⟨0, 0, .ro, false, 0⟩]⟩
  | .hpfBringup => ⟨.hpf, 0x8, 0, 1, 32, [⟨31, 24, .ro, false, 1⟩, ⟨23, 14, .ro, false, 0⟩, ⟨13, 0, .ro, false, 0⟩]⟩
  | .hpfWin2Offset => ⟨.hpf, 0x10, 0, 1, 64, [⟨38, 0, .rw, false, 0⟩]⟩
  | .hpfWin4Offset => ⟨.hpf, 0x18, 0, 1, 64, [⟨41, 0, .rw, false, 0⟩]⟩
  | .hpfAttach => ⟨.hpf, 0x20, 0, 1, 32, [⟨1, 0, .wo, false, 0⟩]⟩
  | .hpfIntStatus => ⟨.hpf, 0x30, 0, 1, 32, [⟨3, 3, .w1c, false, 0⟩, ⟨2, 2, .w1c, false, 0⟩, ⟨1, 1, .w1c, false, 0⟩, ⟨0, 0, .w1c, false, 0⟩]⟩
  | .hpfIntEn => ⟨.hpf, 0x34, 0, 1, 32, [⟨3, 0, .rw, false, 0⟩]⟩
  | .hpfTcInv => ⟨.hpf, 0x40, 0, 1, 64, [⟨63, 63, .wo, false, 0⟩, ⟨62, 62, .ro, false, 0⟩, ⟨61, 61, .rw, false, 0⟩, ⟨19, 0, .rw, false, 0⟩]⟩
  | .hpfTcHits => ⟨.hpf, 0x60, 0, 1, 64, [⟨63, 0, .rc, false, 0⟩]⟩
  | .hpfTcMisses => ⟨.hpf, 0x68, 0, 1, 64, [⟨63, 0, .rc, false, 0⟩]⟩
  | .hpfTrFaults => ⟨.hpf, 0x70, 0, 1, 32, [⟨31, 0, .rc, false, 0⟩]⟩
  | .hpfMdAborts => ⟨.hpf, 0x74, 0, 1, 32, [⟨31, 0, .rc, false, 0⟩]⟩
  | .hpfBacklogDrops => ⟨.hpf, 0x78, 0, 1, 32, [⟨31, 0, .rc, false, 0⟩]⟩
  | .hpfWrDrop => ⟨.hpf, 0x7C, 0, 1, 32, [⟨31, 0, .rc, false, 0⟩]⟩
  | .hpfDenied => ⟨.hpf, 0x80, 0, 1, 32, [⟨31, 0, .rc, false, 0⟩]⟩
  | .hpfRdPoisoned => ⟨.hpf, 0x84, 0, 1, 32, [⟨31, 0, .rc, false, 0⟩]⟩
  | .hpfFence => ⟨.hpf, 0x100, 0, 1, 32, [⟨31, 0, .rw, false, 0⟩]⟩
  | .hpfCmdBuf => ⟨.hpf, 0x1000, 0x4, 32, 32, [⟨31, 0, .rw, false, 0⟩]⟩
  | .hpfCmd => ⟨.hpf, 0x1080, 0, 1, 32, [⟨31, 31, .wo, false, 0⟩, ⟨7, 0, .rw, false, 0⟩]⟩
  | .hpfCmdStatus => ⟨.hpf, 0x1084, 0, 1, 32, [⟨15, 8, .ro, false, 0⟩, ⟨0, 0, .ro, false, 0⟩]⟩
  | .hpfCmdResult => ⟨.hpf, 0x1088, 0, 1, 64, [⟨63, 0, .ro, false, 0⟩]⟩
  | .hpfMbxCtrl => ⟨.hpf, 0x20000, 0, 1, 32, [⟨0, 0, .wo, false, 0⟩]⟩
  | .hpfMbxStatus => ⟨.hpf, 0x20004, 0, 1, 32, [⟨1, 1, .w1c, false, 0⟩, ⟨0, 0, .ro, false, 0⟩]⟩
  | .hpfMbxLen => ⟨.hpf, 0x20008, 0, 1, 32, [⟨31, 16, .ro, false, 0⟩, ⟨15, 0, .rw, false, 0⟩]⟩
  | .hpfDbTail => ⟨.hpf, 0x100000, 0x1000, 1024, 32, [⟨31, 0, .rw, false, 0⟩]⟩
  | .hpfDbEvtHead => ⟨.hpf, 0x100008, 0x1000, 1024, 32, [⟨31, 0, .rw, false, 0⟩]⟩
  | .hpfDbHead => ⟨.hpf, 0x100010, 0x1000, 1024, 32, [⟨31, 0, .ro, false, 0⟩]⟩
  | .hpfDbState => ⟨.hpf, 0x100014, 0x1000, 1024, 32, [⟨31, 20, .ro, false, 0⟩, ⟨7, 4, .ro, false, 0⟩, ⟨1, 0, .ro, false, 0⟩]⟩
  | .hpfRelayStatus => ⟨.relay, 0x0, 0, 1, 32, [⟨7, 6, .ro, false, 0⟩, ⟨5, 2, .ro, false, 0⟩, ⟨1, 1, .ro, false, 0⟩, ⟨0, 0, .ro, false, 0⟩]⟩
  | .hpfRelayTxBytes => ⟨.relay, 0x8, 0, 1, 64, [⟨63, 0, .rc, false, 0⟩]⟩
  | .hpfRelayRxBytes => ⟨.relay, 0x10, 0, 1, 64, [⟨63, 0, .rc, false, 0⟩]⟩
  | .hpfRelayDrop => ⟨.relay, 0x18, 0, 1, 32, [⟨31, 0, .rc, false, 0⟩]⟩
  | .cusStatus => ⟨.cus, 0x0, 0, 1, 32, [⟨12, 12, .ro, false, 0⟩, ⟨11, 11, .ro, false, 0⟩, ⟨10, 8, .ro, false, 0⟩, ⟨7, 7, .ro, false, 0⟩, ⟨6, 6, .ro, false, 0⟩, ⟨5, 5, .ro, false, 0⟩, ⟨4, 4, .ro, false, 0⟩, ⟨3, 0, .ro, false, 0⟩]⟩
  | .cusSvn => ⟨.cus, 0x8, 0, 1, 32, [⟨31, 24, .ro, false, 0⟩, ⟨23, 16, .ro, false, 0⟩, ⟨15, 8, .ro, false, 0⟩, ⟨7, 0, .ro, false, 0⟩]⟩

/-- Every register table entry. -/
def allRegNames : List RegName := List.flatten [
  [.stgPeriod, .stgNumber, .stgMarkTime, .stgHubTime, .stgStatus, .stgLateSteps, .stgSkewMax, .stgIntEn, .tolRuleMatch, .tolRuleBudget, .tolMissCount, .tolLateReads],
  [.tolLateWrites, .tolLateDelivered, .tolMissFirst, .tolIntStatus, .tolIntEn, .tolProbeSel, .tolProbeData, .mecId, .mecCtrl, .mecStatus, .mecSlotMap, .mecAccMap],
  [.mecSlotCtrl, .mecSpare, .mecDescDone, .mecBusyClk, .mecLoadStallClk, .mecSlotOverrun, .mecConvNan, .mecConvInf, .mecConvOvf, .mecFmtErr, .mecCurDesc, .mecIntStatus],
  [.mecIntEn, .mecWbCtrl, .mecWbStatus, .mecWbIntStatus, .mecWbIntEn, .mecWbColTrip, .mecWbRowTrip, .mecWbTransient, .mecWbRemap, .mecWbUnresolved, .mecWbNarrowTiles, .mecWbEscalated],
  [.mecWbSentInf, .mecWbSentNan, .mecWbSentThresh, .mecWbUnchecked, .mecWbLast, .prtBootCtrl, .prtBootStatus, .prtClStatus, .prtClRole, .prtClCoreState, .prtClSteps, .prtClCancels],
  [.prtClCmaBusy, .prtClConvExc, .prtClL0Parity, .prtClCmaMalformed, .prtClIntStatus, .prtClIntEn, .prtClSoft, .tirCtrl, .tirStatus, .tirIntStatus, .tirIntEn, .tirLastErr],
  [.tirFills, .tirWritebacks, .tirMoves, .tirErrTier, .tirErrUncorr, .tirParkErr, .tirWriteDrop, .tirRecovered, .tirInBytes, .tirOutBytes, .tirTile, .sriCtrl],
  [.sriStatus, .sriWayOwner, .sriLockWays, .sriIntStatus, .sriIntEn, .sriMaintAddr, .sriMaintLen, .sriMaintCmd, .sriMaintStatus, .sriMaintCount, .sriMaintSetway, .sriHits],
  [.sriMisses, .sriMerges, .sriWritebacks, .sriDiscardDrops, .sriEntryWaits, .sriSlice, .sriDirCtrl, .sriDirIntStatus, .sriDirIntEn, .sriDirAdj, .sriDirDomainState, .sriDirDomainLost],
  [.sriDirSnoops, .sriDirForwards, .sriDirFwdMiss, .sriDirConflicts, .sriDirBackinv, .sriDirHoldWaits, .sriDirLost, .hbcCfg, .hbcStatus, .hbcScrubCtrl, .hbcScrubStatus, .hbcRepairCtrl],
  [.hbcRepairStatus, .hbcCeCount, .hbcUeCount, .hbcOdeccCount, .hbcScrubCe, .hbcScrubUe, .hbcRdBytes, .hbcWrBytes, .hbcAct, .hbcTurn, .hbcLastErr, .hbcIntStatus],
  [.hbcIntEn, .hbcGeom, .hbcGmap, .nocCtrl, .nocIntStatus, .nocIntEn, .nocErrCe, .nocErrUe, .nocErrCrc, .nocRspTimeout, .nocLastErr, .nocHistSel],
  [.nocHistBin, .nocSeamWe, .nocSeamEw, .ucsCtrl, .ucsStatus, .ucsMod, .ucsDesc, .ucsRxMsg, .ucsTxMsg, .ucsRetry, .ucsRetrain, .ucsProtoErr],
  [.ucsBaleTimeout, .ucsDiscard, .ucsIntStatus, .ucsIntEn, .ucsLastErr, .hpfId, .hpfStatus, .hpfBringup, .hpfWin2Offset, .hpfWin4Offset, .hpfAttach, .hpfIntStatus],
  [.hpfIntEn, .hpfTcInv, .hpfTcHits, .hpfTcMisses, .hpfTrFaults, .hpfMdAborts, .hpfBacklogDrops, .hpfWrDrop, .hpfDenied, .hpfRdPoisoned, .hpfFence, .hpfCmdBuf],
  [.hpfCmd, .hpfCmdStatus, .hpfCmdResult, .hpfMbxCtrl, .hpfMbxStatus, .hpfMbxLen, .hpfDbTail, .hpfDbEvtHead, .hpfDbHead, .hpfDbState, .hpfRelayStatus, .hpfRelayTxBytes],
  [.hpfRelayRxBytes, .hpfRelayDrop, .cusStatus, .cusSvn]]

end Sys2Proof.Machine
end

