-- ==== Sys2Proof/Machine/PartAge.lean ====
section
/-!
DEFINITION. The state of ageing, of the voltage target, and of the power and thermal limiter (Faults, Mirrored Pairs and
Ageing; Physical and Electrical Integration).
-/
namespace Sys2Proof.Machine

structure AgeState where
  /-- VBASE_MV and PD_PS of a site, fused at test (R675). -/
  vbase     : Nat := 750
  pdPs      : SMap Nat := []
  roPs      : SMap Nat := []
  /-- The ageing index of a site (R676), and the sites whose monitor last showed negative slack (R677). -/
  index     : SMap Nat := []
  slack     : List Nat := []
  /-- The VDD target in mV (R685). -/
  target    : Nat := 750
  /-- Clock steps, engines 0 to 7 and then tiles, and those that take effect at the next mark (R677). -/
  steps     : SMap Nat := []
  stepsNext : List Nat := []
  /-- Rate caps of modules, 4 × site + module, by their distance below 16 GT/s, and those that take effect at the next
  mark (R677). -/
  caps      : SMap Nat := []
  capsNext  : List Nat := []
  lastReplan : Nat := 0
  replanDue : Bool := false
  /-- Temperatures in °C (R691), and the tiles whose last sample was at or above the trip threshold (R692). -/
  tileTemp  : SMap Nat := []
  stackTemp : SMap Nat := []
  tripping  : List Nat := []
  /-- The limiter (R694): f, windows with f below 16, the last window's power in units of 0.5 W, the last current in A,
  and whether the regulator does not answer. -/
  fraction  : Nat := 16
  throttled : Nat := 0
  power     : Nat := 0
  current   : Nat := 0
  avsSilent : Bool := false
  deriving DecidableEq, Repr

end Sys2Proof.Machine
end

