-- ==== Sys2Proof/Machine/PartWork.lean ====
section
/-!
DEFINITION. The state of the objects shared with the driver (Partitions and Objects Shared with the Driver):
partitions, contexts, queues, steps, slots and the function command interface.
-/
namespace Sys2Proof.Machine

/-- A GRANULES entry (R545). -/
structure Granule where
  granule : Nat
  slabA   : Nat
  slabB   : Nat
  mode    : Nat
  deriving DecidableEq, Repr

/-- STATE of a partition object besides DISABLED and ZEROING, which are computed (R544, R547). -/
inductive PartPhase where
  | steady | resetting
  deriving DecidableEq, Repr

/-- The object of one partition (R544). -/
structure Part where
  enable      : Bool := false
  interleave  : Nat := 0
  granules    : List Granule := []
  seraiWays   : Nat := 0
  lockWays    : Nat := 0
  tiles       : Nat := 0
  meSlots     : Nat := 0
  meBanks     : Nat := 0
  syncBlocks  : Nat := 0
  queueBlocks : Nat := 0
  domain      : Nat := 0xFF
  link        : Nat := 0
  transAgent  : Nat := 0xFF
  contextMax  : Nat := 0
  phase       : PartPhase := .steady
  /-- ENGINE_NS_e of R574, engine 0 first. -/
  engineNs    : List Nat := [0, 0, 0, 0, 0, 0, 0, 0]
  deriving DecidableEq, Repr

/-- The tier descriptor of a context (R272). -/
structure TierDesc where
  base      : Nat := 0
  bales     : Nat := 0
  codec     : Nat := 0
  flags     : Nat := 0
  recBase   : Nat := 0
  poolBase  : Nat := 0
  poolSlots : Nat := 0
  parkSlots : Nat := 0
  parkTable : Nat := 0
  deriving DecidableEq, Repr

/-- What a context is doing. -/
inductive CtxPhase where
  | creating | live | tearing
  deriving DecidableEq, Repr

/-- A context (R548), with its counts (R573). -/
structure Context where
  fn         : Nat
  pasid      : Nat
  ownerTag   : Nat
  tier       : TierDesc
  phase      : CtxPhase := .live
  /-- Bale records still to initialize or scan (R549). -/
  recordsLeft : Nat := 0
  /-- The park table in use and whether its pool is revoked (R301, R303). -/
  parkRevoked : Bool := false
  engineNs    : Nat := 0
  porterNs    : Nat := 0
  copyBytes   : Nat := 0
  fillBytes   : Nat := 0
  stepsEnded  : Nat := 0
  stepsFailed : Nat := 0
  deriving DecidableEq, Repr

/-- A queue that is bound (R556), with its counts (R555) and where the hub reads next. -/
structure Queue where
  page       : Nat
  ctx        : Nat
  fn         : Nat
  flags      : Nat
  ringBase   : Nat
  ringLog2   : Nat
  evtLog2    : Nat
  vector     : Nat
  intrInit   : Nat
  evtBase    : Nat
  evtTail    : Nat
  head       : Nat
  tail       : Nat
  evtHead    : Nat := 0
  /-- Number of event entries placed so far, the index of the next (R567). -/
  evtNext    : Nat := 0
  /-- Manifest of the entry at HEAD once it is read: base and count (R554), 0 for none; and its step that is read next. -/
  manBase    : Nat := 0
  manCount   : Nat := 0
  nextStep   : Nat := 0
  /-- The step read last (R557). -/
  lastStep   : Option Nat := none
  halted     : Bool := false
  cause      : Nat := 0
  /-- The page whose translation its ring or manifest waits for (R517). -/
  asked      : Option Nat := none
  /-- Its doorbell page ignores writes and it reads no step (R569, order 1). -/
  closed     : Bool := false
  deriving DecidableEq, Repr

/-- What a slot is (R562, R563). The owner is a context, or the partition where it is none. -/
inductive Slot where
  | free
  | tally (value : Nat) (owner : Option Nat)
  | sealObj (pend status source cookie : Nat) (owner : Option Nat)
  deriving DecidableEq, Repr

/-- The body of a step (R559). -/
inductive StepBody where
  | engine (desc count mask : Nat)
  | porter (cluster rtEntry kernel args : Nat)
  | tier (cmds count : Nat)
  | copy (src dst len dir : Nat)
  | signal
  | malformed
  deriving DecidableEq, Repr

/-- How far a step has come: read; sent to its unit's intake; begun by its unit, which is its dispatch (R57); or begun
and ended by a cause that is on its way to its unit (R568). -/
inductive StepPhase where
  | waiting
  | sent
  | begun
  | cancelling (st : Status)
  deriving DecidableEq, Repr

/-- A step that was read and has not ended (R557 to R561). Its number is its place in the order of reading. -/
structure Step where
  id        : Nat
  /-- The step read before it from its queue, if any (R557). -/
  prev      : Option Nat
  queue     : Nat
  ctx       : Nat
  part      : Nat
  /-- HA or host address of the step record. -/
  recAddr   : Nat
  span      : Nat
  flags     : Nat
  sealSlot  : Nat
  cookie    : Nat
  wait      : Nat
  signal    : Nat
  waitValue : Nat
  signalAdd : Nat
  body      : StepBody
  phase     : StepPhase := .waiting
  /-- The mark at which it is late, once dispatched (R57). -/
  spanMark  : Nat := 0
  /-- The unit that runs it: engine, cluster, tier or port number, by its type. -/
  unit      : Nat := 0
  /-- Bytes moved by a COPY step, commands ended by a TIER step. -/
  progress  : Nat := 0
  /-- The first error its unit met (R248, R298). -/
  err       : Status := .complete
  started   : Nat := 0
  deriving DecidableEq, Repr

/-- A function command that is running (R550): its OP, and what it waits for. -/
structure FnCmd where
  op   : Nat
  arg  : Nat
  count : Nat
  deriving DecidableEq, Repr

/-- An event entry that waits in a function's backlog (R523, R567). -/
structure EvtEntry where
  queue  : Nat
  slot   : Nat
  status : Nat
  source : Nat
  cookie : Nat
  deriving DecidableEq, Repr

/-- The shared objects. -/
structure WorkState where
  parts    : SMap Part := [(0, { enable := true })]
  ctxs     : SMap (Option Context) := []
  queues   : SMap (Option Queue) := []
  slots    : SMap Slot := []
  steps    : List Step := []
  nextStep : Nat := 0
  cmds     : SMap (Option FnCmd) := []
  /-- Granules whose zeroing has not ended, with the partition that waits for each (R547). -/
  zeroing  : SMap (Option Nat) := []
  deriving DecidableEq, Repr

end Sys2Proof.Machine
end

