-- ==== Sys2Proof/Machine/PartPair.lean ====
section
/-!
DEFINITION. The state of a mirrored pair (Faults, Mirrored Pairs and Ageing).
-/
namespace Sys2Proof.Machine

/-- ROLE of 0x5050 (R667). -/
inductive PairRole where
  | unpaired | active | standby | solo | fenced
  deriving DecidableEq, Repr

def PairRole.code : PairRole → Nat
  | .unpaired => 0 | .active => 1 | .standby => 2 | .solo => 3 | .fenced => 4

/-- SYNC of 0x5050. -/
inductive PairSync where
  | none | resyncing | synced
  deriving DecidableEq, Repr

def PairSync.code : PairSync → Nat
  | .none => 0 | .resyncing => 1 | .synced => 2

/-- What a control image holds (R670): configuration, contexts, queue bindings, slots. -/
structure Snapshot where
  parts  : SMap Part
  vals   : SMap (Option (List Byte))
  regs   : SMap Nat
  ctxs   : SMap (Option Context)
  queues : SMap (Option Queue)
  slots  : SMap Slot
  deriving DecidableEq, Repr

/-- A delta that the active is sending or whose acknowledgement it awaits: its SEQ, its length, the last piece of a resync. -/
structure DeltaOut where
  seq  : Nat
  len  : Nat
  last : Bool
  deriving DecidableEq, Repr

structure PairState where
  role     : PairRole := .standby
  /-- REQUEST that takes effect at the next mark, 0 for none. -/
  request  : Nat := 0
  epoch    : Nat := 0
  sync     : PairSync := .none
  lastApplied : Nat := 0
  skips    : Nat := 0
  /-- Standby: the SEQ of the delta applied last, the control image it gave, when a relay write last arrived. -/
  lastSeq  : Option Nat := none
  image    : Option Snapshot := none
  lastWrite : Nat := 0
  /-- A promoted hub restores its control state and regions (R672). -/
  restoring : Bool := false
  /-- The restore has ended: dispatch starts at the next mark. -/
  restored : Bool := false
  /-- EPOCH, ROLE and SYNC of the partner as its pair header last showed them, while the relay link is trained. -/
  partner  : Option (Nat × Nat × Nat) := none
  /-- Active: the SEQ of the last delta, the delta being sent, deltas not acknowledged, the pages of mirror regions as last
  sent, whether a resync is due, the mark at which ACK_SEQ last advanced, and whether this toll window wrote to the partner. -/
  seq      : Nat := 0
  sending  : Option DeltaOut := none
  unacked  : List DeltaOut := []
  sent     : SMap (List Byte) := []
  resyncDue : Bool := false
  /-- The page of the region image at which the next resync piece starts. -/
  resyncAt : Option Nat := none
  /-- Losses of KIND 4 that the standby has met (R670). -/
  lossSeen : Nat := 0
  ackMark  : Nat := 0
  wrote    : Bool := false
  deriving DecidableEq, Repr

end Sys2Proof.Machine
end

