-- ==== Sys2Proof/Machine/PartOut.lean ====
section
/-!
DEFINITION. What the hub sends to the world outside it: the outputs of commands, kept in the order they were sent.
-/
namespace Sys2Proof.Machine

/-- One thing the hub sent. -/
inductive Output where
  /-- An MSI-X message of a function (R511, R512). -/
  | msix (fn vector addr data : Nat)
  /-- A write to host memory with a function's Requester ID (R519). -/
  | hostWrite (fn addr : Nat) (bytes : List Byte)
  /-- A non-posted read request to host memory, under a host-port tag (R522). -/
  | hostRead (port tag addr len : Nat)
  /-- An ATS translation request of a function (R517). -/
  | atsRequest (fn pasid va : Nat)
  /-- An ATS Invalidation Completion (R521). -/
  | atsInvalComplete (fn tag : Nat)
  /-- The completion of a host read: its data. -/
  | hostData (fn : Nat) (bytes : List Byte)
  /-- A poisoned completion (R514). -/
  | hostPoisoned (fn : Nat)
  /-- An Unsupported Request completion. -/
  | hostUnsupported (fn : Nat)
  /-- An Unsupported Request completion on the relay (R536). -/
  | relayUnsupported
  /-- The completion of a configuration read on the relay (R536). -/
  | relayData (bytes : List Byte)
  /-- The value an access to a register returned. -/
  | regData (v : Nat)
  /-- A Pelxel response: accessor, INSTANCE, CMD, COMPLETION and payload (R582 to R585). -/
  | pelxel (acc inst cmd completion : Nat) (payload : List Byte)
  /-- EVENT_NOTIFY on a management binding (R597). -/
  | notify (acc waiting bestPrio : Nat)
  /-- An EHP message to a chiplet (R470): the chiplet by its lowest site, class, opcode, tag, initiator, STATUS, GRANT, address or
  operand, data; the site through whose attachment port it came (R30), and its order module as 4 × site + module (R485), none where any
  trained module may carry it. -/
  | ehp (site cls opcode tag init status grant arg : Nat) (bytes : List Byte) (att : Nat) (order : Option Nat)
  /-- A mark over the UCIe sideband of a chiplet without a trained module (R52): stage number, PERIOD_SEL, t_M. -/
  | sideMark (site stage period time : Nat)
  /-- A posted write to the partner's mirror area: offset and data (R536). -/
  | relayWrite (addr : Nat) (bytes : List Byte)
  /-- A delta of the relay engine (R670): KIND, EPOCH, SEQ, STAGE, LEN, what the control image then holds, and pages of the region
  image by their offset. -/
  | delta (kind epoch seq stage len : Nat) (image : Snapshot) (pages : List (Nat × List Byte))
  /-- The level of an output pin. -/
  | pin (name : Nat) (level : Bool)
  /-- An SPDM response of Customs (R629). -/
  | spdm (binding : Nat) (bytes : List Byte)
  /-- A VDD target sent to the regulator, in mV (R685). -/
  | avsTarget (mv : Nat)
  deriving DecidableEq, Repr

end Sys2Proof.Machine
end

