-- ==== Sys2Proof/Machine/PartSite.lean ====
section
/-!
DEFINITION. The state of the chiplet sites (Chiplet Sites and the Efkaxo Hub Protocol): the chiplet recorded, its
modules, credits, tags, messages held for want of credit, open bale writes.
-/
namespace Sys2Proof.Machine

/-- A module of a site (R492). WIDTH: 0 untrained, 1 x64, 2 x32, 3 out of service. -/
structure Module where
  width    : Nat := 0
  rate     : Nat := 0
  repaired : Nat := 0
  half     : Nat := 0
  /-- IDENTIFY has been sent and DESCRIPTOR is awaited (R457). -/
  asked    : Bool := false
  deriving DecidableEq, Repr

/-- An open bale write (R477, R490): tag, INIT, address, lines received, the end of its timer, the
hint of its lines. -/
structure BaleWrite where
  tag   : Nat
  init  : Nat
  ha    : Nat
  got   : List Nat
  endAt : Nat
  hint  : Nat
  /-- Toll class (R77). -/
  cls   : Nat
  deriving DecidableEq, Repr

/-- What the site map records of a chiplet (R461). -/
structure SiteMap where
  serial  : Nat
  maker   : Nat
  role    : Nat
  modules : Nat
  deriving DecidableEq, Repr

/-- A message that a home tile addresses to a chiplet (R485): the fields of `Output.ehp`, with the home's tile, and whether it is
the reply that frees its tag. -/
structure HomeMsg where
  tile   : Nat
  att    : Nat
  cls    : Nat
  op     : Nat
  tag    : Nat
  init   : Nat
  status : Nat
  grant  : Nat
  arg    : Nat
  bytes  : List Byte
  frees  : Bool
  deriving DecidableEq, Repr

/-- A chiplet site. -/
structure Site where
  modules  : SMap Module := []
  /-- The accepted site descriptor, and the descriptors that arrived so far, by module. -/
  desc     : List Byte := []
  answers  : List (Nat × List Byte) := []
  present  : Bool := false
  refused  : Bool := false
  identFail : Bool := false
  /-- Site reset is in progress: every mainband is held untrained (R467). -/
  inReset  : Bool := false
  spanUp   : Bool := false
  spanDown : Bool := false
  /-- The site map of bring-up (R461), the reference of a domain reset. -/
  ref      : Option SiteMap := none
  /-- Credits the chiplet holds, and credits the site holds toward the chiplet (R482). -/
  reqCr    : Nat := 0
  dataCr   : Nat := 0
  msgCr    : Nat := 0
  snpCr    : Nat := 0
  outCr    : Nat := 0
  /-- Messages held for want of credit, oldest first, snoops apart from the others (R488). -/
  heldSnp  : List HomeMsg := []
  heldMsg  : List Output := []
  /-- The order module that carried the last message of each home tile, as 4 × site + module + 1, and messages that wait for the
  acknowledgement of flits on an old one or for a trained module (R485). -/
  order    : SMap Nat := []
  heldHome : List HomeMsg := []
  /-- Tags of requests that have no reply yet. -/
  tags     : List Nat := []
  bales    : List BaleWrite := []
  /-- When the chiplet lost its last trained module (LINK_GRACE, R402). -/
  graceFrom : Option Nat := none
  deriving DecidableEq, Repr

structure SiteState where
  sites : SMap Site := []
  deriving DecidableEq, Repr

end Sys2Proof.Machine
end

