-- ==== Sys2Proof/Machine/PartBring.lean ====
section
/-!
DEFINITION. The state of bring-up (Bring-Up): supplies, the stage report, the memory test, the straps.
-/
namespace Sys2Proof.Machine

/-- The supplies and the hold of power-on reset (R638). -/
inductive Supply where
  | bad | hold | released
  deriving DecidableEq, Repr

/-- RESULT of a stage record (R642). -/
inductive StageRes where
  | notStarted | running | pass | degraded | fail | skipped
  deriving DecidableEq, Repr

def StageRes.code : StageRes → Nat
  | .notStarted => 0 | .running => 1 | .pass => 2 | .degraded => 3 | .fail => 4 | .skipped => 5

/-- The stage has ended and lets its followers start (R640). -/
def StageRes.ended : StageRes → Bool
  | .pass => true | .degraded => true | .skipped => true | _ => false

/-- A stage record (R642). -/
structure StageRec where
  res    : StageRes := .notStarted
  cause  : Nat := 0
  start  : Nat := 0
  finish : Nat := 0
  detail : Nat := 0
  deriving DecidableEq, Repr

structure BringState where
  supply  : Supply := .bad
  /-- PATH, BOOTS and START of the report's header. -/
  path    : Nat := 0
  boots   : Nat := 0
  start   : Nat := 0
  recs    : SMap StageRec := []
  /-- Bring-up has stopped (R641); mark 0 has fired. -/
  stopped : Bool := false
  done    : Bool := false
  /-- BOOT_TEST as sampled: true for QUICK (R644). -/
  bootQuick : Bool := false
  /-- LAST_TEST, and the level of a test that a hub warm reset interrupted (R658). -/
  lastTest : Nat := 0
  interrupted : Option Nat := none
  /-- The level of the test of this bring-up, 0 for RETAIN. -/
  level   : Nat := 0
  /-- The hub warm reset followed hub fault cause 1 (R661). -/
  lostStack : Bool := false
  /-- The site map that the fast path restored, site 0 first, once stage 0x0A has recorded the new one (R648, R652). -/
  restored : List (Option SiteMap) := []
  /-- PROGRESS and ETA_S as last reported (R655). -/
  progress : Nat := 0
  eta     : Nat := 0
  deriving DecidableEq, Repr

end Sys2Proof.Machine
end

