-- ==== Sys2Proof/Machine/PartCustoms.lean ====
section
/-!
DEFINITION. The state of Customs (Customs, Life Cycle and Licences): fuses, flash, the life-cycle state in effect, tokens,
the images that run, flash commands, SPDM sessions.
-/
namespace Sys2Proof.Machine

/-- A fuse burn in progress (R608): a group of LC_WORD, an owner hash, a revoke bit, a minimum SVN. -/
inductive Burn where
  | group (g : Nat)
  | owner (slot : Nat) (hash : List Byte)
  | revoke (slot : Nat)
  | svn (kind target : Nat)
  deriving DecidableEq, Repr

/-- The burn was started by a token (R609, R616): slot 1 is enrolled without one, and so are the minimum SVNs raised. -/
def Burn.byToken : Burn → Bool
  | .owner k _ => k != 1
  | .svn _ _ => false
  | _ => true

/-- A flash command that runs (R625). -/
structure FlashCmd where
  op   : Nat
  addr : Nat
  data : List Byte
  deriving DecidableEq, Repr

structure CustomsState where
  /-- Fuses (R604). OWNER_HASH and the minimum SVNs as counts of blown bits. -/
  serial  : Nat := 0
  lcWord  : Nat := 0xFFFF
  rootHash : List Byte := List.replicate 48 0
  /-- The device secret, which no command reads (R604). -/
  uds     : List Byte := List.replicate 32 0
  owners  : SMap (List Byte) := []
  revoked : Nat := 0
  minCfw  : Nat := 0
  minPpl  : Nat := 0
  /-- The life-cycle state in effect, 0xF when torn (R605, R612). -/
  lc      : Nat := 2
  nonce   : Nat := 0
  result  : Nat := 0
  /-- A RETURN_CONSENT token was accepted since the last hub warm reset or power-on reset (R609). -/
  consent : Bool := false
  burn    : Option Burn := none
  /-- Burns that wait for it, one at a time in order (R611). -/
  burnNext : List Burn := []
  /-- A hub warm reset waits for the burn (R613). -/
  resetDue : Bool := false
  /-- The flash device: a byte that is not listed reads 0xFF. -/
  flash   : SMap Byte := []
  /-- ADDR, DATA and RESULT of 0x6040, and the command in progress. -/
  addr    : Nat := 0
  data    : List Byte := []
  flashRes : Nat := 0
  cmd     : Option FlashCmd := none
  /-- Images in use (0x6020), and the checks of R620. -/
  cfwSlot : Nat := 0
  pplSlot : Nat := 0
  cfwSvn  : Nat := 0
  pplSvn  : Nat := 0
  payloadId : Nat := 0
  pplReady : Bool := false
  fallback : Bool := false
  sealed  : Bool := false
  recovery : Bool := false
  /-- Digests of the Customs firmware container, the porter payload container and the accepted licence records (R630). -/
  digCfw  : List Byte := []
  digPpl  : List Byte := []
  digLic  : List Byte := []
  /-- BUNDLE and STATUS of each record slot (0x6030), two bytes a slot. -/
  licTable : List (Nat × Nat) := []
  /-- Sites and FW_IDs that MEASUREMENTS index 5 reports (R630, R631). -/
  measured : SMap Nat := []
  sessions : List SpdmPath := []
  deriving DecidableEq, Repr

end Sys2Proof.Machine
end

