-- ==== Sys2Proof/Machine/PartDict.lean ====
section
/-!
DEFINITION. The state of the object dictionary and the event collector (The Object Dictionary and Management Port).
-/
namespace Sys2Proof.Machine

/-- What one value of a staged set names: a subindex, or an ST field of a register (R588). -/
inductive StKey where
  | obj (index sub : Nat)
  | reg (r : Reg) (hi lo : Nat)
  deriving DecidableEq, Repr

/-- One staged value: the bytes of a subindex, or a field's value. -/
structure Staged where
  key   : StKey
  bytes : List Byte
  deriving DecidableEq, Repr

/-- RESULT of 0x2F01 (R590). -/
inductive CommitRes where
  | none | checking | accepted | applied | failed | discarded | lost
  deriving DecidableEq, Repr

def CommitRes.code : CommitRes → Nat
  | .none => 0 | .checking => 1 | .accepted => 2 | .applied => 3 | .failed => 4 | .discarded => 5 | .lost => 6

/-- REASON of 0x2F01 (R590). -/
inductive Reason where
  | none | capacity | tollRule | seraiWays | granuleMap | mirrorArea | ownership | licence | range | inUse
  deriving DecidableEq, Repr

def Reason.code : Reason → Nat
  | .none => 0 | .capacity => 1 | .tollRule => 2 | .seraiWays => 3 | .granuleMap => 4 | .mirrorArea => 5
  | .ownership => 6 | .licence => 7 | .range => 8 | .inUse => 9

/-- The result of an accessor's latest COMMIT or DISCARD (R590). -/
structure CommitResult where
  res    : CommitRes := .none
  tag    : Nat := 0
  stage  : Nat := 0
  failIx : Nat := 0
  failSub : Nat := 0
  reason : Reason := .none
  deriving DecidableEq, Repr

/-- What one accessor has staged (R588). -/
structure AccState where
  staged  : List Staged := []
  tag     : Nat := 0
  result  : CommitResult := {}
  /-- Values of BLOBs whose write starts an action, as built so far (R586), by index. -/
  built   : SMap (List Byte) := []
  deriving DecidableEq, Repr

/-- A check that runs or waits its turn (R589). -/
structure Check where
  acc : Nat
  tag : Nat
  set : List Staged
  deriving DecidableEq, Repr

/-- An accepted set that has not been applied, with its mark (R589, R591). -/
structure Accepted where
  acc  : Nat
  tag  : Nat
  set  : List Staged
  mark : Nat
  deriving DecidableEq, Repr

/-- An occurrence on its way to the collector (R594, R596). -/
structure Occ where
  code  : Nat
  inst  : Nat
  prio  : Nat
  stage : Nat
  time  : Nat
  detail : Nat
  count : Nat := 1
  deriving DecidableEq, Repr

/-- A log entry (R593). -/
structure LogEntry where
  code      : Nat
  prio      : Nat
  coalesced : Bool
  inst      : Nat
  count     : Nat
  seq       : Nat
  stage     : Nat
  time      : Nat
  detail    : Nat
  deriving DecidableEq, Repr

/-- A record of the collector with an open window (R596). `first` is the first occurrence its window merged. -/
structure CollRec where
  code  : Nat
  inst  : Nat
  prio  : Nat
  count : Nat
  endAt : Nat
  first : Option Occ
  deriving DecidableEq, Repr

/-- An unanswered request of a management binding (R583). -/
structure PxlReq where
  cmd     : Nat
  inst    : Nat
  payload : List Byte
  /-- It came inside an SPDM secured session (R633). -/
  secured : Bool := false
  /-- A reserved field is nonzero or VERSION is not 0x01 (R585). -/
  bad     : Bool := false
  deriving DecidableEq, Repr

/-- The event collector and the paths of log entries (R593 to R600, R708). -/
structure Collector where
  recs      : List CollRec := []
  seq       : Nat := 0
  intake    : List Occ := []
  /-- Occurrences dropped at the intake since the last marker, and a mask of their priorities (0x0CE0). -/
  lost      : Nat := 0
  lostMask  : Nat := 0
  mgmt      : List LogEntry := []
  boxFirst  : List LogEntry := []
  boxLast   : List LogEntry := []
  boxNext   : Nat := 0
  /-- Index of the next entry of the host log ring (R597). -/
  hostPos   : Nat := 0
  hostEnable : Bool := false
  hostPrio  : Nat := 3
  hostBase  : Nat := 0
  hostLog2  : Nat := 10
  hostHead  : Nat := 0
  mgmtPrio  : Nat := 2
  coalesceUs : Nat := 1000
  notifyPrio : Nat := 1
  /-- 0x5011:01 to :0C in their order (R599). -/
  drops     : List Nat := [0, 0, 0, 0, 0, 0, 0, 0, 0, 0, 0, 0]
  /-- The binding on which M last sent a request, and when the last notice went (R597). -/
  lastBinding : Option Accessor := none
  lastNotice  : Nat := 0
  deriving DecidableEq, Repr

/-- The object dictionary. -/
structure DictState where
  /-- Values in effect of subindexes that have no field of their own; the key is index × 256 + sub. -/
  vals     : SMap (Option (List Byte)) := []
  accs     : SMap AccState := []
  checks   : List Check := []
  accepted : List Accepted := []
  /-- Unanswered requests of M_I3C and M_PCIE, oldest first. -/
  reqI3c   : List PxlReq := []
  reqPcie  : List PxlReq := []
  coll     : Collector := {}
  deriving DecidableEq, Repr

end Sys2Proof.Machine
end

