-- ==== Sys2Proof/Machine/Fp32.lean ====
section
/-!
DEFINITION. FP32 arithmetic as the hub performs it: IEEE 754 binary32, round to nearest even, subnormals kept
(R113, R119 to R122, R226). A value is held exactly as a signed rational, and narrowed once.
-/
namespace Sys2Proof.Machine

/-- The value of a floating-point word: a magnitude num / den with its sign, an infinity, or NaN. -/
inductive Fv where
  | nan
  | inf (neg : Bool)
  | fin (neg : Bool) (num den : Nat)
  deriving DecidableEq, Repr

/-- The NaN that the hub writes (R122). -/
def nan32 : Nat := 0x7FC00000
def inf32 (neg : Bool) : Nat := if neg then 0xFF800000 else 0x7F800000

/-- The value of an FP32 word. -/
def fpVal (w : Nat) : Fv :=
  let neg := bitOf w 31
  let e := bitsOf w 30 23
  let m := bitsOf w 22 0
  if e = 255 then (if m = 0 then .inf neg else .nan)
  else if e = 0 then .fin neg m (2 ^ 149)
  else if 150 ≤ e then .fin neg ((2 ^ 23 + m) * 2 ^ (e - 150)) 1
  else .fin neg (2 ^ 23 + m) (2 ^ (150 - e))

/-- The quotient rounded to the nearest integer, a tie to the even one. -/
def rneDiv (a b : Nat) : Nat :=
  let q := a / b
  let r := a % b
  if b < 2 * r ∨ (2 * r = b ∧ q % 2 = 1) then q + 1 else q

/-- A magnitude rounded to FP32 with RNE: the word without its sign, infinity beyond the range. -/
def rneMag (num den : Nat) : Nat :=
  let a := num * 2 ^ 149
  let q := a / den
  let c := if q < 2 ^ 24 then rneDiv a den
    else
      let shift := Nat.log2 q - 23
      shift * 2 ^ 23 + rneDiv a (den * 2 ^ shift)
  min c 0x7F800000

/-- A value narrowed to FP32 (R119: one rounding, a value beyond the range becomes infinity with its sign). -/
def rne32 : Fv → Nat
  | .nan => nan32
  | .inf n => inf32 n
  | .fin n a d => rneMag a d + (if n then 2 ^ 31 else 0)

def Fv.neg : Fv → Fv
  | .nan => .nan
  | .inf n => .inf (!n)
  | .fin n a d => .fin (!n) a d

def Fv.isFin : Fv → Bool
  | .fin _ _ _ => true
  | _ => false

/-- The exact sum; a sum of zero is +0 unless both are −0. -/
def Fv.add : Fv → Fv → Fv
  | .nan, _ => .nan
  | _, .nan => .nan
  | .inf a, .inf b => if a = b then .inf a else .nan
  | .inf a, _ => .inf a
  | _, .inf b => .inf b
  | .fin n a d, .fin m b e =>
    let x := a * e
    let y := b * d
    if n = m then .fin n (x + y) (d * e)
    else if x = y then .fin false 0 1
    else if y < x then .fin n (x - y) (d * e)
    else .fin m (y - x) (d * e)

/-- The exact product. -/
def Fv.mul : Fv → Fv → Fv
  | .nan, _ => .nan
  | _, .nan => .nan
  | .inf a, .inf b => .inf (a != b)
  | .inf a, .fin m b _ => if b = 0 then .nan else .inf (a != m)
  | .fin n a _, .inf b => if a = 0 then .nan else .inf (n != b)
  | .fin n a d, .fin m b e => .fin (n != m) (a * b) (d * e)

/-- The exact quotient by a nonzero finite value. -/
def Fv.divFin (x : Fv) (num den : Nat) : Fv :=
  match x with
  | .fin n a d => .fin n (a * den) (d * num)
  | y => y

/-- The order of two finite or infinite values; false where either is NaN. -/
def Fv.lt : Fv → Fv → Bool
  | .nan, _ => false
  | _, .nan => false
  | .inf a, .inf b => a && !b
  | .inf a, .fin _ _ _ => a
  | .fin _ _ _, .inf b => !b
  | .fin n a d, .fin m b e =>
    let x := a * e
    let y := b * d
    match n, m with
    | false, false => decide (x < y)
    | true, true => decide (y < x)
    | true, false => decide (x ≠ 0 ∨ y ≠ 0)
    | false, true => false

/-- The magnitude of a finite value is at least num / den. -/
def Fv.magGe (x : Fv) (num den : Nat) : Bool :=
  match x with
  | .fin _ a d => decide (num * d ≤ a * den)
  | _ => false

def f32add (a b : Nat) : Nat := rne32 ((fpVal a).add (fpVal b))
def f32sub (a b : Nat) : Nat := rne32 ((fpVal a).add (fpVal b).neg)
def f32mul (a b : Nat) : Nat := rne32 ((fpVal a).mul (fpVal b))
/-- FMA: a + b × c with one rounding (R226). -/
def f32fma (a b c : Nat) : Nat := rne32 ((fpVal a).add ((fpVal b).mul (fpVal c)))

def Fv.abs : Fv → Fv
  | .nan => .nan
  | .inf _ => .inf false
  | .fin _ a d => .fin false a d

/-- 2^k as a rational. -/
def pow2 (k : Int) : Nat × Nat := if 0 ≤ k then (2 ^ k.toNat, 1) else (1, 2 ^ (-k).toNat)

/-- A value in the format of the checksum row (R190): a 64-bit significand, a 15-bit exponent, RNE. The format keeps subnormals and turns
a value beyond its range to infinity (DEDUCED, log 127). -/
def rneExt : Fv → Fv
  | .fin n a d =>
    if a = 0 then .fin n 0 1
    else
      let e : Int := (Nat.log2 a : Int) - Nat.log2 d
      let (pn, pd) := pow2 e
      let e := if a * pd < d * pn then e - 1 else e
      let (un, ud) := pow2 (max (e - 63) (-16445))
      let m := rneDiv (a * ud) (d * un)
      if 2 ^ 16384 * ud ≤ m * un then .inf n else .fin n (m * un) ud
  | x => x

def extAdd (x y : Fv) : Fv := rneExt (x.add y)

/-- An exact integer as a value. -/
def Fv.ofInt (i : Int) : Fv := .fin (decide (i < 0)) i.natAbs 1

/-- A value rounded to an integer with RNE and saturated to 32 signed bits; NaN gives 0 (R226). -/
def fpToInt32 (w : Nat) : Int :=
  match fpVal w with
  | .nan => 0
  | .inf n => if n then -(2 ^ 31) else 2 ^ 31 - 1
  | .fin n a d =>
    let m : Int := rneDiv a d
    if n then max (-m) (-(2 ^ 31)) else min m (2 ^ 31 - 1)

end Sys2Proof.Machine
end

