-- ==== Sys2Proof/Machine/PartEngine.lean ====
section
/-!
DEFINITION. The state of the matrix engines and their weighbridges (Matrix Engines, Weighbridge Safeguards): planes,
intakes, the descriptor in the array, the accumulation SRAM, the fault ladder.
-/
namespace Sys2Proof.Machine

/-- The tag of a weight plane (R147). -/
structure PlaneTag where
  part   : Nat
  ctx    : Nat
  wb0    : Nat
  wb1    : Nat
  wscale : Nat
  wfmt   : Nat
  deriving DecidableEq, Repr

/-- A weight plane (R146): its tag, none once cleared, and what was loaded: the two bales, none for a WB1 of 0, and the
tile's block scales, the weights of the checksum column by reduction row with the tile they were formed for (R188), and the columns that
the spares replace in the column map it took up (R174). -/
structure Plane where
  tag    : Option PlaneTag := none
  bale0  : List Byte := []
  bale1  : List Byte := []
  scales : List Byte := []
  check  : List Int := []
  n      : Nat := 0
  k      : Nat := 0
  spares : List (Option Nat) := []
  deriving DecidableEq, Repr

/-- A step of an engine (R165): those in progress, one for each partition, and those in its intake, in arrival order; its next descriptor, whether the engine has begun
it, whether a numeric trip occurred and under NUM_STRICT (R201), and the SRAM rows it used (R170). -/
structure EngStep where
  step    : Nat
  part    : Nat
  next    : Nat := 0
  begun   : Bool := false
  numeric : Bool := false
  strict  : Bool := false
  rows    : List Nat := []
  deriving DecidableEq, Repr

/-- The sums of a logical column in the checksum row (R190). -/
structure RowSums where
  r : Fv
  e : Fv
  a : Fv
  deriving DecidableEq, Repr

/-- The fault ladder of a guard tile (R195): the rung, and the logical column that it has localized. -/
structure Ladder where
  rung   : Nat
  column : Option Nat
  deriving DecidableEq, Repr

/-- A descriptor that was fetched: the step and index it belongs to, its address and its 128 bytes; while it is in the
array, when it entered, the guard tile whose checks are awaited, and the ladder. -/
structure EngRun where
  step   : Nat
  part   : Nat
  ctx    : Nat
  index  : Nat
  ha     : Nat
  bytes  : List Byte
  start  : Nat := 0
  tile   : Nat := 0
  ladder : Option Ladder := none
  /-- The sums that the checksum row holds of the tile that ran last, by logical column (R190). -/
  sums   : List RowSums := []
  /-- Engine clocks that its guard tiles took (R151, R205), with the fill and drain of a step's first descriptor, the instant at which it
  ran over its partition's slot (R168), and the status that its checks gave it at the fetch. -/
  clocks : Nat := 0
  overAt : Option Nat := none
  bad    : Status := .complete
  deriving DecidableEq, Repr

/-- A matrix engine. -/
structure Engine where
  intake  : List EngStep := []
  /-- The descriptor in the array. -/
  run     : Option EngRun := none
  /-- The descriptor fetched for after it (R149). -/
  next    : Option EngRun := none
  active  : Plane := {}
  shadow  : Plane := {}
  /-- The tag whose load runs, and since when the array has waited for it. -/
  loading : Option PlaneTag := none
  idleAt  : Nat := 0
  /-- Accumulation SRAM: FP32 words by 512 × row + column (R152). -/
  sram    : SMap Nat := []
  /-- Rows that hold no defined value, with the number of the free value that stands for them (R153, R170). -/
  undef   : SMap Nat := []
  outOfService : Bool := false
  /-- It is cancelling a step and takes no next one until it has finished (R61). -/
  cancelling : Bool := false
  deriving DecidableEq, Repr

structure EngineState where
  engines : SMap Engine := []
  /-- When an engine last began to ramp up from idle (R686). -/
  rampAt  : Option Nat := none
  deriving DecidableEq, Repr

end Sys2Proof.Machine
end

