-- ==== Sys2Proof/Machine/PartFault.lean ====
section
/-!
DEFINITION. The state of the faults chapter that stands in no register: losses that the scrub found, the hub's health
(Faults, Mirrored Pairs and Ageing).
-/
namespace Sys2Proof.Machine

/-- A loss of object 0x5030:03 (R664). -/
structure Loss where
  ha   : Nat
  part : Nat
  kind : Nat
  ctx  : Nat
  slot : Nat
  deriving DecidableEq, Repr

/-- HEALTH of 0x5001 (R666). -/
inductive Health where
  | good | degraded | serviceDue | failed
  deriving DecidableEq, Repr

def Health.code : Health → Nat
  | .good => 0 | .degraded => 1 | .serviceDue => 2 | .failed => 3

structure FaultState where
  lost     : Nat := 0
  rescued  : Nat := 0
  losses   : List Loss := []
  health   : Health := .good
  /-- A hub fault occurred since power-on reset (R660). -/
  faulted  : Bool := false
  /-- Every unit is stopped (R660). -/
  halted   : Bool := false
  /-- Consecutive marks at which SKEW_FAULT set (R660, cause 4). -/
  skewRun  : Nat := 0
  deriving DecidableEq, Repr

end Sys2Proof.Machine
end

