-- ==== Sys2Proof/Machine/PartHost.lean ====
section
/-!
DEFINITION. The state of the host ports (Host Ports and the Relay Port): links, functions, MSI-X, the translation
cache, posted writes, outstanding requests to host memory, and the relay port's link.
-/
namespace Sys2Proof.Machine

/-- One MSI-X table entry (R503, R506); PCIe resets its mask bit to 1. -/
structure MsixEntry where
  addr   : Nat := 0
  data   : Nat := 0
  masked : Bool := true
  deriving DecidableEq, Repr

/-- What a posted write of a function does once it is performed (R429 to R431, R515): a write through BAR2 or BAR4, or one of
the writes to BAR0 whose order the manual gives. -/
inductive PostedOp where
  | window (bar off : Nat) (bytes : List Byte)
  | fence (seq : Nat)
  | tail (page value : Nat)
  | evtHead (page value : Nat)
  | tally (slot value : Nat)
  deriving DecidableEq, Repr

/-- A posted write that a function has sent and the hub has not performed, and its Relaxed Ordering attribute. -/
structure Posted where
  op : PostedOp
  ro : Bool
  deriving DecidableEq, Repr

/-- Who asked for an invalidation of translations (R481, R521, R541): the host under a tag, a chiplet's agent, or the
function's driver. -/
inductive InvBy where
  | ats (itag : Nat)
  | agent (site tag : Nat)
  | own
  deriving DecidableEq, Repr

/-- An invalidation in progress (R521): the outstanding reads, as 4,096 × port + tag, that may use what it covers. -/
structure Inval where
  by_   : InvBy
  waits : List Nat
  deriving DecidableEq, Repr

/-- A function instance (R502 to R505, R537 to R542). -/
structure HostFn where
  mse        : Bool := false
  bme        : Bool := false
  serr       : Bool := false
  d3hot      : Bool := false
  msixEnable : Bool := false
  msixMask   : Bool := false
  msixTable  : SMap MsixEntry := []
  pba        : List Nat := []
  bar0       : Nat := 0
  bar2       : Nat := 0
  bar4       : Nat := 0
  /-- log2 of the BAR sizes: 256 MiB and 1 GiB at reset (R505). -/
  bar2Log2   : Nat := 28
  bar4Log2   : Nat := 30
  atsEnable  : Bool := false
  pasidEnable : Bool := false
  inFlr      : Bool := false
  detached   : Bool := false
  preserved  : Bool := false
  ready      : Bool := false
  bringupFail : Bool := false
  backlog    : List EvtEntry := []
  posted     : List Posted := []
  /-- Bytes of HPF_MBX_REQ and HPF_MBX_RSP (R587). -/
  mbxReq     : SMap Byte := []
  mbxRsp     : SMap Byte := []
  invals     : List Inval := []
  /-- Toll window in which its missed-guarantee interrupt was raised, and whether one is carried over (R76). -/
  missRaised : Bool := false
  missCarry  : Bool := false
  deriving DecidableEq, Repr

/-- A link of a host port (R498, R528). -/
structure LinkState where
  trained : Bool := false
  /-- Configuration requests are answered (R528). -/
  configOk : Bool := false
  deriving DecidableEq, Repr

/-- A translation-cache entry (R518). -/
structure TcEntry where
  fn     : Nat
  pasid  : Nat
  va     : Nat
  log2   : Nat
  read   : Bool
  write  : Bool
  /-- The translated address; an HA where a chiplet agent gave it (R519). -/
  bus    : Nat
  isHa   : Bool
  used   : Nat
  deriving DecidableEq, Repr

/-- A translation request that has no completion yet (R480, R517): its function, PASID and address, the site of the agent
where it is a chiplet, its tag, and when it was sent. -/
structure TransReq where
  fn    : Nat
  pasid : Nat
  va    : Nat
  agent : Option Nat
  tag   : Nat
  sent  : Nat
  deriving DecidableEq, Repr

/-- Why the hub has a non-posted request outstanding at host memory (R38, R522). -/
inductive TagUse where
  | stepRead (fn step dst len : Nat)
  | parkRead (fn bale off len : Nat)
  deriving DecidableEq, Repr

/-- A host port. -/
structure PortState where
  bifurc   : Bool := false
  perst    : Bool := true
  refclk   : Bool := true
  linkA    : LinkState := {}
  linkB    : LinkState := {}
  tags     : SMap (Option TagUse) := []
  deriving DecidableEq, Repr

/-- The relay port (R533 to R536, R543). -/
structure RelayState where
  /-- RELAY_ROLE: 1 for endpoint. -/
  endpoint : Bool := false
  linkUp   : Bool := false
  width    : Nat := 0
  rate     : Nat := 0
  deriving DecidableEq, Repr

/-- An entry of the Waybill (R530). -/
structure WayEntry where
  type  : Nat
  inst  : Nat
  flags : Nat
  base  : Nat
  size  : Nat
  apOff : Nat
  owner : Nat
  deriving DecidableEq, Repr

/-- The host ports and the relay port. -/
structure HostState where
  /-- The Waybill as last rewritten, and its GEN (R529, R532). -/
  waybill : List WayEntry := []
  wayGen  : Nat := 0
  fns    : SMap HostFn := []
  /-- Where each partition function is present: its link (R501), function numbers 1 to 8. -/
  fnLink : SMap Nat := []
  ports  : SMap PortState := []
  relay  : RelayState := {}
  /-- Translation cache: slice × 1,024 + index (R518). -/
  tc     : SMap (Option TcEntry) := []
  tcClock : Nat := 0
  trans   : List TransReq := []
  /-- Function, PASID and page that an agent just denied (R520), while a command ends the requests that waited for them. -/
  denied  : List (Nat × Nat × Nat) := []
  /-- CONTROL_LINK and SUBSYSTEM_ID as the ports took them up (R581). -/
  controlLink : Nat := 0
  subsystemId : Nat := 0
  deriving DecidableEq, Repr

end Sys2Proof.Machine
end

