-- ==== Sys2Proof/Machine/PartMem.lean ====
section
/-!
DEFINITION. The state of the memory system: HBM and its controllers (HBM Subsystem), the Serai slices with their
miss-handling entries and write-back buffers (The Serai Cache), the directory, transactions and domains (Coherence
Across Chiplets).
-/
namespace Sys2Proof.Machine

/-- Contents of HBM. Cells are the listed bytes; a byte of a granule whose content is undefined reads as a free value
until it is written, every other unlisted byte as 0. Poison lists the sectors, by HA / 64, that decode as
uncorrectable (R361, R363). -/
structure HbmMem where
  cells  : List Host.Cell := []
  /-- Granules with undefined content, and the number of the free value that stands for it (R355, R372). -/
  undef  : SMap Nat := []
  poison : List Nat := []
  deriving DecidableEq, Repr

/-- An entry of the granule map (R352). -/
structure GmapEntry where
  mode  : Nat
  slabA : Nat
  slabB : Nat
  deriving DecidableEq, Repr

/-- A pending entry of a controller: one chunk-wide access (R349, R350). -/
structure HbmEntry where
  stack    : Nat
  pc       : Nat
  bank     : Nat
  row      : Nat
  line     : Nat
  isWrite  : Bool
  /-- The attachment port on which the request arrived and its response returns (R28, R30). -/
  port     : Nat := 0
  /-- Hub time at which it arrived, and whether its read command was issued. -/
  arrived  : Nat
  issued   : Bool := false
  deriving DecidableEq, Repr

/-- A row of a stack: pseudo-channel, bank and row number. -/
structure HbmRow where
  pc   : Nat
  bank : Nat
  row  : Nat
  deriving DecidableEq, Repr

/-- A controller and its stack. -/
structure HbmStack where
  /-- CAP of HBC_CFG (R373). -/
  cap        : Nat := 0
  inService  : Bool := false
  retained   : Bool := false
  hot        : Bool := false
  selfRefresh : Bool := false
  /-- Pseudo-channels in a write batch, with the writes the batch has made (R357). -/
  writing    : SMap Nat := []
  /-- Open rows: pseudo-channel × 16 + bank, the row plus 1, 0 for none (R348). -/
  openRows   : SMap Nat := []
  /-- Corrected sectors of a row in this scrub period (R366). -/
  rowCount   : List (HbmRow × Nat) := []
  due        : List HbmRow := []
  /-- The row under repair, whose bank is held (R367). -/
  repairing  : Option HbmRow := none
  /-- Repaired rows to add to the health record, and the record: rows repaired and not fused, rows retired. -/
  unfused    : List HbmRow := []
  retired    : List HbmRow := []
  /-- A row was due while the record was full, since power-on reset (R369). -/
  retireFull : Bool := false
  /-- Rows fused by hard repair. -/
  fused      : Nat := 0
  /-- Spare rows used in each bank (pseudo-channel × 16 + bank). -/
  sparesUsed : SMap Nat := []
  /-- Place of the patrol scrub: sector number in ascending order of pseudo-channel, bank, row and sector. -/
  scrubPos   : Nat := 0
  deriving DecidableEq, Repr

/-- Class of a Serai line (R319). -/
inductive LineClass where
  | normal | stream | keep | transient
  deriving DecidableEq, Repr

/-- A valid line of a Serai way (R315). A larger `used` is more recent. -/
structure SeraiLine where
  line   : Nat
  data   : Line
  cls    : LineClass
  dirty  : Bool
  locked : Bool
  poison : Bool := false
  used   : Int
  deriving DecidableEq, Repr

/-- What a request asks of the home (R385, R392). Reads of the hub's own agents are RD_CUR, their writes WR_PART. -/
inductive ReqOp where
  | rdCur | rdShared | rdOwn | upgrade | wbDirty | evict | wrFull | wrPart
  deriving DecidableEq, Repr

/-- A request at the home of a line. -/
structure Req where
  who      : Issuer
  op       : ReqOp
  line     : Nat
  data     : Line := 0
  /-- Byte mask of a write, bit k for byte k. -/
  mask     : BitVec 128 := 0
  hint     : Nat := 0
  /-- Hub time of its deadline; 0 for the bulk class (R62). -/
  deadline : Nat := 0
  init     : Nat := 0
  /-- Dropped for its deadline (R63), or ended otherwise: it is answered no more. -/
  dropped  : Bool := false
  /-- It was admitted at guaranteed priority (R72). -/
  guar     : Bool := false
  /-- At the slice input it waits for a miss-handling entry (R39). -/
  noEntry  : Bool := false
  /-- It is served by the data of the miss that it waited on, and is no hit (R322, R343). -/
  missed   : Bool := false
  /-- The site whose attachment a chiplet's request came by (R30). -/
  via      : Nat := 0
  deriving DecidableEq, Repr

/-- The answer the home gave an agent of the hub's own: the line's data, or a status. -/
structure Answer where
  who    : Issuer
  line   : Nat
  data   : Line
  status : Status
  /-- The answer of a write. -/
  write  : Bool := false
  /-- Deadline and initiator of the request (R67). -/
  deadline : Nat := 0
  init   : Nat := 0
  deriving DecidableEq, Repr

/-- Snoops (R386). -/
inductive Snoop where
  | share | inv | fwdS | fwdX
  deriving DecidableEq, Repr

def Snoop.opcode : Snoop → Nat
  | .share => 0x20 | .inv => 0x21 | .fwdS => 0x22 | .fwdX => 0x23

/-- A snoop of a transaction: to whom, which, whether it was issued, at what hub time it was or may be. -/
structure OpenSnoop where
  site   : Nat
  kind   : Snoop
  issued : Bool
  time   : Nat
  deriving DecidableEq, Repr

/-- What a transaction does once its snoops are answered. -/
inductive TxnGoal where
  | request                  -- go on with the current request (R390)
  | backInv                  -- free the victim's entry for the request of another line (R400)
  | maint (clean : Bool)     -- maintenance: whether dirty data is kept (R392)
  | recall                   -- recall of a bale's line (R323, R392)
  deriving DecidableEq, Repr

/-- A busy line (R384): the request taken up, what it awaits, and the requests held behind it, oldest first
(R326, R395). -/
structure Txn where
  line    : Nat
  req     : Option Req
  goal    : TxnGoal := .request
  snoops  : List OpenSnoop := []
  /-- The requester whose FWD_ACK is awaited (R391), and whether the request was forwarded to a holder. -/
  fwdAck  : Option Nat := none
  fwd     : Bool := false
  /-- A miss-handling entry is held and the line awaits its data from HBM or a fill (R325). -/
  missing : Bool := false
  /-- Its HBM read has been accepted, issued, and its data has come. -/
  hbmSent : Bool := false
  hbmDone : Option Status := none
  /-- The HBM attachment port by which the data came back (R30). -/
  hbmPort : Nat := 0
  /-- Dirty data that a chiplet returned and that still waits for a way, and whether it is poisoned (R391). -/
  ret     : Option (Line × Bool) := none
  merged  : List Req := []
  deriving DecidableEq, Repr

/-- State of a directory entry (R383): sharers, one bit per site, or the owner. -/
inductive DirSt where
  | shared (sites : Nat)
  | owned (site : Nat)
  deriving DecidableEq, Repr

/-- A directory entry (R382). -/
structure DirEntry where
  line : Nat
  st   : DirSt
  used : Nat
  deriving DecidableEq, Repr

/-- A line in a write-back buffer (R324). -/
structure WbBuf where
  tile : Nat
  line : Nat
  data : Line
  poison : Bool := false
  deriving DecidableEq, Repr

/-- A running maintenance command (R331): its operation, scope, first and last line or set, ways and tile. -/
structure Maint where
  op    : Nat
  setWay : Bool
  lo    : Nat
  hi    : Nat
  ways  : Nat
  tile  : Nat
  /-- Tier lines acted on so far; a bale that ended with an error. -/
  done  : Nat := 0
  error : Bool := false
  deriving DecidableEq, Repr

/-- STATE of a domain (R403). -/
inductive DomSt where
  | unused | up | down | recovering | failed
  deriving DecidableEq, Repr

def DomSt.code : DomSt → Nat
  | .unused => 0 | .up => 1 | .down => 2 | .recovering => 3 | .failed => 4

/-- A coherent domain (R402 to R407, R412). -/
structure Domain where
  sites    : Nat := 0
  parts    : Nat := 0
  cause    : Nat := 0
  deadSite : Nat := 0
  swept    : Bool := false
  st       : DomSt := .unused
  stageLow : Nat := 0
  /-- The reset's descriptors match and the domain comes up at the next mark (R407). -/
  upNext   : Bool := false
  deriving DecidableEq, Repr

/-- The memory system. -/
structure MemState where
  hbm      : HbmMem := {}
  /-- Capacity in service of each half in GiB, and the granule map (R351, R378). -/
  westGib  : Nat := 0
  eastGib  : Nat := 0
  gmap     : SMap (Option GmapEntry) := []
  stackSt  : SMap HbmStack := []
  entries  : List HbmEntry := []
  /-- Requests held before a controller for want of a pending entry, in order (R39, R350). -/
  hbmHeld  : List HbmEntry := []
  /-- Serai lines, by (tile × 1,024 + set) × 16 + way. -/
  serai    : SMap (Option SeraiLine) := []
  mru      : Int := 0
  lru      : Int := 0
  txns     : List Txn := []
  /-- Requests held at a slice input for want of an entry, in order (R39, R326). -/
  heldIn   : List Req := []
  answers  : List Answer := []
  wbBufs   : List WbBuf := []
  /-- Way sweep in progress: ways that left their owner (R330). -/
  sweep    : List Nat := []
  customsReady : Bool := false
  maint    : SMap (Option Maint) := []
  /-- Per slice: spare rows used, ways disabled, way 14 given to Customs (R337, R344). -/
  rowsUsed : SMap Nat := []
  wayOff   : SMap Nat := []
  customsW14 : List Nat := []
  /-- Ways that are given up while the bales in them leave (R337), as 16 × slice + way: nothing is allocated in them. -/
  wayClosing : List Nat := []
  /-- Directory entries, by (tile × 2,048 + set) × 16 + way. -/
  dir      : SMap (Option DirEntry) := []
  dirClock : Nat := 0
  /-- Hold times: line, site, hub time at which the hold ends (R398). -/
  holds    : List (Nat × Nat × Nat) := []
  domains  : SMap Domain := []
  deriving DecidableEq, Repr

end Sys2Proof.Machine
end

