-- ==== Sys2Proof/Machine/PartPorter.lean ====
section
/-!
DEFINITION. The state of the porter clusters (Porter Cores and Cluster Matrix Assists): registers and L0 caches of the
cores, range trackers, cluster stores, step intakes, cluster matrix assists.
-/
namespace Sys2Proof.Machine

/-- A line of an L0 data cache (R214, R417): its address / 64, data, the mask of its dirty bytes, and whether one of
them was written in user mode (R249). -/
structure L0Line where
  line : Nat
  data : BitVec 512
  dirty : BitVec 64 := 0
  user : Bool := false
  deriving DecidableEq, Repr

/-- A write of a range-tracker entry that has not been accepted: a home line, data and byte mask; whether it has reached
its home. -/
structure LineWrite where
  line : Nat
  data : Line
  mask : BitVec 128
  hint : Nat
  sent : Bool := false
  /-- It is a write of the running step: of a BMOVE, or of a line written in user mode (R59, R249). -/
  step : Bool := true
  deriving DecidableEq, Repr

/-- An entry of a core's range tracker (R231). -/
structure Track where
  lo     : Nat
  len    : Nat
  writes : List LineWrite
  /-- Its BMOVE may still add writes. -/
  more  : Bool := false
  deriving DecidableEq, Repr

/-- A load or store that waits for its line (R245): the register, the address, the bytes of a store. -/
structure MemOp where
  reg    : Nat
  addr   : Nat
  size   : Nat
  signed : Bool
  vec    : Bool
  store  : Option (List Byte)
  deriving DecidableEq, Repr

/-- The operation of a TALLY (R237). -/
inductive TallyOp where
  | read | add | waitGe
  deriving DecidableEq, Repr

/-- A BMOVE in progress (R228 to R232): its registers, what is left to copy, the bytes of the piece being read. -/
structure Move where
  d     : Nat
  a     : Nat
  b     : Nat
  src   : Nat
  dst   : Nat
  len   : Nat
  moved : Nat
  srcHint : Nat
  dstHint : Nat
  piece : List Byte
  deriving DecidableEq, Repr

/-- What a core does once the lines it writes back have gone and their writes are accepted. -/
inductive AfterDrain where
  | flush (lo len : Nat) (all inv : Bool)                -- FLUSH and ACQ retire (R238, R239)
  | tally (op : TallyOp) (slot rd value : Nat) (acq rel : Bool)   -- the operation at the slot (R421)
  | stepDone (aborted : Bool)                            -- the core reports (R247)
  | again                                                -- the BMOVE at the PC goes on (R230)
  deriving DecidableEq, Repr

/-- What a core waits for. -/
inductive CoreWait where
  | none
  | fill (op : MemOp)
  | move (m : Move)
  | drain (todo : List Nat) (goal : AfterDrain)
  | tracked (lo len : Nat)                               -- an overlapping range of the tracker (R231)
  | trackRoom                                            -- a free entry of the tracker (R231)
  | tally (slot rd value : Nat) (acq : Bool)
  | cma (rd tag : Nat)
  | cmaRoom                                              -- a free result buffer (R255)
  | sleep
  deriving DecidableEq, Repr

/-- Status of a CMA tag (R254). -/
inductive TagSt where
  | done | malformed | pending | none
  deriving DecidableEq, Repr

def TagSt.code : TagSt → Nat
  | .done => 0 | .malformed => 1 | .pending => 2 | .none => 3

/-- A porter core (R217, R265 to R267). -/
structure Core where
  g        : SMap (BitVec 64) := []
  v        : SMap (BitVec 128) := []
  pc       : BitVec 64 := 0x8000000000030000#64
  /-- STATUS: MODE user, IE, and both before the last trap. -/
  user     : Bool := false
  ie       : Bool := false
  priorUser : Bool := false
  priorIe  : Bool := false
  /-- CAUSE. -/
  causeInt : Bool := false
  causeStatus : Nat := 0
  causeCode : Nat := 0
  info     : BitVec 64 := 0
  retpc    : BitVec 64 := 0
  vector   : BitVec 64 := 0x8000000000030000#64
  /-- PRT_C_IE bits 4:1 in their place, PRT_C_IP bits CANCEL, INTAKE, TIMER and SOFT; MARK pends while more marks have
  fired than `markAck`. -/
  enables  : BitVec 5 := 1#5
  pending  : BitVec 5 := 0#5
  markAck  : Nat := 0
  cancelInfo : Nat := 0
  softFrom : Nat := 0
  timecmp  : BitVec 64 := BitVec.allOnes 64
  /-- PRT_C_CONTEXT: the step's partition, 0xF for none, and context. -/
  ctxPart  : Nat := 0xF
  ctx      : Nat := 0
  stepArg  : Nat := 0
  uwinBase : Nat := 0
  uwinLimit : Nat := 0
  deadline : Nat := 0
  seed     : Nat := 0
  scratch  : BitVec 64 := 0
  /-- States of the four conversion lanes (R236). -/
  lanes    : List Nat := [1, 1, 1, 1]
  /-- L0 data cache by 4 × set + way, and lines of the L0 instruction cache. -/
  l0d      : SMap (Option L0Line) := []
  l0i      : List Nat := []
  tracker  : List Track := []
  wait     : CoreWait := .none
  /-- The read that the core waits for has reached its home. -/
  sent     : Bool := false
  /-- Status of its two CMA tags (R255). -/
  tags     : List TagSt := [.none, .none]
  /-- It runs on the spare, physical slot 16 (R215). -/
  onSpare  : Bool := false
  halted   : Bool := false
  deriving DecidableEq, Repr

/-- A CMA command that is held (R255): its tag and its offset in the cluster store. Its ISSUE has retired, so its COMMIT has been sent
(R257, log 132). -/
structure CmaCmd where
  tag : Nat
  off : Nat
  deriving DecidableEq, Repr

/-- A porter cluster. -/
structure Cluster where
  store    : SMap Byte := []
  intake   : List Nat := []
  running  : Option Nat := none
  started  : Nat := 0
  reported : List Nat := []
  aborted  : Bool := false
  latch    : Status := .complete
  /-- Bytes that the running step has written at their homes: lines with their masks (R60). -/
  written  : List (Nat × BitVec 128) := []
  cma      : List CmaCmd := []
  /-- The CMA's 32 result buffers, by tag: 256 FP32 values, row by row, as the last command left them (R255). -/
  results  : SMap (List Nat) := []
  out      : Bool := false
  loaded   : Bool := false
  bootFail : Bool := false
  spareFor : Option Nat := none
  exhausted : Bool := false
  role     : Nat := 0
  /-- It is cancelling a step and takes no next one until it has finished (R61). -/
  cancelling : Bool := false
  deriving DecidableEq, Repr

structure PorterState where
  /-- Self-fetch: the waves and the interval in effect, when it began, and the waves that were released (R260, R268). -/
  waves    : Nat := 100
  interval : Nat := 2
  fetchAt  : Option Nat := none
  released : List Nat := []
  cores    : SMap Core := []
  clusters : SMap Cluster := []
  deriving DecidableEq, Repr

end Sys2Proof.Machine
end

