-- ==== Sys2Proof/Machine/PartStage.lean ====
section
/-!
DEFINITION. The state of the stage and the tolls (The Stage, Tolls and Deadlines).
-/
namespace Sys2Proof.Machine

/-- An ARM message (R48): the mark's stage number and its hub time. -/
structure ArmMsg where
  stage : Nat
  time  : Nat
  deriving DecidableEq, Repr

/-- The toll counts of one initiator (R72): bytes admitted, and of them the bytes of toll class 0. For an engine there
is one such entry for each partition (R79). -/
structure TollCount where
  a       : Nat := 0
  a0      : Nat := 0
  deriving DecidableEq, Repr

/-- A request that waits at its initiator's admission point (R72): initiator, partition, toll class, bytes. -/
structure HeldReq where
  init  : Nat
  part  : Nat
  cls   : Nat
  bytes : Nat
  req   : Req
  /-- A command's access of one instant: `bytes` is what is still to be admitted, and the command is presented again. -/
  instant : Bool := false
  deriving DecidableEq, Repr

structure StageState where
  number     : Nat := 0
  running    : Bool := false
  markTime   : Nat := 0
  hubTime    : Nat := 0
  window     : Nat := 0
  /-- Hub time of the next mark; before mark 0 it is set by bring-up. -/
  nextMark   : Nat := 0
  /-- The ARM message for the next mark, once it has left the controller (R48). -/
  arm        : Option ArmMsg := none
  /-- Units that have received it (R49, R50), by HubUnit.num. -/
  armed      : List Nat := []
  /-- Toll counts; the key is initiator number, plus 4,096 × partition for an engine (R72, R79). -/
  tolls      : SMap TollCount := []
  /-- Requests held for want of toll, in order (R72). -/
  held       : List HeldReq := []
  deriving DecidableEq, Repr

end Sys2Proof.Machine
end

