-- ==== Sys2Proof/Machine/PartTier.lean ====
section
/-!
DEFINITION. The state of the tier engines (The Tier Range, Bales and Codecs). A bale is resident when its lines are
valid in the Serai (R279), so residency is no state of its own.
-/
namespace Sys2Proof.Machine

/-- What a tier engine does with one bale (R292 to R296, R323). -/
inductive TierKind where
  | fill (hint : Nat)
  | writeback
  | evict
  | discard
  | move (slot tier : Nat)
  | initBale (slot tier fill fmt : Nat)
  /-- Eviction because a way is needed (R323). -/
  | replace
  deriving DecidableEq, Repr

/-- An operation on a bale, in order of arrival at its tier engine (R290 to R292). -/
structure TierOp where
  /-- Its place in the order in which operations were asked for. -/
  id      : Nat := 0
  tile    : Nat
  fn      : Nat
  bale    : Nat
  ctx     : Nat
  kind    : TierKind
  /-- The step whose command asked for it, none for an access or a replacement. -/
  step    : Option Nat
  /-- The function whose maintenance command asked for it (R331). -/
  maint   : Option Nat := none
  /-- It has written its first record (R300). -/
  started : Bool := false
  /-- The bale was dirty when its MOVE began (R294). -/
  dirty   : Bool := false
  /-- An access of one instant waits for this fill (R305). -/
  instant : Bool := false
  /-- The host bus address of its parking slot, bytes to read from it (R301, R303), bytes asked for, the pieces that came, by their offset, and whether
  a read ended with an error. -/
  parkAt  : Nat := 0
  need    : Nat := 0
  asked   : Nat := 0
  got     : SMap (List Byte) := []
  parkErr : Bool := false
  deriving DecidableEq, Repr

/-- An advice entry (R299): the bales of a function from `lo` to `hi`, and a hint; none where `lo` is above `hi`. -/
structure Advice where
  fn   : Nat := 0
  lo   : Nat := 1
  hi   : Nat := 0
  hint : Nat := 0
  deriving DecidableEq, Repr

/-- The tier engines. -/
structure TierState where
  ops    : List TierOp := []
  nextOp : Nat := 0
  /-- Fills that failed while an access of one instant waited for them: function, bale, status, until that access has it (R305). -/
  failed : List (Nat × Nat × Status) := []
  /-- Records held by the tier-map slice of each tile: addresses, latest last, up to 2,048 (R282). -/
  cached : SMap (List Nat) := []
  /-- Advice entries, by 16 × partition + entry. -/
  advice : SMap Advice := []
  /-- Contexts whose records are being initialized or scanned (R277, R309). -/
  scans  : List Nat := []
  deriving DecidableEq, Repr

end Sys2Proof.Machine
end

