-- ==== Sys2Proof/Syntax.lean ====
section
/-!
DEFINITION. The commands of the hub, one constructor for each row of spec/opcode_table.json, with their operands.
A command is a write or a read of a register, an operation of a bus or protocol, an event inside the hub that the
manual describes, or an instruction that a porter core carries out.
-/
namespace Sys2Proof

open Machine (Snapshot)

/-- The commands the hub takes: one constructor for each row of the command table. -/
inductive Instr where
  /-- SUPPLY_GOOD, R638. The last supply becoming good starts the 10 ms hold before power-on reset is released. -/
  | supplyGood
  /-- POWER_ON_RESET_RELEASE, R638. Expiry of the 10 ms hold releases power-on reset, samples the straps and begins a full start. -/
  | powerOnResetRelease (quick endpoint bif0 bif1 : Bool)
  /-- SUPPLY_OUT_OF_BAND, R638. A rail outside its band for more than 2 µs puts the hub into power-on reset at once, even during a hub warm reset. -/
  | supplyOutOfBand
  /-- PERST_ASSERT, R525. Assertion of a host port's PERST# makes a fundamental reset of every function on the port. -/
  | perstAssert (port : Nat)
  /-- PERST_DEASSERT, R528. Deassertion of PERST# starts link training; configuration requests are answered within 100 ms. -/
  | perstDeassert (port : Nat)
  /-- HOT_RESET, R525. An in-band hot reset of one link resets its functions as a fundamental reset does. -/
  | hotReset (l : Nat)
  /-- FLR, R525. A function's Initiate FLR bit starts a function-level reset, which for PFn is a partition reset of Pn. -/
  | flr (fn : Nat)
  /-- FLR_COMPLETE, R528. The function-level reset completes within 10 ms and the function answers memory requests again. -/
  | flrComplete (fn : Nat)
  /-- D3HOT_ENTRY, R523. A function placed in D3hot behaves as with Bus Master Enable 0 and its BARs answer Unsupported Request. -/
  | d3hotEntry (fn : Nat)
  /-- ARM_SEND, R48. At t_M − 4 µs the stage controller broadcasts the ARM message with the mark's stage number and hub time. -/
  | armSend
  /-- ARM_RECEIVE, R49. A unit receives the ARM message and arms mark M for hub time t_M. -/
  | armReceive (u : HubUnit)
  /-- STAGE_MARK, R54. A unit's hub time reaches t_M and it fires the mark: late steps, staged configuration, toll reset and mirror snapshot in order. -/
  | stageMark (skew : Nat) (eyes : List Nat) (est : Nat)
  /-- STEP_CANCEL_DONE, R61. A unit finishes cancelling within 1 µs and may dispatch its next step. -/
  | stepCancelDone (u : CancelUnit)
  /-- GRANULE_ZEROING_DONE, R547. Zeroing of a granule ends and held accesses to it proceed. -/
  | granuleZeroingDone (g : Nat)
  /-- WAY_SWEEP_DONE, R330. The way sweep ends and SRI_STATUS.SWEEP clears. -/
  | waySweepDone
  /-- TOLL_WINDOW, R73. At a toll window boundary every toll counter returns to zero and held initiators may be admitted again. -/
  | tollWindow (est : Nat)
  /-- DEADLINE_EXPIRY, R64. A held deadline-class read whose deadline passed is dropped within 64 ns. -/
  | deadlineExpiry (who : Issuer) (line : Nat)
  /-- DESCRIPTOR_FETCH, R161. An engine fetches and checks a descriptor before reading data, and on malformed breaks the seal ABORTED. -/
  | descriptorFetch (e : Fin 8)
  /-- PLANE_LOAD_DONE, R149. The shadow plane finishes loading and can swap in at the next descriptor boundary. -/
  | planeLoadDone (e : Fin 8) (t : Nat)
  /-- DESCRIPTOR_END, R151. A descriptor leaves the array and the engine chooses the next descriptor under the slot map. -/
  | descriptorEnd (e : Fin 8) (t : Nat)
  /-- GUARD_CHECK_DONE, R193. Both checksum checks of a guard tile are ready and the held results are released or the ladder begins. -/
  | guardCheckDone (e : Fin 8) (flaws : List Flaw)
  /-- LADDER_RERUN_DONE, R195. A rerun on a rung of the fault ladder ends clean or trips again and the engine goes to the next rung. -/
  | ladderRerunDone (e : Fin 8) (flaws : List Flaw) (feed : List FeedFlaw)
  /-- ENGINE_STEP_COMMIT, R58. Every write of an engine step's last descriptor is accepted and the step reaches its commit point. -/
  | engineStepCommit (e : Fin 8) (part : Fin 9)
  /-- MEC_DRAIN, R177. Writing MEC_CTRL.DRAIN makes the engine finish its descriptor and start none. -/
  | mecDrain (e : Fin 8) (v : Bool)
  /-- MEC_ENABLE, R177. Writing MEC_CTRL.ENABLE allows or stops descriptor starts. -/
  | mecEnable (e : Fin 8) (v : Bool)
  /-- ADD, R225. ALU FN 0x000 adds two G registers. -/
  | add (c : Fin 25600) (d a b : Fin 32)
  /-- SUB, R225. ALU FN 0x001 subtracts. -/
  | sub (c : Fin 25600) (d a b : Fin 32)
  /-- AND, R225. ALU FN 0x002 bitwise and. -/
  | andC (c : Fin 25600) (d a b : Fin 32)
  /-- OR, R225. ALU FN 0x003 bitwise or. -/
  | orC (c : Fin 25600) (d a b : Fin 32)
  /-- XOR, R225. ALU FN 0x004 bitwise exclusive or. -/
  | xorC (c : Fin 25600) (d a b : Fin 32)
  /-- SLL, R225. ALU FN 0x005 logical left shift. -/
  | sll (c : Fin 25600) (d a b : Fin 32)
  /-- SRL, R225. ALU FN 0x006 logical right shift. -/
  | srl (c : Fin 25600) (d a b : Fin 32)
  /-- SRA, R225. ALU FN 0x007 arithmetic right shift. -/
  | sra (c : Fin 25600) (d a b : Fin 32)
  /-- SLT, R225. ALU FN 0x008 signed set-less-than. -/
  | slt (c : Fin 25600) (d a b : Fin 32)
  /-- SLTU, R225. ALU FN 0x009 unsigned set-less-than. -/
  | sltu (c : Fin 25600) (d a b : Fin 32)
  /-- MUL, R225. ALU FN 0x010 multiply low 64 bits. -/
  | mul (c : Fin 25600) (d a b : Fin 32)
  /-- MULHS, R225. ALU FN 0x011 signed multiply high. -/
  | mulhs (c : Fin 25600) (d a b : Fin 32)
  /-- MULHU, R225. ALU FN 0x012 unsigned multiply high. -/
  | mulhu (c : Fin 25600) (d a b : Fin 32)
  /-- DIVS, R225. ALU FN 0x013 signed divide, quotient 0 on divide by zero. -/
  | divs (c : Fin 25600) (d a b : Fin 32)
  /-- DIVU, R225. ALU FN 0x014 unsigned divide. -/
  | divu (c : Fin 25600) (d a b : Fin 32)
  /-- REMS, R225. ALU FN 0x015 signed remainder, the dividend on divide by zero. -/
  | rems (c : Fin 25600) (d a b : Fin 32)
  /-- REMU, R225. ALU FN 0x016 unsigned remainder. -/
  | remu (c : Fin 25600) (d a b : Fin 32)
  /-- CLZ, R225. ALU FN 0x020 counts leading zeros. -/
  | clz (c : Fin 25600) (d a b : Fin 32)
  /-- POPC, R225. ALU FN 0x021 counts set bits. -/
  | popc (c : Fin 25600) (d a b : Fin 32)
  /-- MIN, R225. ALU FN 0x022 signed minimum. -/
  | min (c : Fin 25600) (d a b : Fin 32)
  /-- MAX, R225. ALU FN 0x023 signed maximum. -/
  | max (c : Fin 25600) (d a b : Fin 32)
  /-- ADDI, R224. Adds a sign-extended immediate. -/
  | addi (c : Fin 25600) (d a : Fin 32) (imm : BitVec 14)
  /-- ANDI, R224. Ands a zero-extended immediate. -/
  | andi (c : Fin 25600) (d a : Fin 32) (imm : BitVec 14)
  /-- ORI, R224. Ors a zero-extended immediate. -/
  | ori (c : Fin 25600) (d a : Fin 32) (imm : BitVec 14)
  /-- XORI, R224. Exclusive-ors a zero-extended immediate. -/
  | xori (c : Fin 25600) (d a : Fin 32) (imm : BitVec 14)
  /-- SHI, R224. Shifts by an immediate, SLL, SRL or SRA. -/
  | shi (c : Fin 25600) (d a : Fin 32) (imm : BitVec 8)
  /-- SLTI, R224. Signed compare against an immediate. -/
  | slti (c : Fin 25600) (d a : Fin 32) (imm : BitVec 14)
  /-- LDHI, R224. Loads a shifted upper immediate. -/
  | ldhi (c : Fin 25600) (d : Fin 32) (imm : BitVec 19)
  /-- PCADD, R224. Adds a shifted immediate to the PC. -/
  | pcadd (c : Fin 25600) (d : Fin 32) (imm : BitVec 19)
  /-- LD8U, R224. Loads a byte zero-extended. -/
  | ld8u (c : Fin 25600) (d a : Fin 32) (imm : BitVec 14)
  /-- LD16U, R224. Loads 16 bits zero-extended. -/
  | ld16u (c : Fin 25600) (d a : Fin 32) (imm : BitVec 14)
  /-- LD32U, R224. Loads 32 bits zero-extended. -/
  | ld32u (c : Fin 25600) (d a : Fin 32) (imm : BitVec 14)
  /-- LD64, R224. Loads 64 bits, missing L0 fetches a line from HA space. -/
  | ld64 (c : Fin 25600) (d a : Fin 32) (imm : BitVec 14)
  /-- LD8S, R224. Loads a byte sign-extended. -/
  | ld8s (c : Fin 25600) (d a : Fin 32) (imm : BitVec 14)
  /-- LD16S, R224. Loads 16 bits sign-extended. -/
  | ld16s (c : Fin 25600) (d a : Fin 32) (imm : BitVec 14)
  /-- LD32S, R224. Loads 32 bits sign-extended. -/
  | ld32s (c : Fin 25600) (d a : Fin 32) (imm : BitVec 14)
  /-- ST8, R224. Stores a byte. -/
  | st8 (c : Fin 25600) (d a : Fin 32) (imm : BitVec 14)
  /-- ST16, R224. Stores 16 bits. -/
  | st16 (c : Fin 25600) (d a : Fin 32) (imm : BitVec 14)
  /-- ST32, R224. Stores 32 bits. -/
  | st32 (c : Fin 25600) (d a : Fin 32) (imm : BitVec 14)
  /-- ST64, R224. Stores 64 bits. -/
  | st64 (c : Fin 25600) (d a : Fin 32) (imm : BitVec 14)
  /-- VLD, R224. Loads 16 bytes into a V register. -/
  | vld (c : Fin 25600) (d a : Fin 32) (imm : BitVec 14)
  /-- VST, R224. Stores a V register to 16 bytes. -/
  | vst (c : Fin 25600) (d a : Fin 32) (imm : BitVec 14)
  /-- BEQ, R224. Branches if equal. -/
  | beq (c : Fin 25600) (a b : Fin 32) (off : BitVec 14)
  /-- BNE, R224. Branches if not equal. -/
  | bne (c : Fin 25600) (a b : Fin 32) (off : BitVec 14)
  /-- BLT, R224. Branches if signed less. -/
  | blt (c : Fin 25600) (a b : Fin 32) (off : BitVec 14)
  /-- BGE, R224. Branches if signed greater or equal. -/
  | bge (c : Fin 25600) (a b : Fin 32) (off : BitVec 14)
  /-- BLTU, R224. Branches if unsigned less. -/
  | bltu (c : Fin 25600) (a b : Fin 32) (off : BitVec 14)
  /-- BGEU, R224. Branches if unsigned greater or equal. -/
  | bgeu (c : Fin 25600) (a b : Fin 32) (off : BitVec 14)
  /-- JLK, R224. Jumps and links PC + 4. -/
  | jlk (c : Fin 25600) (d : Fin 32) (off : BitVec 19)
  /-- JLKR, R224. Jumps to a register plus offset and links. -/
  | jlkr (c : Fin 25600) (d a : Fin 32) (imm : BitVec 14)
  /-- RCALL, R225. Calls the runtime by raising RCALL_USER or RCALL_RUNTIME. -/
  | rcall (c : Fin 25600)
  /-- TRET, R242. Returns from a trap, restoring mode and IE and jumping to RETPC. -/
  | tret (c : Fin 25600)
  /-- SLEEP, R225. Waits until an enabled interrupt is pending. -/
  | sleep (c : Fin 25600)
  /-- STEP_DONE, R247. A core writes back dirty lines, drains its tracker and CMA tags and reports its part of the step. -/
  | stepDone (c : Fin 25600) (a : Fin 32)
  /-- ICLR, R225. Invalidates the core's L0 instruction cache. -/
  | iclr (c : Fin 25600)
  /-- DBGSTOP, R225. Raises the debug stop. -/
  | dbgstop (c : Fin 25600)
  /-- CCRR, R224. Reads a core control register. -/
  | ccrr (c : Fin 25600) (d : Fin 32) (imm : BitVec 14)
  /-- CCRW, R224. Swaps a core control register with a G register; a PRT_C_SEED write reseeds the lanes. -/
  | ccrw (c : Fin 25600) (d a : Fin 32) (imm : BitVec 14)
  /-- VADD32, R226. 32-bit integer lane add. -/
  | vadd32 (c : Fin 25600) (vd va vb : Fin 16)
  /-- VSUB32, R226. 32-bit integer lane subtract. -/
  | vsub32 (c : Fin 25600) (vd va vb : Fin 16)
  /-- VMUL32, R226. 32-bit integer lane multiply. -/
  | vmul32 (c : Fin 25600) (vd va vb : Fin 16)
  /-- FADD, R226. FP32 lane add. -/
  | fadd (c : Fin 25600) (vd va vb : Fin 16)
  /-- FSUB, R226. FP32 lane subtract. -/
  | fsub (c : Fin 25600) (vd va vb : Fin 16)
  /-- FMUL, R226. FP32 lane multiply. -/
  | fmul (c : Fin 25600) (vd va vb : Fin 16)
  /-- FMA, R226. FP32 fused multiply-add. -/
  | fma (c : Fin 25600) (vd va vb : Fin 16)
  /-- FMIN, R226. FP32 lane minimum. -/
  | fmin (c : Fin 25600) (vd va vb : Fin 16)
  /-- FMAX, R226. FP32 lane maximum. -/
  | fmax (c : Fin 25600) (vd va vb : Fin 16)
  /-- VAND, R226. Vector and. -/
  | vand (c : Fin 25600) (vd va vb : Fin 16)
  /-- VOR, R226. Vector or. -/
  | vor (c : Fin 25600) (vd va vb : Fin 16)
  /-- VXOR, R226. Vector exclusive or. -/
  | vxor (c : Fin 25600) (vd va vb : Fin 16)
  /-- VINS, R226. Inserts a G register into a lane. -/
  | vins (c : Fin 25600) (vd va : Fin 16) (g : Fin 32)
  /-- VEXT, R226. Extracts a lane into a G register. -/
  | vext (c : Fin 25600) (va vb : Fin 16) (g : Fin 32)
  /-- VSPLAT, R226. Copies a G register into every lane. -/
  | vsplat (c : Fin 25600) (vd : Fin 16) (g : Fin 32)
  /-- CVT_I2F, R226. Converts integer lanes to FP32. -/
  | cvtI2f (c : Fin 25600) (vd va : Fin 16)
  /-- CVT_F2I, R226. Converts FP32 lanes to saturated integers. -/
  | cvtF2i (c : Fin 25600) (vd va : Fin 16)
  /-- NDOT, R234. Narrow dot product of element groups into 32-bit lane sums. -/
  | ndot (c : Fin 25600) (vd va vb : Fin 16) (g : Fin 32)
  /-- NCVT, R235. Converts four FP32 lanes to narrow elements under the format word. -/
  | ncvt (c : Fin 25600) (vd va : Fin 16) (g : Fin 32)
  /-- NEXP, R235. Expands four narrow elements to FP32 lanes. -/
  | nexp (c : Fin 25600) (vd va : Fin 16) (g : Fin 32)
  /-- BMOVE, R228. Copies 256-byte pieces between reachable ranges, holding the PC until its last write issues. -/
  | bmove (c : Fin 25600) (d a b : Fin 32) (fn : BitVec 9)
  /-- TALLY_READ, R237. Reads a tally slot atomically. -/
  | tallyRead (c : Fin 25600) (d a b : Fin 32) (fl : BitVec 7)
  /-- TALLY_ADD, R237. Adds to a tally slot and returns the old value. -/
  | tallyAdd (c : Fin 25600) (d a b : Fin 32) (fl : BitVec 7)
  /-- TALLY_WAIT_GE, R237. Waits until a tally reaches the operand. -/
  | tallyWaitGe (c : Fin 25600) (d a b : Fin 32) (fl : BitVec 7)
  /-- TALLY_WAIT_RELEASE, R237. A waiting WAIT_GE finds its condition met and retires. -/
  | tallyWaitRelease (c : Fin 25600)
  /-- FLUSH, R238. Writes back L0 data lines in range, optionally invalidating, and waits for acceptance. -/
  | flush (c : Fin 25600) (d a b : Fin 32) (fn : BitVec 9)
  /-- ACQ, R239. Writes back and invalidates L0 lines in range so later loads are fresh. -/
  | acq (c : Fin 25600) (d a b : Fin 32) (fn : BitVec 9)
  /-- CMA_ISSUE, R254. Sends a CMA command with a tag; retirement sends COMMIT. -/
  | cmaIssue (c : Fin 25600) (d a : Fin 32)
  /-- CMA_WAIT, R254. Waits until a tag is written or found malformed. -/
  | cmaWait (c : Fin 25600) (d a : Fin 32)
  /-- CMA_WAIT_RELEASE, R254. A waiting CMA WAIT returns the tag's status. -/
  | cmaWaitRelease (c : Fin 25600)
  /-- CMA_POLL, R254. Returns a tag's status without waiting. -/
  | cmaPoll (c : Fin 25600) (d a : Fin 32)
  /-- CMA_COMMAND_DONE, R257. A CMA command finishes and, once committed, its buffer is written to the cluster store. -/
  | cmaCommandDone (k : Fin 1600)
  /-- TAKE_INTERRUPT, R244. A pending enabled interrupt is taken in priority order, stopping an interruptible BMOVE or wait. -/
  | takeInterrupt (c : Fin 25600)
  /-- TIMER_EXPIRY, R266. Hub time reaching PRT_C_TIMECMP pends TIMER. -/
  | timerExpiry (c : Fin 25600)
  /-- L0_FILL_RETURN, R245. A line fill for a core returns and waiting loads complete. -/
  | l0FillReturn (c : Fin 25600)
  /-- WRITE_ACCEPTED, R231. Tracked writes are accepted at home, freeing a range-tracker entry and releasing waiting instructions. -/
  | writeAccepted (c : Fin 25600)
  /-- SOFT_RAISE, R271. Writing PRT_CL_SOFT sets SOFT pending on the named local cores. -/
  | softRaise (k : Fin 1600) (mask : BitVec 16)
  /-- CORE_FAULT, R262. A core fault halts the core, aborts a running step and assigns the spare if free. -/
  | coreFault (c : Fin 25600) (t : CoreTrouble)
  /-- WAVE_RELEASE, R260. At t_F plus w intervals the clusters of wave w are released to self-fetch. -/
  | waveRelease (w : Nat)
  /-- HOME_READ, R325. A hub agent's read arrives at its home slice and is served or takes a miss entry. -/
  | homeRead (c : Fin 25600)
  /-- HOME_WRITE, R325. A hub agent's write arrives at its home slice and is applied or waits for a fill. -/
  | homeWrite (c : Fin 25600) (line : Nat)
  /-- LINE_UNBUSY, R395. A line's transaction ends and the next held request is taken up. -/
  | lineUnbusy (line : Nat)
  /-- MISS_FILL_RETURN, R327. HBM data fills the line and merged requests are served in order. -/
  | missFillReturn (line : Nat)
  /-- WRITEBACK_BUFFER_FREE, R324. A buffered dirty line is written to HBM, freeing a write-back buffer. -/
  | writebackBufferFree (line : Nat)
  /-- BALE_FILL_DONE, R285. A fill's compressed data is checked and expanded into the Serai, or the bale is poisoned. -/
  | baleFillDone (fn bale : Nat)
  /-- BALE_WRITEBACK_DONE, R293. A write-back's units are accepted and the record is written IDLE with the new codec. -/
  | baleWritebackDone (fn bale : Nat) (nib byt : List Nat)
  /-- BALE_MOVE_DONE, R294. A MOVE's writes are accepted and the record names the new tier and slot. -/
  | baleMoveDone (fn bale : Nat) (nib byt : List Nat)
  /-- PREFETCH, R296. Tier command filling each bale not resident. -/
  | prefetch (q : Nat)
  /-- WRITEBACK, R296. Tier command writing back each resident dirty bale. -/
  | writeback (q : Nat)
  /-- TIER_EVICT, R296. Tier command writing back if dirty and dropping each bale. -/
  | tierEvict (q : Nat)
  /-- TIER_DISCARD, R296. Tier command dropping each bale without write-back. -/
  | tierDiscard (q : Nat)
  /-- MOVE, R294. Tier command moving each bale to a target slot and tier. -/
  | moveC (q : Nat)
  /-- INIT, R296. Tier command rewriting each bale's record as a FILL bale and clearing POISON. -/
  | initC (q : Nat)
  /-- ADVISE, R299. Tier command writing an advice entry of the partition. -/
  | advise (q : Nat)
  /-- DONATE, R301. Tier command installing a new parking table. -/
  | donate (q : Nat)
  /-- TIER_STEP_COMMIT, R298. Every command of a tier step has ended for every bale and the seal reports the first error. -/
  | tierStepCommit (q : Nat)
  /-- CLEAN, R331. Maintenance OP 1 writes back dirty lines in scope. -/
  | clean (fn : Fin 9) (setWay : Bool)
  /-- INV, R331. Maintenance OP 2 invalidates lines in scope without write-back. -/
  | inv (fn : Fin 9) (setWay : Bool)
  /-- CLEAN_INV, R331. Maintenance OP 3 writes back and invalidates lines in scope. -/
  | cleanInv (fn : Fin 9) (setWay : Bool)
  /-- PRELOAD_LOCK, R334. Maintenance OP 4 loads and locks lines into lock ways. -/
  | preloadLock (fn : Fin 9) (setWay : Bool)
  /-- UNLOCK, R331. Maintenance OP 5 clears locks in scope. -/
  | unlock (fn : Fin 9) (setWay : Bool)
  /-- MAINT_DONE, R333. Every slice in scope finishes, RESULT is set, BUSY clears and vector 7 is raised. -/
  | maintDone (fn : Fin 9)
  /-- SERAI_ROW_FAIL, R665. A failed Serai row takes a spare row or disables its way in the slice. -/
  | seraiRowFail (tile : Fin 160) (w : Fin 16)
  /-- HBM_REQUEST, R350. A controller accepts a sector request into a pending entry. -/
  | hbmRequest (x : PortLine) (write : Bool)
  /-- HBM_READ_ISSUE, R357. The controller issues a read command, dropping dead-read entries at this decision point. -/
  | hbmReadIssue (h : Fin 8) (pc : Fin 64)
  /-- HBM_MODE_SWITCH, R357. A pseudo-channel switches between read and write batches. -/
  | hbmModeSwitch (h : Fin 8) (pc : Fin 64)
  /-- HBM_READ_DATA, R362. A sector read returns data, corrected data or an uncorrectable outcome. -/
  | hbmReadData (line : Nat) (a b : SectorRead) (ondie : Nat)
  /-- HBM_REFRESH, R358. A bank's refresh interval expires and the bank is refreshed. -/
  | hbmRefresh (h : Fin 8) (pc : Fin 64) (bank : Fin 16)
  /-- PATROL_SCRUB_READ, R364. The scrub reads the next sector, writing back corrections. -/
  | patrolScrubRead (h : Fin 8) (o : SectorRead)
  /-- ROW_REPAIR, R367. A row due for repair is read, soft-repaired and rewritten with its bank held. -/
  | rowRepair (h : Fin 8) (spare : Bool)
  /-- ROW_REPAIR_DONE, R367. The bank is released and Customs adds the row to the health record. -/
  | rowRepairDone (h : Fin 8)
  /-- RD_CUR, R390. Chiplet request for current data kept in no state. -/
  | rdCur (k : Fin 8) (m : Fin 4) (h : BitVec 128)
  /-- RD_SHARED, R390. Chiplet request for a shared or exclusive copy. -/
  | rdShared (k : Fin 8) (m : Fin 4) (h : BitVec 128)
  /-- RD_OWN, R390. Chiplet request for an exclusive copy. -/
  | rdOwn (k : Fin 8) (m : Fin 4) (h : BitVec 128)
  /-- UPGRADE, R390. Chiplet request to upgrade S to E. -/
  | upgrade (k : Fin 8) (m : Fin 4) (h : BitVec 128)
  /-- WB_DIRTY, R390. Chiplet writes back an M line and drops it. -/
  | wbDirty (k : Fin 8) (m : Fin 4) (h : BitVec 128) (data : BitVec 1024)
  /-- EVICT, R390. Chiplet reports the drop of an S or E line. -/
  | evict (k : Fin 8) (m : Fin 4) (h : BitVec 128)
  /-- WR_FULL, R390. Chiplet writes a whole line without caching it. -/
  | wrFull (k : Fin 8) (m : Fin 4) (h : BitVec 128) (data : BitVec 1024)
  /-- WR_PART, R390. Chiplet writes part of a line without caching it. -/
  | wrPart (k : Fin 8) (m : Fin 4) (h : BitVec 128) (data : BitVec 1024) (mask : BitVec 128)
  /-- RSP_I, R391. Snoop response: holder now in I without data. -/
  | rspI (k : Fin 8) (line : Nat)
  /-- RSP_S, R391. Snoop response: holder now in S without data. -/
  | rspS (k : Fin 8) (line : Nat)
  /-- RSP_I_DATA, R391. Snoop response returning dirty data, holder in I. -/
  | rspIData (k : Fin 8) (line : Nat) (data : BitVec 1024) (poison : Bool)
  /-- RSP_S_DATA, R391. Snoop response returning dirty data, holder in S. -/
  | rspSData (k : Fin 8) (line : Nat) (data : BitVec 1024) (poison : Bool)
  /-- RSP_FWD, R391. Forwarder has sent FWD_DATA. -/
  | rspFwd (k : Fin 8) (line : Nat) (state : Fin 4) (data : BitVec 1024) (poison : Bool)
  /-- RSP_FWD_DATA, R391. Forwarder has sent FWD_DATA and returns dirty data. -/
  | rspFwdData (k : Fin 8) (line : Nat) (state : Fin 4) (data : BitVec 1024) (poison : Bool)
  /-- RSP_FWD_MISS, R391. Forwarder held no copy; the home retakes the request. -/
  | rspFwdMiss (k : Fin 8) (line : Nat)
  /-- FWD_ACK, R391. Requester acknowledges forwarded data, ending the transaction. -/
  | fwdAck (k : Fin 8) (line : Nat)
  /-- HOLD_EXPIRY, R398. A chiplet's hold time ends and a delayed snoop is issued. -/
  | holdExpiry (k : Fin 8) (line : Nat)
  /-- SNOOP_TIMEOUT, R402. A snoop unanswered for SNOOP_TO declares the chiplet dead. -/
  | snoopTimeout (k : Fin 8) (line : Nat)
  /-- LINK_GRACE_EXPIRY, R402. A chiplet with no trained module for LINK_GRACE is declared dead. -/
  | linkGraceExpiry (k : Fin 8)
  /-- DOMAIN_DOWN_COMMAND, R402. Writing 0x3000+d:02 takes domain d down with cause COMMAND. -/
  | domainDownCommand (d : Fin 4)
  /-- DOMAIN_SWEEP_DONE, R404. The directory sweep finishes and SWEPT sets. -/
  | domainSweepDone (d : Fin 4)
  /-- DOMAIN_RESET, R407. Writing 0x3000+d:03 or AUTO_RESET starts a domain reset with site resets of its sites. -/
  | domainReset (d : Fin 4)
  /-- DOMAIN_RESET_COMPARE, R407. Retrained descriptors are compared with the site map and the domain returns UP or FAILED. -/
  | domainResetCompare (d : Fin 4)
  /-- PULL, R437. A destination's PULL lets a writer send its data on the freight net. -/
  | pull (fn : Nat)
  /-- PACKET_ERROR, R444. An uncorrectable hop error or CRC failure discards a packet and ends the request concerned. -/
  | packetError (crc : Bool) (site : LostAt) (what : LostPacket)
  /-- RESPONSE_TIMEOUT, R444. A request with a lost control message ends ABORTED after RSP_TO. -/
  | responseTimeout (who : Issuer) (line : Nat)
  /-- NOC_HIST_SEL_WRITE, R452. Writing a histogram selector clears its 32 bins. -/
  | nocHistSelWrite (n : Fin 8) (v : BitVec 32)
  /-- SITE_RESET, R467. A site reset holds mainbands untrained, discards queued messages and frees the chiplet's tags. -/
  | siteReset (k : Fin 8)
  /-- MODULE_TRAINING_DONE, R457. A module finishes training and parameter exchange and the site sends IDENTIFY. -/
  | moduleTrainingDone (k : Fin 8) (m : Fin 4) (width : Fin 3) (rate : Fin 4) (repaired : Fin 8) (half : Fin 2)
  /-- DESCRIPTOR, R460. A chiplet's site descriptor arrives and the site records or refuses the chiplet. -/
  | descriptor (k : Fin 8) (m : Fin 4) (bytes : List (BitVec 8))
  /-- IDENTIFY_TIMEOUT, R457. A module without DESCRIPTOR after 100 µs is left out and IDENT_FAIL set. -/
  | identifyTimeout (k : Fin 8) (m : Fin 4)
  /-- MODULE_RETRAIN, R462. A high CRC retry rate retrains a module with lane repair. -/
  | moduleRetrain (k : Fin 8) (m : Fin 4) (retries lanes : Nat) (half : Fin 2)
  /-- MODULE_LINK_DOWN, R489. A module leaves training and an incomplete message is discarded. -/
  | moduleLinkDown (k : Fin 8) (m : Fin 4) (part : Option (BitVec 128))
  /-- IO_RD, R475. Chiplet reads MMIO or the Waybill. -/
  | ioRd (k : Fin 8) (m : Fin 4) (h : BitVec 128)
  /-- IO_WR, R475. Chiplet writes MMIO. -/
  | ioWr (k : Fin 8) (m : Fin 4) (h : BitVec 128) (data : List (BitVec 8))
  /-- BALE_RD, R476. Chiplet reads a whole bale as 512 DATA messages. -/
  | baleRd (k : Fin 8) (m : Fin 4) (h : BitVec 128)
  /-- BALE_WR, R477. Chiplet opens a bale write and starts the reassembly timer. -/
  | baleWr (k : Fin 8) (m : Fin 4) (h : BitVec 128)
  /-- BALE_DATA, R477. One line of an open bale write is applied as WR_FULL. -/
  | baleData (k : Fin 8) (m : Fin 4) (tag : Fin 4096) (init line : Fin 512) (data : BitVec 1024) (poison : Bool)
  /-- BALE_TIMEOUT, R490. The reassembly timer ends the bale write with CMP ABORTED. -/
  | baleTimeout (k : Fin 8) (tag : Fin 4096)
  /-- EHP_TALLY, R479. Chiplet operates atomically on a tally slot. -/
  | ehpTally (k : Fin 8) (m : Fin 4) (h : BitVec 128)
  /-- FATAL, R479. Chiplet fatal report takes its domain down. -/
  | fatal (k : Fin 8) (m : Fin 4) (reason : BitVec 8)
  /-- CREDIT, R482. A CREDIT message grants or returns credits. -/
  | credit (k : Fin 8) (m : Fin 4) (snoop : Fin 8192) (msg : Fin 256)
  /-- TR_CPL, R480. Translation agent returns translation entries. -/
  | trCpl (k : Fin 8) (m : Fin 4) (tag : Fin 4096) (status : Nat) (entries : List (List (BitVec 8)))
  /-- TR_REQ_TIMEOUT, R481. A TR_REQ unanswered for 64 µs ends waiting requests with TRANSLATION_FAULT. -/
  | trReqTimeout (k : Fin 8) (tag : Fin 4096)
  /-- INV_REQ, R481. Translation agent asks the hub to invalidate translations. -/
  | invReq (k : Fin 8) (m : Fin 4) (tag : Fin 4096) (all : Bool) (pasid va log2 : Nat)
  /-- INV_CPL, R481. Covered entries are invalid and users done, so INV_CPL is sent. -/
  | invCpl (k : Fin 8) (tag : Fin 4096)
  /-- HOST_READ, R513. A host read through BAR2 or BAR4 is performed at the home. -/
  | hostRead (fn bar off len : Nat)
  /-- HOST_WRITE, R515. A checked posted write through BAR2 or BAR4 is buffered and performed. -/
  | hostWrite (fn bar off : Nat) (bytes : List Byte) (ro : Bool)
  /-- HOST_READ_COMPLETION, R522. A completion of a hub read of host memory arrives and is used. -/
  | hostReadCompletion (port tag : Nat) (d : Fetched)
  /-- FENCE_WRITE, R431. An HPF_FENCE write orders all earlier and later writes of the function. -/
  | fenceWrite (fn seq : Nat)
  /-- FENCE_READ, R431. An HPF_FENCE read completes once all earlier writes are performed. -/
  | fenceRead (fn : Nat)
  /-- DOORBELL_TAIL_WRITE, R555. A TAIL write submits ring entries to a bound queue. -/
  | doorbellTailWrite (fn page value : Nat)
  /-- EVT_HEAD_WRITE, R567. An EVT_HEAD write frees event ring room so waiting entries may be written. -/
  | evtHeadWrite (fn page value : Nat)
  /-- TALLY_WINDOW_ADD, R564. A 4-byte write to a tally in the read window adds atomically. -/
  | tallyWindowAdd (fn slot value : Nat)
  /-- APERTURE_ACCESS, R509. An access through the register aperture reaches a register or is denied and counted. -/
  | apertureAccess (fn k n : Nat) (data : Option (List (BitVec 8)))
  /-- BME_CLEAR, R523. Clearing Bus Master Enable stops new host accesses and backlogs host event entries. -/
  | bmeClear (fn : Nat)
  /-- BME_SET, R524. Setting Bus Master Enable resumes requests, sends pending MSI-X and delivers the backlog. -/
  | bmeSet (fn : Nat)
  /-- MSIX_UNMASK, R512. Unmasking or enabling MSI-X sends a vector that was pending. -/
  | msixUnmask (fn : Nat) (c : MsixChange)
  /-- ATS_INVALIDATION_REQUEST, R521. An ATS Invalidation Request invalidates covered translation entries. -/
  | atsInvalidationRequest (fn itag : Nat) (all : Bool) (pasid va log2 : Nat)
  /-- ATS_INVALIDATION_COMPLETION, R521. Entries are invalid and users done, so the Invalidation Completion is sent. -/
  | atsInvalidationCompletion (fn itag : Nat)
  /-- ATS_ENABLE_CLEAR, R521. Clearing ATS or PASID Enable invalidates every entry of the function. -/
  | atsEnableClear (fn : Nat) (pasid : Bool)
  /-- TRANSLATION_COMPLETION, R520. An ATS translation completion is cached, or ends the request with TRANSLATION_FAULT. -/
  | translationCompletion (fn pasid va : Nat) (ans : Option TransAnswer)
  /-- ADOPT, R527. HPF_ATTACH ADOPT clears DETACHED and PRESERVED and delivers the backlog. -/
  | adopt (fn : Nat)
  /-- ATTACH_DISCARD, R527. HPF_ATTACH DISCARD resets the function's partition and clears DETACHED and PRESERVED. -/
  | attachDiscard (fn : Nat)
  /-- TC_INV, R541. HPF_TC_INV GO invalidates the function's translation entries. -/
  | tcInv (fn : Nat) (all : Bool) (pasid : Nat)
  /-- TC_INV_COMPLETE, R541. The invalidation completes and BUSY clears. -/
  | tcInvComplete (fn : Nat)
  /-- RELAY_WRITE, R536. A posted relay write is performed into the mirror area, other requests dropped. -/
  | relayWrite (off : Nat) (data : Option (List (BitVec 8))) (posted : Bool)
  /-- RELAY_LINK_UP, R674. The relay link trains and each hub settles its pair role from the partner's header. -/
  | relayLinkUp (width : Fin 9) (rate : Fin 4) (epoch : Nat) (role : Fin 5) (sync : Fin 3)
  /-- RESYNC_DONE, R673. The last resync piece is applied and SYNC reads SYNCED. -/
  | resyncDone
  /-- DELTA_SENT, R670. The last byte of a delta is sent and the active writes DONE_SEQ. -/
  | deltaSent
  /-- DELTA_APPLY, R670. The standby checks and applies the delta that DONE_SEQ names and writes ACK_SEQ. -/
  | deltaApply (off : Nat) (image : Snapshot)
  /-- PROMOTION_RESTORE_DONE, R672. Restore of control state and regions ends and dispatch resumes at the next mark. -/
  | promotionRestoreDone
  /-- REQUEST_ACTIVE, R667. 0x5050:02 REQUEST 1 makes the hub ACTIVE at the next mark. -/
  | requestActive
  /-- REQUEST_STANDBY, R667. 0x5050:02 REQUEST 2 makes the hub STANDBY with SYNC NONE. -/
  | requestStandby
  /-- CTX_CREATE, R549. Creates a context from its record and initializes or scans its bale records. -/
  | ctxCreate (fn : Nat)
  /-- CTX_CREATE_DONE, R549. Record initialization or the REATTACH scan ends and BUSY clears. -/
  | ctxCreateDone (fn : Nat)
  /-- CTX_TEARDOWN, R569. Ends a context's queues, steps, translations and bales. -/
  | ctxTeardown (fn : Nat)
  /-- CTX_TEARDOWN_DONE, R569. The last teardown action ends and the context number and PASID become free. -/
  | ctxTeardownDone (fn : Nat)
  /-- QUEUE_BIND, R556. Binds a queue to a context through a doorbell page. -/
  | queueBind (fn : Nat)
  /-- QUEUE_UNBIND, R557. Unbinds a queue whose read steps have ended. -/
  | queueUnbind (fn : Nat)
  /-- SLOT_CONFIG, R562. Makes a slot a tally or a seal. -/
  | slotConfig (fn : Nat)
  /-- SLOT_FREE, R562. Frees a slot no step is pending on. -/
  | slotFree (fn : Nat)
  /-- ABORT, R568. Ends the steps in a seal, queue or context scope ABORTED. -/
  | abort (fn : Nat)
  /-- ABORT_DONE, R568. Every step in scope has ended and ABORT ends OK with the count. -/
  | abortDone (fn : Nat)
  /-- CTX_QUERY, R573. Returns a context's usage counts. -/
  | ctxQuery (fn : Nat)
  /-- PART_QUERY, R574. Returns a partition's usage counts. -/
  | partQuery (fn : Nat)
  /-- PART_RESET, R571. Starts a partition reset. -/
  | partReset (fn : Nat)
  /-- PARTITION_RESET_DONE, R571. The reset ends and STATE returns to RUNNING. -/
  | partitionResetDone (p : Nat)
  /-- QUEUE_STEP_READ, R557. The hub reads the next step of an active queue, up to 16 ahead, and arms its seal. -/
  | queueStepRead (q : Nat) (entry rec : Fetched)
  /-- STEP_DISPATCH, R557. A step whose order and wait are met is dispatched to its unit. -/
  | stepDispatch (q : Nat)
  /-- COPY_STEP_COMMIT, R561. Every write of a COPY step is performed and it reaches its commit point. -/
  | copyStepCommit (q : Nat)
  /-- MCTP_MESSAGE, R582. A message arrives over MCTP and is discarded or taken as a Pelxel request. -/
  | mctpMessage (pcie : Bool) (message : List (BitVec 8)) (secured : Bool)
  /-- MAILBOX_GO, R587. A mailbox GO takes a Pelxel request from HPF_MBX_REQ and answers in HPF_MBX_RSP. -/
  | mailboxGo (fn : Fin 9)
  /-- READ, R584. Pelxel READ of an object subindex. -/
  | read (a : Accessor) (inst : Fin 32) (payload : List (BitVec 8)) (secured : Bool)
  /-- WRITE, R586. Pelxel WRITE of an object subindex, immediate or staged. -/
  | write (a : Accessor) (inst : Fin 32) (payload : List (BitVec 8)) (secured : Bool)
  /-- COMMIT, R588. Pelxel COMMIT or DISCARD of the accessor's staged set. -/
  | commit (a : Accessor) (inst : Fin 32) (payload : List (BitVec 8)) (secured : Bool)
  /-- INFO, R584. Pelxel INFO returns type, rights, size and default. -/
  | info (a : Accessor) (inst : Fin 32) (payload : List (BitVec 8)) (secured : Bool)
  /-- EVENT_GET, R597. Removes and returns entries from the management queue. -/
  | eventGet (a : Accessor) (inst : Fin 32) (payload : List (BitVec 8)) (secured : Bool)
  /-- REG_READ, R584. Management read of a register. -/
  | regRead (a : Accessor) (inst : Fin 32) (payload : List (BitVec 8)) (secured : Bool)
  /-- REG_WRITE, R584. Management write of a register, ST fields staged. -/
  | regWrite (a : Accessor) (inst : Fin 32) (payload : List (BitVec 8)) (secured : Bool)
  /-- ACTION_COMMIT, R588. 0x2F00:01 ACTION 1 starts a check of the staged set. -/
  | actionCommit (a : Accessor)
  /-- ACTION_DISCARD, R588. 0x2F00:01 ACTION 2 empties the staged set. -/
  | actionDiscard (a : Accessor)
  /-- COMMIT_CHECK, R589. A staged set's turn comes and it is checked and accepted or failed. -/
  | commitCheck
  /-- EVENT_OCCURRENCE, R596. The collector takes an occurrence and emits or coalesces it. -/
  | eventOccurrence
  /-- COALESCE_WINDOW_END, R596. A record's window ends and it emits a coalesced entry or frees. -/
  | coalesceWindowEnd (code inst : Nat)
  /-- NOTIFY_REPEAT, R597. 10 ms after the last notice with entries waiting, EVENT_NOTIFY is sent again. -/
  | notifyRepeat
  /-- HOST_ENABLE_WRITE, R598. Writing HOST_ENABLE 1 sets the host log ring's next position to HOST_HEAD. -/
  | hostEnableWrite (on : Bool)
  /-- LOG_DROPS_CLEAR, R599. 0x5011:0D CLEAR zeroes the drop counters. -/
  | logDropsClear
  /-- BLACK_BOX_CLEAR, R600. 0x5012:04 CLEAR empties FIRST. -/
  | blackBoxClear
  /-- SCRUB_LOSS_CLEAR, R664. 0x5030:04 CLEAR zeroes LOST and RESCUED and empties LIST. -/
  | scrubLossClear
  /-- TOKEN, R611. A write of 0x6002 submits a token that Customs checks, then draws a new nonce. -/
  | token (value : List (BitVec 8)) (vdd18 : Bool)
  /-- FUSE_BURN_DONE, R608. A fuse burn ends, verified or torn, and deferred warm resets proceed. -/
  | fuseBurnDone (worked : Bool)
  /-- OWNER_ENROL, R616. A hash written to 0x6011 in INTEGRATOR fuses owner slot 1. -/
  | ownerEnrol (hash : List (BitVec 8))
  /-- SVN_ADVANCE, R622. Raises a kind's minimum SVN to the running image's SVN. -/
  | svnAdvance (kind : Fin 2)
  /-- ERASE_4K, R625. Flash command erasing a 4 KiB sector. -/
  | erase4k
  /-- ERASE_64K, R625. Flash command erasing a 64 KiB block. -/
  | erase64k
  /-- PROGRAM, R626. Flash command programming erased bytes with read-back checks. -/
  | program
  /-- FLASH_READ, R625. Flash command reading up to 256 bytes into DATA. -/
  | flashRead
  /-- ACTIVATE, R627. Flash command checking the other slot and writing a new select record. -/
  | activate
  /-- FLASH_COMMAND_DONE, R625. A flash command ends and RESULT leaves BUSY. -/
  | flashCommandDone (device : Bool)
  /-- SPDM_REQUEST, R629. Customs answers an SPDM request over DOE or MCTP. -/
  | spdmRequest (path : SpdmPath) (req : SpdmReq)
  /-- ROM, R640. Bring-up stage 0x02: ROM self-test, fuse read and life-cycle check. -/
  | rom (t : Nat)
  /-- CLOCKS, R640. Stage 0x03: PLL lock, hub time load, mesh self-test, VDD target. -/
  | clocks (t : Nat) (pll router : Option Nat) (d slack : List Nat)
  /-- FIRMWARE, R640. Stage 0x04: Customs firmware copy and check, licences, Waybill, mailbox. -/
  | firmware (t : Nat) (flash : Bool)
  /-- SERAI, R640. Stage 0x05: Serai self-test and porter payload copy and check. -/
  | serai (t : Nat) (rows : List (Nat × Nat))
  /-- HBM_INIT, R640. Stage 0x06: stack capacities, PHY training, hard repair, granule map. -/
  | hbmInit (t : Nat) (caps : List Nat) (failed late : BitVec 8)
  /-- MEMTEST, R645. Stage 0x07: the memory test phases, repairs and retirements. -/
  | memtest (t : Nat) (rows : List (Nat × Nat × Nat × Nat × Bool))
  /-- PORTER, R640. Stage 0x08: porter self-fetch in waves. -/
  | porter (t : Nat)
  /-- ENGINES, R640. Stage 0x09: engine array, plane and SRAM self-test with spare assignment. -/
  | engines (t : Nat) (cols : List (Nat × Nat))
  /-- SITES, R640. Stage 0x0A: site training and discovery, site map recorded. -/
  | sites (t : Nat)
  /-- START, R640. Stage 0x0B: domain formation ahead of mark 0. -/
  | start
  /-- MARK_ZERO, R653. Mark 0 fires 100 µs after the last stage, READY sets on every function and domains enter UP. -/
  | markZero (skew : Nat) (eyes : List Nat)
  /-- HPF_BRINGUP_UPDATE, R655. The hub updates HPF_BRINGUP progress at least every 100 ms. -/
  | hpfBringupUpdate (progress eta : Nat)
  /-- WARM_RESET, R656. Writing 0x5A to 0x7030 starts a hub warm reset. -/
  | warmReset
  /-- HUB_FAULT, R660. A hub fault condition logs 0x0FE0 and starts a warm reset or halts. -/
  | hubFault (cause : Fin 8)
  /-- REPLAN_NOW, R677. 0x5041:05 asks for a re-plan at the next mark. -/
  | replanNow
  /-- REPLAN_INTERVAL, R677. REPLAN_H hours elapse and a re-plan becomes due at the next mark. -/
  | replanInterval
  /-- AGEING_MEASURE, R676. Every second each monitor site measures and updates its ageing index. -/
  | ageingMeasure (d slack : List Nat)
  /-- TEMP_SAMPLE, R691. Every 100 µs each tile sensor is sampled. -/
  | tempSample (tiles hot : List Nat)
  /-- AVS_CURRENT_READ, R685. Every 100 µs the hub reads the VDD regulator's output current. -/
  | avsCurrentRead (amps : Nat)
  /-- AVS_TIMEOUT, R685. A regulator silent for 10 ms leaves the last target and logs 0x0FEF. -/
  | avsTimeout
  /-- RC_READ, R12. A read of an RC counter returns it and clears it. -/
  | rcRead (fn : Fin 13) (p : HostProbe)
  /-- REGISTER_WRITE, R12. A write to a register with no row of its own, under its fields' access codes. -/
  | registerWrite (fn : Fin 13) (c : HostChange)
  /-- RELAY_LINK_DOWN, R536. The relay link leaves training, by the partner's RELAY_PERST#, loss of RP_REFCLK or loss of the partner, and HPF_RELAY_STATUS.LINK_UP clears. -/
  | relayLinkDown
  /-- HOST_REFCLK_LOSS, R687. Loss of HP0_REFCLK or HP1_REFCLK in service takes the port's links down and the hub acts as for a hot reset of each link. -/
  | hostRefclkLoss (port : Nat)
  /-- HOST_LINK_UP, R528. A host-port link finishes training and its functions answer configuration requests. -/
  | hostLinkUp (l : Nat)
  /-- HOST_COMPLETION_TIMEOUT, R304. A non-posted hub request to host memory receives no completion within the completion timeout, the request or fill ends with its error and the host-port tag is freed. -/
  | hostCompletionTimeout (port tag : Nat)
  /-- D0_ENTRY, R523. A function in D3hot is returned to D0, its BARs answer again and pending MSI-X and backlogged entries are delivered as Bus Master Enable allows. -/
  | d0Entry (fn : Nat)
  /-- UCIE_LOW_POWER_REQUEST, R454. A chiplet requests a UCIe low-power link state and the site refuses it, keeping the module active. -/
  | ucieLowPowerRequest (k : Fin 8) (m : Fin 4)
  deriving DecidableEq, Repr

end Sys2Proof
end

