-- ==== Sys2Proof/Machine/State.lean ====
section
/-!
DEFINITION. The state of the hub, the reasons a step can stop, and the state after reset.
-/
namespace Sys2Proof.Machine

/-- Why the machine stops with a fault: never. The manual names no condition that stops the hub's model; an event whose cause is
absent changes nothing (log 4). -/
inductive Fault
  deriving DecidableEq, Repr

/-- Why a command has no meaning. -/
inductive Refusal where
  /-- Raised by the dispatch for a command that has no meaning yet. Safe. -/
  | notModelled (mnemonic : String)
  /-- Raised by every meaning for a command whose operands break WellFormed (a number beyond its range, data of
  the wrong length): no such command exists. Safe. -/
  | illFormed
  deriving DecidableEq, Repr

/-- The state of the hub. -/
structure State where
  /-- The commands that wait, first in, first out. -/
  pending : List Instr := []
  /-- The model's own counter: how many free values have been drawn (an assumption of the log, no state of the
  manual's). -/
  free    : Nat := 0
  /-- Registers whose value is kept as written; an unlisted register holds its reset value (R12). -/
  regs    : SMap Nat := []
  /-- Licences in effect: bit 0 Trail, bit 1 Route, bit 2 Relay (R6, 0x1030). -/
  licences : Nat := 0
  stage   : StageState := {}
  mem     : MemState := {}
  tier    : TierState := {}
  work    : WorkState := {}
  dict    : DictState := {}
  host    : HostState := {}
  eng     : EngineState := {}
  prt     : PorterState := {}
  ucs     : SiteState := {}
  flt     : FaultState := {}
  age     : AgeState := {}
  pair    : PairState := {}
  cus     : CustomsState := {}
  bring   : BringState := {}
  /-- What the hub sent, newest first. -/
  out     : List Output := []
  deriving DecidableEq, Repr

/-- The hub after reset: every field as its table gives it, nothing listed in memory, no command waiting. -/
def State.reset : State := {}

end Sys2Proof.Machine
end

