-- ==== Sys2Proof/Machine/Regs.lean ====
section
/-!
DEFINITION. Registers as they are kept: where a register's value stands, its reset value, its fields, counters.
-/
namespace Sys2Proof.Machine

/-- The key under which a register's value is kept. -/
def regKey (r : Reg) : Nat := (r.name.ctorIdx * 65536 + r.inst) * 65536 + r.idx

/-- SRI_DIR_ADJ_r at reset: the distances of R394, DIST_q in byte q. The register of site 1 is the manual's example
in R411. The distance of two sites is the hop count between their attach tiles (R28). -/
def adjReset (r : Nat) : Nat := (span 0 8).foldl (fun v q => v + siteDist r q * 2 ^ (8 * q)) 0

/-- The reset value of a register, from its field table. -/
def regReset (r : Reg) : Nat :=
  match r.name with
  | .sriDirAdj => adjReset r.idx
  | .mecId => r.inst
  | n => (regSpec n).fields.foldl (fun v f => v + f.rst * 2 ^ f.lo) 0

/-- The offset of a register inside its block. Bins of histogram n follow at 0x100 apart (R452). -/
def regOffset (r : Reg) : Nat :=
  match r.name with
  | .nocHistBin => 0x110 + 0x100 * (r.idx / 32) + 4 * (r.idx % 32)
  | n => (regSpec n).off + (regSpec n).stride * r.idx

/-- How many blocks of a kind there are (R531). -/
def blockCount : Block → Nat
  | .mec => 8 | .hbc => 8 | .ucs => 8 | .hpf => 13 | _ => 1

/-- The register exists: block and register numbers lie in range. -/
def regExists (r : Reg) : Bool :=
  decide (r.inst < blockCount (regSpec r.name).block) && decide (r.idx < (regSpec r.name).count)

/-- The value kept for a register. -/
def regRaw (s : State) (r : Reg) : Nat := smGet (regReset r) s.regs (regKey r)

/-- Keeps a value for a register. -/
def regPut (s : State) (r : Reg) (v : Nat) : State := { s with regs := smSet (regReset r) s.regs (regKey r) v }

/-- Bits `hi` to `lo` of a register as kept. -/
def regBits (s : State) (r : Reg) (hi lo : Nat) : Nat := bitsOf (regRaw s r) hi lo

/-- Replaces bits `hi` to `lo` of a register as kept. -/
def regSetBits (s : State) (r : Reg) (hi lo x : Nat) : State := regPut s r (setBitsOf (regRaw s r) hi lo x)

/-- The value in effect of a numeric object that has no field of its own, by its index and subindex (R578). -/
def objVal (s : State) (index sub dflt : Nat) : Nat :=
  match smGet none s.dict.vals (index * 256 + sub) with
  | some b => ofBytes b
  | none => dflt

/-- The field that holds a bit. -/
def fieldAt (fs : List RegField) (b : Nat) : Option RegField := fs.find? (fun f => decide (f.lo ≤ b) && decide (b ≤ f.hi))

/-- Counts up a counter register, which saturates at its all-ones value (R12, R90 and the counter tables). A register
with one counter field is meant. -/
def bump (s : State) (r : Reg) (k : Nat) : State :=
  match (regSpec r.name).fields with
  | f :: _ => regSetBits s r f.hi f.lo (satAdd (f.hi + 1 - f.lo) (regBits s r f.hi f.lo) k)
  | [] => s

/-- Raises a counter to a value if it is larger than the value held (STG_SKEW_MAX, R51). -/
def bumpMax (s : State) (r : Reg) (v : Nat) : State :=
  match (regSpec r.name).fields with
  | f :: _ => regSetBits s r f.hi f.lo (max (regBits s r f.hi f.lo) (min v (2 ^ (f.hi + 1 - f.lo) - 1)))
  | [] => s

end Sys2Proof.Machine
end

