-- ==== Sys2Proof/Machine/Events.lean ====
section
/-!
DEFINITION. Interrupts and events: MSI-X vectors (R511, R512), occurrences of status bits and of the other event
codes (R594, R595), and their way into the collector's intake (R596).
-/
namespace Sys2Proof.Machine

/-- Something sent. -/
def emit (s : State) (o : Output) : State := { s with out := o :: s.out }

def hostFn (s : State) (fn : Nat) : HostFn := smGet {} s.host.fns fn
def putFn (s : State) (fn : Nat) (h : HostFn) : State :=
  { s with host := { s.host with fns := smSet {} s.host.fns fn h } }
def modFn (s : State) (fn : Nat) (f : HostFn → HostFn) : State := putFn s fn (f (hostFn s fn))

/-- Bus Master Enable as the hub acts on it: a function in D3hot behaves as though it were 0 (R523). -/
def HostFn.master (h : HostFn) : Bool := h.bme && !h.d3hot

/-- A vector may be sent now: MSI-X is enabled, neither the function nor the entry is masked, and the function may
master (R512). -/
def HostFn.vectorOpen (h : HostFn) (v : Nat) : Bool :=
  h.msixEnable && !h.msixMask && !(smGet {} h.msixTable v).masked && h.master

/-- A vector becomes due: it is sent, or its pending bit sets (R512). -/
def raiseVector (s : State) (fn v : Nat) : State :=
  let h := hostFn s fn
  if h.vectorOpen v then
    let e := smGet {} h.msixTable v
    emit s (.msix fn v e.addr e.data)
  else putFn s fn { h with pba := setAdd h.pba v }

/-- Sends the pending vectors of a function that nothing holds any longer (R512). -/
def sendPending (s : State) (fn : Nat) : State :=
  (hostFn s fn).pba.foldl (fun s v =>
    let h := hostFn s fn
    if h.vectorOpen v then
      let e := smGet {} h.msixTable v
      emit (putFn s fn { h with pba := setDel h.pba v }) (.msix fn v e.addr e.data)
    else s) s

/-- Class and register index of a status register in event codes (R594). -/
def statusClass : RegName → Option (Nat × Nat)
  | .stgStatus => some (0x01, 0)
  | .tolIntStatus => some (0x02, 0)
  | .mecIntStatus => some (0x03, 0)
  | .mecWbIntStatus => some (0x03, 1)
  | .prtClIntStatus => some (0x04, 0)
  | .tirIntStatus => some (0x05, 0)
  | .sriIntStatus => some (0x06, 0)
  | .sriDirIntStatus => some (0x06, 1)
  | .hbcIntStatus => some (0x07, 0)
  | .ucsIntStatus => some (0x08, 0)
  | .nocIntStatus => some (0x09, 0)
  | .hpfIntStatus => some (0x0A, 0)
  | _ => none

/-- Priority of the event of a status bit (R595). -/
def statusPrio : RegName → Nat → Nat
  | .mecIntStatus, 2 => 0
  | .prtClIntStatus, 2 => 0
  | .hbcIntStatus, 4 => 0
  | .sriDirIntStatus, 0 => 0
  | .sriDirIntStatus, 2 => 0
  | .mecIntStatus, 0 => 1
  | .mecWbIntStatus, 2 => 1
  | .tirIntStatus, 0 => 1
  | .tirIntStatus, 1 => 1
  | .tirIntStatus, 2 => 1
  | .hbcIntStatus, 0 => 1
  | .hbcIntStatus, 1 => 1
  | .ucsIntStatus, 2 => 1
  | .ucsIntStatus, 5 => 1
  | .nocIntStatus, _ => 1
  | .stgStatus, 7 => 1
  | .stgStatus, 6 => 2
  | .tolIntStatus, _ => 2
  | .mecIntStatus, 1 => 2
  | .mecWbIntStatus, 0 => 2
  | .mecWbIntStatus, 1 => 2
  | .prtClIntStatus, 1 => 2
  | .prtClIntStatus, 3 => 2
  | .sriIntStatus, 1 => 2
  | .sriIntStatus, 2 => 2
  | .sriDirIntStatus, 3 => 2
  | .hbcIntStatus, 2 => 2
  | .hbcIntStatus, 3 => 2
  | .ucsIntStatus, 0 => 2
  | .ucsIntStatus, 1 => 2
  | .ucsIntStatus, 3 => 2
  | .ucsIntStatus, 4 => 2
  | .hpfIntStatus, 1 => 2
  | .hpfIntStatus, 2 => 2
  | _, _ => 3

/-- A counter of 0x5011 (R599), which saturates at 32 bits: 0 to 3 host ring, 4 to 7 management queue, 8 to 11
intake, each by priority. -/
def bumpDrop (c : Collector) (i k : Nat) : Collector :=
  { c with drops := listSet c.drops i (satAdd 32 (listGet 0 c.drops i) k) }

/-- Puts an occurrence into the intake FIFO of 1,024 places, 256 of which are kept for PRIO 0 and 1. One that finds
no place is dropped and counted (R596). -/
def intakePut (c : Collector) (o : Occ) : Collector :=
  let low := (c.intake.filter (fun x => decide (2 ≤ x.prio))).length
  if c.intake.length < 1024 ∧ (o.prio < 2 ∨ low < 768) then { c with intake := c.intake ++ [o] }
  else
    let c := bumpDrop c (8 + o.prio) 1
    { c with lost := c.lost + 1, lostMask := setBitOf c.lostMask o.prio true }

/-- Logs one event (R594): its occurrence goes to the collector with the stage and hub time of the instant. -/
def logEvent (s : State) (code inst prio detail : Nat) : State :=
  let o : Occ := { code := code, inst := inst, prio := prio, stage := s.stage.number % 2 ^ 32,
                   time := s.stage.hubTime, detail := detail }
  { s with dict := { s.dict with coll := intakePut s.dict.coll o } }

/-- The event code of a bit of a status register (R594). -/
def statusCode (n : RegName) (b : Nat) : Option Nat :=
  (statusClass n).map (fun p => p.1 * 256 + p.2 * 32 + b)

/-- The enable register and its bit for a status bit, and the vector and function it raises (R511, R540). STG_INT_EN
and the enables of the porter clusters stand at the bits the tables give. -/
def statusEnable (r : Reg) (b : Nat) : Option (Reg × Nat) :=
  match r.name with
  | .stgStatus => if b = 7 then some (⟨.stgIntEn, 0, 0⟩, 1) else if b = 6 then some (⟨.stgIntEn, 0, 0⟩, 0) else none
  | .mecIntStatus => some (⟨.mecIntEn, r.inst, 0⟩, b)
  | .mecWbIntStatus => some (⟨.mecWbIntEn, r.inst, 0⟩, b)
  | .prtClIntStatus => some (⟨.prtClIntEn, 0, r.idx⟩, b)
  | .tirIntStatus => some (⟨.tirIntEn, 0, 0⟩, b)
  | .sriIntStatus => some (⟨.sriIntEn, 0, 0⟩, b)
  | .sriDirIntStatus => some (⟨.sriDirIntEn, 0, 0⟩, b)
  | .hbcIntStatus => some (⟨.hbcIntEn, r.inst, 0⟩, b)
  | .ucsIntStatus => some (⟨.ucsIntEn, r.inst, 0⟩, b)
  | .nocIntStatus => some (⟨.nocIntEn, 0, 0⟩, b)
  | .hpfIntStatus => some (⟨.hpfIntEn, r.inst, 0⟩, b)
  | .tolIntStatus => some (⟨.tolIntEn, 0, r.idx⟩, b)
  | _ => none

/-- The vector of PF0 that a block's status bits raise (R511). HPF_ raises vector 0 of its own function (R540). -/
def statusVector (n : RegName) : Nat :=
  match n with
  | .stgStatus => 3 | .mecIntStatus => 4 | .mecWbIntStatus => 4 | .prtClIntStatus => 5 | .tirIntStatus => 6
  | .sriIntStatus => 7 | .hbcIntStatus => 8 | .sriDirIntStatus => 9 | .ucsIntStatus => 10 | .nocIntStatus => 11
  | .tolIntStatus => 1 | _ => 0

/-- The missed-guarantee interrupt of one function: at most once in a toll window, an occasion in a window that has
had it is carried over to the next (R76). -/
def raiseMissFn (s : State) (fn : Nat) : State :=
  let h := hostFn s fn
  if h.missRaised then putFn s fn { h with missCarry := true }
  else raiseVector (putFn s fn { h with missRaised := true }) fn 1

/-- The missed-guarantee interrupt of a partition: on PF0 and on the partition's function (R76). -/
def raiseMiss (s : State) (p : Nat) : State :=
  let s := raiseMissFn s 0
  if p = 0 then s else raiseMissFn s p

/-- Raises the interrupt that belongs to a status register. -/
def raiseStatus (s : State) (r : Reg) : State :=
  match r.name with
  | .hpfIntStatus => raiseVector s r.inst 0
  | .tolIntStatus => raiseMiss s r.idx
  | n => raiseVector s 0 (statusVector n)

/-- The hub sets a bit of a status register: the bit sets, the setting is one occurrence even of a bit that is set
(R594), and the interrupt is raised if the bit's enable is set. `inst` is the INSTANCE of the event and `detail` its
DETAIL. -/
def setStatus (s : State) (r : Reg) (b inst detail : Nat) : State :=
  let s := regSetBits s r b b 1
  let s := match statusCode r.name b with
    | some c => logEvent s c inst (statusPrio r.name b) detail
    | none => s
  match statusEnable r b with
  | some (e, k) => if regBits s e k k = 1 then raiseStatus s r else s
  | none => s

/-- The status register that an enable register belongs to. -/
def enableOf (r : Reg) : Option Reg :=
  match r.name with
  | .stgIntEn => some ⟨.stgStatus, 0, 0⟩
  | .mecIntEn => some ⟨.mecIntStatus, r.inst, 0⟩
  | .mecWbIntEn => some ⟨.mecWbIntStatus, r.inst, 0⟩
  | .prtClIntEn => some ⟨.prtClIntStatus, 0, r.idx⟩
  | .tirIntEn => some ⟨.tirIntStatus, 0, 0⟩
  | .sriIntEn => some ⟨.sriIntStatus, 0, 0⟩
  | .sriDirIntEn => some ⟨.sriDirIntStatus, 0, 0⟩
  | .hbcIntEn => some ⟨.hbcIntStatus, r.inst, 0⟩
  | .ucsIntEn => some ⟨.ucsIntStatus, r.inst, 0⟩
  | .nocIntEn => some ⟨.nocIntStatus, 0, 0⟩
  | .hpfIntEn => some ⟨.hpfIntStatus, r.inst, 0⟩
  | .tolIntEn => some ⟨.tolIntStatus, 0, r.idx⟩
  | _ => none

/-- After a write of an enable register: the interrupt is raised if a status bit and its enable are both set, where
the enable was written to 1 (R540 states it for HPF_INT_EN; that the other blocks do the same is a DESIGN CHOICE, log 135). The tolls'
own rule is R76. -/
def enableWritten (s : State) (en : Reg) (written : Nat) : State :=
  match enableOf en with
  | none => s
  | some st =>
    let hit := (span 0 32).any (fun b =>
      match statusEnable st b with
      | some (e, k) => decide (e = en) && bitOf written k && decide (regBits s en k k = 1) && decide (regBits s st b b = 1)
      | none => false)
    if hit then raiseStatus s st else s

/-- Draws a free value: the counter that the model's opaque functions are applied to advances. -/
def draw (s : State) : Nat × State := (s.free, { s with free := s.free + 1 })

end Sys2Proof.Machine
end

