-- ==== Sys2Proof/Machine/Collect.lean ====
section
/-!
DEFINITION. The event collector: emission of log entries on their three paths (R593, R597), coalescing (R596), and
the commands of the family.
-/
namespace Sys2Proof.Machine

abbrev Res := Host.Outcome State Fault Refusal

/-- The outcome of a command that takes effect. -/
abbrev ok (s : State) : Res := .next s
/-- The outcome of an event whose cause is absent (the end of a wait that nothing waits in, a completion of nothing): it changes
nothing. DESIGN CHOICE (log 4): the manual speaks of no such event. -/
abbrev notDue (s : State) : Res := .next s
/-- The outcome of a command whose operands are no command's. -/
abbrev illFormed : Res := .refused .illFormed

/-- Hub time reaches an instant, if it has not passed it. -/
def advance (s : State) (t : Nat) : State :=
  { s with stage := { s.stage with hubTime := max s.stage.hubTime t } }

def coll (s : State) : Collector := s.dict.coll
def putColl (s : State) (c : Collector) : State := { s with dict := { s.dict with coll := c } }

/-- The 32 bytes of a log entry (R593). -/
def LogEntry.bytes (e : LogEntry) : List Byte :=
  toBytes 2 e.code ++ toBytes 1 (e.prio + (if e.coalesced then 4 else 0)) ++ toBytes 1 0 ++ toBytes 2 e.inst ++
  toBytes 2 e.count ++ toBytes 4 e.seq ++ toBytes 4 e.stage ++ toBytes 8 e.time ++ toBytes 8 e.detail

/-- The host log ring of PF0 (R597): the entry and the new index are written while the ring has room, it is enabled
and PF0 may master, and vector 12 follows. Otherwise the entry is dropped and counted. -/
def hostRing (s : State) (e : LogEntry) : State :=
  let c := coll s
  if e.prio > c.hostPrio then s
  else if c.hostEnable && (hostFn s 0).master
      && decide ((c.hostPos + 2 ^ 32 - c.hostHead % 2 ^ 32) % 2 ^ 32 < 2 ^ c.hostLog2) then
    let s := emit s (.hostWrite 0 (c.hostBase + 32 * (c.hostPos % 2 ^ c.hostLog2)) e.bytes)
    let s := emit s (.hostWrite 0 (c.hostBase + 32 * 2 ^ c.hostLog2) (toBytes 8 (c.hostPos + 1)))
    let s := putColl s { coll s with hostPos := c.hostPos + 1 }
    raiseVector s 0 12
  else putColl s (bumpDrop c e.prio 1)

/-- The best (lowest) priority number in the management queue. -/
def bestPrio (l : List LogEntry) : Nat := l.foldl (fun m e => min m e.prio) 3
def worstPrio (l : List LogEntry) : Nat := l.foldl (fun m e => max m e.prio) 0

/-- EVENT_NOTIFY on the binding on which M last sent a request; none before M has sent one (R597). -/
def sendNotice (s : State) : State :=
  let c := coll s
  match c.lastBinding with
  | none => s
  | some b => putColl (emit s (.notify b.num c.mgmt.length (bestPrio c.mgmt))) { c with lastNotice := s.stage.hubTime }

/-- The management queue of 256 entries (R597): when it is full the oldest entry of the lowest priority makes room
for one of higher priority, and every loss is counted at the priority of the entry lost. -/
def mgmtQueue (s : State) (e : LogEntry) : State :=
  let c := coll s
  if e.prio > c.mgmtPrio then s
  else if c.mgmt.length < 256 then
    let s' := putColl s { c with mgmt := c.mgmt ++ [e] }
    if c.mgmt.isEmpty && decide (e.prio ≤ c.notifyPrio) then sendNotice s' else s'
  else
    let w := worstPrio c.mgmt
    if e.prio < w then
      let c := bumpDrop c (4 + w) 1
      putColl s { c with mgmt := listDelFirst (fun x => x.prio == w) c.mgmt ++ [e] }
    else putColl s (bumpDrop c (4 + e.prio) 1)

/-- The black box (R597, R600): FIRST keeps the first 512 entries of PRIO 0 or 1, LAST the latest 3,584 of all. -/
def blackBox (s : State) (e : LogEntry) : State :=
  let c := coll s
  let c := if e.prio < 2 ∧ c.boxFirst.length < 512 then { c with boxFirst := c.boxFirst ++ [e] } else c
  let l := c.boxLast ++ [e]
  putColl s { c with boxLast := l.drop (l.length - 3584), boxNext := (c.boxNext + 1) % 3584 }

/-- Emits one entry (R597): it takes the next sequence number and goes to the three paths. -/
def emitEntry (s : State) (o : Occ) (coalesced : Bool) (count : Nat) : State :=
  let c := coll s
  let e : LogEntry := { code := o.code, prio := o.prio, coalesced := coalesced, inst := o.inst, count := count,
                        seq := c.seq, stage := o.stage, time := o.time, detail := o.detail }
  let s := putColl s { c with seq := (c.seq + 1) % 2 ^ 32 }
  blackBox (mgmtQueue (hostRing s e) e) e

def CollRec.isFor (r : CollRec) (code inst : Nat) : Bool := r.code == code && r.inst == inst

/-- Changes the record of a CODE and INSTANCE. -/
def Collector.modRec (c : Collector) (code inst : Nat) (f : CollRec → CollRec) : Collector :=
  { c with recs := listModFirst (fun r => r.isFor code inst) f c.recs }

/-- Frees the record of a CODE and INSTANCE. -/
def Collector.delRec (c : Collector) (code inst : Nat) : Collector :=
  { c with recs := listDelFirst (fun r => r.isFor code inst) c.recs }

/-- Takes one occurrence (R596, points 1 to 3). -/
def takeOcc (s : State) (o : Occ) : State :=
  let c := coll s
  let now := s.stage.hubTime
  match c.recs.find? (fun r => r.isFor o.code o.inst) with
  | some r =>
    let first := match r.first with | some f => some f | none => some o
    if r.count + 1 = 65535 then
      let s := emitEntry s (first.getD o) true 65535
      let c := coll s
      putColl s (c.modRec o.code o.inst
        (fun r => { r with count := 0, first := none, endAt := now + 1000 * c.coalesceUs }))
    else
      putColl s (c.modRec o.code o.inst (fun r => { r with count := r.count + 1, first := first }))
  | none =>
    let s := emitEntry s o false 1
    let c := coll s
    if c.recs.length < 256 ∧ c.coalesceUs ≠ 0 then
      putColl s { c with recs := c.recs ++ [{ code := o.code, inst := o.inst, prio := o.prio, count := 0,
                                              endAt := now + 1000 * c.coalesceUs, first := none }] }
    else s

/-- One 0x0CE0 entry reports the occurrences that found no place, once the intake has room (R596). -/
def reportLost (s : State) : State :=
  let c := coll s
  if c.lost = 0 ∨ 1024 ≤ c.intake.length then s
  else
    let s := putColl s { c with lost := 0, lostMask := 0 }
    emitEntry s { code := 0x0CE0, inst := 0, prio := 1, stage := s.stage.number % 2 ^ 32, time := s.stage.hubTime,
                  detail := c.lostMask } false (min c.lost 65535)

/-- EVENT_OCCURRENCE (R596): the collector takes the oldest occurrence of its intake. -/
def execEventOccurrence (s : State) : Res :=
  match (coll s).intake with
  | [] => notDue s
  | o :: rest => ok (reportLost (takeOcc (putColl s { coll s with intake := rest }) o))

/-- COALESCE_WINDOW_END (R596, points 4 and 5): a window that merged occurrences emits one entry of them and a new
window opens; an empty one frees its record. A new window takes the length then in force (R598). -/
def execCoalesceWindowEnd (code inst : Nat) (s : State) : Res :=
  match (coll s).recs.find? (fun r => r.isFor code inst) with
  | none => notDue s
  | some r =>
    let s := advance s r.endAt
    match r.first with
    | none => ok (putColl s ((coll s).delRec code inst))
    | some f =>
      let s := emitEntry s f true r.count
      let c := coll s
      if c.coalesceUs = 0 then ok (putColl s (c.delRec code inst))
      else ok (putColl s (c.modRec code inst
        (fun r => { r with count := 0, first := none, endAt := r.endAt + 1000 * c.coalesceUs })))

/-- NOTIFY_REPEAT (R597): 10 ms after the last notice, while entries wait, the notice is sent again. -/
def execNotifyRepeat (s : State) : Res :=
  let c := coll s
  match c.lastBinding with
  | none => notDue s
  | some _ => if c.mgmt.isEmpty then notDue s else ok (sendNotice (advance s (c.lastNotice + 10000000)))

end Sys2Proof.Machine
end

