-- ==== Sys2Proof/Machine/Hbm.lean ====
section
/-!
DEFINITION. Contents of HBM byte by byte, lines, the address map (R34 to R37), the granule map and the fine-grain hash
(R351 to R356), and home tiles (R275, R276, R317).
-/
namespace Sys2Proof.Machine

/-! ### Bytes and lines -/

/-- The free value that stands for a byte's granule, 0 if the granule's content is defined. -/
def undefAt (m : HbmMem) (a : Nat) : Nat := smGet 0 m.undef (a / 2 ^ 30)

/-- Reads one byte of HBM: a listed byte, or what an unlisted byte reads as. -/
def memByte (m : HbmMem) (a : Nat) : Byte :=
  match smFind m.cells a with
  | some b => b
  | none => if undefAt m a = 0 then 0 else Config.undefByte (undefAt m a) a

/-- Writes one byte of HBM, keeping the canonical form: where the content is defined, 0 is not listed. -/
def memPut (m : HbmMem) (a : Nat) (b : Byte) : HbmMem :=
  if b = 0 ∧ undefAt m a = 0 then { m with cells := smErase m.cells a }
  else { m with cells := smInsert m.cells a b }

/-- The canonical form of memory: addresses rising, and no listed byte equal to what an unlisted one reads as. -/
def cellsWf (m : HbmMem) : List Host.Cell → Bool
  | [] => true
  | (a, b) :: l => (decide (b ≠ 0) || decide (undefAt m a ≠ 0)) && smAbove l a && cellsWf m l

def Memory.wf (m : HbmMem) : Bool := cellsWf m m.cells

/-- Writes consecutive bytes. -/
def memPutBytes (m : HbmMem) (a : Nat) : List Byte → HbmMem
  | [] => m
  | b :: l => memPutBytes (memPut m a b) (a + 1) l

/-- Reads consecutive bytes. -/
def memBytes (m : HbmMem) (a n : Nat) : List Byte := (span a n).map (memByte m)

def lineOfBytes (l : List Byte) : Line := BitVec.ofNat 1024 (ofBytes l)
def lineBytes (d : Line) : List Byte := toBytes 128 d.toNat

/-- The bits of a line that a byte mask selects: eight ones for each byte. -/
def maskBits (m : BitVec 128) : Line :=
  BitVec.ofNat 1024 ((span 0 128).foldl (fun v k => if m.getLsbD k then v + 0xFF * 2 ^ (8 * k) else v) 0)

/-- A line with the bytes that a mask selects replaced. -/
def mergeLine (old new : Line) (m : BitVec 128) : Line := (old &&& ~~~ maskBits m) ||| (new &&& maskBits m)

/-- The HA of a line. -/
def lineHa (l : Nat) : Nat := l * 128

/-- The sectors of a line are poisoned. -/
def linePoison (m : HbmMem) (l : Nat) : Bool := m.poison.contains (2 * l) || m.poison.contains (2 * l + 1)

/-- Reads a whole line of HBM. -/
def memLine (m : HbmMem) (l : Nat) : Line := lineOfBytes (memBytes m (lineHa l) 128)

/-- Writes a whole line of HBM: both sectors take a valid code (R363). -/
def memPutLine (m : HbmMem) (l : Nat) (d : Line) : HbmMem :=
  let m := memPutBytes m (lineHa l) (lineBytes d)
  { m with poison := setDel (setDel m.poison (2 * l)) (2 * l + 1) }

/-- Writes the poison encoding to both sectors of a line (R405). -/
def memPoisonLine (m : HbmMem) (l : Nat) : HbmMem :=
  { m with poison := setAdd (setAdd m.poison (2 * l)) (2 * l + 1) }

/-- Writes whole sectors, which take a valid code: used for bale records and slots. -/
def memPutSectors (m : HbmMem) (a : Nat) (b : List Byte) : HbmMem :=
  let m := memPutBytes m a b
  { m with poison := m.poison.filter (fun k => !(decide (a / 64 ≤ k) && decide (k < (a + b.length + 63) / 64))) }

def hbm (s : State) : HbmMem := s.mem.hbm
def putHbm (s : State) (m : HbmMem) : State := { s with mem := { s.mem with hbm := m } }

/-! ### The address map -/

def tierBase : Nat := 0x1_0000_0000_0000
def imageBase : Nat := 0xF_FFE0_0000_0000
def imageEnd : Nat := 0xF_FFE0_0100_0000
/-- The MMIO region reaches from here to the Waybill's base (R34). -/
def mmioBase : Nat := 0xF_FF00_0000_0000
def waybillBase : Nat := 0xF_FFF0_0000_0000

def isHbm (ha : Nat) : Bool := decide (ha < tierBase)
def isTier (ha : Nat) : Bool := decide (tierBase ≤ ha) && decide (ha < 0x2_0000_0000_0000)
def isImage (ha : Nat) : Bool := decide (imageBase ≤ ha) && decide (ha < imageEnd)

/-- Populated HBM in bytes (R37). -/
def populated (s : State) : Nat := (s.mem.westGib + s.mem.eastGib) * 2 ^ 30

/-- The mirror area (R535) is the highest 4 GiB of populated HBM. -/
def mirrorBase (s : State) : Nat := populated s - 4 * 2 ^ 30

def licTrail (s : State) : Bool := bitOf s.licences 0
def licRoute (s : State) : Bool := bitOf s.licences 1
def licRelay (s : State) : Bool := bitOf s.licences 2 && (licTrail s || licRoute s)
/-- A base licence is in effect (R7). -/
def licensed (s : State) : Bool := licTrail s || licRoute s
/-- The licences enable a partition (R6). -/
def partLicensed (s : State) (p : Nat) : Bool :=
  decide (p = 0) || (licRoute s && decide (p ≤ 8)) || (licTrail s && decide (p ≤ 4))
/-- The licences enable an engine, a stack, a tile's clusters (R6). -/
def engineLicensed (s : State) (e : Nat) : Bool := licRoute s || (licTrail s && (e == 0 || e == 1 || e == 4 || e == 5))
def stackLicensed (s : State) (h : Nat) : Bool := engineLicensed s h
def tileLicensed (s : State) (t : Nat) : Bool := licRoute s || (licTrail s && decide (t / 16 ≤ 4))

def part (s : State) (p : Nat) : Part := smGet {} s.work.parts p
def putPart (s : State) (p : Nat) (x : Part) : State :=
  { s with work := { s.work with parts := smSet {} s.work.parts p x } }

/-- The partition's function is present and enabled (R8, R35). -/
def partEnabled (s : State) (p : Nat) : Bool := (part s p).enable && partLicensed s p

/-- The partition whose carve-out holds a granule. -/
def granuleOwner (s : State) (g : Nat) : Option Nat :=
  (span 0 9).find? (fun p => (part s p).granules.any (fun e => e.granule == g))

/-- The partition that an HBM or tier address belongs to (R329); P0 where no carve-out holds it. -/
def partOf (s : State) (ha : Nat) : Nat :=
  if isTier ha then (ha - tierBase) / 2 ^ 42 else (granuleOwner s (ha / 2 ^ 30)).getD 0

/-- Function and bale number of a tier address (R274, R276). -/
def tierFn (ha : Nat) : Nat := (ha - tierBase) / 2 ^ 42
def baleNum (ha : Nat) : Nat := bitsOf ha 41 16

def context (s : State) (c : Nat) : Option Context := smGet none s.work.ctxs c
def putContext (s : State) (c : Nat) (x : Option Context) : State :=
  { s with work := { s.work with ctxs := smSet none s.work.ctxs c x } }
def modContext (s : State) (c : Nat) (f : Context → Context) : State := putContext s c ((context s c).map f)

/-- The tier range of a context holds an address. -/
def Context.holds (x : Context) (ha : Nat) : Bool :=
  decide (x.tier.base ≤ ha) && decide (ha < x.tier.base + x.tier.bales * 65536)

/-- The live context whose tier range holds an address (R274). -/
def tierCtx (s : State) (ha : Nat) : Option (Nat × Context) :=
  s.work.ctxs.findSome? (fun p => match p.2 with
    | some x => if x.phase != .creating && x.fn == tierFn ha && x.holds ha then some (p.1, x) else none
    | none => none)

/-- The address is mapped (R36, R274). -/
def mapped (s : State) (ha : Nat) : Bool :=
  if isHbm ha then decide (ha < populated s)
  else if isTier ha then decide (tierFn ha ≤ 8) && partEnabled s (tierFn ha) && (tierCtx s ha).isSome
  else decide (mmioBase ≤ ha) && decide (ha < waybillBase + 65536)

/-- An unmapped access logs one event (R36). -/
def logUnmapped (s : State) (init ha : Nat) : State := logEvent s 0x0DE0 init 1 ha

/-! ### Placement -/

/-- The granule map's entry, by R353 where none was set. -/
def gmapOf (s : State) (g : Nat) : Option GmapEntry := smGet none s.mem.gmap g

/-- Half and half address of an HBM address (R352). -/
def halfAddr (s : State) (ha : Nat) : Option (Nat × Nat) :=
  (gmapOf s (ha / 2 ^ 30)).map (fun e =>
    let o := ha % 2 ^ 30
    let j := o / 65536
    let sel := j % 2
    let slab := if sel = 1 then e.slabB else e.slabA
    let half := if e.mode = 2 then sel else e.mode
    (half, slab * 0x2000_0000 + (j / 2) * 65536 + o % 65536))

def stackOf (s : State) (h : Nat) : HbmStack := smGet {} s.mem.stackSt h
def putStack (s : State) (h : Nat) (x : HbmStack) : State :=
  { s with mem := { s.mem with stackSt := smSet {} s.mem.stackSt h x } }

/-- Stacks in service of a half, in ascending number (R347). -/
def stacksOfHalf (s : State) (half : Nat) : List Nat :=
  (span (4 * half) 4).filter (fun h => (stackOf s h).inService)

/-- Where a half address lies: half-local stack, pseudo-channel, bank, row, chunk of the row (R356). -/
structure HbmPlace where
  stk  : Nat
  pc   : Nat
  bank : Nat
  row  : Nat
  col  : Nat
  deriving DecidableEq, Repr

/-- The fine-grain hash (R356) with `n` the log2 of the pseudo-channels in the half: 8 for four stacks, 7 for two. -/
def hbmHash (n p : Nat) : HbmPlace :=
  let c := p / 256
  let u := c / 2 ^ n
  let q := (Nat.xor (Nat.xor (Nat.xor c u) (u / 2 ^ 8)) (u / 2 ^ 16)) % 2 ^ n
  let v := u / 4
  let w := v / 16
  { stk := q / 64, pc := q % 64, bank := (Nat.xor (Nat.xor v w) (w / 16)) % 16, row := w, col := u % 4 }

/-- The stack and place of an HBM address. -/
def hbmPlace (s : State) (ha : Nat) : Option (Nat × HbmPlace) :=
  match halfAddr s ha with
  | none => none
  | some (half, p) =>
    let st := stacksOfHalf s half
    let n := if st.length = 4 then 8 else 7
    let pl := hbmHash n p
    some (listGet (4 * half) st pl.stk, pl)

/-- The home half of a bale (R275). -/
def baleHalf (s : State) (fn b : Nat) : Nat :=
  match (part s fn).interleave with
  | 0 => 0
  | 1 => 1
  | _ => b % 2

/-- The home half of a line (R33, R317). -/
def lineHalf (s : State) (line : Nat) : Nat :=
  let ha := lineHa line
  if isTier ha then baleHalf s (tierFn ha) (baleNum ha)
  else match halfAddr s ha with
    | some (h, _) => h
    | none => 0

/-- The tile of the slice hash, as 16y + x, for a number `u` and a home half (R276, R317). -/
def hashTile (h u : Nat) : Nat :=
  let t := u % 80
  let x := if h = 0 then t % 8 else 15 - t % 8
  16 * (t / 8) + x

/-- Home tile of an HBM or tier line (R317); of an image line, R336. -/
def homeTile (s : State) (line : Nat) : Nat :=
  let ha := lineHa line
  if isImage ha then
    let n := (ha - imageBase) / 128
    16 * ((n / 16) % 10) + n % 16
  else
    let u := (Nat.xor (Nat.xor (Nat.xor line (line / 2 ^ 13)) (line / 2 ^ 26)) (line / 2 ^ 39)) % 0x2000
    hashTile (lineHalf s line) u

/-- Serai set of a line (R317, R336). -/
def homeSet (line : Nat) : Nat :=
  let ha := lineHa line
  if isImage ha then ((ha - imageBase) / 128) / 160
  else (Nat.xor (Nat.xor line (line / 2 ^ 10)) (line / 2 ^ 20)) % 1024

/-- Home tile of a bale (R276). -/
def baleTile (s : State) (fn b : Nat) : Nat :=
  hashTile (baleHalf s fn b) ((Nat.xor (Nat.xor b (b / 2 ^ 9)) (b / 2 ^ 18)) % 0x10000)

/-- Directory set of a line (R382). -/
def dirSetOf (line : Nat) : Nat := (Nat.xor (Nat.xor line (line / 2 ^ 11)) (line / 2 ^ 22)) % 2048

end Sys2Proof.Machine
end

