-- ==== Sys2Proof/Machine/HbmUnit.lean ====
section
/-!
DEFINITION. What every access to a stack shares: pending entries and open rows (R348 to R350), the counts and the error records of a
controller (R362, R366, R375, R376), and the accesses that the hub's own units make at one instant, split at chunk boundaries (R349).
-/
namespace Sys2Proof.Machine

/-! ### Error records -/

/-- Records the first error event of a controller (R376). -/
def hbcLastErr (s : State) (h kind : Nat) (r : HbmRow) (col : Nat) : State :=
  let g : Reg := ⟨.hbcLastErr, h, 0⟩
  if regBits s g 63 63 = 1 then s
  else regPut s g (2 ^ 63 + kind * 2 ^ 60 + r.pc % 64 * 2 ^ 54 + r.bank % 16 * 2 ^ 50 + col % 4 * 2 ^ 48 + r.row % 65536 * 2 ^ 32 +
    s.stage.number % 2 ^ 32)

/-- The row becomes due for repair (R366), unless it is retired. -/
def rowDue (s : State) (h : Nat) (r : HbmRow) : State :=
  let x := stackOf s h
  if x.due.contains r || x.retired.contains r || x.repairing == some r then s else putStack s h { x with due := x.due ++ [r] }

/-- Corrected sectors count toward the repair of their row (R366). -/
def rowCorrected (s : State) (h : Nat) (r : HbmRow) (k : Nat) : State :=
  let x := stackOf s h
  let n := ((x.rowCount.find? (fun p => p.1 == r)).map (fun p => p.2)).getD 0 + k
  let s := putStack s h { x with rowCount := (x.rowCount.filter (fun p => p.1 != r)) ++ [(r, n)] }
  let t := regBits s ⟨.hbcRepairCtrl, h, 0⟩ 7 0
  if (if t = 0 then 8 else t) ≤ n then rowDue s h r else s

/-- A sector that a client's read met (R362). `ha` is the address that the event names. -/
def clientSector (s : State) (h : Nat) (r : HbmRow) (col ha : Nat) (o : SectorRead) : State :=
  match o with
  | .good => s
  | .corrected => rowCorrected (hbcLastErr (bump s ⟨.hbcCeCount, h, 0⟩ 1) h 1 r col) h r 1
  | .bad =>
    let s := hbcLastErr (bump s ⟨.hbcUeCount, h, 0⟩ 1) h 2 r col
    rowDue (setStatus s ⟨.hbcIntStatus, h, 0⟩ 0 h ha) h r

/-! ### Pending entries and rows -/

def pcEntries (s : State) (h pc : Nat) : List HbmEntry := s.mem.entries.filter (fun e => e.stack == h && e.pc == pc)

def HbmPlace.toRow (p : HbmPlace) : HbmRow := { pc := p.pc, bank := p.bank, row := p.row }
def HbmEntry.place (e : HbmEntry) : HbmRow := { pc := e.pc, bank := e.bank, row := e.row }

/-- The bank of a row is held by a repair (R367). -/
def bankHeldAt (s : State) (h : Nat) (r : HbmRow) : Bool :=
  match (stackOf s h).repairing with
  | some q => q.pc == r.pc && q.bank == r.bank
  | none => false

def bankHeld (s : State) (e : HbmEntry) : Bool := bankHeldAt s e.stack e.place

/-- A pseudo-channel has no free entry, or requests are held before it (R39, R350). -/
def pcFull (s : State) (h pc : Nat) : Bool :=
  decide (32 ≤ (pcEntries s h pc).length) || s.mem.hbmHeld.any (fun e => e.stack == h && e.pc == pc)

def rowOpen (s : State) (h : Nat) (r : HbmRow) : Bool := smGet 0 (stackOf s h).openRows (16 * r.pc + r.bank) == r.row + 1

/-- Opens a row; an activation counts (R348, R375). -/
def openRow (s : State) (h : Nat) (r : HbmRow) : State :=
  if rowOpen s h r then s
  else
    let x := stackOf s h
    bump (putStack s h { x with openRows := smSet 0 x.openRows (16 * r.pc + r.bank) (r.row + 1) }) ⟨.hbcAct, h, 0⟩ 1

/-- A request takes a pending entry, or is held before the controller in its place (R39, R350). -/
def takeEntry (s : State) (e : HbmEntry) : State :=
  if pcFull s e.stack e.pc then { s with mem := { s.mem with hbmHeld := s.mem.hbmHeld ++ [e] } }
  else { s with mem := { s.mem with entries := s.mem.entries ++ [e] } }

/-- An entry is freed: the oldest request held before its pseudo-channel takes it (R39). -/
def dropEntry (s : State) (e : HbmEntry) : State :=
  let here (x : HbmEntry) : Bool := x.stack == e.stack && x.pc == e.pc
  let es := listDelFirst (fun x => x == e) s.mem.entries
  match s.mem.hbmHeld.find? here with
  | none => { s with mem := { s.mem with entries := es } }
  | some h => { s with mem := { s.mem with entries := es ++ [h], hbmHeld := listDelFirst here s.mem.hbmHeld } }

/-- The writes of a line that have not been made leave their controller. -/
def dropWrites (s : State) (line : Nat) : State :=
  let mine (e : HbmEntry) : Bool := e.line == line && e.isWrite
  let s := { s with mem := { s.mem with hbmHeld := s.mem.hbmHeld.filter (fun e => !mine e) } }
  (s.mem.entries.filter mine).foldl dropEntry s

/-! ### Accesses of one instant -/

/-- A byte range in pieces, split at chunk boundaries (R349): address and length of each; `k` bounds them. -/
def chunksFrom : Nat → Nat → Nat → List (Nat × Nat)
  | 0, _, _ => []
  | k + 1, a, n => if n = 0 then [] else (a, min n (256 - a % 256)) :: chunksFrom k (a + min n (256 - a % 256)) (n - min n (256 - a % 256))

def chunksOf (a n : Nat) : List (Nat × Nat) := chunksFrom (n / 256 + 2) a n

/-- Some chunk of a byte range finds no free entry, or its bank under repair (R39, R350, R367): the access is held. -/
def hbmBusy (s : State) (a n : Nat) : Bool :=
  (chunksOf a n).any (fun c => match hbmPlace s c.1 with
    | some (h, p) => pcFull s h p.pc || bankHeldAt s h p.toRow
    | none => false)

/-- One chunk of an access of a unit of the hub: the row opens and the bytes count; a read of a sector that holds the poison encoding
is an error of R362. -/
def serveChunk (s : State) (a n : Nat) (write : Bool) : State :=
  match hbmPlace s a with
  | none => s
  | some (h, p) =>
    let s := openRow s h p.toRow
    if write then bump s ⟨.hbcWrBytes, h, 0⟩ n
    else
      let bad := ((hbm s).poison.filter (fun k => decide (a / 64 ≤ k) && decide (k < (a + n + 63) / 64))).length
      let s := (span 0 bad).foldl (fun s _ => clientSector s h p.toRow p.col a .bad) s
      bump s ⟨.hbcRdBytes, h, 0⟩ n

/-- An access that a unit of the hub makes at one instant, of whole sectors, one request a chunk (R349, R350). -/
def hbmServe (s : State) (a n : Nat) (write : Bool) : State := (chunksOf a n).foldl (fun s c => serveChunk s c.1 c.2 write) s

end Sys2Proof.Machine
end

