-- ==== Sys2Proof/Machine/Serai.lean ====
section
/-!
DEFINITION. The Serai slice: lookup, ways a partition may use, victim choice, allocation, hits, write-back buffers
(R315 to R330, R334 to R337).
-/
namespace Sys2Proof.Machine

def seraiKey (tile set way : Nat) : Nat := (tile * 1024 + set) * 16 + way

def seraiAt (s : State) (tile set way : Nat) : Option SeraiLine := smGet none s.mem.serai (seraiKey tile set way)

def seraiPut (s : State) (tile set way : Nat) (l : Option SeraiLine) : State :=
  { s with mem := { s.mem with serai := smSet none s.mem.serai (seraiKey tile set way) l } }

/-- The way that holds a line in its home slice, with the line. -/
def seraiFind (s : State) (line : Nat) : Option (Nat × SeraiLine) :=
  (span 0 16).findSome? (fun w => match seraiAt s (homeTile s line) (homeSet line) w with
    | some l => if l.line = line then some (w, l) else none
    | none => none)

def seraiSetLine (s : State) (line way : Nat) (l : Option SeraiLine) : State :=
  seraiPut s (homeTile s line) (homeSet line) way l

/-- Owner of a Serai way in the whole hub (R328, R340): a partition, 0xE for Customs, 0xF where it is shared. -/
def wayOwner (s : State) (w : Nat) : Nat :=
  if w = 15 then 0xE
  else ((span 0 9).find? (fun p => bitOf (part s p).seraiWays w)).getD 0xF

/-- A way is a lock way of some partition (R334). -/
def isLockWay (s : State) (w : Nat) : Bool := (span 0 9).any (fun p => bitOf (part s p).lockWays w)

/-- A way is disabled in a slice, or is Customs' there (R337). -/
def wayDisabled (s : State) (tile w : Nat) : Bool :=
  bitOf (smGet 0 s.mem.wayOff tile) w || (decide (w = 14) && s.mem.customsW14.contains tile)

/-- Owner of a Serai way in a slice: Customs where the slice gave it way 14 (R337). -/
def wayOwnerAt (s : State) (tile w : Nat) : Nat := if w = 14 ∧ s.mem.customsW14.contains tile then 0xE else wayOwner s w

/-- The ways of which ordinary misses of a partition may choose: owned and shared ones, no lock way (R329, R334). -/
def openWays (s : State) (p : Nat) : List Nat :=
  (span 0 15).filter (fun w => !isLockWay s w && (wayOwner s w == p || wayOwner s w == 0xF))

/-- The ways that lines of a partition use in a slice: its open ways that are enabled. A partition whose open ways are all
disabled there borrows the lowest way of the slice that is neither a lock way nor Customs' (R337, R665). -/
def usableWays (s : State) (p tile : Nat) : List Nat :=
  match (openWays s p).filter (fun w => !wayDisabled s tile w) with
  | [] => if (openWays s p).isEmpty then [] else ((span 0 15).filter (fun w => !wayDisabled s tile w && !isLockWay s w)).take 1
  | l => l

/-- Of them, those that no sweep has yet to pass and that are not being given up (R330, R337). -/
def waysFor (s : State) (p tile : Nat) : List Nat :=
  (usableWays s p tile).filter (fun w => !s.mem.sweep.contains w && !s.mem.wayClosing.contains (16 * tile + w))

/-- A partition's lines find no way in a slice at all: all of its ways are lock ways. They are then served from HBM, and none is
allocated (DESIGN CHOICE, log 123). -/
def bypasses (s : State) (line : Nat) : Bool := (usableWays s (partOf s (lineHa line)) (homeTile s line)).isEmpty

/-- The way among some that holds the least recently used line that a test accepts; ties to the lowest way (R320). -/
def lruWay (s : State) (tile set : Nat) (ways : List Nat) (p : SeraiLine → Bool) : Option Nat :=
  (ways.foldl (fun (b : Option (Nat × Int)) w => match seraiAt s tile set w with
    | some l => if p l then match b with
        | some (bw, bu) => if l.used < bu then some (w, l.used) else some (bw, bu)
        | none => some (w, l.used)
      else b
    | none => b) none).map (fun x => x.1)

/-- The victim way of a set (R320): an invalid way, then a transient, stream, normal, keep line, never a locked one. -/
def victimWay (s : State) (tile set : Nat) (ways : List Nat) : Option Nat :=
  match ways.find? (fun w => (seraiAt s tile set w).isNone) with
  | some w => some w
  | none =>
    [LineClass.transient, .stream, .normal, .keep].findSome?
      (fun c => lruWay s tile set ways (fun l => !l.locked && l.cls == c))

/-- Keep lines of a set. -/
def keepCount (s : State) (tile set : Nat) : Nat :=
  ((span 0 16).filter (fun w => match seraiAt s tile set w with | some l => l.cls == .keep | none => false)).length

def keepMax (s : State) : Nat := regBits s ⟨.sriCtrl, 0, 0⟩ 4 0

/-- Makes room for one more keep line: the least recently used keep line of the set becomes normal if the set is at
KEEP_MAX (R321). -/
def keepRoom (s : State) (tile set : Nat) : State :=
  if keepCount s tile set < keepMax s then s
  else match lruWay s tile set (span 0 16) (fun l => l.cls == .keep) with
    | some w => match seraiAt s tile set w with
      | some l => seraiPut s tile set w (some { l with cls := .normal })
      | none => s
    | none => s

/-- Class of a new line by the hint of its request (R319, R321, R322). On tier lines hint 3 acts as hint 1. -/
def hintClass (s : State) (line hint : Nat) : LineClass :=
  match hint with
  | 0 => .normal
  | 1 => .stream
  | 2 => if keepMax s = 0 then .normal else .keep
  | _ => if isTier (lineHa line) then .stream else .transient

/-- The next most recently used mark, and the next least recently used one. -/
def nextMru (s : State) : Int × State := (s.mem.mru + 1, { s with mem := { s.mem with mru := s.mem.mru + 1 } })
def nextLru (s : State) : Int × State := (s.mem.lru - 1, { s with mem := { s.mem with lru := s.mem.lru - 1 } })

/-- Places a line in a way, by its class at most or least recently used (R319). -/
def seraiPlace (s : State) (line way hint : Nat) (data : Line) (dirty poison : Bool) : State :=
  let c := hintClass s line hint
  let s := if c = .keep then keepRoom s (homeTile s line) (homeSet line) else s
  let (u, s) := if c = .stream then nextLru s else nextMru s
  seraiSetLine s line way (some { line := line, data := data, cls := c, dirty := dirty, locked := false,
                                  poison := poison, used := u })

/-- What an allocation came to. -/
inductive AllocRes where
  /-- The way is free for the line. -/
  | way (w : Nat) (s : State)
  /-- Every write-back buffer of the slice is full (R324). -/
  | noBuffer
  /-- The victim is a line of this bale, which must leave first (R323): a tier line number. -/
  | bale (line : Nat)
  /-- No way of the set may hold the line now. -/
  | noWay

/-- Write-back buffers in use in a slice (R324). -/
def wbUsed (s : State) (tile : Nat) : Nat := (s.mem.wbBufs.filter (fun b => b.tile == tile)).length

/-- Moves a dirty HBM line to a write-back buffer, counted for its partition (R324, R343). -/
def toBuffer (s : State) (tile : Nat) (l : SeraiLine) : State :=
  let s := { s with mem := { s.mem with wbBufs := s.mem.wbBufs ++
                      [{ tile := tile, line := l.line, data := l.data, poison := l.poison }] } }
  bump s ⟨.sriWritebacks, 0, partOf s (lineHa l.line)⟩ 1

/-- Frees a way of a line's set for it (R320, R323, R324). -/
def makeWay (s : State) (line : Nat) (ways : List Nat) : AllocRes :=
  let tile := homeTile s line
  let set := homeSet line
  match victimWay s tile set ways with
  | none => .noWay
  | some w => match seraiAt s tile set w with
    | none => .way w s
    | some v =>
      if isTier (lineHa v.line) then .bale v.line
      else if v.dirty then
        if wbUsed s tile < 32 then .way w (seraiPut (toBuffer s tile v) tile set w none) else .noBuffer
      else .way w (seraiPut s tile set w none)

/-- Allocates a line in the Serai under its partition's ways (R320, R329). -/
def seraiAlloc (s : State) (line hint : Nat) (data : Line) (dirty poison : Bool) : AllocRes :=
  match makeWay s line (waysFor s (partOf s (lineHa line)) (homeTile s line)) with
  | .way w s => .way w (seraiPlace s line w hint data dirty poison)
  | r => r

/-- A hit (R319): the line becomes most recently used unless it is of stream class, and hint 2 makes it keep. -/
def seraiTouch (s : State) (line way hint : Nat) (l : SeraiLine) : State :=
  if hint = 2 then
    if keepMax s = 0 then
      let (u, s) := nextMru s
      seraiSetLine s line way (some { l with cls := .normal, used := u })
    else
      let s := if l.cls = .keep then s else keepRoom s (homeTile s line) (homeSet line)
      let (u, s) := nextMru s
      seraiSetLine s line way (some { l with cls := .keep, used := u })
  else if l.cls = .stream then s
  else
    let (u, s) := nextMru s
    seraiSetLine s line way (some { l with used := u })

/-- The data of a line that waits in a write-back buffer, the latest (R324). -/
def bufferLine (s : State) (line : Nat) : Option WbBuf := s.mem.wbBufs.reverse.find? (fun b => b.line == line)

/-- The current data of an HBM line below the Serai: a write-back buffer, else HBM, with whether it is poisoned. -/
def lowerLine (s : State) (line : Nat) : Line × Bool :=
  match bufferLine s line with
  | some b => (b.data, b.poison)
  | none => (memLine (hbm s) line, linePoison (hbm s) line)

/-- Writes a line to HBM below the Serai. -/
def lowerPut (s : State) (line : Nat) (d : Line) (poison : Bool) : State :=
  putHbm s (if poison then memPoisonLine (hbm s) line else memPutLine (hbm s) line d)

/-- Write-back buffers of a line that a later write supersedes, with their queued writes. -/
def dropBufs (s : State) (line : Nat) : State :=
  let s := dropWrites s line
  { s with mem := { s.mem with wbBufs := s.mem.wbBufs.filter (fun b => b.line != line) } }

/-- Writes a line to HBM at one instant, after every older write of it (R350). -/
def lowerWrite (s : State) (line : Nat) (d : Line) (poison : Bool) : State :=
  lowerPut (hbmServe (dropBufs s line) (lineHa line) 128 true) line d poison

/-- Makes at once the buffered writes of a line, so that HBM holds its current data. -/
def flushBufs (s : State) (line : Nat) : State :=
  match bufferLine s line with
  | some b => lowerWrite s line b.data b.poison
  | none => s

/-- Drops a line from its slice without write-back. -/
def seraiDrop (s : State) (line : Nat) : State :=
  match seraiFind s line with
  | some (w, _) => seraiSetLine s line w none
  | none => s

/-- Writes a dirty HBM line of the Serai back to HBM at once and keeps it, clean. -/
def seraiClean (s : State) (line : Nat) : State :=
  match seraiFind s line with
  | some (w, l) =>
    if l.dirty then
      let s := bump (lowerWrite s line l.data l.poison) ⟨.sriWritebacks, 0, partOf s (lineHa line)⟩ 1
      seraiSetLine s line w (some { l with dirty := false })
    else s
  | none => s

/-- The Customs way of a slice (R336, R337). -/
def customsWay (s : State) (tile : Nat) : Nat := if s.mem.customsW14.contains tile then 14 else 15

/-- A line of the image area that no image has filled (R336): it is valid in its Customs way and holds a free value. -/
def imageLine (s : State) (line : Nat) : State × Line :=
  let (d, s) := draw s
  let l : SeraiLine := { line := line, data := Config.undefLine d, cls := .normal, dirty := false, locked := false, used := 0 }
  (seraiSetLine s line (customsWay s (homeTile s line)) (some l), l.data)

/-- A read with hint 3 that hits a transient HBM line invalidates it without write-back; the content of the line's
address is then a free value (R322). -/
def discardAfter (s : State) (line : Nat) : State :=
  let s := dropBufs (bump (seraiDrop s line) ⟨.sriDiscardDrops, 0, partOf s (lineHa line)⟩ 1) line
  let (d, s) := draw s
  putHbm s (memPutLine (hbm s) line (Config.undefLine d))

end Sys2Proof.Machine
end

