-- ==== Sys2Proof/Machine/Records.lean ====
section
/-!
DEFINITION. Bale records (R282 to R285), residency (R279), and the error registers of the tier engines (R311 to R313).
-/
namespace Sys2Proof.Machine

/-- A bale record (R283). -/
structure Rec where
  state   : Nat
  tier    : Nat
  poison  : Bool
  err     : Nat
  codec   : Nat
  units   : Nat
  slot    : Nat
  payLen  : Nat
  fill    : Nat
  newTier : Nat
  fmt     : Nat
  lengths : Nat
  dataCrc : Nat
  gen     : Nat
  newSlot : Nat
  /-- The reserved bits and bytes, as they were read: 0 in a record that the hub writes (R17). -/
  resv    : Nat := 0
  deriving DecidableEq, Repr

/-- The 60 bytes of a record that its CRC covers. -/
def Rec.body (r : Rec) : List Byte :=
  toBytes 1 (r.state % 16 + 16 * (r.tier % 4) + 64 * b2n r.poison) ++ toBytes 1 r.err ++ toBytes 1 r.codec ++
  toBytes 1 r.units ++ toBytes 4 r.slot ++ toBytes 4 r.payLen ++ toBytes 1 r.fill ++ toBytes 1 r.newTier ++
  toBytes 2 r.fmt ++ toBytes 8 r.lengths ++ toBytes 4 r.dataCrc ++ toBytes 4 r.gen ++ toBytes 4 r.newSlot ++
  List.replicate 24 0

/-- The 64 bytes of a record. -/
def Rec.bytes (r : Rec) : List Byte := r.body ++ toBytes 4 (crc32c r.body)

/-- The fields of 64 record bytes. -/
def recOf (b : List Byte) : Rec :=
  let s := fieldOf b 0 1
  { state := s % 16, tier := (s / 16) % 4, poison := bitOf s 6, err := fieldOf b 1 1, codec := fieldOf b 2 1,
    units := fieldOf b 3 1, slot := fieldOf b 4 4, payLen := fieldOf b 8 4, fill := fieldOf b 0xC 1,
    newTier := fieldOf b 0xD 1, fmt := fieldOf b 0xE 2, lengths := fieldOf b 0x10 8, dataCrc := fieldOf b 0x18 4,
    gen := fieldOf b 0x1C 4, newSlot := fieldOf b 0x20 4, resv := b2n (bitOf s 7) + 2 * fieldOf b 0x24 24 }

/-- REC_CRC of record bytes agrees. -/
def recCrcOk (b : List Byte) : Bool := crc32c (b.take 60) == fieldOf b 0x3C 4

/-- The record address of a bale of a context. -/
def recAddr (x : Context) (bale : Nat) : Nat := x.tier.recBase + 64 * (bale - baleNum x.tier.base)

/-- Bytes of HBM as the hub's units read them below the Serai: none where a sector is uncorrectable. -/
def hbmRead (s : State) (a n : Nat) : Option (List Byte) :=
  if (hbm s).poison.any (fun k => decide (a / 64 ≤ k) && decide (k < (a + n + 63) / 64)) then none
  else some (memBytes (hbm s) a n)

/-- Bytes of HBM through the Serai line where one is valid, or a write-back buffer: how records and tables are read at the home. -/
def homeBytes (s : State) (a n : Nat) : Option (List Byte) :=
  (span 0 n).foldr (fun k (acc : Option (List Byte)) =>
    match acc with
    | none => none
    | some l =>
      let x := a + k
      match seraiFind s (x / 128) with
      | some (_, sl) => if sl.poison then none else some (BitVec.ofNat 8 (sl.data.toNat / 2 ^ (8 * (x % 128))) :: l)
      | none => match bufferLine s (x / 128) with
        | some wb => if wb.poison then none else some (BitVec.ofNat 8 (wb.data.toNat / 2 ^ (8 * (x % 128))) :: l)
        | none => if (hbm s).poison.contains (x / 64) then none else some (memByte (hbm s) x :: l)) (some [])

/-- The checks of a record that R285 and R706 make before a slot is touched, besides REC_CRC; a reserved field that is not zero
makes a bale header malformed (R17), which is taken as a failed check (DEDUCED, log 126). -/
def recFieldsOk (x : Context) (r : Rec) : Bool :=
  r.resv == 0 && (r.state == 0 || r.state == 2 || r.state == 3) && (r.tier == 1 || r.tier == 2) && decide (r.codec ≤ 3) &&
  decide (r.units = unitsOf r.payLen) && decide (r.units ≤ 32) &&
  decide (r.slot < if r.tier = 1 then x.tier.poolSlots else x.tier.parkSlots)

/-- What reading a bale's record comes to: good, KIND 3 for REC_CRC (or a record that cannot be read), KIND 1 for
another check (R285, R312, R706). -/
inductive RecRead where
  | good (r : Rec)
  | badCrc
  | badField (r : Rec)

def readRec (s : State) (x : Context) (bale : Nat) : RecRead :=
  match homeBytes s (recAddr x bale) 64 with
  | none => .badCrc
  | some b =>
    if recCrcOk b then
      let r := recOf b
      if recFieldsOk x r then .good r else .badField r
    else .badCrc

/-- Notes that the home tile's tier-map slice holds a record, of at most 2,048 (R282). -/
def cacheRec (s : State) (tile a : Nat) : State :=
  let l := smGet [] s.tier.cached tile
  let l := if l.contains a then l else l ++ [a]
  { s with tier := { s.tier with cached := smSet [] s.tier.cached tile (l.drop (l.length - 2048)) } }

/-- A tier engine needs the record of a bale: the tier-map slice of the home tile holds it, or reads its sector (R276, R282, R349). -/
def fetchRec (s : State) (x : Context) (bale : Nat) : State :=
  let a := recAddr x bale
  let tile := baleTile s x.fn bale
  if (smGet [] s.tier.cached tile).contains a then s else cacheRec (hbmServe s a 64 false) tile a

/-- Writes a record through to HBM as one sector (R282); a copy of the line in the Serai takes it too. -/
def writeRec (s : State) (x : Context) (bale : Nat) (r : Rec) : State :=
  let a := recAddr x bale
  let s := hbmServe (flushBufs s (a / 128)) a 64 true
  let s := putHbm s (memPutSectors (hbm s) a r.bytes)
  let s := match seraiFind s (a / 128) with
    | some (w, l) =>
      let sh := 8 * (a % 128)
      let m : BitVec 128 := BitVec.ofNat 128 ((2 ^ 64 - 1) * 2 ^ (a % 128))
      seraiSetLine s (a / 128) w (some { l with data := mergeLine l.data (BitVec.ofNat 1024 (ofBytes r.bytes * 2 ^ sh)) m })
    | none => s
  cacheRec s (baleTile s x.fn bale) a

/-- First line of a bale. -/
def baleLine (fn bale : Nat) : Nat := (tierBase + fn * 2 ^ 42 + bale * 65536) / 128

/-- The bale is in the Serai (R279). -/
def resident (s : State) (fn bale : Nat) : Bool := (seraiFind s (baleLine fn bale)).isSome

/-- The resident bale has a line that was written since it was filled or written back. -/
def baleDirty (s : State) (fn bale : Nat) : Bool :=
  (span (baleLine fn bale) 512).any (fun l => match seraiFind s l with | some (_, x) => x.dirty | none => false)

/-- The bytes of a resident bale. -/
def baleBytes (s : State) (fn bale : Nat) : List Byte :=
  (span (baleLine fn bale) 512).flatMap (fun l => match seraiFind s l with | some (_, x) => lineBytes x.data | none => [])

/-- Drops every line of a bale from the Serai (R279). -/
def dropBale (s : State) (fn bale : Nat) : State := (span (baleLine fn bale) 512).foldl seraiDrop s

/-- Marks every line of a resident bale clean (R293). -/
def cleanBale (s : State) (fn bale : Nat) : State :=
  (span (baleLine fn bale) 512).foldl (fun s l => match seraiFind s l with
    | some (w, x) => seraiSetLine s l w (some { x with dirty := false })
    | none => s) s

/-- Records the first lower-tier error (R312). -/
def tirLastErr (s : State) (st fn kind bale : Nat) : State :=
  if regBits s ⟨.tirLastErr, 0, 0⟩ 63 63 = 1 then s
  else regPut s ⟨.tirLastErr, 0, 0⟩ (2 ^ 63 + st * 2 ^ 48 + fn * 2 ^ 44 + kind * 2 ^ 42 + bale % 2 ^ 26)

/-- A bale operation, fill or request ended with TIER_ERROR for a lower-tier cause: the status bit and the record
(R311, R312). -/
def tierError (s : State) (fn kind bale : Nat) : State :=
  setStatus (tirLastErr s 3 fn kind bale) ⟨.tirIntStatus, 0, 0⟩ 0 fn (tierBase + fn * 2 ^ 42 + bale * 65536)

/-- The bale was set POISON with ERR 0x04 (R304, R311). -/
def tierUncorr (s : State) (fn bale : Nat) : State :=
  setStatus (tirLastErr s 4 fn 0 bale) ⟨.tirIntStatus, 0, 0⟩ 1 fn (tierBase + fn * 2 ^ 42 + bale * 65536)

/-- A request was answered TIER_ERROR or UNCORRECTABLE by the tiers (R313). -/
def countTierAnswer (s : State) (fn : Nat) (st : Status) : State :=
  match st with
  | .tierError => bump s ⟨.tirErrTier, 0, fn⟩ 1
  | .uncorrectable => bump s ⟨.tirErrUncorr, 0, fn⟩ 1
  | _ => s

/-- The status in ERR of a POISON record (R283, R305). -/
def poisonStatus (r : Rec) : Status := if r.err = 4 then .uncorrectable else .tierError

/-- An access to a POISON bale fails at once, resident or not (R305). -/
def balePoison (s : State) (line : Nat) : Option Status :=
  match tierCtx s (lineHa line) with
  | none => none
  | some (_, x) => match readRec s x (baleNum (lineHa line)) with
    | .good r => if r.poison then some (poisonStatus r) else none
    | .badField r => if r.poison then some (poisonStatus r) else none
    | .badCrc => none

/-- Operations on a bale that have not ended. -/
def baleOps (s : State) (fn bale : Nat) : List TierOp := s.tier.ops.filter (fun o => o.fn == fn && o.bale == bale)

/-- A fill of the bale is asked for or runs. -/
def filling (s : State) (fn bale : Nat) : Bool :=
  (baleOps s fn bale).any (fun o => match o.kind with | .fill _ => true | _ => false)

/-- A write-back of the bale has begun (state WRITING_BACK, R291). -/
def writingBack (s : State) (fn bale : Nat) : Bool :=
  (baleOps s fn bale).any (fun o => o.started && match o.kind with
    | .writeback => true | .evict => true | .replace => true | _ => false)

/-- Queues an operation at the bale's home tier engine, for a step, a maintenance command or neither (R290, R292). -/
def queueOpFor (s : State) (ctx fn bale : Nat) (k : TierKind) (step maint : Option Nat) (instant : Bool) : State :=
  { s with tier := { s.tier with nextOp := s.tier.nextOp + 1, ops := s.tier.ops ++
    [{ id := s.tier.nextOp, tile := baleTile s fn bale, fn := fn, bale := bale, ctx := ctx, kind := k, step := step, maint := maint,
       instant := instant }] } }

def queueOp (s : State) (ctx fn bale : Nat) (k : TierKind) (step : Option Nat) : State := queueOpFor s ctx fn bale k step none false

/-- The hint of a fill (R299): that of the access, else of the lowest advice entry of the partition that covers the
bale, else none. -/
def fillHint (s : State) (fn bale hint : Nat) : Nat :=
  if hint ≠ 0 then hint
  else match (span 0 16).find? (fun e =>
      let a := smGet {} s.tier.advice (16 * fn + e)
      a.fn == fn && decide (a.lo ≤ bale) && decide (bale ≤ a.hi)) with
    | some e => (smGet {} s.tier.advice (16 * fn + e)).hint
    | none => 0

/-- A miss asks the bale's home tier engine for a fill, unless one is asked for already (R279, R325). -/
def askFill (s : State) (line hint : Nat) : State :=
  let ha := lineHa line
  match tierCtx s ha with
  | none => s
  | some (c, x) =>
    if filling s x.fn (baleNum ha) then s
    else queueOp s c x.fn (baleNum ha) (.fill (fillHint s x.fn (baleNum ha) hint)) none

/-- The fill operations of a bale are marked as waited for by an access of one instant. -/
def markInstant (s : State) (fn bale : Nat) : State :=
  { s with tier := { s.tier with ops := s.tier.ops.map (fun o =>
      if o.fn = fn ∧ o.bale = bale then { o with instant := true } else o) } }

/-- An access of one instant asks for the fill that it waits for. -/
def askFillNow (s : State) (line hint : Nat) : State :=
  markInstant (askFill s line hint) (tierFn (lineHa line)) (baleNum (lineHa line))

/-- The status of a fill that an access of one instant waited for and that failed (R305). -/
def failedFill (s : State) (line : Nat) : Option Status :=
  let ha := lineHa line
  if isTier ha && !resident s (tierFn ha) (baleNum ha) then
    (s.tier.failed.find? (fun f => f.1 == tierFn ha && f.2.1 == baleNum ha)).map (fun f => f.2.2)
  else none

/-- That status has been taken. -/
def takeFailed (s : State) (line : Nat) : State :=
  let ha := lineHa line
  { s with tier := { s.tier with failed := listDelFirst (fun f => f.1 == tierFn ha && f.2.1 == baleNum ha) s.tier.failed } }

/-- A replacement asks the bale of a line to leave (R323). -/
def askLeave (s : State) (line : Nat) : State :=
  let ha := lineHa line
  match tierCtx s ha with
  | none => dropBale s (tierFn ha) (baleNum ha)
  | some (c, x) =>
    if (baleOps s x.fn (baleNum ha)).any (fun o => match o.kind with | .replace => true | .evict => true | _ => false) then s
    else queueOp s c x.fn (baleNum ha) .replace none

end Sys2Proof.Machine
end

