-- ==== Sys2Proof/Machine/Tolls.lean ====
section
/-!
DEFINITION. Tolls: initiators, rules, admission, missed guarantees (R62 to R68, R72 to R82).
-/
namespace Sys2Proof.Machine

/-- Initiator numbers (R78). -/
def initCluster (cl : Nat) : Nat := 0x200 + cl
def initEngine (e : Nat) : Nat := 0x840 + e
def initHost (port fn : Nat) : Nat := 0x848 + 9 * port + fn
def initTier (tile : Nat) : Nat := 0x860 + tile

def domain (s : State) (d : Nat) : Domain := smGet {} s.mem.domains d
def putDomain (s : State) (d : Nat) (x : Domain) : State :=
  { s with mem := { s.mem with domains := smSet {} s.mem.domains d x } }

/-- The domain of a site (R42); a site whose chiplet is refused belongs to none (R460). -/
def siteDomain (s : State) (site : Nat) : Option Nat :=
  if (smGet {} s.ucs.sites site).refused then none else (span 0 4).find? (fun d => bitOf (domain s d).sites site)

/-- The domain of a partition (R42). -/
def partDomain (s : State) (p : Nat) : Option Nat := (span 0 4).find? (fun d => bitOf (domain s d).parts p)

/-- The partition that owns the porter clusters of a tile (R544). -/
def tileOwner (s : State) (tile : Nat) : Option Nat := (span 0 9).find? (fun p => bitOf (part s p).tiles tile)

/-- The partition of an initiator other than a matrix engine (R79): a chiplet agent is taken to the lowest partition of
its site's domain, a tier engine and the relay port to P0 (R290, R536). -/
def initPart (s : State) (init : Nat) : Nat :=
  if init < 0x200 then
    match siteDomain s (init / 64) with
    | some d => ((span 0 9).find? (fun p => bitOf (domain s d).parts p)).getD 0
    | none => 0
  else if init < 0x840 then (tileOwner s ((init - 0x200) / 10)).getD 0
  else if init < 0x848 then 0
  else if init < 0x85A then (init - 0x848) % 9
  else 0

/-- The half an initiator lies in: that of its attach tile or tile column (R74). -/
def initHalf (init : Nat) : Nat :=
  if init < 0x200 then (if init / 64 < 4 then 0 else 1)
  else if init < 0x840 then (if ((init - 0x200) / 10) % 16 < 8 then 0 else 1)
  else if init < 0x848 then (if init - 0x840 < 4 then 0 else 1)
  else if init < 0x85A then (init - 0x848) / 9
  else if init = 0x85A then 0
  else if (init - 0x860) % 16 < 8 then 0 else 1

/-- Fields of a toll rule (R88, R89). -/
structure TollRule where
  valid : Bool
  prio  : Nat
  hi    : Nat
  lo    : Nat
  ceil  : Nat
  guar  : Nat
  deriving DecidableEq, Repr

def tollRule (s : State) (n : Nat) : TollRule :=
  let m := regRaw s ⟨.tolRuleMatch, 0, n⟩
  let b := regRaw s ⟨.tolRuleBudget, 0, n⟩
  { valid := bitOf m 31, prio := bitsOf m 30 28, hi := bitsOf m 23 12, lo := bitsOf m 11 0,
    ceil := bitsOf b 51 32, guar := bitsOf b 19 0 }

/-- A number of R78 that is an initiator: no rule matches a reserved one (R80, R82). -/
def isInitiator (init : Nat) : Bool := decide (init < 0x85B) || (decide (0x860 ≤ init) && decide (init < 0x900))

/-- The rule that gives an initiator of a partition its budget: the valid matching rule of highest priority, the
lowest index among equals (R80, R81). -/
def ruleFor (s : State) (p init : Nat) : Option Nat :=
  (span (64 * p) 64).foldl (fun (best : Option Nat) n =>
    let r := tollRule s n
    if isInitiator init && r.valid && decide (r.lo ≤ init) && decide (init ≤ r.hi) then
      match best with
      | some b => if (tollRule s b).prio < r.prio then some n else some b
      | none => some n
    else best) none

/-- Guaranteed part and ceiling in bytes; no ceiling where CEIL is all ones or no rule matches (R81, R89). -/
def budget (s : State) (p init : Nat) : Nat × Option Nat :=
  match ruleFor s p init with
  | none => (0, none)
  | some n =>
    let r := tollRule s n
    (r.guar * 1024, if r.ceil = 0xFFFFF then none else some (r.ceil * 1024))

/-- Where an initiator's counts stand: an engine has its own for each partition (R79). -/
def tollKey (init p : Nat) : Nat := if 0x840 ≤ init ∧ init < 0x848 then init + 4096 * p else init

def tollOf (s : State) (init p : Nat) : TollCount := smGet {} s.stage.tolls (tollKey init p)

/-- Admission of one piece (R72). -/
inductive Admission where
  | held | guaranteed | bestEffort
  deriving DecidableEq, Repr

def admission (s : State) (init p cls : Nat) : Admission :=
  let t := tollOf s init p
  let (g, c) := budget s p init
  if (match c with | some c => decide (c ≤ t.a) | none => false) then .held
  else if cls = 0 ∧ t.a0 < g then .guaranteed
  else .bestEffort

/-- What a request of up to 256 bytes is charged: its size rounded up to a multiple of 64 (R72). -/
def chargeOf (bytes : Nat) : Nat := (bytes + 63) / 64 * 64

/-- Charges an admitted piece (R72). -/
def charge (s : State) (init p cls bytes : Nat) : State :=
  let t := tollOf s init p
  let t := { t with a := t.a + chargeOf bytes, a0 := if cls = 0 then t.a0 + chargeOf bytes else t.a0 }
  { s with stage := { s.stage with tolls := smSet {} s.stage.tolls (tollKey init p) t } }

/-- Admits pieces of up to 256 bytes while the toll allows (R72): the bytes that are left. `n` bounds the pieces. -/
def admitPieces : Nat → State → Nat → Nat → Nat → Nat → State × Nat
  | 0, s, _, _, _, left => (s, left)
  | n + 1, s, init, p, cls, left =>
    if left = 0 then (s, 0)
    else match admission s init p cls with
      | .held => (s, left)
      | _ => admitPieces n (charge s init p cls (min left 256)) init p cls (left - min left 256)

/-- The waiting request of an access of one instant: the same issuer and place. -/
def HeldReq.isFor (h : HeldReq) (who : Issuer) (line : Nat) : Bool := h.instant && h.req.who == who && h.req.line == line

/-- An access of one instant of a toll class passes its initiator's admission point (R72, R77), piece by piece: true once every piece
is admitted; else the rest waits there and the command is presented again. -/
def gateCls (s : State) (who : Issuer) (line init p cls bytes : Nat) : State × Bool :=
  let left := match s.stage.held.find? (fun h => h.isFor who line) with | some h => h.bytes | none => bytes
  let (s, left) := admitPieces (left / 256 + 1) s init p cls left
  let others := s.stage.held.filter (fun h => !h.isFor who line)
  if left = 0 then ({ s with stage := { s.stage with held := others } }, true)
  else
    let r : Req := { who := who, op := .rdCur, line := line, init := init }
    ({ s with stage := { s.stage with held := others ++ [{ init := init, part := p, cls := cls, bytes := left, req := r, instant := true }] } }, false)

/-- The same for an initiator that issues only toll class 0 (R72). -/
def gate (s : State) (who : Issuer) (line init p bytes : Nat) : State × Bool := gateCls s who line init p 0 bytes

/-- What an issuer still has waiting at its admission point, of accesses of one instant, is given up. -/
def ungate (s : State) (p : HeldReq → Bool) : State :=
  { s with stage := { s.stage with held := s.stage.held.filter (fun h => !(h.instant && p h)) } }

/-- Latches the first missed guarantee of a partition since the last clear (R75, R91). -/
def missFirst (s : State) (p init : Nat) : State :=
  let r : Reg := ⟨.tolMissFirst, 0, p⟩
  if regBits s r 63 63 = 1 then s
  else regPut s r (2 ^ 63 + init % 4096 * 2 ^ 36 + s.stage.window % 16 * 2 ^ 32 + s.stage.number % 2 ^ 32)

/-- Counts a missed guarantee (R75). `bit` is LATE_READ (1) or MISS (0) of TOL_INT_STATUS. -/
def missedGuarantee (s : State) (p init bit : Nat) : State :=
  setStatus (missFirst (bump s ⟨.tolMissCount, 0, p⟩ 1) p init) ⟨.tolIntStatus, 0, p⟩ bit p 0

/-- A deadline has passed once hub time is at or past it; 0 is no deadline (R62, R63). -/
def passed (s : State) (deadline : Nat) : Bool := deadline != 0 && decide (deadline ≤ s.stage.hubTime)

/-- The hub time of a deadline field at its issue instant: units of 8 ns, 0 for none (R62). -/
def deadlineAt (s : State) (units : Nat) : Nat := if units = 0 then 0 else s.stage.hubTime + 8 * units

/-- Counts of a dropped deadline-class read (R65, R75). -/
def countLateRead (s : State) (init : Nat) : State :=
  let p := initPart s init
  missedGuarantee (bump s ⟨.tolLateReads, 0, p⟩ 1) p init 1

/-- A deadline-class write accepted at or after its deadline is counted and completes (R68). -/
def countLateWrite (s : State) (r : Req) : State :=
  if passed s r.deadline then bump s ⟨.tolLateWrites, 0, initPart s r.init⟩ 1 else s

/-- A toll window ends (R75): each initiator of which a request of class 0 waits while a0 is below G and a below C
has missed its guarantee. Each initiator and partition counts once. -/
def windowMisses (s : State) : State :=
  (s.stage.held.foldl (fun (acc : State × List Nat) h =>
    let (st, seen) := acc
    let k := tollKey h.init h.part
    if h.cls ≠ 0 ∨ seen.contains k ∨ (h.instant ∧ h.bytes = 0) then acc
    else
      let t := tollOf s h.init h.part
      let (g, c) := budget s h.part h.init
      if decide (t.a0 < g) && (match c with | some c => decide (t.a < c) | none => true)
      then (missedGuarantee st h.part h.init 0, k :: seen) else acc) (s, [])).1

/-- A carried-over missed-guarantee interrupt is raised at the start of the next window (R76). -/
def newWindowIrq (s : State) : State :=
  (span 0 9).foldl (fun s fn =>
    let h := hostFn s fn
    let carry := h.missCarry
    let s := putFn s fn { h with missRaised := carry, missCarry := false }
    if carry then raiseVector s fn 1 else s) s

/-- Every toll counter returns to zero (R73). -/
def resetTolls (s : State) : State := { s with stage := { s.stage with tolls := [] } }

end Sys2Proof.Machine
end

