-- ==== Sys2Proof/Machine/SiteBase.lean ====
section
/-!
DEFINITION. Messages from the sites to their chiplets (R469 to R484): credits, messages held for want of them, replies and
the tags they free, error records of a site.
-/
namespace Sys2Proof.Machine

def site (s : State) (k : Nat) : Site := smGet {} s.ucs.sites k
def putSite (s : State) (k : Nat) (x : Site) : State := { s with ucs := { s.ucs with sites := smSet {} s.ucs.sites k x } }
def modSite (s : State) (k : Nat) (f : Site → Site) : State := putSite s k (f (site s k))

/-- A message that uses a snoop credit (R482). -/
def usesSnoop (cls op : Nat) : Bool := cls == 0 && decide (0x20 ≤ op) && decide (op ≤ 0x23)
/-- A message that uses a message credit: INTR, TR_REQ, INV_CPL (R482). -/
def usesMsg (cls op : Nat) : Bool := (cls == 3 && op == 5) || (cls == 4 && (op == 1 || op == 4))

/-- The site that stands for the chiplet of a site: the lower one where it spans two (R379, R456). -/
def chipSite (s : State) (k : Nat) : Nat := if (site s k).spanUp then k - 1 else k

/-- The sites a chiplet spans (R379, R393). -/
def chipSites (s : State) (k : Nat) : List Nat := if (site s k).spanDown then [k, k + 1] else [k]

/-- A message is sent and counts at its site (R494). -/
def emitEhp (s : State) (k : Nat) (o : Output) : State := bump (emit s o) ⟨.ucsTxMsg, k, 0⟩ 1

/-- Sends an EHP message that comes from no home, by the site `k`, to its chiplet, on any trained module (R485); one that needs a
message credit the chiplet withholds is held, in order (R488). -/
def sendEhp (s : State) (k cls op tag init status grant arg : Nat) (bytes : List Byte) : State :=
  let q := chipSite s k
  let o : Output := .ehp q cls op tag init status grant arg bytes k none
  let x := site s q
  if usesMsg cls op then
    if x.outCr = 0 then putSite s q { x with heldMsg := x.heldMsg ++ [o] }
    else emitEhp (putSite s q { x with outCr := x.outCr - 1 }) q o
  else emitEhp s q o

/-- A CREDIT message that returns credits to the chiplet (R478, R484): data slots, requests, messages, each in the place
the message gives it above bit 16. -/
def returnCredit (s : State) (k data req msg : Nat) : State :=
  let s := modSite s k (fun x => { x with dataCr := x.dataCr + data, reqCr := x.reqCr + req, msgCr := x.msgCr + msg })
  sendEhp s k 3 4 0 0 0 0 (data + req * 2 ^ 16 + msg * 2 ^ 29) []

/-- A request of a chiplet has no reply yet: its tag is in use under the site number that INIT names (R456). -/
def tagOpen (s : State) (init tag : Nat) : Bool := (site s (init / 64)).tags.contains tag

/-- The reply to a request has been sent: its tag is free and its request credit returns (R484). The tag belongs to the
site number that INIT names (R456). -/
def freeTag (s : State) (init tag : Nat) : State :=
  let k := init / 64
  if (site s k).tags.contains tag then
    returnCredit (modSite s k (fun x => { x with tags := x.tags.filter (fun t => t != tag) })) k 0 1 0
  else s

/-- Sends a reply that ends its request. -/
def sendReply (s : State) (k cls op tag init status grant arg : Nat) (bytes : List Byte) : State :=
  freeTag (sendEhp s k cls op tag init status grant arg bytes) init tag

/-! ### Messages of the homes -/

/-- A module has a trained mainband (R492). -/
def Module.trained (x : Module) : Bool := x.width == 1 || x.width == 2

/-- The trained modules of the chiplet of a site, in ascending site and module order (R485), each as 4 × site + module. -/
def moduleList (s : State) (q : Nat) : List Nat :=
  (chipSites s q).flatMap (fun k => ((span 0 4).filter (fun m => (smGet {} (site s k).modules m).trained)).map (fun m => 4 * k + m))

/-- The order module of a home tile and a chiplet (R485); none where no module is trained. -/
def orderModule (s : State) (q tile : Nat) : Option Nat :=
  match moduleList s q with
  | [] => none
  | l => some (listGet 0 l (tile % l.length))

def holdHome (s : State) (q : Nat) (m : HomeMsg) : State := modSite s q (fun x => { x with heldHome := x.heldHome ++ [m] })

/-- A home's message goes out on an order module. -/
def emitHome (s : State) (q : Nat) (m : HomeMsg) (w : Nat) : State :=
  let s := modSite s q (fun x => { x with order := smSet 0 x.order m.tile (w + 1) })
  let s := emitEhp s q (.ehp q m.cls m.op m.tag m.init m.status m.grant m.arg m.bytes m.att (some w))
  if m.frees then freeTag s m.init m.tag else s

/-- A home's message goes to its order module (R485). It waits behind earlier messages of its home, while no module is trained, and,
where the list of trained modules changed, until the adapter has acknowledged the flits that carried the home's messages on the old
module, of which a free value says whether it has. -/
def routeHome (s : State) (q : Nat) (m : HomeMsg) : State :=
  if (site s q).heldHome.any (fun h => h.tile == m.tile) then holdHome s q m
  else match orderModule s q m.tile with
    | none => holdHome s q m
    | some w =>
      let last := smGet 0 (site s q).order m.tile
      if last = 0 ∨ last = w + 1 then emitHome s q m w
      else
        let (d, s) := draw s
        if Config.flitsAcked d then emitHome s q m w else holdHome s q m

/-- Messages that a site holds for its homes are tried again, in order. -/
def flushHome (s : State) (q : Nat) : State :=
  let l := (site s q).heldHome
  if l.isEmpty then s else l.foldl (fun s m => routeHome s q m) (modSite s q (fun x => { x with heldHome := [] }))

def flushHomes (s : State) : State := (span 0 8).foldl flushHome s

/-- The home of a line sends a message to a chiplet through the attachment of a site (R30, R485). A snoop without credit is held, in
order (R488). -/
def sendHome (s : State) (line : Nat) (frees : Bool) (k cls op tag init status grant arg : Nat) (bytes : List Byte) : State :=
  let q := chipSite s k
  let m : HomeMsg := { tile := homeTile s line, att := k, cls := cls, op := op, tag := tag, init := init, status := status,
                       grant := grant, arg := arg, bytes := bytes, frees := frees }
  let x := site s q
  if usesSnoop cls op then
    if x.snpCr = 0 then putSite s q { x with heldSnp := x.heldSnp ++ [m] }
    else routeHome (putSite s q { x with snpCr := x.snpCr - 1 }) q m
  else routeHome s q m

/-- Sends as many held messages as the credits allow (R488). -/
def sendHeld (s : State) (k : Nat) : State :=
  let x := site s k
  let a := x.heldSnp.take x.snpCr
  let b := x.heldMsg.take x.outCr
  let s := putSite s k { x with heldSnp := x.heldSnp.drop a.length, snpCr := x.snpCr - a.length,
                                heldMsg := x.heldMsg.drop b.length, outCr := x.outCr - b.length }
  b.foldl (fun s o => emitEhp s k o) (a.foldl (fun s m => routeHome s k m) s)

/-- Records the first error of a site (R496). -/
def ucsLastErr (s : State) (k kind module cls op tag : Nat) : State :=
  let r : Reg := ⟨.ucsLastErr, k, 0⟩
  if regBits s r 63 63 = 1 then s
  else regPut s r (2 ^ 63 + kind * 2 ^ 60 + module * 2 ^ 58 + cls % 8 * 2 ^ 55 + op % 256 * 2 ^ 47 + tag % 4096 * 2 ^ 32 +
    s.stage.number % 2 ^ 32)

/-- Counts a protocol error of a chiplet (R471, R477, R481, R495). -/
def protoErr (s : State) (k cls op tag : Nat) : State :=
  setStatus (ucsLastErr (bump s ⟨.ucsProtoErr, k, 0⟩ 1) k 1 0 cls op tag) ⟨.ucsIntStatus, k, 0⟩ 4 k 0

end Sys2Proof.Machine
end

