-- ==== Sys2Proof/Machine/Coherence.lean ====
section
/-!
DEFINITION. The home of a line: the directory, transactions, snoops, holds, misses and their answers
(R315 to R327, R379 to R401), and the access of one instant that the other commands make at the home.
-/
namespace Sys2Proof.Machine

/-! ### The directory -/

def dirKey (tile set way : Nat) : Nat := (tile * 2048 + set) * 16 + way

def dirPut (s : State) (k : Nat) (e : Option DirEntry) : State :=
  { s with mem := { s.mem with dir := smSet none s.mem.dir k e } }

def dirKeys (s : State) (line : Nat) : List Nat := (span 0 16).map (dirKey (homeTile s line) (dirSetOf line))

/-- The entry of a line (R383), with its place. -/
def dirFind (s : State) (line : Nat) : Option (Nat × DirEntry) :=
  (dirKeys s line).findSome? (fun k => match smGet none s.mem.dir k with
    | some e => if e.line = line then some (k, e) else none
    | none => none)

/-- The directory state of a line: none is I. -/
def dirSt (s : State) (line : Nat) : Option DirSt := (dirFind s line).map (fun p => p.2.st)

/-- Sites recorded as holders. -/
def holdersOf (st : Option DirSt) : List Nat :=
  match st with
  | none => []
  | some (.shared m) => (span 0 8).filter (fun k => bitOf m k)
  | some (.owned o) => [o]

def nextDirClock (s : State) : Nat × State :=
  (s.mem.dirClock + 1, { s with mem := { s.mem with dirClock := s.mem.dirClock + 1 } })

/-- Sets the directory state of a line that has an entry, or whose set has a free way; I frees the entry. -/
def dirSet (s : State) (line : Nat) (st : Option DirSt) : State :=
  match st with
  | none => match dirFind s line with
    | some (k, _) => dirPut s k none
    | none => s
  | some d =>
    let (u, s) := nextDirClock s
    match dirFind s line with
    | some (k, _) => dirPut s k (some { line := line, st := d, used := u })
    | none => match (dirKeys s line).find? (fun k => (smGet none s.mem.dir k).isNone) with
      | some k => dirPut s k (some { line := line, st := d, used := u })
      | none => s

/-- Removes a site from the holders of a line. -/
def dirRemove (s : State) (line site : Nat) : State :=
  match dirSt s line with
  | some (.shared m) =>
    let m := setBitOf m site false
    dirSet s line (if m = 0 then none else some (.shared m))
  | some (.owned o) => if o = site then dirSet s line none else s
  | none => s

/-- Adds a sharer to a line's state. -/
def addSharer (st : Option DirSt) (site : Nat) : DirSt :=
  match st with
  | some (.shared m) => .shared (setBitOf m site true)
  | some (.owned o) => .shared (setBitOf (2 ^ o) site true)
  | none => .shared (2 ^ site)

/-! ### Transactions -/

def txnFind (s : State) (line : Nat) : Option Txn := s.mem.txns.find? (fun t => t.line == line)

def txnsPut (ts : List Txn) (t : Txn) : List Txn :=
  if ts.any (fun x => x.line == t.line) then listModFirst (fun x => x.line == t.line) (fun _ => t) ts else ts ++ [t]

def txnPut (s : State) (t : Txn) : State := { s with mem := { s.mem with txns := txnsPut s.mem.txns t } }

def txnDel (s : State) (line : Nat) : State :=
  { s with mem := { s.mem with txns := listDelFirst (fun t => t.line == line) s.mem.txns } }

/-- A transaction that has ended and only keeps requests that wait for their turn. -/
def Txn.idle (t : Txn) : Bool :=
  t.req.isNone && t.snoops.isEmpty && t.fwdAck.isNone && !t.missing && t.goal == .request && t.ret.isNone

/-- A transaction ends: the line stays with its held requests until the next is taken up (R395). -/
def endTxn (s : State) (line : Nat) : State :=
  match txnFind s line with
  | none => s
  | some t => if t.merged.isEmpty then txnDel s line
    else txnPut s { line := line, req := none, merged := t.merged }

def holdIn (s : State) (r : Req) : State := { s with mem := { s.mem with heldIn := s.mem.heldIn ++ [r] } }

/-- A request that must wait keeps its place before the requests held behind it on its line (R395): it is taken up again first. -/
def requeue (s : State) (t : Txn) (r : Req) : State :=
  txnPut s { line := t.line, req := none, merged := { r with missed := false } :: t.merged }

/-- Miss-handling entries in use in a slice (R325). -/
def mheUsed (s : State) (tile : Nat) : Nat :=
  (s.mem.txns.filter (fun t => t.missing && homeTile s t.line == tile)).length

/-- The chiplet that made a request, by its lowest site (R379). -/
def Req.site (r : Req) : Option Nat := match r.who with | .chiplet site _ => some site | _ => none
def Req.tag (r : Req) : Nat := match r.who with | .chiplet _ tag => tag | _ => 0
def Req.isWrite (r : Req) : Bool := match r.op with | .wrFull => true | .wrPart => true | _ => false
def Req.isRead (r : Req) : Bool := match r.op with | .rdCur => true | .rdShared => true | .rdOwn => true | _ => false

/-- A request held at the slice input of a tile for want of a miss-handling entry (R39). -/
def Req.waitsAt (r : Req) (s : State) (tile : Nat) : Bool := r.noEntry && homeTile s r.line == tile

/-- A slice has no miss-handling entry to give: all are in use, or earlier requests wait for one (R39, R325). -/
def poolShut (s : State) (tile : Nat) : Bool :=
  decide (256 ≤ mheUsed s tile) || s.mem.heldIn.any (fun r => r.waitsAt s tile)

/-- Counts of the domain that a line's partition belongs to. -/
def bumpDom (s : State) (n : RegName) (line : Nat) : State :=
  match partDomain s (partOf s (lineHa line)) with
  | some d => bump s ⟨n, 0, d⟩ 1
  | none => s

def bumpSiteDom (s : State) (n : RegName) (site : Nat) : State :=
  match siteDomain s site with
  | some d => bump s ⟨n, 0, d⟩ 1
  | none => s

/-- The hold time of a grant begins (R398): HOLD × 16 ns. -/
def startHold (s : State) (line site : Nat) : State :=
  { s with mem := { s.mem with holds :=
      (s.mem.holds.filter (fun h => !(h.1 == line && h.2.1 == site))) ++
      [(line, site, s.stage.hubTime + 16 * regBits s ⟨.sriDirCtrl, 0, 0⟩ 6 0)] } }

/-- The hub time at which the hold of a line at a chiplet ends, if it runs. -/
def holdUntil (s : State) (line site : Nat) : Option Nat :=
  (s.mem.holds.find? (fun h => h.1 == line && h.2.1 == site && decide (s.stage.hubTime < h.2.2))).map (fun h => h.2.2)

/-- Data that leaves for a chiplet reaches it at or after its deadline, which is a free value: a late delivery (R67). -/
def countArrival (s : State) (r : Req) : State :=
  if r.deadline = 0 then s
  else
    let (d, s) := draw s
    if Config.arrivesLate d then bump s ⟨.tolLateDelivered, 0, initPart s r.init⟩ 1 else s

/-- Answers a request with data (R30, R388): DATA with a grant to a chiplet by the site it came by, the data to an agent of the hub. -/
def answerData (s : State) (r : Req) (d : Line) (grant : Nat) : State :=
  if r.dropped then s
  else match r.who with
    | .chiplet site tag =>
      if tagOpen s r.init tag then
        let s := countArrival (sendHome s r.line true r.via 0 0x60 tag r.init 0 grant r.line (lineBytes d)) r
        if grant = 0 then s else startHold s r.line site
      else s
    | w => { s with mem := { s.mem with answers := s.mem.answers ++ [{ who := w, line := r.line, data := d, status := .complete, deadline := r.deadline, init := r.init }] } }

/-- Answers a request without data (R388): CMP to a chiplet, a status to an agent of the hub. -/
def answerCmp (s : State) (r : Req) (st : Status) (grant : Nat) : State :=
  if r.dropped then s
  else match r.who with
    | .chiplet site tag =>
      if tagOpen s r.init tag then
        let s := sendHome s r.line true r.via 0 0x61 tag r.init st.code grant r.line []
        if grant = 0 then s else startHold s r.line site
      else s
    | w => { s with mem := { s.mem with answers := s.mem.answers ++ [{ who := w, line := r.line, data := 0, status := st, write := r.isWrite }] } }

/-- A deadline-class read is dropped: LATE and no data, and a missed guarantee (R65, R75). -/
def dropLate (s : State) (r : Req) : State := countLateRead (answerCmp s r .late 0) r.init

/-- A request answered TIER_ERROR or UNCORRECTABLE for a tier line counts in its partition (R305, R313). -/
def answerErr (s : State) (r : Req) (st : Status) : State :=
  let s := if isTier (lineHa r.line) then countTierAnswer s (tierFn (lineHa r.line)) st else s
  answerCmp s r st 0

/-- Issues a snoop to a holder, or holds it back while the hold time of its grant runs (R386, R398). -/
def mkSnoop (s : State) (line site : Nat) (k : Snoop) (r : Option Req) : State × OpenSnoop :=
  match holdUntil s line site with
  | some t => (bumpDom s .sriDirHoldWaits line, { site := site, kind := k, issued := false, time := t })
  | none =>
    let fwd := k == .fwdS || k == .fwdX
    let tag := if fwd then (r.map Req.tag).getD 0 else 0
    let init := if fwd then (r.map Req.init).getD 0 else 0
    (bumpSiteDom (sendHome s line false site 0 k.opcode tag init 0 0 line []) .sriDirSnoops site,
     { site := site, kind := k, issued := true, time := s.stage.hubTime })

def mkSnoops (s : State) (line : Nat) (k : Snoop) (r : Option Req) : List Nat → State × List OpenSnoop
  | [] => (s, [])
  | h :: l =>
    let (s, o) := mkSnoop s line h k r
    let (s, os) := mkSnoops s line k r l
    (s, o :: os)

/-- Distance of two chiplets: the smallest table entry over the pairs of sites they span (R393). -/
def chipDist (s : State) (a b : Nat) : Nat :=
  (chipSites s a).foldl (fun m x => (chipSites s b).foldl (fun m y =>
    min m (bitsOf (regRaw s ⟨.sriDirAdj, 0, x⟩) (8 * y + 7) (8 * y))) m) 0xFF

/-- The nearest holder to a requester, never itself; ties to the lowest site (R393). -/
def nearest (s : State) (req : Nat) (holders : List Nat) : Option Nat :=
  ((holders.filter (fun h => h != req)).foldl (fun (b : Option (Nat × Nat)) h =>
    let d := chipDist s req h
    match b with
    | some (bh, bd) => if d < bd then some (h, d) else some (bh, bd)
    | none => some (h, d)) none).map (fun p => p.1)

/-! ### Data at the home -/

/-- What a look into the slice gives for a read. -/
inductive Look where
  | hit (way : Nat) (l : SeraiLine)
  | buffered (b : WbBuf)
  /-- A line of the image area that no image has filled (R336). -/
  | image
  | miss
  | bad (st : Status)

def look (s : State) (line : Nat) : Look :=
  match (if isTier (lineHa line) then balePoison s line else none) with
  | some st => .bad st
  | none => match seraiFind s line with
    | some (w, l) => if l.poison then .bad .uncorrectable else .hit w l
    | none => match bufferLine s line with
      | some b => if b.poison then .bad .uncorrectable else .buffered b
      | none => if isImage (lineHa line) then .image else .miss

/-- Counts a hit of a line's partition; a request that the data of its miss serves is none (R343). -/
def countHit (s : State) (line : Nat) (missed : Bool) : State :=
  if missed then s else bump s ⟨.sriHits, 0, partOf s (lineHa line)⟩ 1

/-- A read found its line: the hit counts and the hint takes effect on the line (R319, R322). A read that waited on the miss of the
line is no hit. -/
def afterHit (s : State) (line way hint : Nat) (l : SeraiLine) (missed : Bool) : State :=
  let s := countHit s line missed
  if !missed && hint == 3 && l.cls == .transient && isHbm (lineHa line) then discardAfter s line
  else seraiTouch s line way hint l

/-- The way of the new line in a write, or what the write must wait for. -/
inductive WriteRes where
  | done (s : State)
  | wait (s : State)
  | needData
  | drop (st : Status)

/-- Applies a write at the home (R325, R327, R414): to the valid line, or to a whole HBM line that is allocated
without a read. A write to a bale in write-back waits (R291); one to a POISON bale is dropped (R306). -/
def applyWrite (s : State) (r : Req) : WriteRes :=
  let line := r.line
  let tier := isTier (lineHa line)
  match (if tier then balePoison s line else none) with
  | some st => .drop st
  | none =>
    if tier && writingBack s (tierFn (lineHa line)) (baleNum (lineHa line)) then .wait s
    else match seraiFind s line with
      | some (w, l) =>
        let s := countHit s line r.missed
        let whole := r.op == .wrFull
        let d := if whole then r.data else mergeLine l.data r.data r.mask
        let s := seraiTouch s line w r.hint { l with data := d, dirty := true, poison := l.poison && !whole }
        -- a stream line keeps its place but takes the data
        match seraiFind s line with
        | some (w', l') => .done (seraiSetLine s line w' (some { l' with data := d, dirty := true, poison := l.poison && !whole }))
        | none => .done s
      | none =>
        if r.op == .wrFull && !tier then
          if bypasses s line then .done (lowerWrite s line r.data false)
          else match seraiAlloc s line r.hint r.data true false with
            | .way _ s => .done s
            | .bale v => .wait (askLeave s v)
            | _ => .wait s
        else .needData

/-! ### Taking up a request -/

/-- The directory state that a read leaves (R390), and its grant. -/
def readOutcome (r : Req) (st : Option DirSt) : Option DirSt × Nat :=
  match r.op, r.site with
  | .rdShared, some q => match st with
    | none => (some (.owned q), 2)
    | some (.owned o) => if o = q then (some (.owned q), 2) else (some (addSharer st q), 1)
    | some (.shared _) => (some (addSharer st q), 1)
  | .rdOwn, some q => (some (.owned q), 2)
  | .upgrade, some q => (some (.owned q), 2)
  | _, _ => (st, 0)

/-- A request takes a miss-handling entry (R325), or waits at the slice input for one, in order (R39). Decision point 1 (R63). A tier
line whose context is live no more is unmapped (R36, R274). -/
def takeMiss (s : State) (t : Txn) (r : Req) : State :=
  let ha := lineHa r.line
  if r.isRead && passed s r.deadline then endTxn (dropLate s r) r.line
  else if isTier ha && (tierCtx s ha).isNone then
    endTxn (answerCmp (logUnmapped s r.init ha) r .translationFault 0) r.line
  else if mheUsed s (homeTile s r.line) < 256 && (r.noEntry || !poolShut s (homeTile s r.line)) then
    let s := bump s ⟨.sriMisses, 0, partOf s ha⟩ 1
    let s := txnPut s { t with missing := true }
    if isTier ha then askFill s r.line r.hint else s
  else
    let s := bump s ⟨.sriEntryWaits, 0, partOf s ha⟩ 1
    let behind := s.mem.heldIn.filter (fun h => h.line == r.line)
    let others := s.mem.heldIn.filter (fun h => h.line != r.line)
    txnDel { s with mem := { s.mem with heldIn := others ++ { r with noEntry := true } :: t.merged ++ behind } } r.line

/-- The requester of an UPGRADE still holds the line in S (R390). -/
def keepsShare (s : State) (r : Req) : Bool :=
  match dirSt s r.line, r.site with
  | some (.shared m), some q => bitOf m q
  | _, _ => false

/-- A request as its home takes it up now: an UPGRADE whose requester is not recorded in S is an RD_OWN (R390). -/
def asTaken (s : State) (r : Req) : Req := if r.op = .upgrade ∧ !keepsShare s r then { r with op := .rdOwn } else r

/-- A write as its home applies it: the data of a WB_DIRTY replace the line (R390). -/
def Req.asWrite (r : Req) : Req := if r.op = .wbDirty then { r with op := .wrFull, mask := BitVec.allOnes 128 } else r

/-- A write at the home of its line, every snoop answered (R306, R325, R390): it is applied and answered, waits, takes an entry, or is
dropped. -/
def writeHome (s : State) (t : Txn) (r : Req) : State :=
  match applyWrite s r.asWrite with
  | .done s => endTxn (answerCmp (countLateWrite (dirSet s r.line none) r) r .complete 0) r.line
  | .wait s => requeue (if r.op = .wbDirty then s else dirSet s r.line none) t r
  | .needData => takeMiss s t r
  | .drop st => endTxn (answerErr (bump (dirSet s r.line none) ⟨.tirWriteDrop, 0, partOf s (lineHa r.line)⟩ 1) r st) r.line

/-- A read has its data, at decision point 3 (R63): it is answered, or dropped for its deadline; the directory takes its grant, and
`seen` is what the read does to the line. -/
def readHome (s : State) (r : Req) (d : Line) (seen : State → State) : State :=
  if passed s r.deadline then endTxn (dropLate s r) r.line
  else
    let (st, g) := readOutcome r (dirSt s r.line)
    let s := answerData s r d g
    endTxn (seen (if r.site.isSome then dirSet s r.line st else s)) r.line

/-- Goes on with the request of a transaction once every snoop it needed has been answered (R390). -/
def proceed (s : State) (line : Nat) : State :=
  match txnFind s line with
  | none => s
  | some t => match t.req with
    | none => endTxn s line
    | some r =>
      if r.dropped then endTxn s line
      else if r.isWrite || r.op == .wbDirty then writeHome s t r
      else if r.op == .upgrade && keepsShare s r then
        match r.site with
        | some q => endTxn (answerCmp (dirSet s line (some (.owned q))) r .complete 2) line
        | none => endTxn s line
      else match look s line with
        | .bad st => endTxn (answerErr s r st) line
        | .hit w l => readHome s r l.data (fun s => afterHit s line w r.hint l r.missed)
        | .buffered b => readHome s r b.data id
        | .image =>
          let (s, d) := imageLine s line
          readHome s r d id
        | .miss => takeMiss s t r

/-- The victim entry of a full directory set (R400): the least recently used S entry of a line that is not busy, else
such an X entry. -/
def dirVictim (s : State) (line : Nat) : Option DirEntry :=
  let es := (dirKeys s line).filterMap (fun k => smGet none s.mem.dir k)
  let free := es.filter (fun e => (txnFind s e.line).isNone)
  let pick (l : List DirEntry) : Option DirEntry := l.foldl (fun (b : Option DirEntry) e => match b with
    | some x => if e.used < x.used then some e else some x
    | none => some e) none
  match pick (free.filter (fun e => match e.st with | .shared _ => true | _ => false)) with
  | some e => some e
  | none => pick free

/-- The line's entry exists or its set has room for one. -/
def dirRoom (s : State) (line : Nat) : Bool :=
  (dirFind s line).isSome || (dirKeys s line).any (fun k => (smGet none s.mem.dir k).isNone)

/-- A victim of a line's directory set is on its way out (R400). -/
def dirLeaving (s : State) (line : Nat) : Bool :=
  s.mem.txns.any (fun t => t.goal == .backInv && homeTile s t.line == homeTile s line && dirSetOf t.line == dirSetOf line)

/-- The request needs a directory entry (R383). -/
def needsEntry (r : Req) : Bool := match r.op with | .rdShared => true | .rdOwn => true | .upgrade => true | _ => false

/-- A read in S that misses the Serai and is forwarded by the nearest holder (R390, R393). -/
def forwarder (s : State) (r : Req) : Option (Nat × Snoop) :=
  match r.site with
  | none => none
  | some q => match r.op, dirSt s r.line with
    | .rdShared, some (.shared m) => match look s r.line with
      | .miss => (nearest s q (holdersOf (some (.shared m)))).map (fun h => (h, .fwdS))
      | _ => none
    | .rdShared, some (.owned o) => if o = q then none else some (o, .fwdS)
    | .rdOwn, some (.owned o) => if o = q then none else some (o, .fwdX)
    | .upgrade, some (.owned o) => if o = q then none else some (o, .fwdX)
    | _, _ => none

/-- The snoops a request that is not forwarded must have answered first (R390). -/
def snoopsFor (s : State) (r : Req) : Snoop × List Nat :=
  let st := dirSt s r.line
  let others := match r.site with
    | some q => (holdersOf st).filter (fun h => h != q)
    | none => holdersOf st
  match r.op with
  | .rdCur => match st with
    | some (.owned o) => if r.site = some o then (.share, []) else (.share, [o])
    | _ => (.share, [])
  | .rdOwn => (.inv, others)
  | .upgrade => (.inv, others)
  | .wrFull => (.inv, holdersOf st)
  | .wrPart => (.inv, holdersOf st)
  | _ => (.share, [])

/-- The line's content waits for the zeroing of its granule (R547). -/
def zeroingWaits (s : State) (line : Nat) : Bool :=
  isHbm (lineHa line) && (smGet none s.work.zeroing (lineHa line / 2 ^ 30)).isSome

/-- Takes up a request for a line that is not busy (R390). Requests held behind it are `rest`. -/
def takeUp (s : State) (r : Req) (rest : List Req) : State :=
  let r := asTaken s r
  let line := r.line
  let base : Txn := { line := line, req := some r, merged := rest }
  if r.dropped then
    if rest.isEmpty then txnDel s line else txnPut s { line := line, req := none, merged := rest }
  else if zeroingWaits s line then requeue s base r
  else match r.op with
  | .wbDirty =>
    let s := txnPut s base
    if dirSt s line = r.site.map .owned then writeHome s base r
    else endTxn (answerCmp s r .complete 0) line
  | .evict =>
    let s := match r.site with | some q => dirRemove s line q | none => s
    endTxn (answerCmp (txnPut s base) r .complete 0) line
  | _ =>
    if needsEntry r && !dirRoom s line then
      let s := requeue s base r
      match (if dirLeaving s line then none else dirVictim s line) with
      | none => s
      | some v =>
        let (s, sn) := mkSnoops s v.line .inv none (holdersOf (some v.st))
        txnPut (bumpDom s .sriDirBackinv v.line) { line := v.line, req := none, goal := .backInv, snoops := sn }
    else match forwarder s r with
      | some (h, k) =>
        if passed s r.deadline then endTxn (dropLate (txnPut s base) r) line
        else
          let (s, o) := mkSnoop s line h k (some r)
          txnPut s { base with snoops := [o], fwdAck := r.site, fwd := true }
      | none =>
        let (k, l) := snoopsFor s r
        let (s, sn) := mkSnoops s line k (some r) l
        let s := txnPut s { base with snoops := sn }
        if sn.isEmpty then proceed s line else s

/-- A request arrives at the home (R326, R395): it is taken up, or held behind the requests to its line, in the line's
entry of 15 further places or at the slice input. The merge is decision point 1 of R63. -/
def arrive (s : State) (r : Req) : State :=
  match txnFind s r.line with
  | none =>
    if s.mem.heldIn.any (fun h => h.line == r.line) then holdIn s r else takeUp s r []
  | some t =>
    let s := bumpDom s .sriDirConflicts r.line
    if (asTaken s r).isRead && passed s r.deadline then dropLate s r
    else if t.merged.length < 15 && !s.mem.heldIn.any (fun h => h.line == r.line) then
      let s := if t.missing then bump s ⟨.sriMerges, 0, partOf s (lineHa r.line)⟩ 1 else s
      txnPut s { t with merged := t.merged ++ [r] }
    else holdIn (bump s ⟨.sriEntryWaits, 0, partOf s (lineHa r.line)⟩ 1) r

/-- Takes up the next request held for a line that is not busy (R395). None where nothing is held or the line is busy, and where the
request waits for a miss-handling entry that is not free, or that an earlier one at the slice input is to have (R39). -/
def nextHeld (s : State) (line : Nat) : Option State :=
  match txnFind s line with
  | some t => if t.idle then
      match t.merged with
      | r :: rest => some (takeUp s r rest)
      | [] => some (txnDel s line)
    else none
  | none =>
    match s.mem.heldIn.find? (fun h => h.line == line) with
    | none => none
    | some r =>
      let tile := homeTile s line
      let turn := (s.mem.heldIn.find? (fun h => h.waitsAt s tile)) == some r && decide (mheUsed s tile < 256)
      if r.noEntry && !turn then none
      else
        let s := { s with mem := { s.mem with heldIn := listDelFirst (fun h => h.line == line) s.mem.heldIn } }
        some (takeUp s r [])

/-- Serves the requests held on a line in their order until one must wait for a snoop, a fill or a place (R326, R327);
`n` bounds how many. -/
def serveHeld : Nat → State → Nat → State
  | 0, s, _ => s
  | n + 1, s, line =>
    match txnFind s line with
    | some t => if t.idle && !t.merged.isEmpty then
        match nextHeld s line with
        | some s => serveHeld n s line
        | none => s
      else s
    | none => s

/-- Writes dirty data that a chiplet returned into the line's slice (R391). An HBM line that finds no way waits for one, and its
transaction with it; a line of a bale that is not resident is lost with its bale. -/
def returnData (s : State) (line : Nat) (d : Line) (poison : Bool) : State :=
  match seraiFind s line with
  | some (w, l) => seraiSetLine s line w (some { l with data := d, dirty := true, poison := poison })
  | none =>
    if isTier (lineHa line) then s
    else if bypasses s line then lowerWrite s line d poison
    else match seraiAlloc s line 0 d true poison with
      | .way _ s => s
      | .bale v => keepRet (askLeave s v)
      | _ => keepRet s
where
  keepRet (s : State) : State :=
    match txnFind s line with
    | some t => txnPut s { t with ret := some (d, poison) }
    | none => lowerWrite s line d poison

/-- A forwarding transaction ends (R390, R391). -/
def finishForward (s : State) (t : Txn) (r : Req) : State :=
  let s := match r.site, r.op with
    | some q, .rdShared => dirSet s t.line (some (addSharer (dirSt s t.line) q))
    | some q, _ => dirSet s t.line (some (.owned q))
    | none, _ => s
  serveHeld 16 (endTxn s t.line) t.line

/-- Every snoop of a transaction that forwards nothing has been answered. -/
def snoopsDone (s : State) (t : Txn) : State :=
  match t.goal with
  | .backInv => serveHeld 16 (endTxn (dirSet s t.line none) t.line) t.line
  | _ => serveHeld 16 (proceed s t.line) t.line

/-- The request of a transaction is taken up again, as though the forwarder had never been recorded (R391). -/
def retake (s : State) (t : Txn) : State :=
  match t.req with
  | some r => if t.merged.isEmpty then takeUp (txnDel s t.line) r [] else takeUp s r t.merged
  | none => s

/-- A transaction goes on once every snoop is answered, the requester has acknowledged forwarded data, and data that a chiplet returned has
its way (R390, R391). -/
def txnGoOn (s : State) (line : Nat) : State :=
  match txnFind s line with
  | none => s
  | some t =>
    if !t.snoops.isEmpty || t.fwdAck.isSome || t.ret.isSome then s
    else if t.fwd then
      match t.req with
      | some r => finishForward s t r
      | none => snoopsDone s t
    else snoopsDone s t

/-- Returned data that waits for a way is tried again (R391). -/
def retryRet (s : State) (line : Nat) : State :=
  match txnFind s line with
  | none => s
  | some t => match t.ret with
    | none => s
    | some (d, p) => txnGoOn (returnData (txnPut s { t with ret := none }) line d p) line

def retryRets (s : State) : State :=
  ((s.mem.txns.filter (fun t => t.ret.isSome)).map (fun t => t.line)).foldl retryRet s

/-! ### Accesses of one instant

Commands other than those of the home's own family reach memory at one instant: the access is performed at the home
with the snoops it needs. What an owner held is a free value. A line that is busy or whose bale is not resident makes
the access wait: the fill is asked for, and the command takes effect when it is presented again. -/

/-- The snoop of an owner and its answer at one instant: the owner goes to S (`inv` false) or to I, and what it held
modified, if it did, is a free value that the home takes over unless `keep` is false. -/
def recallNow (s : State) (line : Nat) (inv keep : Bool) : State :=
  match dirSt s line with
  | none => s
  | some st =>
    let hs := match st with
      | .shared _ => if inv then holdersOf (some st) else []
      | .owned o => [o]
    let s := hs.foldl (fun s h => (mkSnoop s line h (if inv then .inv else .share) none).1) s
    let s := match st with
      | .owned _ =>
        let (d, s) := draw s
        if Config.ownerDirty d && keep then returnData s line (Config.ownerLine d) false else s
      | .shared _ => s
    dirSet s line (if inv then none else match st with
      | .owned o => some (.shared (2 ^ o))
      | .shared m => some (.shared m))

/-- What an access of one instant came to. -/
inductive Now (α : Type) where
  | done (s : State) (a : α)
  | bad (s : State) (st : Status)
  /-- It must wait: the state asks for the fill or the way that it needs. -/
  | wait (s : State)

/-- Requests to a line that its home has not taken up, or a transaction on it, come before an access of one instant; so does the zeroing
of its granule (R395, R547). -/
def lineTaken (s : State) (line : Nat) : Bool :=
  (txnFind s line).isSome || s.mem.heldIn.any (fun r => r.line == line) || zeroingWaits s line

/-- What an HBM line that no way holds must wait for before an access of one instant reads or places it (R38, R39, R323 to R325): a
miss-handling entry, a pending entry of its controller, a write-back buffer, a bale that leaves. The state asks for it. -/
def roomWait (s : State) (line : Nat) (reads : Bool) : Option State :=
  if !isHbm (lineHa line) || (seraiFind s line).isSome then none
  else if reads && (bufferLine s line).isNone && (poolShut s (homeTile s line) || hbmBusy s (lineHa line) 128) then some s
  else if bypasses s line || (reads && (bufferLine s line).isSome && (holdersOf (dirSt s line)).isEmpty) then none
  else match seraiAlloc s line 0 0 false false with
    | .way _ _ => none
    | .bale v => some (askLeave s v)
    | _ => some s

/-- A line that an access of one instant has read from HBM stands in the Serai from now on, unless its partition has no way. -/
def placeNow (s : State) (line hint : Nat) (d : Line) (dirty : Bool) : State :=
  match seraiAlloc s line hint d dirty false with
  | .way _ s => s
  | _ => if dirty then lowerWrite s line d false else s

/-- The fill that an access of one instant waited for has failed (R305, R306): the access has its status. -/
def failNow {α : Type} (s : State) (line : Nat) (write : Bool) (st : Status) : Now α :=
  let s := countTierAnswer (takeFailed s line) (tierFn (lineHa line)) st
  .bad (if write then bump s ⟨.tirWriteDrop, 0, partOf s (lineHa line)⟩ 1 else s) st

/-- Reads a line of HBM that misses, at one instant: an entry, and the line's data, which its slice takes. -/
def missNow (s : State) (line : Nat) : State × Line × Bool :=
  let s := bump s ⟨.sriMisses, 0, partOf s (lineHa line)⟩ 1
  let (d, p) := lowerLine s line
  (if (bufferLine s line).isSome then s else hbmServe s (lineHa line) 128 false, d, p)

/-- A tier line that is in no live context is unmapped (R274). -/
def outsideTiers (s : State) (line : Nat) : Bool := isTier (lineHa line) && (tierCtx s (lineHa line)).isNone

/-- Reads a line at the home at one instant (R392, R414). -/
def lineReadNow (s : State) (line hint : Nat) : Now Line :=
  if lineTaken s line then .wait s
  else match failedFill s line with
  | some st => failNow s line false st
  | none => match roomWait s line true with
    | some w => .wait w
    | none =>
      let s := recallNow s line false true
      match look s line with
      | .bad st => .bad (if isTier (lineHa line) then countTierAnswer s (tierFn (lineHa line)) st else s) st
      | .hit w l => .done (afterHit s line w hint l false) l.data
      | .buffered b => .done s b.data
      | .image =>
        let (s, d) := imageLine s line
        .done s d
      | .miss =>
        if outsideTiers s line then .bad (logUnmapped s 0 (lineHa line)) .translationFault
        else if isTier (lineHa line) then
          if poolShut s (homeTile s line) then .wait s else .wait (askFillNow s line hint)
        else
          let (s, d, p) := missNow s line
          if p then .bad s .uncorrectable else .done (placeNow s line hint d false) d

/-- Writes bytes of a line at the home at one instant (R392, R414). -/
def lineWriteNow (s : State) (line hint : Nat) (d : Line) (m : BitVec 128) : Now Unit :=
  let whole := decide (m = BitVec.allOnes 128)
  if lineTaken s line then .wait s
  else match failedFill s line with
  | some st => failNow s line true st
  | none => match roomWait s line (!whole) with
    | some w => .wait w
    | none =>
      let s := recallNow s line true (!whole)
      let r : Req := { who := .hub, op := if whole then .wrFull else .wrPart, line := line, data := d, mask := m, hint := hint }
      match applyWrite s r with
      | .done s => .done s ()
      | .drop st =>
        .bad (bump (countTierAnswer s (tierFn (lineHa line)) st) ⟨.tirWriteDrop, 0, partOf s (lineHa line)⟩ 1) st
      | .wait s => .wait s
      | .needData =>
        if outsideTiers s line then .bad (logUnmapped s 0 (lineHa line)) .translationFault
        else if isTier (lineHa line) then
          if poolShut s (homeTile s line) then .wait s else .wait (askFillNow s line hint)
        else
          let (s, o, p) := missNow s line
          if p then .bad s .uncorrectable else .done (placeNow s line hint (mergeLine o d m) true) ()

/-- Lines that a byte range touches. -/
def linesOf (ha n : Nat) : List Nat := if n = 0 then [] else span (ha / 128) ((n + (127 + ha % 128)) / 128)

/-- Reads lines at one instant each, in ascending order. -/
def linesReadNow (s : State) (hint : Nat) : List Nat → Now (List Byte)
  | [] => .done s []
  | l :: ls => match lineReadNow s l hint with
    | .done s d => match linesReadNow s hint ls with
      | .done s bs => .done s (lineBytes d ++ bs)
      | .bad s st => .bad s st
      | .wait s => .wait s
    | .bad s st => .bad s st
    | .wait s => .wait s

/-- Reads bytes at the home. -/
def readNow (s : State) (ha n hint : Nat) : Now (List Byte) :=
  match linesReadNow s hint (linesOf ha n) with
  | .done s bs => .done s ((bs.drop (ha % 128)).take n)
  | .bad s st => .bad s st
  | .wait s => .wait s

/-- The part of a byte range that lies in a line: its data in place and its mask. -/
def linePart (ha : Nat) (bs : List Byte) (line : Nat) : Line × BitVec 128 :=
  let lo := max ha (128 * line)
  let hi := min (ha + bs.length) (128 * line + 128)
  let part := (bs.drop (lo - ha)).take (hi - lo)
  (BitVec.ofNat 1024 (ofBytes part * 2 ^ (8 * (lo - 128 * line))),
   BitVec.ofNat 128 ((2 ^ (hi - lo) - 1) * 2 ^ (lo - 128 * line)))

def linesWriteNow (s : State) (hint ha : Nat) (bs : List Byte) : List Nat → Now Unit
  | [] => .done s ()
  | l :: ls =>
    let (d, m) := linePart ha bs l
    match lineWriteNow s l hint d m with
    | .done s _ => linesWriteNow s hint ha bs ls
    | .bad s st => match linesWriteNow s hint ha bs ls with
      | .done s _ => .bad s st
      | r => r
    | .wait s => .wait s

/-- Writes bytes at the home, line by line in ascending order. A line that cannot be written is dropped and the others
are written; the status is that of the first dropped (R306). -/
def writeNow (s : State) (ha : Nat) (bs : List Byte) (hint : Nat) : Now Unit :=
  linesWriteNow s hint ha bs (linesOf ha bs.length)

/-- What a command leaves that must wait for an access: the operations its access asked for, and nothing else. -/
def waitFor (s w : State) : State := { s with tier := { s.tier with ops := w.tier.ops, nextOp := w.tier.nextOp } }

end Sys2Proof.Machine
end

