-- ==== Sys2Proof/Machine/Delivery.lean ====
section
/-!
DEFINITION. Host addresses and their translation (R517 to R523), the host windows (R507, R508), and the delivery of
event entries (R523, R524, R566, R567).
-/
namespace Sys2Proof.Machine

/-! ### Functions on links -/

/-- The link a function is on: PF0's is the control link, PFn's that of its partition's object (R499, R501). -/
def fnLinkOf (s : State) (fn : Nat) : Nat :=
  if fn = 0 then s.host.controlLink
  else if 9 ≤ fn then fn - 9
  else smGet 0 s.host.fnLink fn
def fnPort (s : State) (fn : Nat) : Nat := fnLinkOf s fn % 2
def hostPort (s : State) (p : Nat) : PortState := smGet {} s.host.ports p
def putPort (s : State) (p : Nat) (x : PortState) : State :=
  { s with host := { s.host with ports := smSet {} s.host.ports p x } }
/-- Both links of a port, as the function and link numbers of R580. -/
def linkState (s : State) (l : Nat) : LinkState := if l / 2 = 0 then (hostPort s (l % 2)).linkA else (hostPort s (l % 2)).linkB
def putLink (s : State) (l : Nat) (x : LinkState) : State :=
  let p := hostPort s (l % 2)
  putPort s (l % 2) (if l / 2 = 0 then { p with linkA := x } else { p with linkB := x })
/-- A host-port tag that is free (R38, R522). -/
def freeTagOf (s : State) (port : Nat) : Option Nat :=
  (span 0 4096).find? (fun t => (smGet none (hostPort s port).tags t).isNone)

/-- The function is PF0, a view, or a partition function that the licences enable (R8, R501). -/
def fnPresent (s : State) (fn : Nat) : Bool := decide (fn < 13) && (decide (9 ≤ fn) || partLicensed s fn)

/-! ### Windows -/

/-- Granules of a carve-out in ascending order. -/
def sortedGranules (s : State) (p : Nat) : List Nat := (part s p).granules.foldl (fun l e => setAdd l e.granule) []

/-- The HA that an offset of a function's window space reaches (R507); none beyond its end. -/
def windowHa (s : State) (fn o : Nat) : Option Nat :=
  if fn = 0 then
    if o < (if licRelay s then mirrorBase s else populated s) then some o else none
  else match (sortedGranules s fn).drop (o / 2 ^ 30) with
    | g :: _ => some (g * 2 ^ 30 + o % 2 ^ 30)
    | [] => none

/-- HPF_WIN offsets with the bits below the BAR size ignored (R538). -/
def win2 (s : State) (fn : Nat) : Nat :=
  let v := regRaw s ⟨.hpfWin2Offset, fn, 0⟩
  v - v % 2 ^ (hostFn s fn).bar2Log2
def win4 (s : State) (fn : Nat) : Nat :=
  let v := regRaw s ⟨.hpfWin4Offset, fn, 0⟩
  v - v % 2 ^ (hostFn s fn).bar4Log2

/-- The HA that a BAR2 (`bar` 2) or BAR4 offset of a function reaches; none where it is unmapped (R507, R508). -/
def barHa (s : State) (fn bar off : Nat) : Option Nat :=
  if bar = 2 then
    if off < 2 ^ (hostFn s fn).bar2Log2 then windowHa s fn (win2 s fn + off) else none
  else
    let ha := win4 s fn + off
    if off < 2 ^ (hostFn s fn).bar4Log2 ∧ ha < 2 ^ 42 ∧ mapped s (tierBase + fn * 2 ^ 42 + ha) then some (tierBase + fn * 2 ^ 42 + ha)
    else none

/-! ### The translation cache -/

/-- The slice of a translation (R518). -/
def tcSlice (fn pasid va : Nat) : Nat :=
  Nat.xor (Nat.xor (Nat.xor (fn * 0x1F) pasid) (va / 2 ^ 30)) (va / 2 ^ 37) % 128

def tcAt (s : State) (k : Nat) : Option TcEntry := smGet none s.host.tc k
def tcPut (s : State) (k : Nat) (e : Option TcEntry) : State :=
  { s with host := { s.host with tc := smSet none s.host.tc k e } }

def TcEntry.covers (e : TcEntry) (fn pasid va : Nat) : Bool :=
  e.fn == fn && e.pasid == pasid && e.va / 2 ^ e.log2 == va / 2 ^ e.log2

/-- The entry that serves a lookup: the lowest index among those that match (R518). -/
def tcFind (s : State) (fn pasid va : Nat) : Option (Nat × TcEntry) :=
  (span (1024 * tcSlice fn pasid va) 1024).findSome? (fun k => match tcAt s k with
    | some e => if e.covers fn pasid va then some (k, e) else none
    | none => none)

/-- Stores one translation of at most 1 GiB in its slice: a free entry, else the least recently used (R518). -/
def tcStore (s : State) (e : TcEntry) : State :=
  let base := 1024 * tcSlice e.fn e.pasid e.va
  let clock := s.host.tcClock + 1
  let s := { s with host := { s.host with tcClock := clock } }
  let k := match (span base 1024).find? (fun k => (tcAt s k).isNone) with
    | some k => k
    | none => ((span base 1024).foldl (fun (b : Nat × Nat) k => match tcAt s k with
        | some x => if x.used < b.2 then (k, x.used) else b
        | none => b) (base, clock)).1
  tcPut s k (some { e with used := clock })

/-- Removes the translations that a test names. -/
def tcDrop (s : State) (p : TcEntry → Bool) : State :=
  { s with host := { s.host with tc := s.host.tc.filter (fun x => match x.2 with | some e => !p e | none => false) } }

/-- Caches a translation of a page of 2^log2 bytes; one larger than 1 GiB as 1 GiB entries, of which the one that serves
the request is stored (R518). -/
def tcAdd (s : State) (fn pasid va log2 bus : Nat) (r w isHa : Bool) (want : Nat) : State :=
  if log2 ≤ 30 then
    tcStore s { fn := fn, pasid := pasid, va := va, log2 := log2, read := r, write := w, bus := bus, isHa := isHa, used := 0 }
  else
    let off := (want - va) / 2 ^ 30 * 2 ^ 30
    tcStore s { fn := fn, pasid := pasid, va := va + off, log2 := 30, read := r, write := w, bus := bus + off, isHa := isHa, used := 0 }

/-- The translation agent of a function: a site, or none for the host IOMMU (R517). -/
def transAgentOf (s : State) (fn : Nat) : Option Nat :=
  if fn = 0 then none
  else if (part s fn).transAgent < 8 then some (part s fn).transAgent else none

/-- Counts a request that ended with TRANSLATION_FAULT or MASTER_DISABLED (R540, R542). -/
def countFault (s : State) (fn : Nat) (st : Status) : State :=
  match st with
  | .translationFault => setStatus (bump s ⟨.hpfTrFaults, fn, 0⟩ 1) ⟨.hpfIntStatus, fn, 0⟩ 2 fn 0
  | .masterDisabled => bump s ⟨.hpfMdAborts, fn, 0⟩ 1
  | _ => s

/-- Where a request that names a host address goes (R519). -/
inductive Route where
  | ha (a : Nat)
  | bus (a : Nat)
  | wait
  | fail (st : Status)
  deriving DecidableEq, Repr

/-- The function on a port one of whose BARs holds a bus address: function, BAR, offset. -/
def barHit (s : State) (port a : Nat) : Option (Nat × Nat × Nat) :=
  (span 0 9).findSome? (fun fn =>
    let h := hostFn s fn
    if fnPort s fn ≠ port ∨ !h.mse ∨ !fnPresent s fn then none
    else if h.bar0 ≤ a ∧ a < h.bar0 + 2 ^ 24 then some (fn, 0, a - h.bar0)
    else if h.bar2 ≤ a ∧ a < h.bar2 + 2 ^ h.bar2Log2 then some (fn, 2, a - h.bar2)
    else if h.bar4 ≤ a ∧ a < h.bar4 + 2 ^ h.bar4Log2 then some (fn, 4, a - h.bar4)
    else none)

/-- Where a translated bus address goes (R519). -/
def routeBus (s : State) (fn a : Nat) : Route :=
  match barHit s (fnPort s fn) a with
  | some (_, 0, _) => .fail .translationFault
  | some (f, b, o) => match barHa s f b o with
    | some ha => .ha ha
    | none => .fail .translationFault
  | none => if (hostFn s fn).master then .bus a else .fail .masterDisabled

/-- A free TR_REQ tag of a site. -/
def trTag (s : State) (k : Nat) : Nat :=
  ((span 0 4096).find? (fun t => !s.host.trans.any (fun r => r.agent == some k && r.tag == t))).getD 0

/-- Asks the translation agent for a translation, unless it is asked for already (R517, R480). -/
def askTranslation (s : State) (fn pasid va : Nat) : State :=
  let page := va / 4096 * 4096
  if s.host.trans.any (fun r => r.fn == fn && r.pasid == pasid && r.va == page) then s
  else match transAgentOf s fn with
    | some k =>
      let t := trTag s k
      let s := { s with host := { s.host with trans := s.host.trans ++
        [{ fn := fn, pasid := pasid, va := page, agent := some k, tag := t, sent := s.stage.hubTime }] } }
      sendEhp s k 4 1 t 0 0 0 (page / 4096) (toBytes 4 pasid)
    | none =>
      let s := { s with host := { s.host with trans := s.host.trans ++
        [{ fn := fn, pasid := pasid, va := page, agent := none, tag := 0, sent := s.stage.hubTime }] } }
      emit s (.atsRequest fn pasid page)

/-- Translates a host address of a context for a read or a write (R517 to R523, R526). -/
def translate (s : State) (fn pasid va : Nat) (write : Bool) : State × Route :=
  let h := hostFn s fn
  if h.detached || s.host.denied.contains (fn, pasid, va / 4096 * 4096) then (s, .fail .translationFault)
  else if (transAgentOf s fn).isNone && !(h.atsEnable && h.pasidEnable) then (s, .fail .translationFault)
  else match tcFind s fn pasid va with
    | some (k, e) =>
      let clock := s.host.tcClock + 1
      let s := tcPut { s with host := { s.host with tcClock := clock } } k (some { e with used := clock })
      let s := bump s ⟨.hpfTcHits, fn, 0⟩ 1
      let a := e.bus + (va - e.va)
      if (if write then e.write else e.read) then (s, if e.isHa then .ha a else routeBus s fn a)
      else (s, .fail .translationFault)
    | none =>
      let s := bump s ⟨.hpfTcMisses, fn, 0⟩ 1
      if (transAgentOf s fn).isNone && !h.master then (s, .fail .masterDisabled)
      else (askTranslation s fn pasid va, .wait)

/-! ### Event entries -/

/-- The 16 bytes of an event entry (R566). -/
def EvtEntry.bytes (e : EvtEntry) : List Byte :=
  toBytes 2 e.slot ++ toBytes 1 e.status ++ toBytes 1 e.source ++ toBytes 4 0 ++ toBytes 8 e.cookie

def queueOf (s : State) (q : Nat) : Option Queue := smGet none s.work.queues q
def putQueue (s : State) (q : Nat) (x : Option Queue) : State :=
  { s with work := { s.work with queues := smSet none s.work.queues q x } }
def Queue.ringHost (q : Queue) : Bool := bitOf q.flags 0
def Queue.evtHost (q : Queue) : Bool := bitOf q.flags 1
def Queue.evtChiplet (q : Queue) : Bool := bitOf q.flags 2

/-- The event ring has room (R567). -/
def Queue.room (q : Queue) : Bool := decide ((q.evtNext + 2 ^ 32 - q.evtHead % 2 ^ 32) % 2 ^ 32 < 2 ^ q.evtLog2)

/-- An HA lies in the carve-out of a partition, or in the tier range of a context. -/
def inCarveOut (s : State) (p ha n : Nat) : Bool :=
  isHbm ha && decide (ha + n ≤ populated s) &&
  (span (ha / 2 ^ 30) ((ha + max n 1 - 1) / 2 ^ 30 + 1 - ha / 2 ^ 30)).all (fun g => (part s p).granules.any (fun e => e.granule == g))
def inTier (s : State) (c ha n : Nat) : Bool :=
  match context s c with
  | some x => decide (x.tier.bales ≠ 0) && decide (x.tier.base ≤ ha) && decide (ha + n ≤ x.tier.base + x.tier.bales * 65536)
  | none => false
/-- The windows that a step's unit may reach (R162, R220, R554). -/
def inWindows (s : State) (p c ha n : Nat) : Bool := inCarveOut s p ha n || inTier s c ha n

/-- A write of the hub to a host address of a queue's context (R433); false where it must wait. -/
def putHost (s : State) (fn : Nat) (r : Route) (bs : List Byte) : State × Bool :=
  match r with
  | .ha a => match writeNow s a bs 0 with
    | .done s _ => (s, true)
    | .bad s _ => (s, true)
    | .wait w => (waitFor s w, false)
  | .bus a => (emit s (.hostWrite fn a bs), true)
  | .fail st => (countFault s fn st, true)
  | .wait => (s, false)

/-- Writes the next event entry of a queue with its tail and signals (R567). None where it must wait: the ring is full,
a translation is under way, or the function may not master or is detached (R523, R526). -/
def writeEntry (s : State) (qn : Nat) (q : Queue) (e : EvtEntry) : State × Bool :=
  if !q.room then (s, false)
  else
    let pos := q.evtBase + 16 * (q.evtNext % 2 ^ q.evtLog2)
    let tail := toBytes 8 (q.evtNext + 1)
    let next (s : State) : State := putQueue s qn (some { q with evtNext := q.evtNext + 1 })
    if q.evtHost then
      let h := hostFn s q.fn
      if !h.master || h.detached then (s, false)
      else
        let pasid := match context s q.ctx with | some x => x.pasid | none => 0
        let (s, r1) := translate s q.fn pasid pos true
        let (s, r2) := translate s q.fn pasid q.evtTail true
        if r1 = .wait ∨ r2 = .wait then (s, false)
        else match putHost s q.fn r1 e.bytes with
          | (s', false) => (s', false)
          | (s', true) => match putHost s' q.fn r2 tail with
            | (s'', false) => (waitFor s s'', false)
            | (s'', true) => (raiseVector (next s'') q.fn q.vector, true)
    else
      let ok1 := inWindows s q.fn q.ctx pos 16
      let ok2 := inWindows s q.fn q.ctx q.evtTail 8
      let w1 := if ok1 then writeNow s pos e.bytes 0 else .done (logUnmapped s 0 pos) ()
      match w1 with
      | .wait w => (waitFor s w, false)
      | .done s1 _ | .bad s1 _ =>
        match (if ok2 then writeNow s1 q.evtTail tail 0 else Now.done (logUnmapped s1 0 q.evtTail) ()) with
        | .wait w => (waitFor s w, false)
        | .done s2 _ | .bad s2 _ =>
          let s3 := next s2
          if q.evtChiplet then
            (sendEhp s3 (chipSite s3 (q.intrInit / 64)) 3 5 0 (q.intrInit % 64) 0 0 q.vector (toBytes 8 (q.evtNext + 1)), true)
          else (s3, true)

/-- Puts an entry into the function's backlog of 4,095 entries; one more is dropped and counted (R523). -/
def toBacklog (s : State) (fn : Nat) (e : EvtEntry) : State :=
  let h := hostFn s fn
  if h.backlog.length < 4095 then putFn s fn { h with backlog := h.backlog ++ [e] }
  else setStatus (bump s ⟨.hpfBacklogDrops, fn, 0⟩ 1) ⟨.hpfIntStatus, fn, 0⟩ 1 fn 0

/-- A step's event entry: written at once, or held behind earlier entries of its queue or where it cannot be written. -/
def giveEntry (s : State) (e : EvtEntry) : State :=
  match queueOf s e.queue with
  | none => s
  | some q =>
    if q.evtLog2 = 0 then s
    else if (hostFn s q.fn).backlog.any (fun x => x.queue == e.queue) then toBacklog s q.fn e
    else match writeEntry s e.queue q e with
      | (s, true) => s
      | (s, false) => toBacklog s q.fn e

/-- Delivers an entry of a backlog, oldest first: one that cannot be written stays and holds back only its own queue (R524). -/
def deliverOne (acc : State × List EvtEntry) (e : EvtEntry) : State × List EvtEntry :=
  match queueOf acc.1 e.queue with
  | none => acc
  | some q =>
    if acc.2.any (fun x => x.queue == e.queue) then (acc.1, acc.2 ++ [e])
    else match writeEntry acc.1 e.queue q e with
      | (s, true) => (s, acc.2)
      | (s, false) => (s, acc.2 ++ [e])

/-- Delivers what can be delivered of a function's backlog (R524). -/
def deliverBacklog (s : State) (fn : Nat) : State :=
  let (s, kept) := (hostFn s fn).backlog.foldl deliverOne (s, [])
  modFn s fn (fun h => { h with backlog := kept })

end Sys2Proof.Machine
end

