-- ==== Sys2Proof/Machine/Narrow.lean ====
section
/-!
DEFINITION. Narrow number formats (R95 to R137): the format word, element values and images, packing, block scales,
the accumulation of a dot product, conversion and its rounding, and the choice of block scales on output.
-/
namespace Sys2Proof.Machine

/-- Element formats (R96). -/
inductive Elem where
  | n4i | n4is | n4f | n3i | n3is | n2s | nt | n8i | n8is | n8f4 | n8f5 | f32
  deriving DecidableEq, Repr

def elemOf (c : Nat) : Option Elem :=
  match c with
  | 0 => some .n4i | 1 => some .n4is | 2 => some .n4f | 3 => some .n3i | 4 => some .n3is | 5 => some .n2s
  | 6 => some .nt | 7 => some .n8i | 8 => some .n8is | 9 => some .n8f4 | 10 => some .n8f5 | 11 => some .f32
  | _ => none

/-- A well-formed format word (R95). SCALE: 0 none, 1 S8E, 2 S8F. ROUND: 0 RNE, 1 RTZ, 2 SR. -/
structure Fmt where
  elem   : Elem
  scale  : Nat
  block  : Nat
  mx     : Bool
  round  : Nat
  sat    : Bool
  noClip : Bool
  deriving DecidableEq, Repr

/-- Reads a format word; none where it is malformed (R97). Reserved bits must be 0 (R17). -/
def fmtOf (w : Nat) : Option Fmt :=
  match elemOf (bitsOf w 3 0) with
  | none => none
  | some e =>
    let sc := bitsOf w 5 4
    let bl := bitsOf w 7 6
    let mx := bitOf w 8
    let rd := bitsOf w 11 10
    let mxElem := e == .n4f || e == .n8i || e == .n8is || e == .n8f4 || e == .n8f5
    if sc == 3 || bl == 3 || rd == 3 || bitOf w 9 || decide (w / 2 ^ 14 % 4 ≠ 0) then none
    else if mx && !(sc == 1 && bl == 1 && mxElem) then none
    else if e == .f32 && sc != 0 then none
    else some { elem := e, scale := sc, block := 16 * 2 ^ bl, mx := mx, round := rd, sat := bitOf w 12,
                noClip := bitOf w 13 }

/-- Formats of the weight operand and of the activation operand (R142). -/
def Elem.isWeight : Elem → Bool
  | .n4i | .n4is | .n4f | .n3i | .n3is | .n2s | .nt => true
  | _ => false
def Elem.isAct : Elem → Bool
  | .n4i | .n4is | .n4f | .n8i | .n8is | .n8f4 => true
  | _ => false
/-- 8-bit activations (R143). -/
def Elem.is8 : Elem → Bool
  | .n8i | .n8is | .n8f4 => true
  | _ => false
/-- Two products per cell (R145). -/
def Elem.is2 : Elem → Bool
  | .n2s | .nt => true
  | _ => false

/-! ### Packing -/

/-- Elements in a container and bytes of a container (R106). -/
def Elem.perCont : Elem → Nat
  | .n4i | .n4is | .n4f => 2 | .n2s => 4 | .n3i | .n3is => 10 | .nt => 5 | _ => 1
def Elem.contBytes : Elem → Nat
  | .n3i | .n3is | .f32 => 4
  | _ => 1
/-- Bits of an element's code, but for NT. -/
def Elem.bits : Elem → Nat
  | .n4i | .n4is | .n4f => 4 | .n2s => 2 | .n3i | .n3is => 3 | .f32 => 32 | _ => 8

/-- Bytes of a packed vector of K elements (R109). -/
def Elem.packedBytes (e : Elem) (k : Nat) : Nat := (k + e.perCont - 1) / e.perCont * e.contBytes

/-- Code 0 of a format: digit 1 for NT (R109). -/
def Elem.zeroCode : Elem → Nat
  | .nt => 1
  | _ => 0

/-- The digit k of an NT byte; a byte of 243 to 255 is five zero trits (R108). Only the plane loader counts it (R163; log 132). -/
def ntDigit (b k : Nat) : Nat := if 243 ≤ b then 1 else b / 3 ^ k % 3

/-- The code of element `i` of a packed vector whose byte k is `f k` (R106). -/
def elemCode (e : Elem) (f : Nat → Nat) (i : Nat) : Nat :=
  let c := i / e.perCont
  let p := i % e.perCont
  match e with
  | .nt => ntDigit (f c) p
  | .n3i | .n3is | .f32 =>
    let w := f (4 * c) + 256 * f (4 * c + 1) + 65536 * f (4 * c + 2) + 16777216 * f (4 * c + 3)
    w / 2 ^ (e.bits * p) % 2 ^ e.bits
  | _ => f c / 2 ^ (e.bits * p) % 2 ^ e.bits

/-- The number of a container that holds the codes of its elements, padded with code 0. -/
def contOf (e : Elem) (codes : List Nat) : Nat :=
  match e with
  | .nt => ((span 0 5).foldl (fun v k => v + listGet 1 codes k * 3 ^ k) 0)
  | _ => ((span 0 e.perCont).foldl (fun v k => v + listGet 0 codes k * 2 ^ (e.bits * k)) 0)

/-- The bytes of `n` containers of a packed vector. -/
def packConts (e : Elem) : Nat → List Nat → List Byte
  | 0, _ => []
  | n + 1, l => toBytes e.contBytes (contOf e (l.take e.perCont)) ++ packConts e n (l.drop e.perCont)

/-- The bytes of a packed vector of codes (R106 to R109). -/
def packCodes (e : Elem) (l : List Nat) : List Byte := packConts e ((l.length + e.perCont - 1) / e.perCont) l

/-! ### Element values -/

/-- A two's-complement number of `n` bits. -/
def sext (n v : Nat) : Int := if 2 ^ (n - 1) ≤ v % 2 ^ n then (v % 2 ^ n : Int) - 2 ^ n else (v % 2 ^ n : Int)

/-- Magnitude of a float code without its sign, in units of the format's smallest subnormal: mantissa of `m` bits. -/
def floatUnits (m c : Nat) : Nat :=
  let e := c / 2 ^ m
  if e = 0 then c else (2 ^ m + c % 2 ^ m) * 2 ^ (e - 1)

/-- The integer image of an operand's code (R117); NaN codes of N8F4 give 0 here, they mark their block (R141). -/
def elemImage (e : Elem) (c : Nat) : Int :=
  match e with
  | .n4i => sext 4 c
  | .n4is => if c % 16 = 8 then -7 else sext 4 c
  | .n3i => sext 3 c
  | .n3is => if c % 8 = 4 then -3 else sext 3 c
  | .n8i => sext 8 c
  | .n8is => if c % 256 = 128 then -127 else sext 8 c
  | .n4f => let u : Int := floatUnits 1 (c % 8); if bitOf c 3 then -u else u
  | .n2s => let u : Int := if bitOf c 0 then 3 else 1; if bitOf c 1 then -u else u
  | .nt => (c : Int) - 1
  | .n8f4 =>
    if c % 128 = 127 then 0
    else let u : Int := floatUnits 3 (c % 128); if bitOf c 7 then -u else u
  | _ => 0

/-- log2 of 1 / f of the image (R117). -/
def Elem.imageShift : Elem → Nat
  | .n4f => 1 | .n2s => 1 | .n8f4 => 9 | _ => 0

/-- The value of an element's code without scales (R99 to R104). -/
def elemVal (e : Elem) (c : Nat) : Fv :=
  match e with
  | .f32 => fpVal c
  | .n8f5 =>
    let s := bitOf c 7
    let x := c % 128
    if x = 124 then .inf s else if 124 < x then .nan else .fin s (floatUnits 2 x) (2 ^ 16)
  | .n8f4 => if c % 128 = 127 then .nan else .fin (bitOf c 7) (floatUnits 3 (c % 128)) (2 ^ 9)
  | .n4f => .fin (bitOf c 3) (floatUnits 1 (c % 8)) 2
  | _ =>
    let i := elemImage e c
    .fin (decide (i < 0)) i.natAbs (2 ^ e.imageShift)

/-! ### Scales -/

/-- The value of a block-scale byte (R110, R111). -/
def scaleVal (kind b : Nat) : Fv :=
  if kind = 1 then
    (if b = 255 then .nan else if 127 ≤ b then .fin false (2 ^ (b - 127)) 1 else .fin false 1 (2 ^ (127 - b)))
  else if kind = 2 then
    (if b = 127 ∨ 128 ≤ b then .nan else .fin false (floatUnits 3 b) (2 ^ 9))
  else .fin false 1 1

/-- The exact contribution of a block before its rounding (R119): its image sum, the factors and the scales. -/
def contribution (s : Int) (shift : Nat) (sw sa : Fv) : Fv :=
  match ((Fv.fin (decide (s < 0)) s.natAbs (2 ^ shift)).mul sw).mul sa with
  | .fin n a d => if a = 0 then .fin false 0 1 else .fin n a d
  | x => x

/-- Factors of the images of two operands, with the 2^-6 of MX N8I on the side that carries it (R117, R119). -/
def factorShift (w a : Fmt) : Nat :=
  let mx (f : Fmt) : Nat := if f.mx && (f.elem == .n8i || f.elem == .n8is) then 6 else 0
  w.elem.imageShift + a.elem.imageShift + mx w + mx a

/-- The block length of a reduction (R112): that of the operand that carries block scales, the weights' if both or
neither carries them ("Where one operand or neither carries block scales, the reduction uses the BLOCK of the weight
operand"). -/
def reductionBlock (w _a : Fmt) : Nat := w.block

/-- Both operands carry block scales of different BLOCK (R112). -/
def blockClash (w a : Fmt) : Bool := w.scale != 0 && a.scale != 0 && w.block != a.block

/-- The exact block sum over images given as functions of the reduction index (R118). -/
def blockSum (w a : Nat → Int) (lo hi : Nat) : Int := (span lo (hi - lo)).foldl (fun s i => s + w i * a i) 0

/-- What one accumulation went through: the accumulator, and the conditions of R200 met after a block addition. -/
structure Acc where
  v      : Nat
  sawNan : Bool := false
  sawInf : Bool := false
  thresh : Bool := false
  cNan   : Bool := false
  deriving DecidableEq, Repr

/-- The accumulation of one output over its blocks (R120 to R122). `contrib b` is the exact contribution of block b,
`sent` the exponent of the sentinel's threshold, 0 for none (R200). -/
def accumulate (contrib : Nat → Fv) (sent : Nat) : Nat → Nat → Acc → Acc
  | 0, _, a => a
  | n + 1, b, a =>
    let c := contrib b
    let v := f32add a.v (rne32 c)
    let x := fpVal v
    accumulate contrib sent n (b + 1)
      { v := v
        sawNan := a.sawNan || x == .nan
        sawInf := a.sawInf || (match x with | .inf _ => true | _ => false)
        thresh := a.thresh || (sent != 0 && x.magGe (2 ^ (4 * sent)) 1)
        cNan := a.cNan || c == .nan }

/-- The output stage (R123): Teff, y and z. -/
def outputValue (acc tw ta q : Nat) : Nat := f32mul (f32mul acc (f32mul tw ta)) q

/-! ### Stochastic rounding -/

/-- One step of a lane's LFSR (R129). -/
def lfsrStep (s : Nat) : Nat := if s % 2 = 1 then Nat.xor (s / 2) 0x80200003 else s / 2

def lfsrSteps : Nat → Nat → Nat
  | 0, s => s
  | n + 1, s => lfsrSteps n (lfsrStep s)

/-- The starting state of a lane (R130). -/
def laneStart (seed lane : Nat) : Nat :=
  let s := Nat.xor (seed % 2 ^ 32) (lane * 0x9E3779B9 % 2 ^ 32)
  if s = 0 then 1 else s

/-- The 16-bit value of conversion `n` of a lane, counting from 1 (R131). -/
def laneRandom (seed lane n : Nat) : Nat := lfsrSteps (16 * n) (laneStart seed lane) % 65536

/-! ### Conversion -/

/-- How a conversion ended (R127, R128). -/
inductive ConvExc where
  | none | nan | inf | ovf
  deriving DecidableEq, Repr

/-- Mantissa bits of a float target; none for the others. -/
def Elem.mantBits : Elem → Option Nat
  | .n4f => some 1 | .n8f4 => some 3 | .n8f5 => some 2 | .f32 => some 23 | _ => Option.none

/-- log2 of 1 / unit: the spacing of the smallest grid values (R126). -/
def Elem.gridShift : Elem → Nat
  | .n4f => 1 | .n8f4 => 9 | .n8f5 => 16 | .f32 => 149 | .n2s => 1 | _ => 0

/-- The largest finite magnitude of the target, in grid units, for a sign. -/
def Elem.maxUnits (e : Elem) (neg : Bool) : Nat :=
  match e with
  | .n4i => if neg then 8 else 7 | .n4is => 7 | .n3i => if neg then 4 else 3 | .n3is => 3
  | .n8i => if neg then 128 else 127 | .n8is => 127 | .n4f => 12 | .n2s => 3 | .nt => 1
  | .n8f4 => 229376 | .n8f5 => 57344 * 65536 | .f32 => (2 ^ 24 - 1) * 2 ^ 253

/-- Rounds num / den to an integer under a rounding mode (R125); `tieLo` sends a tie to the smaller magnitude. -/
def roundUnits (mode r num den : Nat) (tieLo : Bool) : Nat :=
  let lo := num / den
  let rem := num % den
  if mode = 1 then lo
  else if mode = 2 then (if r < 65536 * rem / den then lo + 1 else lo)
  else if 2 * rem < den then lo
  else if den < 2 * rem then lo + 1
  else if tieLo ∨ lo % 2 = 0 then lo else lo + 1

/-- The magnitude, in grid units, that a value rounds to on the extended grid (R125, R126). -/
def gridRound (e : Elem) (mode r num den : Nat) : Nat :=
  let a := num * 2 ^ e.gridShift
  match e.mantBits with
  | some m =>
    let q := a / den
    if q < 2 ^ (m + 1) then roundUnits mode r a den false
    else
      let sh := Nat.log2 q - m
      roundUnits mode r a (den * 2 ^ sh) false * 2 ^ sh
  | Option.none =>
    match e with
    | .n2s => if a < den then 1 else 2 * roundUnits mode r (a - den) (2 * den) true + 1
    | .nt => roundUnits mode r a den true
    | _ => roundUnits mode r a den false

/-- The code of a signed grid magnitude within the value set. -/
def gridCode (e : Elem) (neg : Bool) (u : Nat) : Nat :=
  match e.mantBits with
  | some m =>
    let c := if u < 2 ^ (m + 1) then u else (Nat.log2 u - m) * 2 ^ m + u / 2 ^ (Nat.log2 u - m)
    c + (if neg then 2 ^ (e.bits - 1) else 0)
  | Option.none =>
    match e with
    | .n2s => (if u = 3 then 1 else 0) + (if neg then 2 else 0)
    | .nt => if u = 0 then 1 else if neg then 0 else 2
    | _ => if neg then (2 ^ e.bits - u) % 2 ^ e.bits else u

/-- The code of an infinity or overflow (R127). -/
def overflowCode (e : Elem) (sat neg isInf : Bool) : Nat :=
  match e with
  | .n8f4 => if sat then gridCode .n8f4 neg 229376 else 0x7F
  | .n8f5 => if sat then gridCode .n8f5 neg (57344 * 65536) else 0x7C + (if neg then 128 else 0)
  | .f32 => inf32 neg
  | e => let _ := isInf; gridCode e neg (e.maxUnits neg)

/-- The code that NaN converts to (R127). -/
def nanCode : Elem → Nat
  | .nt => 1 | .n8f4 => 0x7F | .n8f5 => 0x7E | .f32 => nan32 | _ => 0

/-- Converts an FP32 word to a format under ROUND and SAT (R125 to R127). `r` is the lane's random value. -/
def convert (e : Elem) (mode : Nat) (sat mxScale : Bool) (r w : Nat) : Nat × ConvExc :=
  match fpVal w with
  | .nan => (nanCode e, .nan)
  | .inf n => (overflowCode e sat n true, .inf)
  | .fin n a d =>
    let a := if mxScale then a * 64 else a
    if e = .n2s ∧ a = 0 then (0, .none)
    else
      let u := gridRound e mode r a d
      if e.maxUnits n < u then (overflowCode e sat n false, .ovf) else (gridCode e n u, .none)

/-- Counts of conversion results from NaN, infinity and overflow (R157). -/
structure ConvCount where
  nan : Nat := 0
  inf : Nat := 0
  ovf : Nat := 0
  deriving DecidableEq, Repr

def ConvCount.add (c : ConvCount) (x : ConvExc) : ConvCount :=
  match x with
  | .none => c
  | .nan => { c with nan := c.nan + 1 }
  | .inf => { c with inf := c.inf + 1 }
  | .ovf => { c with ovf := c.ovf + 1 }

/-- The format is MX N8I, whose elements carry the factor 2^-6 (R114). -/
def Fmt.mxInt (f : Fmt) : Bool := f.mx && (f.elem == .n8i || f.elem == .n8is)

/-- Largest finite magnitude of the element format as a rational, with the factor of MX N8I, and its emax (R135). -/
def Fmt.maxMag (f : Fmt) : Nat × Nat :=
  (f.elem.maxUnits false, 2 ^ f.elem.gridShift * (if f.mxInt then 64 else 1))
def Fmt.emax (f : Fmt) : Int :=
  match f.elem with
  | .n4f => 2 | .n4i => 2 | .n4is => 2 | .n3i => 1 | .n3is => 1 | .n2s => 0 | .nt => 0
  | .n8i => if f.mx then 0 else 6 | .n8is => if f.mx then 0 else 6 | .n8f4 => 8 | .n8f5 => 15 | .f32 => 127

/-- The magnitude of an FP32 word in units of 2^-149. -/
def fpUnits (w : Nat) : Nat := floatUnits 23 (w % 2 ^ 31)

/-- The largest magnitude among finite FP32 words, in units of 2^-149. -/
def amaxUnits (l : List Nat) : Nat := l.foldl (fun m w => max m (fpUnits w)) 0

/-- The S8E scale code for a block whose largest magnitude is `u` units of 2^-149 (R135). -/
def s8eCode (f : Fmt) (u : Nat) : Nat :=
  let fl : Int := (Nat.log2 u : Int) - 149
  let k : Int :=
    if f.noClip then
      let (mn, md) := f.maxMag
      let fits (k : Int) : Bool := let (pn, pd) := pow2 k; decide (u * md * pd ≤ mn * pn * 2 ^ 149)
      let k0 := fl - f.emax
      if fits (k0 - 1) then k0 - 1 else if fits k0 then k0 else k0 + 1
    else fl - f.emax
  (max (-127) (min 127 k) + 127).toNat

/-- The S8F scale code (R136): the smallest value that is at least amax / M, between 2^-9 and 448. -/
def s8fCode (f : Fmt) (u : Nat) : Nat :=
  let (mn, md) := f.maxMag
  ((span 1 126).find? (fun c => decide (u * md * 2 ^ 9 ≤ floatUnits 3 c * mn * 2 ^ 149))).getD 126

/-- The outputs of one block with their scale (R134 to R137): scale byte, codes, counts. `rnd i` is the random value of
the i-th element's lane. -/
def convertBlock (f : Fmt) (rnd : Nat → Nat) (l : List Nat) : Nat × List Nat × ConvCount :=
  let special := l.filter (fun w => !(fpVal w).isFin)
  if !special.isEmpty then
    (if f.scale = 1 then 255 else 127, l.map (fun _ => f.elem.zeroCode),
     if special.any (fun w => fpVal w == .nan) then { nan := 1 } else { inf := 1 })
  else
    let u := amaxUnits l
    if u = 0 then (0, l.map (fun _ => f.elem.zeroCode), {})
    else
      let code := if f.scale = 1 then s8eCode f u else s8fCode f u
      let (sn, sd) := match scaleVal f.scale code with | .fin _ a d => (a, d) | _ => (1, 1)
      let step (acc : Nat × List Nat × ConvCount) (w : Nat) : Nat × List Nat × ConvCount :=
        let (i, cs, n) := acc
        let (c, x) := convert f.elem f.round f.sat f.mxInt (rnd i) (rne32 ((fpVal w).divFin sn sd))
        (i + 1, cs ++ [c], n.add x)
      let (_, cs, n) := l.foldl step (0, [], {})
      (code, cs, n)

/-- The blocks of a row of outputs, `n` at most, from block `b` on. -/
def convertBlocks (f : Fmt) (rnd : Nat → Nat) : Nat → Nat → List Nat → List Nat × List Nat × ConvCount
  | 0, _, _ => ([], [], {})
  | n + 1, b, l =>
    let (sc, cs, k) := convertBlock f (fun i => rnd (b * f.block + i)) (l.take f.block)
    let (scs, css, k') := convertBlocks f rnd n (b + 1) (l.drop f.block)
    (sc :: scs, cs ++ css, { nan := k.nan + k'.nan, inf := k.inf + k'.inf, ovf := k.ovf + k'.ovf })

/-- Converts a row of outputs (R123 step 4, R154): scale bytes, codes, counts. -/
def convertRow (f : Fmt) (rnd : Nat → Nat) (l : List Nat) : List Nat × List Nat × ConvCount :=
  if f.scale = 0 then
    let step (acc : Nat × List Nat × ConvCount) (w : Nat) : Nat × List Nat × ConvCount :=
      let (i, cs, n) := acc
      let (c, x) := convert f.elem f.round f.sat f.mxInt (rnd i) w
      (i + 1, cs ++ [c], n.add x)
    let (_, cs, n) := l.foldl step (0, [], {})
    ([], cs, n)
  else convertBlocks f rnd ((l.length + f.block - 1) / f.block) 0 l

end Sys2Proof.Machine
end

