-- ==== Sys2Proof/Machine/Product.lean ====
section
/-!
DEFINITION. Dot products of packed vectors of the narrow formats (R117 to R122, R141), which the matrix engines and the
cluster matrix assists share (R124).
-/
namespace Sys2Proof.Machine

/-- A code is an N8F4 NaN, which marks its block (R141). -/
def codeNan (e : Elem) (c : Nat) : Bool := e == .n8f4 && c % 128 == 127

/-- The reduction indices of block `b` of a reduction over `k` elements (R112). -/
def blockIdx (w a : Fmt) (k b : Nat) : Nat × Nat := (b * reductionBlock w a, min k ((b + 1) * reductionBlock w a))

/-- The exact sum of block `b` (R118). The images of the operands are functions of the reduction index. -/
def dotSum (w a : Fmt) (wi ai : Nat → Int) (k b : Nat) : Int := blockSum wi ai (blockIdx w a k b).1 (blockIdx w a k b).2

/-- The exact contribution of a block from its sum (R119); `nan` says that an element marks it as NaN (R141). -/
def dotContrib (w a : Fmt) (sum : Int) (nan : Bool) (wsc asc : Nat) : Fv :=
  if nan then .nan else contribution sum (factorShift w a) (scaleVal w.scale wsc) (scaleVal a.scale asc)

/-- An element of block `b` marks it as NaN (R141). -/
def dotNan (w a : Fmt) (nan : Nat → Bool) (k b : Nat) : Bool :=
  (span (blockIdx w a k b).1 ((blockIdx w a k b).2 - (blockIdx w a k b).1)).any nan

/-- The exact contribution of block `b` of a reduction over `k` elements (R117 to R119). The images of the operands and the
NaN mark of an activation are functions of the reduction index, the scale bytes functions of the block. -/
def dotBlock (w a : Fmt) (wi ai : Nat → Int) (nan : Nat → Bool) (wsc asc : Nat → Nat) (k b : Nat) : Fv :=
  dotContrib w a (dotSum w a wi ai k b) (dotNan w a nan k b) (wsc b) (asc b)

/-- Blocks of a reduction over `k` elements. -/
def dotBlocks (w a : Fmt) (k : Nat) : Nat := (k + reductionBlock w a - 1) / reductionBlock w a

/-- One output from a starting value (R120 to R122); `sent` is the sentinel's threshold exponent (R200). -/
def dotOut (w a : Fmt) (wi ai : Nat → Int) (nan : Nat → Bool) (wsc asc : Nat → Nat) (k start sent : Nat) : Acc :=
  accumulate (dotBlock w a wi ai nan wsc asc k) sent (dotBlocks w a k) 0 { v := start }

end Sys2Proof.Machine
end

