-- ==== Sys2Proof/Machine/EngineDesc.lean ====
section
/-!
DEFINITION. Engine descriptors (R158 to R162, R185): their fields, their checks at the fetch, and the memory they use.
-/
namespace Sys2Proof.Machine

/-- The fields of a descriptor whose format words are well-formed. -/
structure EngDesc where
  accIn : Bool
  final : Bool
  guard : Nat
  m : Nat
  n : Nat
  k : Nat
  accRow : Nat
  w : Fmt
  a : Fmt
  o : Fmt
  wfmt : Nat
  seed : Nat
  wb0 : Nat
  wb1 : Nat
  wscale : Nat
  abase : Nat
  astride : Nat
  ascaleStride : Nat
  ascale : Nat
  obase : Nat
  ostride : Nat
  oscaleStride : Nat
  oscale : Nat
  tw : Nat
  ta : Nat
  q : Nat
  lane : Nat
  deriving DecidableEq, Repr

/-- A format that stands where OFMT is ignored. -/
def f32Fmt : Fmt := { elem := .f32, scale := 0, block := 16, mx := false, round := 0, sat := false, noClip := false }

/-- Reads the fields of a descriptor; none where TYPE, a reserved field or a format word is wrong (R160, R185). -/
def engDescOf (b : List Byte) : Option EngDesc :=
  let f := fieldOf b
  let final := bitOf (f 1 1) 1
  match fmtOf (f 0xC 2), fmtOf (f 0xE 2), (if final then fmtOf (f 0x10 2) else some f32Fmt) with
  | some w, some a, some o =>
    if f 0 1 = 1 ∧ f 1 1 < 4 ∧ f 2 2 < 512 ∧ f 0x12 2 = 0 ∧ f 0x70 16 = 0 ∧ w.elem.isWeight ∧ a.elem.isAct then
      some { accIn := bitOf (f 1 1) 0, final := final, guard := f 2 2, m := f 4 2, n := f 6 2, k := f 8 2, accRow := f 0xA 2
             w := w, a := a, o := o, wfmt := f 0xC 2, seed := f 0x14 4, wb0 := f 0x18 8, wb1 := f 0x20 8, wscale := f 0x28 8
             abase := f 0x30 8, astride := f 0x38 4, ascaleStride := f 0x3C 4, ascale := f 0x40 8, obase := f 0x48 8
             ostride := f 0x50 4, oscaleStride := f 0x54 4, oscale := f 0x58 8, tw := f 0x60 4, ta := f 0x64 4, q := f 0x68 4
             lane := f 0x6C 4 }
    else none
  | _, _, _ => none

def EngDesc.sent (d : EngDesc) : Nat := bitsOf d.guard 8 4
def EngDesc.strict (d : EngDesc) : Bool := bitOf d.guard 3
def EngDesc.noRemap (d : EngDesc) : Bool := bitOf d.guard 2
def EngDesc.narrow (d : EngDesc) : Bool := bitOf d.guard 1 && d.a.elem.is8
def EngDesc.chkOff (d : EngDesc) : Bool := bitOf d.guard 0
/-- Blocks of the reduction (R112, R159). -/
def EngDesc.nb (d : EngDesc) : Nat := dotBlocks d.w d.a d.k
/-- SRAM rows of one vector (R152). -/
def EngDesc.rowsPer (d : EngDesc) : Nat := if 512 < d.n then 2 else 1
def EngDesc.rows (d : EngDesc) : List Nat := span d.accRow (d.m * d.rowsPer)
def EngDesc.aBytes (d : EngDesc) : Nat := d.a.elem.packedBytes d.k
def EngDesc.aScales (d : EngDesc) : Nat := if d.a.scale = 0 then 0 else d.nb
def EngDesc.wScales (d : EngDesc) : Nat := if d.w.scale = 0 then 0 else d.n * d.nb
def EngDesc.oBytes (d : EngDesc) : Nat := if d.final then d.o.elem.packedBytes d.n else 0
def EngDesc.oScales (d : EngDesc) : Nat := if d.final && d.o.scale != 0 then (d.n + d.o.block - 1) / d.o.block else 0
/-- Guard tiles (R184). -/
def EngDesc.tiles (d : EngDesc) : Nat := (d.m + 63) / 64
/-- Vectors of a guard tile, in ascending order. -/
def EngDesc.tileRows (d : EngDesc) (g : Nat) : List Nat := span (64 * g) (min 64 (d.m - 64 * g))

/-- The tag of its plane (R147). -/
def EngDesc.tag (d : EngDesc) (part ctx : Nat) : PlaneTag :=
  { part := part, ctx := ctx, wb0 := d.wb0, wb1 := d.wb1, wscale := d.wscale, wfmt := d.wfmt }

/-- The ranges, placements and strides that R160 asks for. -/
def EngDesc.wellPlaced (d : EngDesc) (banks e ha : Nat) : Bool :=
  decide (1 ≤ d.m) && decide (d.m ≤ (if 512 < d.n then 1024 else 2048)) && decide (1 ≤ d.n) &&
  decide (d.n ≤ (if d.w.elem.is2 then 1024 else 512)) && decide (1 ≤ d.k) && decide (d.k ≤ 512) &&
  d.rows.all (fun r => decide (r < 2048) && bitOf banks (8 * e + r / 256)) &&
  d.wb0 % 65536 == 0 && d.wb1 % 65536 == 0 && ha % 128 == 0 && d.abase % 64 == 0 && d.astride % 64 == 0 &&
  (!d.final || (d.obase % 64 == 0 && d.ostride % 64 == 0)) && decide (d.aBytes ≤ d.astride) &&
  (!d.final || decide (d.oBytes ≤ d.ostride)) && (d.w.scale == 0 || d.wscale != 0) && (d.a.scale == 0 || d.ascale != 0) &&
  (!d.final || d.o.scale == 0 || d.oscale != 0) && (d.final || d.k % reductionBlock d.w d.a == 0) && !blockClash d.w d.a

/-- The byte ranges of the outputs of some rows (R159). -/
def EngDesc.outs (d : EngDesc) (rows : List Nat) : List (Nat × Nat) :=
  if d.final then rows.flatMap (fun r => [(d.obase + r * d.ostride, d.oBytes)] ++
    (if d.oScales = 0 then [] else [(d.oscale + r * d.oscaleStride, d.oScales)]))
  else []

/-- Every byte range that a descriptor reads or writes, its own apart (R162). -/
def EngDesc.ranges (d : EngDesc) : List (Nat × Nat) :=
  [(d.wb0, 65536)] ++ (if d.wb1 = 0 then [] else [(d.wb1, 65536)]) ++ (if d.wScales = 0 then [] else [(d.wscale, d.wScales)]) ++
  (span 0 d.m).flatMap (fun r =>
    [(d.abase + r * d.astride, d.aBytes)] ++ (if d.aScales = 0 then [] else [(d.ascale + r * d.ascaleStride, d.aScales)])) ++
  d.outs (span 0 d.m)

/-- The checks of a descriptor at its fetch (R160 to R162). -/
def checkDesc (s : State) (p c e ha : Nat) (b : List Byte) : Status :=
  match engDescOf b with
  | none => .aborted
  | some d =>
    if !d.wellPlaced (part s p).meBanks e ha then .aborted
    else if d.ranges.all (fun r => inWindows s p c r.1 r.2) then .complete else .translationFault

/-! ### What a plane holds -/

/-- The weight image at reduction row `r` and column `n` of a tile (R139, R146, R281). -/
def weightImage (d : EngDesc) (pl : Plane) (r n : Nat) : Int :=
  let l := if r < 256 then pl.bale0 else pl.bale1
  if l.isEmpty then 0
  else elemImage d.w.elem (elemCode d.w.elem (fun k => (listGet 0 l (256 * (r % 256) + k)).toNat) n)

/-- NT bytes of 243 to 255 among bytes 0 to 204 of each row of a bale (R163). -/
def ntErrors (l : List Byte) : Nat :=
  ((span 0 l.length).filter (fun i => decide (i % 256 < 205) && decide (243 ≤ (listGet 0 l i).toNat))).length

/-- The weights of the checksum column, by reduction row (R188). -/
def checkWeights (d : EngDesc) (pl : Plane) : List Int :=
  (span 0 512).map (fun r => if r < d.k then (span 0 d.n).foldl (fun v n => v + weightImage d pl r n) 0 else 0)

/-- The plane with the checksum column's weights for a descriptor's tile. A plane that is used again without a load for a tile of another
size has them formed again (DESIGN CHOICE, log 128). -/
def Plane.checked (pl : Plane) (d : EngDesc) : Plane :=
  if pl.n = d.n ∧ pl.k = d.k ∧ !pl.check.isEmpty then pl else { pl with check := checkWeights d pl, n := d.n, k := d.k }

/-- The physical column of a logical one under the column map that a plane took up (R174, R145): 512 + k for spare k. Where two valid
spares name a column, the later one stands for it (DESIGN CHOICE, log 128). -/
def Plane.phys (pl : Plane) (n : Nat) : Nat :=
  match (span 0 pl.spares.length).reverse.find? (fun k => listGet none pl.spares k == some (n % 512)) with
  | some k => 512 + k
  | none => n % 512

/-! ### One guard tile -/

/-- A defect of the array in a run of a guard tile (R185): a physical column with its spares, a vector of the tile, and a block. -/
def flawOk : Flaw → Bool
  | .blockSum c _ v b _ | .checkCell c _ v b _ => decide (c < 516 ∧ v < 64 ∧ b < 32)
  | .total c _ v _ => decide (c < 516 ∧ v < 64)
  | .checkSum v b _ => decide (v < 64 ∧ b < 32)

/-- A defect of the array in the feed of the checksum vector (R196). -/
def feedFlawOk (f : FeedFlaw) : Bool := decide (f.col < 516 ∧ f.blk < 32)

/-- By how much flaws change the exact block sum of a logical column, the checksum column's, and the one that a checksum-row cell takes;
and which bits of a column's total they change. -/
def Flaw.onSum (fl : List Flaw) (col : Nat) (hi : Bool) (vec blk : Nat) : Int :=
  fl.foldl (fun v f => match f with
    | .blockSum c h m b d => if c = col ∧ h = hi ∧ m = vec ∧ b = blk then v + d else v
    | _ => v) 0
def Flaw.onCheck (fl : List Flaw) (vec blk : Nat) : Int :=
  fl.foldl (fun v f => match f with
    | .checkSum m b d => if m = vec ∧ b = blk then v + d else v
    | _ => v) 0
def Flaw.onCell (fl : List Flaw) (col : Nat) (hi : Bool) (vec blk : Nat) : Int :=
  fl.foldl (fun v f => match f with
    | .checkCell c h m b d => if c = col ∧ h = hi ∧ m = vec ∧ b = blk then v + d else v
    | _ => v) 0
def Flaw.onTotal (fl : List Flaw) (col : Nat) (hi : Bool) (vec : Nat) : Nat :=
  fl.foldl (fun v f => match f with
    | .total c h m k => if c = col ∧ h = hi ∧ m = vec then Nat.xor v k.toNat else v
    | _ => v) 0

/-- What one column made of one vector: its exact block sums, its total, and the exact contributions that its checksum-row cell formed
from them (R190). -/
structure ColOut where
  sums  : List Int
  acc   : Acc
  cells : List Fv
  start : Nat
  deriving DecidableEq, Repr

/-- A vector of a guard tile: its row in the descriptor, its packed elements and its scale bytes. -/
structure ActRow where
  m   : Nat
  row : List Byte
  sc  : List Byte
  deriving DecidableEq, Repr

def ActRow.code (v : ActRow) (d : EngDesc) : Nat → Nat := elemCode d.a.elem (fun k => (listGet 0 v.row k).toNat)
def ActRow.image (v : ActRow) (d : EngDesc) (r : Nat) : Int := elemImage d.a.elem (v.code d r)

/-- One output of a vector (R118 to R121, R140); `vec` is the vector's place in its tile. -/
def colOut (d : EngDesc) (pl : Plane) (scales : List Byte) (fl : List Flaw) (v : ActRow) (vec start n : Nat) : ColOut :=
  let c := pl.phys n
  let hi := decide (512 ≤ n)
  let sums := (span 0 d.nb).map (fun b => dotSum d.w d.a (fun r => weightImage d pl r n) (v.image d) d.k b + Flaw.onSum fl c hi vec b)
  let part (b : Nat) (sum : Int) : Fv := dotContrib d.w d.a sum (dotNan d.w d.a (fun r => codeNan d.a.elem (v.code d r)) d.k b)
    (listGet 0 scales (n * d.nb + b)).toNat (listGet 0 v.sc b).toNat
  let a := accumulate (fun b => part b (listGet 0 sums b)) d.sent d.nb 0 { v := start }
  { sums := sums, acc := { a with v := Nat.xor a.v (Flaw.onTotal fl c hi vec) }
    cells := (span 0 d.nb).map (fun b => part b (listGet 0 sums b + Flaw.onCell fl c hi vec b)), start := start }

/-- Every output of a guard tile, vector by vector. -/
def tileOuts (d : EngDesc) (pl : Plane) (scales : List Byte) (fl : List Flaw) (start : Nat → Nat → Nat) : Nat → List ActRow →
    List (Nat × List ColOut)
  | _, [] => []
  | vec, v :: vs => (v.m, (span 0 d.n).map (fun n => colOut d pl scales fl v vec (start v.m n) n)) ::
      tileOuts d pl scales fl start (vec + 1) vs

/-- Column-check trips (R189): vector of the tile and block, in ascending order. The checksum column's exact block sum differs from the sum
of the columns'. -/
def colTrips (d : EngDesc) (pl : Plane) (fl : List Flaw) : Nat → List ActRow → List (Nat × List ColOut) → List (Nat × Nat)
  | vec, v :: vs, o :: os =>
    ((span 0 d.nb).filter (fun b =>
      let s := dotSum d.w d.a (fun r => listGet 0 pl.check r) (v.image d) d.k b + Flaw.onCheck fl vec b
      s != o.2.foldl (fun t c => t + listGet 0 c.sums b) 0)).map (fun b => (vec, b)) ++ colTrips d pl fl (vec + 1) vs os
  | _, _, _ => []

/-- The sums of a logical column over a guard tile (R190): vectors and, within each, blocks in ascending order. -/
def rowSums (outs : List (Nat × List ColOut)) (n : Nat) : RowSums :=
  outs.foldl (fun (t : RowSums) v => match v.2[n]? with
    | some c =>
      { r := extAdd t.r (c.cells.foldl extAdd (fpVal c.start))
        e := extAdd t.e (c.cells.foldl (fun x y => extAdd x y.abs) (fpVal c.start).abs)
        a := extAdd t.a (fpVal c.acc.v) }
    | none => t) { r := .fin false 0 1, e := .fin false 0 1, a := .fin false 0 1 }

/-- The factor j of the tolerance (R191). -/
def EngDesc.roundings (d : EngDesc) : Nat :=
  match d.a.elem with
  | .n8f4 => 2
  | .n8i | .n8is => if d.w.scale = 2 ∨ d.a.scale = 2 then 2 else 1
  | _ => 1

/-- A sum of the row check is infinite or NaN: the check skips the column (R192). -/
def RowSums.skipped (t : RowSums) : Bool := !(t.a.isFin && t.r.isFin && t.e.isFin)

/-- |A − R| is above the tolerance of R191, which is taken exactly (DEDUCED, log 127). -/
def RowSums.trips (t : RowSums) (d : EngDesc) (vectors : Nat) : Bool :=
  let tol := (t.e.mul (.fin false (d.roundings * d.nb + 1) (2 ^ 24))).add (.fin false (vectors * d.nb) (2 ^ 149))
  !t.skipped && tol.lt (t.a.add t.r.neg).abs

/-- What a guard tile's vectors gave: the accumulators row by row, the counts of the sentinels (R200), what the checksum row holds (R190),
the trips of both checks (R189, R191), unchecked columns (R192) and whether the tile was escalated (R203). -/
structure TileRun where
  rows : List (Nat × List Nat)
  nan : Nat
  inf : Nat
  thresh : Nat
  sums : List RowSums
  colTrips : List (Nat × Nat)
  rowTrips : List Nat
  unchecked : Nat
  escalated : Bool
  deriving DecidableEq, Repr

/-- An element fits the narrow path (R203). -/
def fitsNarrow (e : Elem) (c : Nat) : Bool :=
  match e with
  | .n8f4 => decide (c / 8 % 16 ≤ 8)
  | .n8is => c % 256 != 128 && decide (-8 ≤ elemImage e c) && decide (elemImage e c ≤ 7)
  | _ => decide (-8 ≤ elemImage e c) && decide (elemImage e c ≤ 7)

/-- An element of a vector overruns the narrow path (R203). -/
def ActRow.overruns (v : ActRow) (d : EngDesc) : Bool := (span 0 d.k).any (fun r => !fitsNarrow d.a.elem (v.code d r))

/-- Runs a guard tile under the flaws that its run met: `start` gives the accumulator a column starts from, `scales` the weight block
scales. -/
def runTile (d : EngDesc) (pl : Plane) (scales : List Byte) (fl : List Flaw) (acts : List ActRow) (start : Nat → Nat → Nat) : TileRun :=
  let out := tileOuts d pl scales fl start 0 acts
  let cols (p : Acc → Bool) : Nat := ((span 0 d.n).filter (fun n => out.any (fun v => match v.2[n]? with | some c => p c.acc | none => false))).length
  let sums := (span 0 d.n).map (rowSums out)
  { rows := out.map (fun v => (v.1, v.2.map (fun c => c.acc.v)))
    nan := cols Acc.sawNan, inf := cols Acc.sawInf, thresh := cols Acc.thresh
    sums := sums, colTrips := colTrips d pl fl 0 acts out
    rowTrips := (span 0 d.n).filter (fun n => match sums[n]? with | some t => t.trips d acts.length | none => false)
    unchecked := (sums.filter RowSums.skipped).length
    escalated := acts.any (fun v => v.overruns d) }

/-- The logical columns that a localizing rerun names (R196): the sum of a column's exact block sums over the tile differs, in some block,
from what the column gives for the checksum vector, which `feed` may falsify. -/
def namedColumns (d : EngDesc) (pl : Plane) (fl : List Flaw) (feed : List FeedFlaw) (acts : List ActRow) : List Nat :=
  let extra (r : Nat) : Int := acts.foldl (fun t v => t + v.image d r) 0
  (span 0 d.n).filter (fun n =>
    let c := pl.phys n
    let hi := decide (512 ≤ n)
    (span 0 d.nb).any (fun b =>
      let sum (a : Nat → Int) : Int := dotSum d.w d.a (fun r => weightImage d pl r n) a d.k b
      let tile := (span 0 acts.length).foldl (fun t i => match acts[i]? with
        | some v => t + sum (v.image d) + Flaw.onSum fl c hi i b + Flaw.onCell fl c hi i b
        | none => t) 0
      let off := feed.foldl (fun t f => if f.col = c ∧ f.hi = hi ∧ f.blk = b then t + f.delta else t) 0
      tile != sum extra + off))

/-- Clocks of one vector (R151, R156, R205). -/
def vectorClocks (d : EngDesc) (narrow : Bool) : Nat :=
  let c := if d.a.elem.is8 then (if narrow then 2 else 4) else 1
  max c (((d.oBytes + d.oScales) * 3 + 2047) / 2048)

/-- The memory image of an output row: its packed outputs and its scale bytes (R123, R154, R155), with the counts of R157. -/
def outputRow (d : EngDesc) (m : Nat) (accs : List Nat) : List Byte × List Byte × ConvCount :=
  let (sc, cs, n) := convertRow d.o (fun c => laneRandom d.seed (d.lane + c) (m + 1)) (accs.map (fun v => outputValue v d.tw d.ta d.q))
  (packCodes d.o.elem cs, sc.map (BitVec.ofNat 8), n)

end Sys2Proof.Machine
end

