-- ==== Sys2Proof/Machine/UnitBase.lean ====
section
/-!
DEFINITION. What steps meet in the units: engines and clusters as they are kept, the cancellation of a step in a unit
(R59, R60, R170, R249), the start of a step on a cluster (R247), pending interrupts of a core (R244).
-/
namespace Sys2Proof.Machine

/-! ### Outputs without defined content -/

/-- The bytes of a line that a mask selects hold no defined content: a free value stands for them (R60, R197, R209). A line of a bale that
is not resident keeps what its slot holds (log 129). -/
def freeLine (s : State) (line : Nat) (m : BitVec 128) : State :=
  let (d, s) := draw s
  let f (old : Line) : Line := mergeLine old (Config.undefLine d) m
  match seraiFind s line with
  | some (w, l) => seraiSetLine s line w (some { l with data := f l.data, dirty := true })
  | none =>
    if (bufferLine s line).isSome then
      { s with mem := { s.mem with wbBufs := s.mem.wbBufs.map (fun b => if b.line = line then { b with data := f b.data } else b) } }
    else if isHbm (lineHa line) then putHbm s (memPutBytes (hbm s) (lineHa line) (lineBytes (f (memLine (hbm s) line))))
    else s

/-- The mask of the bytes of a range that lie in a line. -/
def rangeMask (ha n line : Nat) : BitVec 128 :=
  let lo := max ha (128 * line)
  let hi := min (ha + n) (128 * line + 128)
  BitVec.ofNat 128 ((2 ^ (hi - lo) - 1) * 2 ^ (lo - 128 * line))

def freeRange (s : State) (ha n : Nat) : State := (linesOf ha n).foldl (fun s l => freeLine s l (rangeMask ha n l)) s

/-! ### Matrix engines -/

def engine (s : State) (e : Nat) : Engine := smGet {} s.eng.engines e
def putEngine (s : State) (e : Nat) (x : Engine) : State := { s with eng := { s.eng with engines := smSet {} s.eng.engines e x } }
def modEngine (s : State) (e : Nat) (f : Engine → Engine) : State := putEngine s e (f (engine s e))

/-- Rows of the accumulation SRAM lose their defined values (R153, R170): a free value stands for each. -/
def undefRows (s : State) (e : Nat) (rows : List Nat) : State :=
  rows.foldl (fun s r =>
    let (d, s) := draw s
    modEngine s e (fun x => { x with undef := smSet 0 x.undef r (d + 1) })) s

/-- An FP32 word of the accumulation SRAM; a free value where the row holds no defined value. -/
def sramAt (x : Engine) (row n : Nat) : Nat :=
  match smGet 0 x.undef row with
  | 0 => smGet 0 x.sram (512 * row + n)
  | d + 1 => (Config.undefWord (512 * d + n)).toNat % 2 ^ 32

/-- The first columns of a row of the accumulation SRAM are written with FP32 words (R152); the others keep what they hold. -/
def sramPut (x : Engine) (row : Nat) (l : List Nat) : Engine :=
  let m := (span 0 512).foldl (fun m n =>
    if n < l.length then smSet 0 m (512 * row + n) (listGet 0 l n) else smSet 0 m (512 * row + n) (sramAt x row n)) x.sram
  { x with sram := m, undef := smSet 0 x.undef row 0 }

/-- +0 in every word of some rows (R171, R172). -/
def Engine.zeroRows (x : Engine) (mine : Nat → Bool) : Engine :=
  { x with sram := x.sram.filter (fun w => !mine (w.1 / 512)), undef := x.undef.filter (fun w => !mine w.1) }

/-- A descriptor leaves the array at the current hub time (R168, R181, R573, R574): its clocks, its overrun of its slot, and the time that
it occupied the engine are counted, the clocks of the ladder among them (R199). -/
def endRun (s : State) (e : Nat) : State :=
  match (engine s e).run with
  | none => s
  | some r =>
    let ns := s.stage.hubTime - r.start
    let s := bump s ⟨.mecBusyClk, e, 0⟩ (ns * 3 / 2)
    let s := match r.overAt with | some o => bump s ⟨.mecSlotOverrun, e, 0⟩ (s.stage.hubTime - o) | none => s
    let s := modContext s r.ctx (fun c => { c with engineNs := c.engineNs + ns })
    let p := part s r.part
    let s := putPart s r.part { p with engineNs := listSet p.engineNs e (listGet 0 p.engineNs e + ns) }
    modEngine s e (fun x => { x with run := none, idleAt := s.stage.hubTime })

/-- The accesses of a partition's steps that wait at an engine's admission point are given up (R59, R150, R170). -/
def engineUngate (s : State) (e p : Nat) : State := ungate s (fun h => h.req.who == .engine e && h.part == p)

/-- An engine discards a step (R59, R170, R171): both planes, the descriptor in the array, pending reads and loads. The SRAM rows it used
hold no defined value, or +0 where its partition is reset. A step not begun leaves the intake, with what was fetched for it. -/
def engineDrop (s : State) (e id : Nat) (st : Status) : State :=
  match (engine s e).intake.find? (fun w => w.step == id) with
  | none => s
  | some w =>
    let s := if (match (engine s e).run with | some r => r.step == id | none => false) then endRun s e else s
    let s := engineUngate s e w.part
    let x := engine s e
    let mine := match x.next with | some r => r.step == id | none => false
    let x := { x with intake := listDelFirst (fun w => w.step == id) x.intake
                      next := if mine then none else x.next, loading := if mine then none else x.loading }
    if w.begun then
      let s := putEngine s e { x with active := {}, shadow := {}, loading := none, cancelling := true }
      if st = .partitionReset then modEngine s e (fun x => x.zeroRows w.rows.contains) else undefRows s e w.rows
    else putEngine s e x

/-! ### Porter clusters -/

def cluster (s : State) (k : Nat) : Cluster := smGet {} s.prt.clusters k
def putCluster (s : State) (k : Nat) (x : Cluster) : State := { s with prt := { s.prt with clusters := smSet {} s.prt.clusters k x } }
def modCluster (s : State) (k : Nat) (f : Cluster → Cluster) : State := putCluster s k (f (cluster s k))
def core (s : State) (n : Nat) : Core := smGet {} s.prt.cores n
def putCore (s : State) (n : Nat) (x : Core) : State := { s with prt := { s.prt with cores := smSet {} s.prt.cores n x } }
def modCore (s : State) (n : Nat) (f : Core → Core) : State := putCore s n (f (core s n))

/-- The logical cores of a cluster (R215). -/
def coresOf (k : Nat) : List Nat := span (16 * k) 16

/-- The cores of a cluster that are in service. -/
def liveCores (s : State) (k : Nat) : List Nat := (coresOf k).filter (fun n => !(core s n).halted)

/-- The cluster takes steps (R269). -/
def clInService (s : State) (k : Nat) : Bool :=
  tileLicensed s (k / 10) && (cluster s k).loaded && !(cluster s k).out

/-- Marks that have fired: a core's MARK pends while it has acknowledged fewer. -/
def marksFired (s : State) : Nat := if s.stage.running then s.stage.number + 1 else 0

/-- Pending and enabled interrupts of a core (R244): bit 0 CANCEL, 1 INTAKE, 2 MARK, 3 TIMER, 4 SOFT. -/
def corePending (s : State) (x : Core) : BitVec 5 :=
  x.pending ||| (if x.markAck < marksFired s then 0b00100#5 else 0#5)
def coreReady (s : State) (x : Core) : BitVec 5 := corePending s x &&& (x.enables ||| 1#5)

/-- A SLEEP ends once an enabled interrupt is pending (R225): it retires. -/
def wakeCore (s : State) (n : Nat) : State :=
  let x := core s n
  if x.wait = .sleep ∧ coreReady s x ≠ 0#5 then putCore s n { x with wait := .none, pc := x.pc + 4 } else s

/-- Sets a pending bit of a core. -/
def pendCore (s : State) (n : Nat) (b : BitVec 5) : State :=
  wakeCore (modCore s n (fun x => { x with pending := x.pending ||| b })) n

/-- Drops a core's outstanding read at its home (R59, R249). -/
def dropReads (s : State) (n : Nat) : State :=
  let mine (r : Req) : Bool := r.who == .core n && r.isRead
  let txns := s.mem.txns.map (fun t =>
    { t with req := t.req.map (fun r => if mine r then { r with dropped := true } else r)
             merged := t.merged.map (fun r => if mine r then { r with dropped := true } else r) })
  { s with mem := { s.mem with txns := txns
                               heldIn := s.mem.heldIn.filter (fun r => !mine r)
                               answers := s.mem.answers.filter (fun a => !(a.who == .core n && !a.write)) }
           stage := { s.stage with held := s.stage.held.filter (fun h => !mine h.req) } }

/-- The waits that R249 ends. -/
def CoreWait.ended : CoreWait → CoreWait
  | .sleep => .sleep
  | _ => .none

/-- What the range tracker keeps when a step is cancelled (R59, R231, R249): writes already on the network, and write-backs of lines that
the step did not write. An entry that expects no write is free. -/
def Core.stopWrites (x : Core) : Core :=
  let keep (t : Track) : Track := { t with more := false, writes := t.writes.filter (fun w => w.sent || !w.step) }
  { x with tracker := (x.tracker.map keep).filter (fun t => !t.writes.isEmpty) }

/-- One core of a cancelled step (R249): it stops, drops its reads and its moves, kills its CMA tags that are not written,
invalidates the dirty lines written in user mode, and CANCEL pends with the status. -/
def cancelCore (s : State) (k n : Nat) (st : Status) : State :=
  let s := dropReads s n
  let i := n % 16
  let s := modCluster s k (fun c => { c with cma := c.cma.filter (fun q => q.tag / 2 != i) })
  let s := modCore s n (fun x =>
    { x.stopWrites with
             wait := x.wait.ended, sent := false
             tags := x.tags.map (fun t => if t = .pending then .none else t)
             l0d := x.l0d.filter (fun p => match p.2 with | some l => !(l.user && l.dirty != 0) | none => false)
             ctxPart := 0xF, cancelInfo := st.code, pending := x.pending &&& 0b11101#5 })
  pendCore s n 1#5

/-- A cluster discards its running step (R249); the bytes that it wrote hold no defined content (R60). -/
def clusterDrop (s : State) (k id : Nat) (st : Status) : State :=
  let c := cluster s k
  if c.running = some id then
    let s := putCluster s k { c with running := none, reported := [], aborted := false, latch := .complete, cancelling := true, written := [] }
    let s := (liveCores s k).foldl (fun s n => cancelCore s k n st) s
    bump (c.written.foldl (fun s w => freeLine s w.1 w.2) s) ⟨.prtClCancels, 0, k⟩ 1
  else putCluster s k { c with intake := c.intake.filter (fun i => i != id) }

/-- A step starts on a cluster (R247): context and argument in every core in service, the L0 data cache and the HA-space
lines of the instruction cache invalid, INTAKE pending. -/
def clusterBegin (s : State) (k id part ctx arg : Nat) : State :=
  let s := modCluster s k (fun c => { c with running := some id, reported := [], aborted := false, latch := .complete, written := []
                                             started := s.stage.hubTime, intake := c.intake.filter (fun i => i != id) })
  (liveCores s k).foldl (fun s n =>
    let s := modCore s n (fun x => { x with ctxPart := part, ctx := ctx, stepArg := arg, l0d := []
                                            l0i := x.l0i.filter (fun l => decide (2 ^ 46 ≤ l)) })
    pendCore s n 0b00010#5) s

end Sys2Proof.Machine
end

