-- ==== Sys2Proof/Machine/Steps.lean ====
section
/-!
DEFINITION. Slots, seals, and how a step ends (R60, R237, R557 to R563): the operations that every unit shares.
-/
namespace Sys2Proof.Machine

/-! ### Slots -/

def slotAt (s : State) (k : Nat) : Slot := smGet .free s.work.slots k
def putSlot (s : State) (k : Nat) (x : Slot) : State := { s with work := { s.work with slots := smSet .free s.work.slots k x } }

/-- The partition that owns a slot's block (R562). -/
def slotPart (s : State) (k : Nat) : Option Nat := (span 0 9).find? (fun p => bitOf (part s p).syncBlocks (k / 1024))

/-- The partition that owns a queue's block (R553). -/
def queuePart (s : State) (q : Nat) : Option Nat := (span 0 9).find? (fun p => bitOf (part s p).queueBlocks (q / 64))

def isTally (s : State) (p k : Nat) : Bool :=
  slotPart s k == some p && (match slotAt s k with | .tally _ _ => true | _ => false)
def isSeal (s : State) (p k : Nat) : Bool :=
  slotPart s k == some p && (match slotAt s k with | .sealObj _ _ _ _ _ => true | _ => false)

/-- The value of a tally, 0 for a slot that is none. -/
def tallyValue (s : State) (k : Nat) : Nat := match slotAt s k with | .tally v _ => v | _ => 0

/-- Adds to a tally, which wraps at 32 bits (R237). -/
def tallyAdd (s : State) (k v : Nat) : State :=
  match slotAt s k with
  | .tally x o => putSlot s k (.tally ((x + v) % 2 ^ 32) o)
  | _ => s

/-- (int32)(a − b) ≥ 0 (R237, R558). -/
def tallyGe (a b : Nat) : Bool := decide ((a % 2 ^ 32 + 2 ^ 32 - b % 2 ^ 32) % 2 ^ 32 < 2 ^ 31)

/-- The hub reads a step that names a seal: PENDING counts up, and a set seal is re-armed first (R563). -/
def sealArm (s : State) (k : Nat) : State :=
  match slotAt s k with
  | .sealObj p st so co o => putSlot s k (if p = 0 then .sealObj 1 0 0 0 o else .sealObj (p + 1) st so co o)
  | _ => s

/-- A step that named a seal ends (R563): the first status other than COMPLETE is latched. -/
def sealEnd (s : State) (k st src cookie : Nat) : State :=
  match slotAt s k with
  | .sealObj p cur so co o =>
    if cur = 0 then putSlot s k (.sealObj (p - 1) st src cookie o) else putSlot s k (.sealObj (p - 1) cur so co o)
  | _ => s

/-! ### Steps -/

def stepFind (s : State) (id : Nat) : Option Step := s.work.steps.find? (fun x => x.id == id)
def modStep (s : State) (id : Nat) (f : Step → Step) : State :=
  { s with work := { s.work with steps := listModFirst (fun x => x.id == id) f s.work.steps } }
def delStep (s : State) (id : Nat) : State :=
  { s with work := { s.work with steps := listDelFirst (fun x => x.id == id) s.work.steps } }

def Step.serial (x : Step) : Bool := bitOf x.flags 0
def Step.waitEn (x : Step) : Bool := bitOf x.flags 1
def Step.signalEn (x : Step) : Bool := bitOf x.flags 2
def Step.sealEn (x : Step) : Bool := bitOf x.flags 3
def Step.event (x : Step) : Bool := bitOf x.flags 4

/-- A unit has begun the step: it is dispatched (R57). -/
def Step.begun (x : Step) : Bool := match x.phase with | .begun => true | .cancelling _ => true | _ => false

def Step.source (x : Step) : Source :=
  if !x.begun then .hub
  else match x.body with
    | .engine _ _ _ => .engine | .porter _ _ _ _ => .porter | .tier _ _ => .tier | .copy _ _ _ _ => .copy
    | .signal => .signal | .malformed => .hub

/-- A step is dispatched: its unit begins it in the current stage, which is the first of its span (R57). A step that an
engine gave back keeps the span of its first dispatch (R176, R199). -/
def beginStep (s : State) (id unit : Nat) : State :=
  modStep s id (fun x => { x with phase := .begun, unit := unit, started := s.stage.hubTime,
                                  spanMark := if x.spanMark = 0 then s.stage.number + x.span else x.spanMark })

/-- A step ends once with one status (R561, R563): the seal, the event entry, the counts of its context, and the count of
the ABORT that ended it. -/
def endStep (s : State) (x : Step) (st : Status) : State :=
  let src := x.source.code
  let s := delStep s x.id
  let s := if x.sealEn then sealEnd s x.sealSlot st.code src x.cookie else s
  let ns := match x.body with | .porter _ _ _ _ => if x.begun then s.stage.hubTime - x.started else 0 | _ => 0
  let s := modContext s x.ctx (fun c => { c with stepsEnded := c.stepsEnded + 1, porterNs := c.porterNs + ns
                                                 stepsFailed := c.stepsFailed + b2n (st != .complete) })
  let s := if st = .aborted then
      match queueOf s x.queue with
      | some q => match smGet none s.work.cmds q.fn with
        | some c => if c.op = 7 ∧ x.phase = .cancelling .aborted then
            { s with work := { s.work with cmds := smSet none s.work.cmds q.fn (some { c with count := c.count + 1 }) } }
          else s
        | none => s
      | none => s
    else s
  if x.event then giveEntry s { queue := x.queue, slot := x.sealSlot, status := st.code, source := src, cookie := x.cookie }
  else s

/-- A step ends at its commit point (R561): its SIGNAL add comes first, after its writes, whatever the status. -/
def commitStep (s : State) (x : Step) (st : Status) : State :=
  let s := if x.signalEn ∧ isTally s x.part x.signal then tallyAdd s x.signal x.signalAdd else s
  endStep s x st

/-- The output ranges of an engine step: those of its descriptors that lie in its windows (R159). -/
def engineOuts (s : State) (x : Step) (desc count : Nat) : List (Nat × Nat) :=
  ((span 0 count).flatMap (fun k =>
    match (if inWindows s x.part x.ctx (desc + 128 * k) 128 then (homeBytes s (desc + 128 * k) 128).bind engDescOf else none) with
    | some d => d.outs (span 0 d.m)
    | none => [])).filter (fun r => inWindows s x.part x.ctx r.1 r.2)

/-- The outputs of a step that its unit had begun hold no defined content (R60, R161, R197, R209). -/
def freeOutputs (s : State) (x : Step) : State :=
  if !x.begun then s
  else match x.body with
    | .engine d c _ => (engineOuts s x d c).foldl (fun s r => freeRange s r.1 r.2) s
    | .copy _ dst len 0 => if inWindows s x.part x.ctx dst len then freeRange s dst len else s
    | _ => s

/-- A fill that a step asked for and that has not begun is needed by an access that missed the bale (R279): it stays, for no step. -/
def fillNeeded (s : State) (o : TierOp) : Bool :=
  (match o.kind with | .fill _ => true | _ => false) &&
  (o.instant || (s.mem.txns.any (fun t => t.missing && isTier (lineHa t.line) && tierFn (lineHa t.line) == o.fn && baleNum (lineHa t.line) == o.bale)))

/-- The key of the reading of a tier step's command list at the admission point. -/
def listKey (id : Nat) : Nat := 2 ^ 65 + id

/-- The tier engines drop the operations of a step that have not begun (R300). -/
def tierDrop (s : State) (id : Nat) : State :=
  let s := ungate s (fun h => h.req.line == listKey id)
  let ops := s.tier.ops.filter (fun o => !(o.step == some id && !o.started) || fillNeeded s o)
  { s with tier := { s.tier with ops := ops.map (fun o => if o.step = some id ∧ !o.started then { o with step := none } else o) } }

/-- The unit of a step drops it (R59): an engine, a cluster; the tier engines drop operations that have not begun (R300);
a copy step's outstanding reads end unused. What it had begun to write holds no defined content (R60). -/
def dropInUnit (s : State) (x : Step) (st : Status) : State :=
  match x.phase with
  | .waiting => s
  | _ => match x.body with
    | .engine _ _ _ => freeOutputs (engineDrop s x.unit x.id st) x
    | .porter _ _ _ _ => clusterDrop s x.unit x.id st
    | .tier _ _ => tierDrop s x.id
    | .copy _ _ _ _ => freeOutputs s x
    | _ => s

/-- A step ends by a breaking cause that has reached its unit (R561): no SIGNAL add. -/
def breakStep (s : State) (x : Step) (st : Status) : State := endStep (dropInUnit s x st) x st

/-- Ends steps by a breaking cause that first travels to the unit of each step that has begun (R568): a step that has not
begun ends at once; the others end when the cause reaches the unit, unless they commit first. -/
def abortSteps (s : State) (p : Step → Bool) (st : Status) : State :=
  s.work.steps.foldl (fun s x =>
    if !p x then s
    else match x.phase with
      | .cancelling _ => s
      | .begun => modStep s x.id (fun x => { x with phase := .cancelling st })
      | _ => breakStep s x st) s

/-- Ends steps by a breaking cause at once, in their units as well. -/
def breakSteps (s : State) (p : Step → Bool) (st : Status) : State :=
  s.work.steps.foldl (fun s x => if p x then breakStep s x st else s) s

/-- The first error that a step's unit meets is kept for its commit point. -/
def stepErr (s : State) (id : Nat) (st : Status) : State :=
  modStep s id (fun x => if x.err = .complete then { x with err := st } else x)

/-- A cluster that is free begins the next step of its intake (R247, R61). -/
def clusterNext (s : State) (k : Nat) : State :=
  let c := cluster s k
  if c.running.isSome || c.cancelling || !clInService s k then s
  else match c.intake with
    | [] => s
    | id :: _ => match stepFind s id with
      | some x => clusterBegin (beginStep s id k) k id x.part x.ctx x.recAddr
      | none => putCluster s k { c with intake := c.intake.drop 1 }

/-- The domain of a partition is up, or it has none (R406). -/
def domainUp (s : State) (p : Nat) : Bool :=
  if 4 ≤ (part s p).domain then true else (domain s (part s p).domain).st == .up

/-- ROLE as it reads (R667): without the Relay licence UNPAIRED. -/
def roleNow (s : State) : PairRole := if licRelay s then s.pair.role else .unpaired

/-- The hub dispatches steps: a standby and a fenced hub do not (R668, R674), nor one that restores (R672), nor a halted one. -/
def dispatchOpen (s : State) : Bool :=
  s.stage.running && !s.flt.halted && !s.pair.restoring &&
  (match roleNow s with | .standby => false | .fenced => false | _ => true)

end Sys2Proof.Machine
end

