-- ==== Sys2Proof/Machine/TierOps.lean ====
section
/-!
DEFINITION. What a tier engine does with a bale (R277 to R309, R706, R707): the start and the end of each operation, the
bytes of slots and of parking memory, requests that waited on a fill.
-/
namespace Sys2Proof.Machine

/-! ### Bytes written by the hub's own units at the home -/

/-- Writes bytes at the home for a unit whose writes no line holds up: chiplet copies are recalled, older writes of the lines go first,
HBM is written and a line that the Serai holds takes the bytes. -/
def homePut (s : State) (a : Nat) (bs : List Byte) : State :=
  let s := (linesOf a bs.length).foldl (fun s l => flushBufs (if (dirSt s l).isSome then recallNow s l true true else s) l) s
  let s := hbmServe s a bs.length true
  let s := putHbm s (memPutSectors (hbm s) a bs)
  (linesOf a bs.length).foldl (fun s l => match seraiFind s l with
    | some (w, x) =>
      let (d, m) := linePart a bs l
      seraiSetLine s l w (some { x with data := mergeLine x.data d m })
    | none => s) s

/-! ### Parking memory -/

/-- The hub may access the parking pool of a context: it is not revoked and the function may master (R303). -/
def parkOpen (s : State) (x : Context) : Bool := !x.parkRevoked && (hostFn s x.fn).master

/-- The host bus address of a parking slot (R301). -/
def parkAddr (s : State) (x : Context) (slot : Nat) : Nat :=
  match homeBytes s (x.tier.parkTable + 8 * slot) 8 with
  | some b => ofBytes b
  | none => 0

/-- Revokes the parking pools of every context of a function (R303). -/
def revokeParking (s : State) (fn : Nat) : State :=
  if s.work.ctxs.any (fun p => match p.2 with | some x => x.fn == fn && !x.parkRevoked && x.tier.parkSlots != 0 | none => false) then
    let cs := s.work.ctxs.map (fun p => (p.1, p.2.map (fun x => if x.fn = fn then { x with parkRevoked := true } else x)))
    setStatus { s with work := { s.work with ctxs := cs } } ⟨.tirIntStatus, 0, 0⟩ 2 fn 0
  else s

/-! ### Leaving the Serai -/

/-- Lines of a bale with a transaction that awaits a chiplet. -/
def baleBusy (s : State) (fn bale : Nat) : Bool :=
  s.mem.txns.any (fun t => isTier (lineHa t.line) && tierFn (lineHa t.line) == fn && baleNum (lineHa t.line) == bale &&
    (!t.snoops.isEmpty || t.fwdAck.isSome || t.ret.isSome))

/-- Recalls every chiplet copy of a bale's lines before the bale leaves (R323). -/
def recallBale (s : State) (fn bale : Nat) (keep : Bool) : State :=
  (span (baleLine fn bale) 512).foldl (fun s l => if (dirSt s l).isSome then recallNow s l true keep else s) s

/-- Recalls the modified chiplet copies of a bale's lines for a maintenance command (R331). -/
def recallOwned (s : State) (fn bale : Nat) : State :=
  (span (baleLine fn bale) 512).foldl (fun s l => match dirSt s l with
    | some (.owned _) => recallNow s l false true
    | _ => s) s

/-- The bale leaves without write-back. -/
def discardBale (s : State) (fn bale : Nat) : State := dropBale (recallBale s fn bale false) fn bale

/-- The record of a bale becomes POISON with an error code (R283). -/
def poisonRec (s : State) (x : Context) (bale err : Nat) : State :=
  match readRec s x bale with
  | .good r => writeRec s x bale { r with poison := true, err := err }
  | _ => s

/-- A good record that is not POISON already becomes so with ERR 0x03 (R706, R307). -/
def poisonLost (s : State) (x : Context) (bale : Nat) : State :=
  match readRec s x bale with
  | .good r => if r.poison then s else poisonRec s x bale 3
  | _ => s

/-- The replacement of a dirty bale whose write-back cannot be performed (R706): its data is lost, and the loss is recorded with the KIND
of its cause (R312). The record of a bale that is POISON already stays as it is (R307). -/
def loseBale (s : State) (x : Context) (bale kind : Nat) : State :=
  poisonLost (tierError (bump (dropBale s x.fn bale) ⟨.tirWriteDrop, 0, x.fn⟩ 1) x.fn kind bale) x bale

/-! ### Operations -/

/-- The key of an operation's accesses at its tier engine's admission point: 0 its start, 1 its end, 2 its parking reads. -/
def opKey (o : TierOp) (phase : Nat) : Nat := 2 ^ 64 + 4 * o.id + phase

/-- An operation ends for its bale; an error is kept for its step (R298). What it had waiting at its admission point is given up. -/
def opEnd (s : State) (o : TierOp) (st : Status) : State :=
  let s := ungate s (fun h => h.req.who == .tier o.tile && h.req.line / 4 == opKey o 0 / 4)
  let s := { s with tier := { s.tier with ops := s.tier.ops.filter (fun q => q.id != o.id) } }
  let s := match o.maint with
    | some fn => if st = .complete then s else
        { s with mem := { s.mem with maint := smMod none s.mem.maint fn (fun m => m.map (fun m => { m with error := true })) } }
    | none => s
  match o.step with
  | some id => if st = .complete then s else stepErr s id st
  | none => s

/-- The operation has written its first record, or the fill runs. -/
def opStarted (s : State) (o : TierOp) : State :=
  let ops := listModFirst (fun q => q.id == o.id) (fun q => { q with started := true }) s.tier.ops
  { s with tier := { s.tier with ops := ops } }

/-- The running operation of a bale (R292). -/
def runningOp (s : State) (fn bale : Nat) : Option TierOp :=
  (s.tier.ops.find? (fun o => o.fn == fn && o.bale == bale)).filter (fun o => o.started)

/-- Changes the running operation of a bale. -/
def modOp (s : State) (fn bale : Nat) (f : TierOp → TierOp) : State :=
  { s with tier := { s.tier with ops := listModFirst (fun o => o.fn == fn && o.bale == bale) f s.tier.ops } }

/-- Reads of parking memory for an operation (R301, R303, R522): pieces of 512 bytes, each under a host-port tag and charged
to the tier engine, while tags and the toll allow; `n` bounds them. Without Bus Master Enable, or with its pool revoked, the
read ends with an error. -/
def parkPump : Nat → State → Nat → Nat → State
  | 0, s, _, _ => s
  | n + 1, s, fn, bale =>
    match runningOp s fn bale with
    | none => s
    | some o => match context s o.ctx with
      | none => s
      | some x =>
        if o.need ≤ o.asked ∨ o.parkErr then s
        else if !parkOpen s x then modOp s fn bale (fun o => { o with parkErr := true })
        else
          let port := fnPort s fn
          let len := min 512 (o.need - o.asked)
          match freeTagOf s port with
          | none => s
          | some t => match gate s (.tier o.tile) (opKey o 2) (initTier o.tile) 0 len with
            | (s, false) => s
            | (s, true) =>
              let pt := hostPort s port
              let s := putPort s port { pt with tags := smSet none pt.tags t (some (.parkRead fn bale o.asked len)) }
              let s := emit s (.hostRead port t (o.parkAt + o.asked) len)
              parkPump n (modOp s fn bale (fun o => { o with asked := o.asked + len })) fn bale

/-- An operation begins to read its parking slot. -/
def parkStart (s : State) (x : Context) (o : TierOp) (slot units : Nat) : State :=
  let at0 := parkAddr s x slot
  parkPump (4 * units + 1) (modOp s o.fn o.bale (fun o => { o with parkAt := at0, need := 2048 * units })) o.fn o.bale

/-- What the reads of a parking slot came to: none while some are outstanding or still to be asked for. -/
def parkResult (s : State) (o : TierOp) : Option Fetched :=
  let out := (span 0 2).any (fun p => (hostPort s p).tags.any (fun t => match t.2 with
    | some (.parkRead fn bale _ _) => fn == o.fn && bale == o.bale
    | _ => false))
  if out then none
  else if o.parkErr then some (.error .tierError)
  else if o.need ≤ o.asked then some (.data (o.got.flatMap (fun p => p.2)))
  else none

/-- A bale operation ends with TIER_ERROR for a lower-tier cause of a kind (R311, R312). -/
def opTierError (s : State) (o : TierOp) (kind : Nat) : State := opEnd (tierError s o.fn kind o.bale) o .tierError

/-- The FILL record of a bale (R277, R296). -/
def fillRec (slot tier fill fmt gen : Nat) : Rec :=
  { state := 0, tier := tier, poison := false, err := 0, codec := 1, units := 0, slot := slot, payLen := 0, fill := fill,
    newTier := 0, fmt := fmt, lengths := 0, dataCrc := crc32c (List.replicate 65536 (BitVec.ofNat 8 fill)), gen := gen, newSlot := 0 }

/-- A write-back cannot be performed (R303, R706): a replacement loses the bale's data, any other operation leaves it resident and
dirty. -/
def writebackFails (s : State) (x : Context) (o : TierOp) (kind : Nat) (lose : Bool) : State :=
  if lose then opEnd (loseBale s x o.bale kind) o .tierError else opTierError s o kind

/-- A write-back of a bale begins, for the operation that asks for it (R293, R303, R307, R706): the checks, then the
record WRITING_BACK. A replacement drops a POISON bale too. -/
def startWriteback (s : State) (x : Context) (o : TierOp) (lose : Bool) : State :=
  match readRec s x o.bale with
  | .badCrc => writebackFails s x o 3 lose
  | .badField _ => writebackFails s x o 1 lose
  | .good r =>
    if r.poison then (if lose then opEnd (loseBale s x o.bale 1) o (poisonStatus r) else opEnd s o (poisonStatus r))
    else if r.tier = 2 ∧ !parkOpen s x then writebackFails s x o 2 lose
    else opStarted (writeRec s x o.bale { r with state := 2 }) o

/-- A fill of a bale: the status of its POISON record ends it, whether the bale is resident or not (R305). -/
def startFill (s : State) (x : Context) (o : TierOp) : State :=
  match readRec s x o.bale with
  | .good r =>
    if resident s o.fn o.bale then opEnd s o (if r.poison then poisonStatus r else .complete)
    else if !r.poison && r.tier == 2 then parkStart (opStarted s o) x o r.slot r.units
    else opStarted s o
  | _ => if resident s o.fn o.bale then opEnd s o .complete else opStarted s o

/-- Lines that a maintenance command acts on with its bales (R331, R342). -/
def countMaint (s : State) (o : TierOp) : State :=
  match o.maint with
  | some fn => if resident s o.fn o.bale then
      { s with mem := { s.mem with maint := smMod none s.mem.maint fn (fun m => m.map (fun m => { m with done := m.done + 512 })) } }
    else s
  | none => s

/-- Failures of earlier fills of a bale concern no access any more. -/
def forgetFails (s : State) (fn bale : Nat) : State :=
  { s with tier := { s.tier with failed := s.tier.failed.filter (fun f => !(f.1 == fn && f.2.1 == bale)) } }

/-- Takes up an operation whose turn has come (R292). One that has nothing to wait for ends at once. -/
def startOp (s : State) (x : Context) (o : TierOp) : State :=
  let s := countMaint s o
  match o.kind with
  | .fill _ => startFill s x o
  | .writeback =>
    let s := if o.maint.isSome then recallOwned s o.fn o.bale else s
    if resident s o.fn o.bale && baleDirty s o.fn o.bale then startWriteback s x o false
    else match readRec s x o.bale with
      | .good r => opEnd s o (if r.poison then poisonStatus r else .complete)
      | _ => opEnd s o .complete
  | .evict =>
    let s := recallBale s o.fn o.bale true
    if resident s o.fn o.bale && baleDirty s o.fn o.bale then startWriteback s x o false
    else opEnd (dropBale s o.fn o.bale) o .complete
  | .replace =>
    let s := recallBale s o.fn o.bale true
    if resident s o.fn o.bale && baleDirty s o.fn o.bale then startWriteback s x o true
    else opEnd (dropBale s o.fn o.bale) o .complete
  | .discard => opEnd (discardBale s o.fn o.bale) o .complete
  | .move slot tier =>
    match readRec s x o.bale with
    | .badCrc => opTierError s o 3
    | .badField _ => opTierError s o 1
    | .good r =>
      if r.poison then opEnd s o (poisonStatus r)
      else if r.tier = tier ∧ r.slot = slot then opEnd s o .complete
      else if (r.tier = 2 ∨ tier = 2) ∧ !parkOpen s x then opTierError s o 2
      else
        let dirty := resident s o.fn o.bale && baleDirty s o.fn o.bale
        let s := opStarted (writeRec s x o.bale { r with state := 3, newTier := tier, newSlot := slot }) o
        let s := modOp s o.fn o.bale (fun o => { o with dirty := dirty })
        if r.tier = 2 ∧ !dirty then parkStart s x o r.slot r.units else s
  | .initBale slot tier fill fmt =>
    let gen := match readRec s x o.bale with
      | .badCrc => 1
      | .badField r => (r.gen + 1) % 2 ^ 32
      | .good r => (r.gen + 1) % 2 ^ 32
    opEnd (writeRec (discardBale (forgetFails s o.fn o.bale) o.fn o.bale) x o.bale (fillRec slot tier fill fmt gen)) o .complete

/-- The operation may be taken up: it is the first on its bale, its tier engine runs fewer than 8 (R290), and a bale
that is to leave has no transaction that awaits a chiplet. -/
def opReady (s : State) (o : TierOp) : Bool :=
  !o.started &&
  decide (((s.tier.ops.filter (fun q => q.tile == o.tile && q.started)).length) < 8) &&
  (s.tier.ops.find? (fun q => q.fn == o.fn && q.bale == o.bale)) == some o &&
  !(baleBusy s o.fn o.bale && (match o.kind with | .fill _ => false | .writeback => o.maint.isSome | .move _ _ => false | _ => true))

/-- The slot in HBM that an operation reads from its start on: of a fill, or of the MOVE of a bale that is not dirty (R284, R294). -/
def slotRead (s : State) (x : Context) (o : TierOp) : Option (Nat × Nat) :=
  let reads := match o.kind with
    | .fill _ => !resident s o.fn o.bale
    | .move _ _ => !(resident s o.fn o.bale && baleDirty s o.fn o.bale)
    | _ => false
  match readRec s x o.bale with
  | .good r => if reads && !r.poison && r.tier == 1 && r.units != 0 then some (x.tier.poolBase + 65536 * r.slot, 2048 * r.units) else none
  | _ => none

/-- Bytes of HBM that an operation reads and writes as it starts (R276, R282, R284): its record, and its slot. -/
def startBytes (s : State) (x : Context) (o : TierOp) : Nat :=
  let read := if (smGet [] s.tier.cached (baleTile s o.fn o.bale)).contains (recAddr x o.bale) then 0 else 64
  let write := match o.kind with
    | .fill _ => 0 | .discard => 0
    | .initBale _ _ _ _ => 64 | .move _ _ => 64
    | _ => if resident s o.fn o.bale && baleDirty s o.fn o.bale then 64 else 0
  read + write + (match slotRead s x o with | some p => p.2 | none => 0)

/-- An operation whose turn has come starts once its controllers have room and its tier engine's toll admits its accesses (R39, R72,
R290). -/
def opTurn (s : State) (x : Context) (o : TierOp) : State :=
  if hbmBusy s (recAddr x o.bale) 64 || (match slotRead s x o with | some p => hbmBusy s p.1 p.2 | none => false) then s
  else match gate s (.tier o.tile) (opKey o 0) (initTier o.tile) 0 (startBytes s x o) with
    | (s, false) => s
    | (s, true) => startOp (fetchRec s x o.bale) x o

/-- Takes up operations in their order of arrival, each of them once; `n` bounds how many. -/
def tierRun : Nat → List Nat → State → State
  | 0, _, s => s
  | n + 1, tried, s =>
    match s.tier.ops.find? (fun o => opReady s o && !tried.contains o.id) with
    | none => s
    | some o => match context s o.ctx with
      | none => tierRun n (o.id :: tried) (opEnd s o .complete)
      | some x => tierRun n (o.id :: tried) (opTurn s x o)

/-- What follows a command at once: the tier engines take up what they can, data that chiplets returned takes a way that has become free,
and messages of homes that waited for their order module go out. -/
def settle (s : State) : State := flushHomes (retryRets (tierRun s.tier.ops.length [] s))

/-- The outcome of a command after which the tier engines take up what it asked for. -/
def okT (s : State) : Res := ok (settle s)

/-! ### Fills -/

/-- The bytes read for a fill or a copy from HBM: none where a pack unit is uncorrectable, on the second reading that R304 asks for too. -/
def slotBytes (s : State) (x : Context) (slot units : Nat) : State × Option (List Byte) :=
  let a := x.tier.poolBase + 65536 * slot
  let s := hbmServe s a (2048 * units) false
  match homeBytes s a (2048 * units) with
  | some b => (s, some b)
  | none => ((chunksOf a (2048 * units)).foldl (fun s c =>
      let u := c.1 / 2048 * 2048
      if (homeBytes s u 2048).isNone && c.1 == u then hbmServe s u 2048 false else s) s, none)

/-- The requests of a transaction, the one taken up first. -/
def Txn.requests (t : Txn) : List Req := (match t.req with | some r => [r] | none => []) ++ t.merged

/-- A line of a bale. -/
def lineOfBale (fn bale line : Nat) : Bool := isTier (lineHa line) && tierFn (lineHa line) == fn && baleNum (lineHa line) == bale

/-- Ends every request that waited on a bale's fill with a status (R305, R306, R707), those held at a slice input behind it as well;
`count` as answers of the tiers. -/
def failWaiters (s : State) (fn bale : Nat) (st : Status) (count : Bool) : State :=
  let ts := s.mem.txns.filter (fun t => t.missing && lineOfBale fn bale t.line)
  let hs := s.mem.heldIn.filter (fun r => lineOfBale fn bale r.line)
  let s := { s with mem := { s.mem with heldIn := s.mem.heldIn.filter (fun r => !lineOfBale fn bale r.line) } }
  let answer (s : State) (r : Req) : State :=
    let s := if (r.isWrite || r.op == .wbDirty) && !r.dropped then bump s ⟨.tirWriteDrop, 0, fn⟩ 1 else s
    if count && !r.dropped then answerErr s r st else answerCmp s r st 0
  hs.foldl answer (ts.foldl (fun s t => t.requests.foldl answer (txnDel s t.line)) s)

/-- The 512 lines of an expanded bale, in address order. -/
def baleLines (bs : List Byte) : Nat → List Line
  | 0 => []
  | n + 1 => lineOfBytes (bs.take 128) :: baleLines (bs.drop 128) n

/-- Writes the lines of a fill into their home slices (R279); none, with the bales that must leave first asked to leave,
where one finds no way. -/
def allocLines (hint : Nat) : Nat → List Line → State → State × Bool
  | _, [], s => (s, true)
  | l, d :: ds, s =>
    match seraiAlloc s l hint d false false with
    | .way _ s => allocLines hint (l + 1) ds s
    | .bale v => (askLeave s v, false)
    | _ => (s, false)

/-- The line of a miss has its data: its requests are served in their order (R326, R327). -/
def serveMiss (s : State) (line : Nat) : State :=
  match txnFind s line with
  | some t => if t.missing then
      let seen (r : Req) : Req := { r with missed := true }
      let t := { t with missing := false, hbmSent := false, hbmDone := none, req := t.req.map seen, merged := t.merged.map seen }
      serveHeld 16 (proceed (txnPut s t) line) line
    else s
  | none => s

/-- A fill has failed (R304, R305): the requests that waited get the status, and its operation ends. -/
def fillFails (s : State) (o : TierOp) (st : Status) : State :=
  let s := if o.instant then { s with tier := { s.tier with failed := s.tier.failed ++ [(o.fn, o.bale, st)] } } else s
  opEnd (failWaiters s o.fn o.bale st true) o st

/-- The pack units that a fill has read (R313, R573). -/
def countUnits (s : State) (o : TierOp) (units : Nat) : State :=
  modContext (bump s ⟨.tirInBytes, 0, o.fn⟩ (2048 * units)) o.ctx (fun x => { x with fillBytes := x.fillBytes + 2048 * units })

/-- A tier error of a fill: the record takes POISON and ERR 0x03 (R304). -/
def fillTierError (s : State) (x : Context) (o : TierOp) (r : Rec) : State :=
  fillFails (tierError (writeRec s x o.bale { r with poison := true, err := 3 }) o.fn 1 o.bale) o .tierError

/-- The expanded data of a fill that passed every check is written and the waiting requests are served. -/
def fillData (s : State) (o : TierOp) (hint : Nat) (bs : List Byte) : Option State :=
  match allocLines hint (baleLine o.fn o.bale) (baleLines bs 512) s with
  | (_, false) => none
  | (s, true) =>
    let s := bump (bump s ⟨.tirFills, 0, o.fn⟩ 1) ⟨.tirOutBytes, 0, o.fn⟩ 65536
    let s := opEnd (forgetFails s o.fn o.bale) o .complete
    some ((span (baleLine o.fn o.bale) 512).foldl serveMiss s)

/-- Its compressed data is expanded and checked (R285). Where a line finds no way, the fill waits and the bales that must leave first are
asked to. -/
def fillExpand (s0 s : State) (x : Context) (o : TierOp) (hint : Nat) (r : Rec) (p : List Byte) : State :=
  let s := countUnits s o r.units
  match expandBale r.codec r.fill r.payLen r.lengths p with
  | none => fillTierError s x o r
  | some bs =>
    if r.codec ≠ 1 ∧ crc32c bs ≠ r.dataCrc then fillTierError s x o r
    else match fillData s o hint bs with
      | some s => s
      | none => waitFor s0 (allocLines hint (baleLine o.fn o.bale) (baleLines bs 512) s0).1

/-- A fill has its compressed data, or the host's answer for a parked bale (R285, R303 to R305). -/
def finishFill (s : State) (x : Context) (o : TierOp) (hint : Nat) (parked : Fetched) : State :=
  match readRec s x o.bale with
  | .badCrc => fillFails (tierError s o.fn 3 o.bale) o .tierError
  | .badField r => fillTierError s x o r
  | .good r =>
    if r.poison then fillFails s o (poisonStatus r)
    else if r.tier = 2 ∧ (x.parkRevoked ∨ (r.units ≠ 0 ∧ !parkOpen s x)) then fillFails (tierError s o.fn 2 o.bale) o .tierError
    else if r.units = 0 then fillExpand s s x o hint r []
    else if r.tier = 1 then
      match slotBytes s x r.slot r.units with
      | (s', some p) => fillExpand s s' x o hint r p
      | (s', none) => fillFails (tierUncorr (writeRec (countUnits s' o r.units) x o.bale { r with poison := true, err := 4 }) o.fn o.bale) o .uncorrectable
    else match parked with
        | .data p => fillExpand s s x o hint r (p.take (2048 * r.units))
        | .error _ => fillFails (tierError (bump s ⟨.tirParkErr, 0, o.fn⟩ 1) o.fn 2 o.bale) o .tierError

/-! ### Write-backs and moves -/

/-- The bytes of a slot behind a payload hold no defined content (R284): free values. -/
def slotTail (s : State) (len : Nat) : List Byte × State :=
  let (d, s) := draw s
  ((span len (65536 - len)).map (Config.undefByte d), s)

/-- Writes a compressed bale to a slot: HBM, or parking memory with Relaxed Ordering (R293, R301, R433). -/
def putSlotBytes (s : State) (x : Context) (tier slot : Nat) (p : List Byte) : State :=
  let (tail, s) := slotTail s p.length
  if tier = 1 then homePut s (x.tier.poolBase + 65536 * slot) (p ++ tail)
  else emit s (.hostWrite x.fn (parkAddr s x slot) (p ++ tail.take (2048 * unitsOf p.length - p.length)))

/-- Codecs the context and TIR_CTRL allow (R289). -/
def codecMask (s : State) (x : Context) : Nat := Nat.land x.tier.codec (2 * regBits s ⟨.tirCtrl, 0, 0⟩ 3 1)

/-- The packing the codec chose for a bale's bytes, with the code lengths it built (R289). -/
def choosePacking (s : State) (x : Context) (nib byt : List Nat) (bs : List Byte) : Packed :=
  (bestPacking (packings (codecMask s x) nib byt bs)).getD { codec := 0, fill := 0, payload := bs, lengths := 0 }

/-- The record of a bale whose data was rewritten in a slot (R293, R294). -/
def packedRec (r : Rec) (tier slot : Nat) (p : Packed) (bs : List Byte) : Rec :=
  { r with state := 0, tier := tier, slot := slot, codec := p.codec, units := p.units, payLen := p.payload.length, fill := p.fill,
           lengths := p.lengths, dataCrc := crc32c bs, gen := (r.gen + 1) % 2 ^ 32, newTier := 0, newSlot := 0 }

/-- The writes of an operation's slot and record go out: its controllers have room and its tier engine's toll admits them (R39, R72,
R290); none where they must wait, with the state that waits. -/
def slotWrites (s : State) (x : Context) (o : TierOp) (tier slot bytes : Nat) : State × Bool :=
  let a := x.tier.poolBase + 65536 * slot
  if hbmBusy s (recAddr x o.bale) 64 || (tier == 1 && hbmBusy s a 65536) then (s, false)
  else gate s (.tier o.tile) (opKey o 1) (initTier o.tile) 0 (bytes + 64)

/-- The record of a bale whose operation is given up: IDLE at its old slot (R303). -/
def recBack (s : State) (x : Context) (bale : Nat) (r : Rec) : State := writeRec s x bale { r with state := 0, newTier := 0, newSlot := 0 }

/-- The record of a running operation cannot be used any more (R312, R706). -/
def recLost (s : State) (x : Context) (o : TierOp) (lose : Bool) : State :=
  match readRec s x o.bale with
  | .badCrc => writebackFails s x o 3 lose
  | _ => writebackFails s x o 1 lose

/-- A write-back's units are accepted (R293): record IDLE, the bale clean; an eviction drops it. A parking pool that has closed meanwhile
takes no write (R303). -/
def finishWriteback (s : State) (x : Context) (o : TierOp) (nib byt : List Nat) (leave lose : Bool) : State :=
  match readRec s x o.bale with
  | .good r =>
    let bs := baleBytes s o.fn o.bale
    let p := choosePacking s x nib byt bs
    if r.tier = 2 ∧ !parkOpen s x then writebackFails (recBack s x o.bale r) x o 2 lose
    else match slotWrites s x o r.tier r.slot (2048 * p.units) with
      | (s, false) => s
      | (s, true) =>
        let s := putSlotBytes s x r.tier r.slot p.payload
        let s := writeRec s x o.bale (packedRec r r.tier r.slot p bs)
        let s := bump (cleanBale s o.fn o.bale) ⟨.tirWritebacks, 0, o.fn⟩ 1
        opEnd (if leave then dropBale s o.fn o.bale else s) o .complete
  | _ => recLost s x o lose

/-- A MOVE of a bale that was dirty when it began: it is compressed into the target slot (R294). -/
def moveDirty (s : State) (x : Context) (o : TierOp) (r : Rec) (slot tier : Nat) (nib byt : List Nat) : State :=
  let bs := baleBytes s o.fn o.bale
  let p := choosePacking s x nib byt bs
  match slotWrites s x o tier slot (2048 * p.units) with
  | (s, false) => s
  | (s, true) =>
    let s := putSlotBytes s x tier slot p.payload
    opEnd (bump (cleanBale (writeRec s x o.bale (packedRec r tier slot p bs)) o.fn o.bale) ⟨.tirMoves, 0, o.fn⟩ 1) o .complete

/-- A MOVE of a bale that was not: its pack units are copied unchanged (R294). -/
def moveCopy (s : State) (x : Context) (o : TierOp) (r : Rec) (slot tier : Nat) (p : List Byte) : State :=
  match slotWrites s x o tier slot (2048 * r.units) with
  | (s, false) => s
  | (s, true) =>
    let s := putSlotBytes s x tier slot (p.take r.payLen)
    let s := writeRec s x o.bale { r with state := 0, tier := tier, slot := slot, newTier := 0, newSlot := 0, gen := (r.gen + 1) % 2 ^ 32 }
    opEnd (bump s ⟨.tirMoves, 0, o.fn⟩ 1) o .complete

/-- A MOVE's writes are accepted, or its source could not be read, or a parking pool has closed meanwhile (R294, R303, R304). -/
def finishMove (s : State) (x : Context) (o : TierOp) (slot tier : Nat) (parked : Fetched) (nib byt : List Nat) : State :=
  match readRec s x o.bale with
  | .good r =>
    let dirty := o.dirty && resident s o.fn o.bale
    if (tier = 2 ∨ (r.tier = 2 ∧ !dirty)) ∧ !parkOpen s x then opTierError (recBack s x o.bale r) o 2
    else if dirty then moveDirty s x o r slot tier nib byt
    else if r.units = 0 then moveCopy s x o r slot tier []
    else if r.tier = 1 then
      match slotBytes s x r.slot r.units with
      | (s', some p) => if (slotWrites s x o tier slot (2048 * r.units)).2 then moveCopy s' x o r slot tier p else moveCopy s x o r slot tier p
      | (s', none) =>
        let r' := { r with state := 0, newTier := 0, newSlot := 0, poison := true, err := 4, gen := (r.gen + 1) % 2 ^ 32 }
        opEnd (tierUncorr (writeRec s' x o.bale r') o.fn o.bale) o .uncorrectable
    else match parked with
      | .data p => moveCopy s x o r slot tier p
      | .error _ => opTierError (bump (recBack s x o.bale r) ⟨.tirParkErr, 0, o.fn⟩ 1) o 2
  | _ => recLost s x o false

/-- Ends what a context's teardown or a partition reset ends at the tier engines (R308, R569 order 6, R707): fills, and
operations that have not written their first record. -/
def endContextOps (s : State) (c : Nat) (st : Status) : State :=
  let gone := s.tier.ops.filter (fun o => o.ctx == c && (!o.started || match o.kind with | .fill _ => true | _ => false))
  gone.foldl (fun s o => opEnd (match o.kind with
    | .fill _ =>
      let s := if o.instant then { s with tier := { s.tier with failed := s.tier.failed ++ [(o.fn, o.bale, st)] } } else s
      failWaiters s o.fn o.bale st false
    | _ => s) o .complete) s

/-- Bales of a context that are resident. -/
def residentBales (s : State) (x : Context) : List Nat :=
  let b0 := baleNum x.tier.base
  s.mem.serai.foldl (fun l p => match p.2 with
    | some y =>
      let ha := lineHa y.line
      let b := baleNum ha
      if isTier ha && tierFn ha == x.fn && decide (b0 ≤ b) && decide (b < b0 + x.tier.bales) then setAdd l b else l
    | none => l) []

end Sys2Proof.Machine
end

