-- ==== Sys2Proof/Machine/Tier.lean ====
section
/-!
DEFINITION. The commands of the tier engines: the ends of bale operations (R285, R293, R294), the tier commands of a tier
step (R295 to R301) and its commit point (R298).
-/
namespace Sys2Proof.Machine

/-- BALE_FILL_DONE (R285, R304, R305): the compressed data of a fill is there, from HBM or from the host. -/
def execBaleFillDone (fn bale : Nat) (s : State) : Res :=
  match runningOp s fn bale with
  | none => notDue s
  | some o => match o.kind, context s o.ctx with
    | .fill h, some x => match parkResult s o with
      | some parked => okT (finishFill s x o h parked)
      | none => notDue s
    | _, _ => notDue s

/-- BALE_WRITEBACK_DONE (R293): the units of a write-back are accepted. `nib` and `byt` are the code lengths that the
codec built from the bale's symbol counts (R289). -/
def execBaleWritebackDone (fn bale : Nat) (nib byt : List Nat) (s : State) : Res :=
  match runningOp s fn bale with
  | none => notDue s
  | some o => match o.kind, context s o.ctx with
    | .writeback, some x => okT (finishWriteback s x o nib byt false false)
    | .evict, some x => if baleBusy s fn bale then notDue s else okT (finishWriteback (recallBale s fn bale true) x o nib byt true false)
    | .replace, some x => if baleBusy s fn bale then notDue s else okT (finishWriteback (recallBale s fn bale true) x o nib byt true true)
    | _, _ => notDue s

/-- BALE_MOVE_DONE (R294, R304): the writes of a MOVE are accepted, or its source read has failed. -/
def execBaleMoveDone (fn bale : Nat) (nib byt : List Nat) (s : State) : Res :=
  match runningOp s fn bale with
  | none => notDue s
  | some o => match o.kind, context s o.ctx with
    | .move slot tier, some x => match parkResult s o with
      | some parked => okT (finishMove s x o slot tier parked nib byt)
      | none => notDue s
    | _, _ => notDue s

/-! ### Tier commands -/

/-- A tier command (R295). -/
structure TierCmd where
  op    : Nat
  hint  : Nat
  tier  : Nat
  entry : Nat
  fmt   : Nat
  count : Nat
  ha    : Nat
  slot  : Nat
  fill  : Nat
  resv  : Nat
  table : Nat
  deriving DecidableEq, Repr

def tierCmdOf (b : List Byte) : TierCmd :=
  let f := fieldOf b 1 1
  { op := fieldOf b 0 1, hint := f % 4, tier := f / 4 % 4, entry := f / 16, fmt := fieldOf b 2 2, count := fieldOf b 4 4,
    ha := fieldOf b 8 8, slot := fieldOf b 0x10 4, fill := fieldOf b 0x14 1, resv := fieldOf b 0x15 3, table := fieldOf b 0x18 8 }

/-- The index of the block of an HBM address in its partition's carve-out, for the parity rule (R278). -/
def blockIndex (ha : Nat) : Nat := ha / 65536

/-- A target slot of a MOVE or INIT is admissible for a bale index (R278, R297). -/
def slotFits (s : State) (x : Context) (tier slot index : Nat) : Bool :=
  if tier = 1 then decide (slot < x.tier.poolSlots) && (decide ((part s x.fn).interleave ≠ 2) || slot % 2 == index % 2)
  else decide (slot < x.tier.parkSlots)

/-- The command is malformed (R297). -/
def TierCmd.malformed (s : State) (x : Context) (c : TierCmd) : Bool :=
  let i0 := (c.ha - x.tier.base) / 65536
  decide (c.op = 0 ∨ 8 < c.op) || decide (c.resv ≠ 0) || decide (c.ha % 65536 ≠ 0) ||
  (c.op != 8 && c.count != 0 && (decide (c.ha < x.tier.base) || decide (x.tier.bales < i0 + c.count))) ||
  ((c.op == 5 || c.op == 6) && (decide (c.tier = 0 ∨ c.tier = 3) ||
    (span 0 c.count).any (fun k => !slotFits s x c.tier (c.slot + k) (i0 + k)))) ||
  (c.op == 8 && (decide (x.tier.poolSlots + c.count < x.tier.bales) || c.ha != x.tier.base)) ||
  (c.op != 7 && c.count == 0)

/-- The tier step of a queue whose next command is due: the oldest that has begun and has commands left. -/
def tierStepOf (s : State) (q : Nat) : Option Step :=
  s.work.steps.find? (fun x => x.queue == q && x.phase == .begun && match x.body with
    | .tier _ n => decide (x.progress < n)
    | _ => false)

/-- A step's remaining commands do not run; it ends with a status once the commands before have ended (R297). -/
def stopTierStep (s : State) (x : Step) (st : Status) : State :=
  modStep s x.id (fun x => match x.body with
    | .tier _ n => { x with progress := n, err := st }
    | _ => x)

/-- Reads the next command of a tier step and runs it, if it is the one that the row names. The read counts for the tier engine of tile 0
(DESIGN CHOICE, log 130). -/
def tierCommand (op : Nat) (q : Nat) (s : State) (run : Context → Step → TierCmd → State → Res) : Res :=
  match tierStepOf s q with
  | none => notDue s
  | some x => match x.body, context s x.ctx with
    | .tier cmds _, some c =>
      let a := cmds + 32 * x.progress
      if !inWindows s x.part x.ctx a 32 then
        ok (stopTierStep (if mapped s a then s else logUnmapped s (initTier 0) a) x .translationFault)
      else match gate s (.tier 0) (listKey x.id) (initTier 0) 0 32 with
        | (s1, false) => okT s1
        | (s1, true) => match readNow s1 a 32 0 with
          | .wait w => okT (waitFor s w)
          | .bad s1 st => ok (stopTierStep s1 x st)
          | .done s1 b =>
            let k := tierCmdOf b
            if k.malformed s1 c then ok (stopTierStep s1 x .aborted)
            else if k.op = op then run c x k (modStep s1 x.id (fun x => { x with progress := x.progress + 1 }))
            else notDue s
    | _, _ => notDue s

/-- The bale numbers that a command covers, with the slot each takes. -/
def TierCmd.bales (k : TierCmd) : List (Nat × Nat) := (span 0 k.count).map (fun i => (baleNum k.ha + i, k.slot + i))

/-- One operation for each bale of a command. -/
def queueAll (c : Context) (x : Step) (k : TierCmd) (kind : Nat → TierKind) (s : State) : State :=
  k.bales.foldl (fun s b => queueOp s x.ctx c.fn b.1 (kind b.2) (some x.id)) s

def execPrefetch (q : Nat) (s : State) : Res :=
  tierCommand 1 q s (fun c x k s => okT (k.bales.foldl (fun s b =>
    queueOp s x.ctx c.fn b.1 (.fill (fillHint s c.fn b.1 k.hint)) (some x.id)) s))
def execWriteback (q : Nat) (s : State) : Res := tierCommand 2 q s (fun c x k s => okT (queueAll c x k (fun _ => .writeback) s))
def execTierEvict (q : Nat) (s : State) : Res := tierCommand 3 q s (fun c x k s => okT (queueAll c x k (fun _ => .evict) s))
def execTierDiscard (q : Nat) (s : State) : Res := tierCommand 4 q s (fun c x k s => okT (queueAll c x k (fun _ => .discard) s))
def execMoveC (q : Nat) (s : State) : Res :=
  tierCommand 5 q s (fun c x k s => okT (queueAll c x k (fun slot => .move slot k.tier) s))
def execInitC (q : Nat) (s : State) : Res :=
  tierCommand 6 q s (fun c x k s => okT (queueAll c x k (fun slot => .initBale slot k.tier k.fill k.fmt) s))

/-- ADVISE (R296, R299): the advice entry of the partition is replaced whole; COUNT 0 clears it. -/
def execAdvise (q : Nat) (s : State) : Res :=
  tierCommand 7 q s (fun c x k s =>
    let b := baleNum k.ha
    let e : Advice := if k.count = 0 then {} else { fn := c.fn, lo := b, hi := b + k.count - 1, hint := k.hint }
    okT { s with tier := { s.tier with advice := smSet {} s.tier.advice (16 * x.part + k.entry) e } })

/-- DONATE (R301): it takes effect once the earlier commands of its step have ended for every bale, which R298's list
order asks for every bale of the range. -/
def execDonate (q : Nat) (s : State) : Res :=
  tierCommand 8 q s (fun _ x k s =>
    if s.tier.ops.any (fun o => o.step == some x.id) then ok (modStep s x.id (fun x => { x with progress := x.progress - 1 }))
    else okT (modContext { s with tier := { s.tier with failed := [] } } x.ctx (fun c => { c with parkRevoked := false, tier := { c.tier with parkTable := k.table, parkSlots := k.count } })))

/-- TIER_STEP_COMMIT (R298): every command of the oldest such step of a queue has ended for every bale. -/
def execTierStepCommit (q : Nat) (s : State) : Res :=
  match s.work.steps.find? (fun x => x.queue == q && x.begun && match x.body with
      | .tier _ n => decide (n ≤ x.progress) && !s.tier.ops.any (fun o => o.step == some x.id)
      | _ => false) with
  | none => notDue s
  | some x => okT (commitStep s x x.err)

end Sys2Proof.Machine
end

