-- ==== Sys2Proof/Machine/Objects.lean ====
section
/-!
DEFINITION. Function commands (R549 to R556, R562, R568 to R574): contexts, queues, slots, aborts, queries and partition
resets. Their operands stand in the command buffer HPF_CMD_BUF of the function.
-/
namespace Sys2Proof.Machine

/-! ### The command interface -/

/-- The 128 bytes of a function's command buffer. -/
def cmdBuf (s : State) (fn : Nat) : List Byte := (span 0 32).flatMap (fun k => toBytes 4 (regRaw s ⟨.hpfCmdBuf, fn, k⟩))
def cmdWord (s : State) (fn k : Nat) : Nat := regRaw s ⟨.hpfCmdBuf, fn, k⟩

/-- Writes a query's result into the buffer. -/
def putBuf (s : State) (fn : Nat) (b : List Byte) : State :=
  (span 0 32).foldl (fun s k => regPut s ⟨.hpfCmdBuf, fn, k⟩ (fieldOf b (4 * k) 4)) s

def fnCmd (s : State) (fn : Nat) : Option FnCmd := smGet none s.work.cmds fn
def putCmd (s : State) (fn : Nat) (c : Option FnCmd) : State := { s with work := { s.work with cmds := smSet none s.work.cmds fn c } }

/-- A command ends with a RESULT and a value; BUSY clears (R550, R552). -/
def cmdEnd (s : State) (fn result value : Nat) : State :=
  let s := putCmd s fn none
  let s := regPut s ⟨.hpfCmdStatus, fn, 0⟩ (256 * result)
  regPut s ⟨.hpfCmdResult, fn, 0⟩ value

/-- A command runs on: BUSY. -/
def cmdBusy (s : State) (fn op arg count : Nat) : State :=
  regPut (putCmd s fn (some { op := op, arg := arg, count := count })) ⟨.hpfCmdStatus, fn, 0⟩ 1

/-- A write of GO with an OP: no effect before READY (R654) or while BUSY; else the command's own effect, once the function, the licences,
the state of its partition and the pair allow it (R550 to R552, R571, R668). -/
def startCmd (s : State) (fn op : Nat) (run : State → State) : Res :=
  if 13 ≤ fn then illFormed
  else if !(hostFn s fn).ready || (fnCmd s fn).isSome then ok s
  else
    let s := regPut s ⟨.hpfCmd, fn, 0⟩ op
    if 9 ≤ fn then ok (cmdEnd s fn 2 0)
    else if !licensed s && op != 8 && op != 9 then ok (cmdEnd s fn 7 0)
    else if (part s fn).phase = .resetting then ok (cmdEnd s fn 6 0)
    else if (op = 1 ∨ op = 3) ∧ roleNow s = .standby then ok (cmdEnd s fn 6 0)
    else okT (run s)

/-- The named context is a live one of the function. -/
def ownContext (s : State) (fn c : Nat) : Option Context :=
  (context s c).filter (fun x => x.fn == fn && x.phase == .live)

/-! ### Contexts -/

/-- The tier descriptor in the second half of a context record (R272). -/
def tierDescOf (b : List Byte) : TierDesc :=
  { base := fieldOf b 0x40 8, bales := fieldOf b 0x48 4, codec := fieldOf b 0x4C 2, flags := fieldOf b 0x4E 2,
    recBase := fieldOf b 0x50 8, poolBase := fieldOf b 0x58 8, poolSlots := fieldOf b 0x60 4, parkSlots := fieldOf b 0x64 4,
    parkTable := fieldOf b 0x68 8 }

def overlap (a n b m : Nat) : Bool := decide (n ≠ 0) && decide (m ≠ 0) && decide (a < b + m) && decide (b < a + n)

/-- The hub refuses a tier descriptor (R273). -/
def tierRefused (s : State) (fn : Nat) (t : TierDesc) (resv : Nat) : Bool :=
  let block := tierBase + fn * 2 ^ 42
  let rn := 64 * t.bales
  let pn := 65536 * t.poolSlots
  let kn := 8 * t.parkSlots
  resv != 0 || decide (t.flags > 1) || bitOf t.codec 0 || decide (16 ≤ t.codec) ||
  decide (t.base % 65536 ≠ 0) || decide (t.bales = 0) || decide (67108864 < t.bales) ||
  decide (t.base < block) || decide (block + 2 ^ 42 < t.base + t.bales * 65536) ||
  decide (t.recBase % 4096 ≠ 0) || !inCarveOut s fn t.recBase rn ||
  decide (t.poolBase % 65536 ≠ 0) || !inCarveOut s fn t.poolBase pn ||
  (if t.parkSlots = 0 then t.parkTable != 0 else decide (t.parkTable % 8 ≠ 0) || !inCarveOut s fn t.parkTable kn) ||
  overlap t.recBase rn t.poolBase pn || overlap t.recBase rn t.parkTable kn || overlap t.poolBase pn t.parkTable kn ||
  decide (t.poolSlots + t.parkSlots < t.bales) ||
  s.work.ctxs.any (fun p => match p.2 with
    | some x => x.fn == fn && overlap t.base (t.bales * 65536) x.tier.base (x.tier.bales * 65536)
    | none => false) ||
  (decide ((part s fn).interleave = 2) && decide (baleNum t.base % 2 ≠ blockIndex t.poolBase % 2))

/-- Contexts of a function. -/
def ctxCount (s : State) (fn : Nat) : Nat :=
  (s.work.ctxs.filter (fun p => match p.2 with | some x => x.fn == fn | none => false)).length

/-- A context of the function has that PASID (R548). -/
def pasidTaken (s : State) (fn pasid : Nat) : Bool :=
  s.work.ctxs.any (fun p => match p.2 with | some x => x.fn == fn && x.pasid == pasid | none => false)

/-- CTX_CREATE (R548, R549, R273): the record is checked and the context takes the lowest free number; the command stays
BUSY until its bale records are initialized or scanned. -/
def execCtxCreate (fn : Nat) (s : State) : Res :=
  startCmd s fn 1 (fun s =>
    let b := cmdBuf s fn
    let pasid := fieldOf b 0 4
    let resv := fieldOf b 4 4 + fieldOf b 0x10 48
    if 2 ^ 20 ≤ pasid ∨ resv ≠ 0 then cmdEnd s fn 1 0
    else
      let t := tierDescOf b
      match (span 0 4096).find? (fun c => (context s c).isNone) with
      | none => cmdEnd s fn 3 0
      | some c =>
        if (part s fn).contextMax ≤ ctxCount s fn then cmdEnd s fn 3 0
        else if pasidTaken s fn pasid then cmdEnd s fn 5 0
        else if tierRefused s fn t (fieldOf b 0x70 16) then cmdEnd s fn 4 0
        else
          let x : Context := { fn := fn, pasid := pasid, ownerTag := fieldOf b 8 8, tier := t, phase := .creating }
          let s := regSetBits (putContext s c (some x)) ⟨.tirStatus, 0, 0⟩ 0 0 1
          cmdBusy s fn 1 c 0)

/-- The record of a bale of a new context (R277). Its GEN is not stated and is a free value. -/
def newRecord (s : State) (x : Context) (i : Nat) : State :=
  let (d, s) := draw s
  let b := baleNum x.tier.base + i
  if i < x.tier.poolSlots then writeRec s x b (fillRec i 1 0 0 (Config.freeNat d % 2 ^ 32))
  else writeRec s x b (fillRec (i - x.tier.poolSlots) 2 0 0 (Config.freeNat d % 2 ^ 32))

/-- The scan of one record on REATTACH (R309). -/
def scanRecord (s : State) (x : Context) (i : Nat) : State :=
  let b := baleNum x.tier.base + i
  let recovered (s : State) : State :=
    setStatus (bump s ⟨.tirRecovered, 0, x.fn⟩ 1) ⟨.tirIntStatus, 0, 0⟩ 3 x.fn (tierBase + x.fn * 2 ^ 42 + b * 65536)
  let s := fetchRec s x b
  match homeBytes s (recAddr x b) 64 with
  | none => bump s ⟨.tirErrTier, 0, x.fn⟩ 1
  | some bs =>
    if recCrcOk bs then
      let r := recOf bs
      if r.state = 3 then recovered (writeRec s x b { r with state := 0, newTier := 0, newSlot := 0 })
      else if r.state = 2 then recovered (writeRec s x b { r with state := 0, poison := true, err := 3 })
      else s
    else bump s ⟨.tirErrTier, 0, x.fn⟩ 1

/-- SCAN_ACTIVE of TIR_STATUS: records of some context are being initialized or scanned (R310). -/
def scanStatus (s : State) : State :=
  let busy := s.work.ctxs.any (fun p => match p.2 with | some x => x.phase == .creating | none => false)
  regSetBits s ⟨.tirStatus, 0, 0⟩ 0 0 (b2n busy)

/-- CTX_CREATE_DONE (R549, R277, R309): the records are initialized or scanned; the context is live. -/
def execCtxCreateDone (fn : Nat) (s : State) : Res :=
  match fnCmd s fn with
  | some k => if k.op = 1 then
      match context s k.arg with
      | some x =>
        let s := if bitOf x.tier.flags 0 then (span 0 x.tier.bales).foldl (fun s i => scanRecord s x i) s
          else (span 0 x.tier.bales).foldl (fun s i => newRecord s x i) s
        ok (cmdEnd (scanStatus (modContext s k.arg (fun x => { x with phase := .live }))) fn 0 k.arg)
      | none => notDue s
    else notDue s
  | none => notDue s

/-- Orders 1 to 6 of a teardown (R569), with the breaking status of its cause. -/
def tearStart (s : State) (c : Nat) (st : Status) (wb : Bool) : State :=
  match context s c with
  | none => s
  | some x =>
    let qs := s.work.queues.map (fun p => (p.1, p.2.map (fun q => if q.ctx = c then { q with closed := true } else q)))
    let s := { s with work := { s.work with queues := qs } }
    let s := abortSteps s (fun y => y.ctx == c) st
    let mine (k : Nat) : Bool := match slotAt s k with | .tally _ (some o) => o == c | _ => false
    let s := breakSteps s (fun y => y.ctx != c && y.phase == .waiting && y.waitEn && mine y.wait) st
    let s := tcDrop s (fun e => e.fn == x.fn && e.pasid == x.pasid)
    let s := endContextOps s c st
    let bs := (residentBales s x).filter (fun b => (runningOp s x.fn b).isNone)
    let s := if wb then bs.foldl (fun s b => queueOp s c x.fn b .evict none) s
      else bs.foldl (fun s b => discardBale s x.fn b) s
    modContext s c (fun x => { x with phase := .tearing })

/-- Nothing of a context is left to end. -/
def tearReady (s : State) (c : Nat) : Bool :=
  !s.work.steps.any (fun x => x.ctx == c) && !s.tier.ops.any (fun o => o.ctx == c)

/-- Orders 6 to 9 of a teardown (R569). -/
def tearFinish (s : State) (c : Nat) : State :=
  match context s c with
  | none => s
  | some x =>
    let s := (residentBales s x).foldl (fun s b => discardBale s x.fn b) s
    let mine (q : Nat) : Bool := match queueOf s q with | some y => y.ctx == c | none => false
    let s := modFn s x.fn (fun h => { h with backlog := h.backlog.filter (fun e => !mine e.queue) })
    let s := { s with work := { s.work with queues := s.work.queues.filter (fun p => match p.2 with | some y => y.ctx != c | none => false) } }
    let slots := s.work.slots.filterMap (fun p => match p.2 with
      | .tally _ (some o) => if o = c then none else some p
      | .sealObj n st so co (some o) =>
        if o = c then (if n = 0 then none else some (p.1, Slot.sealObj n st so co none)) else some p
      | _ => some p)
    putContext { s with work := { s.work with slots := slots } } c none

/-- CTX_TEARDOWN (R569). -/
def execCtxTeardown (fn : Nat) (s : State) : Res :=
  startCmd s fn 2 (fun s =>
    let w := cmdWord s fn 0
    if bitsOf w 15 12 ≠ 0 ∨ bitsOf w 31 17 ≠ 0 then cmdEnd s fn 1 0
    else match ownContext s fn (w % 4096) with
      | none => cmdEnd s fn 2 0
      | some _ => cmdBusy (tearStart s (w % 4096) .ownerGone (bitOf w 16)) fn 2 (w % 4096) 0)

/-- CTX_TEARDOWN_DONE (R569): the last action ends. -/
def execCtxTeardownDone (fn : Nat) (s : State) : Res :=
  match fnCmd s fn with
  | some k => if k.op = 2 ∧ tearReady s k.arg then okT (cmdEnd (tearFinish s k.arg) fn 0 0) else notDue s
  | none => notDue s

/-! ### Queues -/

/-- A queue of the function has that doorbell page (R555). -/
def pageTaken (s : State) (fn page : Nat) : Bool :=
  s.work.queues.any (fun p => match p.2 with | some y => y.fn == fn && y.page == page | none => false)

/-- QUEUE_BIND (R553, R556). -/
def execQueueBind (fn : Nat) (s : State) : Res :=
  startCmd s fn 3 (fun s =>
    let b := cmdBuf s fn
    let q := fieldOf b 0 2
    let page := fieldOf b 2 2
    let c := fieldOf b 4 2
    let fl := fieldOf b 6 2
    let base := fieldOf b 8 8
    let rl := fieldOf b 0x10 1
    let el := fieldOf b 0x11 1
    let vec := fieldOf b 0x12 2
    let init := fieldOf b 0x14 2
    let eb := fieldOf b 0x20 8
    let et := fieldOf b 0x28 8
    let host := bitOf fl 1
    let chip := bitOf fl 2
    let bad := decide (fieldOf b 0x16 2 + fieldOf b 0x1C 4 + fieldOf b 0x30 80 ≠ 0) || decide (8 ≤ fl) || (host && chip) ||
      (!host && !chip && (vec != 0 || init != 0)) || (host && (decide (vec < 16) || decide (2048 ≤ vec) || init != 0)) ||
      (chip && decide (512 ≤ init)) || decide (4096 ≤ q) || decide (1024 ≤ page) || decide (base % 4096 ≠ 0) ||
      decide (rl < 4) || decide (16 < rl) || (el != 0 && (decide (el < 6) || decide (16 < el))) || decide (eb % 4096 ≠ 0) ||
      decide (et % 8 ≠ 0)
    if bad then cmdEnd s fn 1 0
    else if queuePart s q ≠ some fn ∨ (ownContext s fn c).isNone then cmdEnd s fn 2 0
    else if (queueOf s q).isSome ∨ pageTaken s fn page then cmdEnd s fn 6 0
    else
      let st := fieldOf b 0x18 4
      let y : Queue := { page := page, ctx := c, fn := fn, flags := fl, ringBase := base, ringLog2 := rl, evtLog2 := el, vector := vec,
                         intrInit := init, evtBase := eb, evtTail := et, head := st, tail := st }
      cmdEnd (putQueue s q (some y)) fn 0 0)

/-- QUEUE_UNBIND (R557). -/
def execQueueUnbind (fn : Nat) (s : State) : Res :=
  startCmd s fn 4 (fun s =>
    let w := cmdWord s fn 0
    if 4096 ≤ w then cmdEnd s fn 1 0
    else match queueOf s w with
      | none => if queuePart s w = some fn then cmdEnd s fn 0 0 else cmdEnd s fn 2 0
      | some y =>
        if y.fn ≠ fn then cmdEnd s fn 2 0
        else if s.work.steps.any (fun x => x.queue == w) then cmdEnd s fn 6 0
        else
          let s := modFn s fn (fun h => { h with backlog := h.backlog.filter (fun e => e.queue != w) })
          cmdEnd (putQueue s w none) fn 0 0)

/-! ### Slots -/

/-- SLOT_CONFIG (R562). -/
def execSlotConfig (fn : Nat) (s : State) : Res :=
  startCmd s fn 5 (fun s =>
    let w := cmdWord s fn 0
    let o := cmdWord s fn 2
    let kind := bitsOf w 17 16
    let k := w % 65536
    if bitsOf w 31 18 ≠ 0 ∨ bitsOf o 30 12 ≠ 0 ∨ kind = 0 ∨ kind = 3 then cmdEnd s fn 1 0
    else if slotPart s k ≠ some fn ∨ (!bitOf o 31 ∧ (ownContext s fn (o % 4096)).isNone) then cmdEnd s fn 2 0
    else if slotAt s k ≠ .free then cmdEnd s fn 6 0
    else
      let own := if bitOf o 31 then none else some (o % 4096)
      cmdEnd (putSlot s k (if kind = 1 then .tally (cmdWord s fn 1) own else .sealObj 0 0 0 0 own)) fn 0 0)

/-- SLOT_FREE (R562). -/
def execSlotFree (fn : Nat) (s : State) : Res :=
  startCmd s fn 6 (fun s =>
    let k := cmdWord s fn 0
    if 65536 ≤ k then cmdEnd s fn 1 0
    else if slotPart s k ≠ some fn then cmdEnd s fn 2 0
    else if s.work.steps.any (fun x => (x.sealEn && x.sealSlot == k) || (x.waitEn && x.wait == k && !x.begun)) then cmdEnd s fn 6 0
    else cmdEnd (putSlot s k .free) fn 0 0)

/-! ### Aborts -/

/-- The steps in the scope of an ABORT (R568). -/
def abortScope (w : Nat) (x : Step) : Bool :=
  let t := w / 65536
  match w % 4 with
  | 0 => x.sealEn && x.sealSlot == t
  | 1 => x.queue == t
  | _ => x.ctx == t

/-- The target of an ABORT is the function's (R568). -/
def abortOwned (s : State) (fn w : Nat) : Bool :=
  let t := w / 65536
  match w % 4 with
  | 0 => slotPart s t == some fn
  | 1 => (match queueOf s t with | some y => y.fn == fn | none => false)
  | _ => (ownContext s fn t).isSome

/-- A step that an abort cancels at its unit. -/
def Step.cancelling (x : Step) : Bool := match x.phase with | .cancelling _ => true | _ => false

/-- ABORT (R568): steps that no unit has begun end at once, the others when the abort reaches their unit. -/
def execAbort (fn : Nat) (s : State) : Res :=
  startCmd s fn 7 (fun s =>
    let w := cmdWord s fn 0
    if w % 4 = 3 ∨ bitsOf w 15 2 ≠ 0 then cmdEnd s fn 1 0
    else if !abortOwned s fn w then cmdEnd s fn 2 0
    else
      let mine (x : Step) : Bool := x.part == fn && abortScope w x
      let n := (s.work.steps.filter (fun x => mine x && !x.begun)).length
      cmdBusy (abortSteps s mine .aborted) fn 7 w n)

/-- ABORT_DONE (R568): every step in scope has ended; the result counts those that ended ABORTED. -/
def execAbortDone (fn : Nat) (s : State) : Res :=
  match fnCmd s fn with
  | some k =>
    if k.op = 7 ∧ !s.work.steps.any (fun x => x.part == fn && abortScope k.arg x && x.cancelling) then
      ok (cmdEnd s fn 0 k.count)
    else notDue s
  | none => notDue s

/-! ### Queries -/

/-- CTX_QUERY (R573). -/
def execCtxQuery (fn : Nat) (s : State) : Res :=
  startCmd s fn 8 (fun s =>
    let c := cmdWord s fn 0
    if 4096 ≤ c then cmdEnd s fn 1 0
    else match ownContext s fn c with
      | none => cmdEnd s fn 2 0
      | some x =>
        let recs := (span 0 x.tier.bales).map (fun i => readRec s x (baleNum x.tier.base + i))
        let count (p : Rec → Bool) : Nat := (recs.filter (fun r => match r with | .good r => p r | .badField r => p r | .badCrc => false)).length
        let owned := (s.work.slots.filter (fun p => match p.2 with
          | .tally _ (some o) => o == c | .sealObj _ _ _ _ (some o) => o == c | _ => false)).length
        let tc := (s.host.tc.filter (fun p => match p.2 with | some e => e.fn == fn && e.pasid == x.pasid | none => false)).length
        let qs := (s.work.queues.filter (fun p => match p.2 with | some y => y.ctx == c | none => false)).length
        let b := toBytes 8 x.engineNs ++ toBytes 8 x.porterNs ++ toBytes 8 x.copyBytes ++ toBytes 8 x.fillBytes ++
          toBytes 8 x.stepsEnded ++ toBytes 4 x.stepsFailed ++ toBytes 4 owned ++ toBytes 4 (residentBales s x).length ++
          toBytes 4 (count (fun r => r.tier == 1)) ++ toBytes 4 (count (fun r => r.tier == 2)) ++
          toBytes 4 (count (fun r => r.poison)) ++ toBytes 4 tc ++ toBytes 2 qs ++ toBytes 2 0 ++ toBytes 8 x.ownerTag ++ toBytes 48 0
        cmdEnd (putBuf s fn b) fn 0 0)

/-- Granules of a partition that wait for zeroing (R547). -/
def zeroingOf (s : State) (p : Nat) : Nat := (s.work.zeroing.filter (fun g => g.2 == some p)).length

/-- Clusters of a partition in service. -/
def clustersOf (s : State) (p : Nat) : List Nat := (span 0 1600).filter (fun k => tileOwner s (k / 10) == some p && clInService s k)

/-- PART_QUERY (R574). -/
def execPartQuery (fn : Nat) (s : State) : Res :=
  startCmd s fn 9 (fun s =>
    let p := part s fn
    let qs := (s.work.queues.filter (fun q => match q.2 with | some y => y.fn == fn | none => false)).length
    let sl := (s.work.slots.filter (fun k => slotPart s k.1 == some fn && k.2 != .free)).length
    let ds := if p.domain < 4 then (domain s p.domain).st.code else 0
    let b := p.engineNs.flatMap (fun n => toBytes 8 n) ++ toBytes 1 p.domain ++ toBytes 1 ds ++ toBytes 2 (ctxCount s fn) ++
      toBytes 2 qs ++ toBytes 2 (zeroingOf s fn) ++ toBytes 4 sl ++ toBytes 2 p.granules.length ++
      toBytes 2 (clustersOf s fn).length ++ toBytes 48 0
    cmdEnd (putBuf s fn b) fn 0 0)

/-! ### Partition resets -/

/-- Each engine clears the banks of a reset partition, and both planes where one of them is the partition's (R148, R171). -/
def resetBanks (s : State) (p : Nat) : State :=
  (span 0 8).foldl (fun s e =>
    modEngine s e (fun x =>
      let own (t : Option PlaneTag) : Bool := match t with | some t => t.part == p | none => false
      let x := x.zeroRows (fun row => bitOf (part s p).meBanks (8 * e + row / 256))
      if own x.active.tag || own x.shadow.tag then { x with active := {}, shadow := {} } else x)) s

/-- Every HBM line that belongs to a partition leaves the Serai without write-back, its locks with it (R338). -/
def resetLines (s : State) (p : Nat) : State :=
  let mine (l : SeraiLine) : Bool := isHbm (lineHa l.line) && partOf s (lineHa l.line) == p
  { s with mem := { s.mem with serai := s.mem.serai.filter (fun e => match e.2 with | some l => !mine l | none => false) } }

/-- A function's maintenance command ends ABORTED (R333, R338): what its bales have not begun is dropped. -/
def stopMaint (s : State) (fn : Nat) : State :=
  match smGet none s.mem.maint fn with
  | none => s
  | some m =>
    let s := { regPut s ⟨.sriMaintCount, 0, fn⟩ (min m.done (2 ^ 32 - 1)) with
                      mem := { s.mem with maint := smSet none s.mem.maint fn none }
                      tier := { s.tier with ops := s.tier.ops.filter (fun o => !(o.maint == some fn && !o.started)) } }
    regSetBits (regSetBits s ⟨.sriMaintStatus, 0, fn⟩ 0 0 0) ⟨.sriMaintStatus, 0, fn⟩ 11 8 5

/-- The staged set of a driver is emptied (R592). -/
def emptyStaged (s : State) (fn : Nat) : State :=
  { s with dict := { s.dict with accs := smMod {} s.dict.accs fn (fun x => { x with staged := [] }) } }

/-- A partition reset begins (R338, R571 points 1, 2 and 5). The command of the function that still runs ends with IN_USE,
but for the PART_RESET itself. -/
def partitionReset (s : State) (p : Nat) : State :=
  let s := putPart s p { part s p with phase := .resetting }
  let s := match fnCmd s p with
    | some k =>
      if k.op = 10 then s
      else
        let s := if k.op = 1 then scanStatus (putContext s k.arg none) else s
        cmdEnd s p 6 0
    | none => s
  let cs := s.work.ctxs.filterMap (fun c => match c.2 with | some x => if x.fn = p then some c.1 else none | none => none)
  let s := cs.foldl (fun s c => tearStart s c .partitionReset false) s
  resetLines (resetBanks (stopMaint (revokeParking (emptyStaged s p) p) p) p) p

/-- PART_RESET (R571). PF0 may name any partition. -/
def execPartReset (fn : Nat) (s : State) : Res :=
  startCmd s fn 10 (fun s =>
    let p := if fn = 0 then cmdWord s fn 0 % 16 else fn
    if fn = 0 ∧ (16 ≤ cmdWord s fn 0 ∨ 9 ≤ p) then cmdEnd s fn 1 0
    else if !partLicensed s p then cmdEnd s fn 7 0
    else if (part s p).phase = .resetting then cmdEnd s fn 6 0
    else partitionReset (cmdBusy s fn 10 p 0) p)

/-- Writes zeros to the user windows of a cluster's cores (R547). -/
def zeroUserWindows (s : State) (k : Nat) : State :=
  let ws := (coresOf k).map (fun n => ((core s n).uwinBase, (core s n).uwinLimit))
  modCluster s k (fun c => { c with store := c.store.filter (fun b => !ws.any (fun w => decide (w.1 ≤ b.1) && decide (b.1 < w.2))) })

/-- PARTITION_RESET_DONE (R571 points 2 to 5): every context has ended; slots, queues and backlog are cleared, and STATE
returns to RUNNING. -/
def execPartitionResetDone (p : Nat) (s : State) : Res :=
  if 9 ≤ p then illFormed
  else
    let cs := s.work.ctxs.filterMap (fun c => match c.2 with | some x => if x.fn = p then some c.1 else none | none => none)
    if (part s p).phase = .resetting ∧ cs.all (tearReady s) then
      let s := cs.foldl tearFinish s
      let slots := s.work.slots.filter (fun k => slotPart s k.1 != some p)
      let queues := s.work.queues.filter (fun q => match q.2 with | some y => y.fn != p | none => false)
      let s := { s with work := { s.work with slots := slots, queues := queues } }
      let s := modFn (tcDrop (resetBanks s p) (fun e => e.fn == p)) p (fun h => { h with backlog := [] })
      let s := ((span 0 1600).filter (fun k => tileOwner s (k / 10) == some p)).foldl zeroUserWindows s
      let s := putPart s p { part s p with phase := .steady }
      let s := (span 0 9).foldl (fun s fn => match fnCmd s fn with
        | some k => if k.op = 10 ∧ k.arg = p then cmdEnd s fn 0 0 else s
        | none => s) s
      let h := hostFn s p
      let s := if h.detached || h.preserved then putFn s p { h with detached := false, preserved := false } else s
      okT s
    else notDue s

end Sys2Proof.Machine
end

