-- ==== Sys2Proof/Machine/Queues.lean ====
section
/-!
DEFINITION. Queues and steps (R553 to R561): doorbells, the reading of ring entries and steps, dispatch, COPY steps.
-/
namespace Sys2Proof.Machine

/-! ### Doorbells -/

/-- The queue bound to a doorbell page of a function (R555). -/
def pageQueue (s : State) (fn page : Nat) : Option (Nat × Queue) :=
  s.work.queues.findSome? (fun p => match p.2 with
    | some q => if q.fn = fn ∧ q.page = page then some (p.1, q) else none
    | none => none)

/-- A write of TAIL (R555). More entries than the ring has halt the queue with CAUSE 4. A fenced hub ignores it (R674). -/
def writeTail (s : State) (fn page v : Nat) : State :=
  if roleNow s = .fenced then s
  else match pageQueue s fn page with
  | none => s
  | some (n, q) =>
    if q.closed then s
    else
      let q := { q with tail := v % 2 ^ 32 }
      let ovf := decide (2 ^ q.ringLog2 < (q.tail + 2 ^ 32 - q.head % 2 ^ 32) % 2 ^ 32)
      putQueue s n (some (if ovf && !q.halted then { q with halted := true, cause := 4 } else q))

/-- A write of the event HEAD (R555, R567): room is free and entries that wait may be written. -/
def writeEvtHead (s : State) (fn page v : Nat) : State :=
  if roleNow s = .fenced then s
  else match pageQueue s fn page with
  | none => s
  | some (n, q) => if q.closed then s else deliverBacklog (putQueue s n (some { q with evtHead := v % 2 ^ 32 })) fn

/-- A 4-byte write to a slot of the tally and seal read window (R564). -/
def windowTally (s : State) (fn slot v : Nat) : State := if isTally s fn slot then tallyAdd s slot v else s

/-! ### Reading steps -/

/-- The queue halts (R557, R560). -/
def haltQueue (s : State) (n cause : Nat) : State :=
  match queueOf s n with
  | some q => putQueue s n (some { q with halted := true, cause := cause })
  | none => s

/-- Steps of a queue that were read and not dispatched. -/
def aheadOf (s : State) (n : Nat) : Nat := (s.work.steps.filter (fun x => x.queue == n && !x.begun)).length

/-- CAUSE of a fetch that ended with a status (R555, R560). -/
def fetchCause (st : Status) : Nat := if st = .masterDisabled then 3 else 5

/-- What reading a ring entry or a step came to. -/
inductive Read where
  | got (s : State) (bytes : List Byte)
  | halt (s : State) (cause : Nat)
  | wait (s : State)
  | bad

/-- The hub reads bytes of a queue's ring or manifest (R554): at a host address, translated, with what the host returned,
or at the home of a hub address within the queue's windows. -/
def readQueue (s : State) (n : Nat) (q : Queue) (a len : Nat) (host : Fetched) : Read :=
  if q.ringHost then
    let pasid := match context s q.ctx with | some x => x.pasid | none => 0
    let port := fnPort s q.fn
    match translate s q.fn pasid a false with
    | (s, .wait) => .wait (putQueue s n (some { q with asked := some (a / 4096 * 4096) }))
    | (s, .fail st) => .halt (countFault s q.fn st) (fetchCause st)
    | (s, .ha x) => match readNow s x len 0 with
      | .done s b => .got s b
      | .bad s st => .halt s (fetchCause st)
      | .wait w => .wait (waitFor s w)
    | (s, .bus x) => match freeTagOf s port with
      | none => .wait s
      | some t => match gate s (.host q.fn) (4096 + n) (initHost port q.fn) q.fn len with
        | (s, false) => .wait s
        | (s, true) =>
          let s := emit s (.hostRead port t x len)
          match host with
          | .data b => if b.length = len then .got s b else .bad
          | .error st => .halt (countFault s q.fn st) (fetchCause st)
  else if !inWindows s q.fn q.ctx a len then
    .halt (if mapped s a then s else logUnmapped s 0 a) 5
  else match readNow s a len 0 with
    | .done s b => .got s b
    | .bad s st => .halt s (fetchCause st)
    | .wait w => .wait (waitFor s w)

/-- The fields that a step's record reserves are zero (R558, R559). -/
def reservedZero (b : List Byte) : Bool :=
  decide (fieldOf b 2 2 < 32) && fieldOf b 4 2 == 0 && fieldOf b 0x1C 4 == 0 &&
  match fieldOf b 0 1 with
  | 1 => fieldOf b 0x2D 19 == 0
  | 2 => fieldOf b 0x22 2 == 0 && fieldOf b 0x38 8 == 0
  | 3 => fieldOf b 0x2C 20 == 0
  | 4 => fieldOf b 0x35 11 == 0
  | 5 => fieldOf b 0x20 32 == 0
  | _ => false

/-- The body of a step of a partition, malformed where it breaks its own limits (R559, R560). -/
def stepBody (s : State) (p : Nat) (hostRing : Bool) (b : List Byte) : StepBody :=
  let ownTile (t : Nat) : Bool := bitOf (part s p).tiles t
  match fieldOf b 0 1 with
  | 1 =>
    let d := fieldOf b 0x20 8
    let n := fieldOf b 0x28 4
    let m := fieldOf b 0x2C 1
    if d % 128 ≠ 0 ∨ n = 0 ∨ 65535 < n ∨ m = 0 then .malformed else .engine d n m
  | 2 =>
    let c := fieldOf b 0x20 2
    let owns := if c = 0xFFFF then (part s p).tiles != 0 else decide (c < 1600) && ownTile (c / 10)
    if hostRing ∨ !owns then .malformed else .porter c (fieldOf b 0x24 4) (fieldOf b 0x28 8) (fieldOf b 0x30 8)
  | 3 =>
    let a := fieldOf b 0x20 8
    let n := fieldOf b 0x28 4
    if a % 32 ≠ 0 ∨ n = 0 ∨ 65535 < n then .malformed else .tier a n
  | 4 =>
    let n := fieldOf b 0x30 4
    let d := fieldOf b 0x34 1
    if n = 0 ∨ n % 64 ≠ 0 ∨ 1 < d then .malformed else .copy (fieldOf b 0x20 8) (fieldOf b 0x28 8) n d
  | 5 => .signal
  | _ => .malformed

/-- The step that 64 bytes hold (R558 to R560). -/
def stepOf (s : State) (n : Nat) (q : Queue) (a : Nat) (b : List Byte) : Step :=
  let fl := fieldOf b 2 2
  let span := fieldOf b 1 1
  let w := fieldOf b 0x10 2
  let g := fieldOf b 0x12 2
  let bad := !reservedZero b || span == 0 || decide (64 < span) || (bitOf fl 4 && !bitOf fl 3) ||
    (bitOf fl 1 && !isTally s q.fn w) || (bitOf fl 2 && !isTally s q.fn g)
  { id := s.work.nextStep, prev := q.lastStep, queue := n, ctx := q.ctx, part := q.fn, recAddr := a, span := span, flags := fl,
    sealSlot := fieldOf b 6 2, cookie := fieldOf b 8 8, wait := w, signal := g, waitValue := fieldOf b 0x14 4,
    signalAdd := fieldOf b 0x18 4, body := if bad then .malformed else stepBody s q.fn q.ringHost b }

/-- A step that was read joins its queue and arms its seal; HEAD passes the entry once its last step is read (R555, R563). -/
def joinStep (s : State) (n : Nat) (q : Queue) (x : Step) : State :=
  let s := if x.sealEn then sealArm s x.sealSlot else s
  let last := decide (q.manCount ≤ q.nextStep + 1)
  let q := { q with asked := none, lastStep := some x.id, nextStep := if last then 0 else q.nextStep + 1,
                    manCount := if last then 0 else q.manCount, head := if last then (q.head + 1) % 2 ^ 32 else q.head }
  let s := putQueue s n (some q)
  { s with work := { s.work with steps := s.work.steps ++ [x], nextStep := x.id + 1 } }

/-- The PENDING of a seal is at its highest (R563). -/
def sealFull (s : State) (k : Nat) : Bool := match slotAt s k with | .sealObj p _ _ _ _ => decide (65535 ≤ p) | _ => false

/-- Reads the next step of the manifest in hand. -/
def readStep (s : State) (n : Nat) (q : Queue) (rec : Fetched) : Res :=
  let a := q.manBase + 64 * q.nextStep
  match readQueue s n q a 64 rec with
  | .bad => notDue s
  | .wait s => okT s
  | .halt s c => okT (haltQueue s n c)
  | .got s b =>
    let x := stepOf s n q a b
    if x.sealEn && !isSeal s q.fn x.sealSlot then okT (haltQueue s n 2)
    else if x.sealEn && sealFull s x.sealSlot then notDue s
    else okT (joinStep s n q x)

/-- QUEUE_STEP_READ (R554, R557, R560, R563): the hub reads the next step of an ACTIVE queue, and the ring entry before it
where none is in hand. `entry` and `rec` are what the host returns where the ring lies at host addresses. -/
def execQueueStepRead (q : Nat) (entry rec : Fetched) (s : State) : Res :=
  match queueOf s q with
  | none => notDue s
  | some y =>
    if y.halted || y.closed || y.head == y.tail || decide (16 ≤ aheadOf s q) || roleNow s == .fenced || s.flt.halted then notDue s
    else if y.manCount ≠ 0 then readStep s q y rec
    else match readQueue s q y (y.ringBase + 16 * (y.head % 2 ^ y.ringLog2)) 16 entry with
      | .bad => notDue s
      | .wait s => okT s
      | .halt s c => okT (haltQueue s q c)
      | .got s b =>
        let m := fieldOf b 0 8
        let c := fieldOf b 8 2
        if m % 64 ≠ 0 ∨ c = 0 ∨ fieldOf b 0xA 6 ≠ 0 then okT (haltQueue s q 1)
        else
          let y := { y with manBase := m, manCount := c, nextStep := 0 }
          readStep (putQueue s q (some y)) q y rec

/-! ### COPY steps -/

/-- A status on which a COPY step stops and breaks (R520, R523, R36). -/
def stopsCopy (st : Status) : Bool := st == .translationFault || st == .masterDisabled

/-- Reads of a step that are outstanding at the host. -/
def copyOut (s : State) (id : Nat) : Nat :=
  (span 0 2).foldl (fun n p => n + ((hostPort s p).tags.filter (fun t => match t.2 with
    | some (.stepRead _ i _ _) => i == id
    | _ => false)).length) 0

def copyAdvance (s : State) (id n : Nat) : State := modStep s id (fun x => { x with progress := x.progress + n })

/-- Bytes that a COPY step has moved are counted for its context (R573). -/
def copyMoved (s : State) (ctx n : Nat) : State := modContext s ctx (fun c => { c with copyBytes := c.copyBytes + n })

/-- The unit of a COPY step meets an address outside the step's windows (R36). -/
def copyOutside (s : State) (id init ha : Nat) : State :=
  stepErr (if mapped s ha then s else logUnmapped s init ha) id .translationFault

/-- Writes a piece that a COPY step read to its hub destination. None where it must wait. -/
def copyIn (s : State) (x : Step) (dst : Nat) (b : List Byte) : State × Bool :=
  if !inWindows s x.part x.ctx dst b.length then (copyOutside s x.id (initHost (fnPort s x.part) x.part) dst, true)
  else match writeNow s dst b 0 with
    | .done s _ => (s, true)
    | .bad s st => (stepErr s x.id st, true)
    | .wait w => (waitFor s w, false)

/-- Moves one piece of a COPY step (R519, R522, R559): at most 512 bytes within a page of the host. False where the step must
wait or has stopped. -/
def copyPiece (s : State) (x : Step) (src dst len dir : Nat) : State × Bool :=
  let host := (if dir = 0 then src else dst) + x.progress
  let hub := (if dir = 0 then dst else src) + x.progress
  let n := min (min 512 (len - x.progress)) (4096 - host % 4096)
  let port := fnPort s x.part
  let init := initHost port x.part
  let pasid := match context s x.ctx with | some c => c.pasid | none => 0
  if !inWindows s x.part x.ctx hub n then (copyOutside s x.id init hub, false)
  else match gate s (.copy x.id) x.progress init x.part n with
    | (s, false) => (s, false)
    | (s1, true) => match translate s1 x.part pasid host (dir == 1) with
      | (_, .wait) => ((translate s x.part pasid host (dir == 1)).1, false)
      | (s2, .fail st) => (stepErr (countFault s2 x.part st) x.id st, false)
      | (s2, .ha a) =>
        let (lo, up) := if dir = 0 then (a, hub) else (hub, a)
        match readNow s2 lo n 0 with
        | .wait w => (waitFor s w, false)
        | .bad s2 st => (copyAdvance (stepErr s2 x.id st) x.id n, true)
        | .done s2 b => match writeNow s2 up b 0 with
          | .wait w => (waitFor s w, false)
          | .bad s2 st => (copyAdvance (stepErr s2 x.id st) x.id n, true)
          | .done s2 _ => (copyAdvance (copyMoved s2 x.ctx n) x.id n, true)
      | (s2, .bus a) =>
        if dir = 0 then
          match freeTagOf s2 port with
          | none => (s, false)
          | some t =>
            let pt := hostPort s2 port
            let s2 := putPort s2 port { pt with tags := smSet none pt.tags t (some (.stepRead x.part x.id hub n)) }
            (copyAdvance (emit s2 (.hostRead port t a n)) x.id n, true)
        else match readNow s2 hub n 0 with
          | .wait w => (waitFor s w, false)
          | .bad s2 st => (copyAdvance (stepErr s2 x.id st) x.id n, true)
          | .done s2 b => (copyAdvance (copyMoved (emit s2 (.hostWrite x.part a b)) x.ctx n) x.id n, true)

/-- Moves pieces of a COPY step until it must wait; `n` bounds them. -/
def copyPump : Nat → State → Nat → State
  | 0, s, _ => s
  | n + 1, s, id =>
    match stepFind s id with
    | some x => match x.body, x.phase with
      | .copy src dst len dir, .begun =>
        if len ≤ x.progress ∨ stopsCopy x.err then s
        else match copyPiece s x src dst len dir with
          | (s, true) => copyPump n s id
          | (s, false) => s
      | _, _ => s
    | none => s

/-- A COPY step that has stopped ends once its outstanding reads have ended (R523). -/
def copySettle (s : State) (id : Nat) : State :=
  match stepFind s id with
  | some x => if x.phase = .begun ∧ stopsCopy x.err ∧ copyOut s id = 0 then breakStep s x x.err else s
  | none => s

/-- How many pieces a COPY step has at most. -/
def copyFuel (x : Step) : Nat := match x.body with | .copy _ _ len _ => len / 64 + 1 | _ => 0

def copyGo (s : State) (x : Step) : State := copySettle (copyPump (copyFuel x) s x.id) x.id

/-- Steps and operations that wait for the host go on: COPY steps, and reads of parking memory. -/
def pumpHost (s : State) : State :=
  let s := s.work.steps.foldl (fun s x => match x.body, x.phase with | .copy _ _ _ _, .begun => copyGo s x | _, _ => s) s
  s.tier.ops.foldl (fun s o => if o.started then parkPump (o.need / 512 + 1) s o.fn o.bale else s) s

/-- A host-port tag is free. -/
def dropTag (s : State) (port tag : Nat) : State :=
  let s := putPort s port { hostPort s port with tags := smSet none (hostPort s port).tags tag none }
  (span 0 9).foldl (fun s fn =>
    let h := hostFn s fn
    if h.invals.isEmpty then s
    else putFn s fn { h with invals := h.invals.map (fun v => { v with waits := setDel v.waits (4096 * port + tag) }) }) s

/-- A read of host memory ended: its data, or an error (R304, R522). -/
def readEnds (s : State) (port tag : Nat) (d : Fetched) : Res :=
  match smGet none (hostPort s port).tags tag with
  | none => notDue s
  | some (.stepRead fn id dst len) =>
    let s1 := dropTag s port tag
    match stepFind s1 id with
    | none => okT (pumpHost s1)
    | some x => match x.phase, d with
      | .begun, .data b =>
        if b.length ≠ len then notDue s
        else match copyIn s1 x dst b with
          | (s1, true) =>
            okT (pumpHost (copySettle (copyMoved s1 x.ctx len) id))
          | (w, false) => okT (waitFor s w)
      | .begun, .error st => okT (pumpHost (copySettle (stepErr (countFault s1 fn st) id st) id))
      | _, _ => okT (pumpHost s1)
  | some (.parkRead fn bale off len) =>
    let s1 := dropTag s port tag
    match d with
    | .data b => if b.length ≠ len then notDue s
      else okT (pumpHost (modOp s1 fn bale (fun o => { o with got := smInsert o.got off b })))
    | .error _ => okT (pumpHost (modOp s1 fn bale (fun o => { o with parkErr := true })))

/-- HOST_READ_COMPLETION (R304, R522): a completion arrives and is used, or reports an error. -/
def execHostReadCompletion (port tag : Nat) (d : Fetched) (s : State) : Res :=
  if 2 ≤ port ∨ 4096 ≤ tag then illFormed else readEnds s port tag d

/-- HOST_COMPLETION_TIMEOUT (R304, R497): the read ends with its error and the tag is free. A parking read ends as any host
completion error; for the read of a COPY step the manual names no status, and it is a free one. -/
def execHostCompletionTimeout (port tag : Nat) (s : State) : Res :=
  if 2 ≤ port ∨ 4096 ≤ tag then illFormed
  else if (smGet none (hostPort s port).tags tag).isNone then notDue s
  else
    let (d, s) := draw s
    let st := Config.freeStatus d
    readEnds s port tag (.error (if st = .complete then .aborted else st))

/-- A COPY step of a queue that has begun. -/
def Step.copying (x : Step) (q : Nat) : Bool := x.queue == q && x.phase == .begun && match x.body with | .copy _ _ _ _ => true | _ => false

/-- COPY_STEP_COMMIT (R424, R561): every write of the oldest COPY step of a queue that has begun is performed. A step that
still has pieces to move goes on with them first. -/
def execCopyStepCommit (q : Nat) (s : State) : Res :=
  match s.work.steps.find? (fun x => x.copying q) with
  | none => notDue s
  | some x =>
    let s := copyGo s x
    match stepFind s x.id with
    | none => okT s
    | some x => match x.body with
      | .copy _ _ len _ => if len ≤ x.progress ∧ copyOut s x.id = 0 then okT (commitStep s x x.err) else okT s
      | _ => notDue s

/-! ### Dispatch -/

/-- Toll windows of an engine that belong to a partition (R166), one bit each. -/
def slotsOn (s : State) (p e : Nat) : Nat := bitsOf (part s p).meSlots (16 * e + 15) (16 * e)

/-- Room in an engine's intake for a partition: four steps besides the one in progress (R165, R171). -/
def intakeRoom (s : State) (e p : Nat) : Bool := decide (((engine s e).intake.filter (fun w => w.part == p && !w.begun)).length < 4)

/-- Where an engine step goes (R164, R166). -/
inductive EngineChoice where
  | to (e : Nat)
  | wait
  | ends (st : Status)

def engineFor (s : State) (p mask : Nat) : EngineChoice :=
  let l := (span 0 8).filter (fun e => bitOf mask e && engineLicensed s e)
  let v := l.filter (fun e => !(engine s e).outOfService)
  let o := v.filter (fun e => slotsOn s p e != 0)
  if l.isEmpty then .ends .licenceDenied
  else if v.isEmpty then .ends .aborted
  else match o.find? (fun e => intakeRoom s e p) with
    | some e => .to e
    | none => .wait

/-- Where a porter step goes (R247, R559): the cluster it names, or the lowest-numbered owned one with room. -/
inductive ClusterChoice where
  | to (k : Nat)
  | wait
  | ends (st : Status)

/-- The intake of a cluster has room: four steps besides the one in progress (R247, R249). -/
def clusterRoom (s : State) (k : Nat) : Bool := decide ((cluster s k).intake.length < 4)

def clusterFor (s : State) (p c : Nat) : ClusterChoice :=
  if c = 0xFFFF then
    match (span 0 1600).find? (fun k => bitOf (part s p).tiles (k / 10) && clInService s k && clusterRoom s k) with
    | some k => .to k
    | none => .wait
  else if !tileLicensed s (c / 10) then .ends .licenceDenied
  else if (cluster s c).out then .ends .aborted
  else if clInService s c && clusterRoom s c then .to c
  else .wait

/-- Sends a step whose turn has come to its unit. -/
def sendStep (s : State) (x : Step) : Res :=
  match x.body with
  | .malformed => okT (breakStep s x .aborted)
  | .engine _ _ mask => match engineFor s x.part mask with
    | .wait => notDue s
    | .ends st => okT (breakStep s x st)
    | .to e =>
      let s := modStep s x.id (fun x => { x with phase := .sent, unit := e })
      okT (modEngine s e (fun y => { y with intake := y.intake ++ [{ step := x.id, part := x.part }] }))
  | .porter c _ _ _ => match clusterFor s x.part c with
    | .wait => notDue s
    | .ends st => okT (breakStep s x st)
    | .to k =>
      let s := modStep s x.id (fun x => { x with phase := .sent, unit := k })
      okT (clusterNext (modCluster s k (fun y => { y with intake := y.intake ++ [x.id] })) k)
  | .tier _ _ => okT (beginStep s x.id x.queue)
  | .copy _ _ _ _ => okT (copyGo (beginStep s x.id (fnPort s x.part)) x)
  | .signal =>
    let s := beginStep s x.id 0
    match stepFind s x.id with
    | some x => okT (commitStep s x .complete)
    | none => okT s

/-- The step before a step of its queue lets it go (R557): it is dispatched, and ended where SERIAL is set. -/
def prevDone (s : State) (x : Step) : Bool :=
  match x.prev with
  | none => true
  | some i => match stepFind s i with
    | none => true
    | some y => y.begun && !x.serial

/-- The engines that a step may run on are none that a licence enables (R164). -/
def maskDenied (s : State) (x : Step) : Bool :=
  match x.body with
  | .engine _ _ m => (span 0 8).all (fun e => !(bitOf m e && engineLicensed s e))
  | _ => false

/-- STEP_DISPATCH (R557, R560, R561, R564): the first step of a queue that no unit has, once its turn has come. A malformed
step and one that a licence denies end at their turn, without waiting on their tally. -/
def execStepDispatch (q : Nat) (s : State) : Res :=
  match queueOf s q, s.work.steps.find? (fun x => x.queue == q && x.phase == .waiting) with
  | some y, some x =>
    if y.halted || !prevDone s x then notDue s
    else if x.body = .malformed then okT (breakStep s x .aborted)
    else if !licensed s || maskDenied s x then okT (breakStep s x .licenceDenied)
    else if !domainUp s x.part || !dispatchOpen s then notDue s
    else if x.waitEn && !tallyGe (tallyValue s x.wait) x.waitValue then notDue s
    else sendStep s x
  | _, _ => notDue s

end Sys2Proof.Machine
end

