-- ==== Sys2Proof/Machine/CoreBase.lean ====
section
/-!
DEFINITION. What the instructions of a porter core share (R217 to R222, R240 to R246): registers, the core address map, traps,
the check of each fetch, the range tracker and the L0 data cache.
-/
namespace Sys2Proof.Machine

/-! ### Registers -/

/-- G registers: G0 reads as 0 and ignores writes (R217). -/
def gGet (x : Core) (r : Nat) : BitVec 64 := if r = 0 then 0 else smGet 0 x.g r
def gSet (x : Core) (r : Nat) (v : BitVec 64) : Core := if r = 0 then x else { x with g := smSet 0 x.g r v }
def vGet (x : Core) (r : Nat) : BitVec 128 := smGet 0 x.v r
def vSet (x : Core) (r : Nat) (v : BitVec 128) : Core := { x with v := smSet 0 x.v r v }

/-- Lane j of a V register (R217). -/
def lane (v : BitVec 128) (j : Nat) : Nat := (v.extractLsb' (32 * j) 32).toNat
/-- The V register of four lanes. -/
def ofLanes (f : Nat → Nat) : BitVec 128 :=
  BitVec.ofNat 32 (f 3) ++ BitVec.ofNat 32 (f 2) ++ BitVec.ofNat 32 (f 1) ++ BitVec.ofNat 32 (f 0)

/-! ### Instruction words (R223) -/

def wordRR (op d a b fn : Nat) : Nat := op * 2 ^ 24 + d * 2 ^ 19 + a * 2 ^ 14 + b * 2 ^ 9 + fn
def wordRI (op d a imm : Nat) : Nat := op * 2 ^ 24 + d * 2 ^ 19 + a * 2 ^ 14 + imm
def wordVR (op vd va vb g fn : Nat) : Nat := op * 2 ^ 24 + vd * 2 ^ 20 + va * 2 ^ 16 + vb * 2 ^ 12 + g * 2 ^ 7 + fn

/-! ### The core address map -/

/-- Where a core address lies (R219). -/
inductive Place where
  | ha (a : Nat)
  | store (off : Nat)
  | regs (off : Nat)
  | rom (off : Nat)
  | nothing
  deriving DecidableEq, Repr

def placeOf (a : BitVec 64) : Place :=
  let a := a.toNat
  if a < 2 ^ 52 then .ha a
  else
    let b := 2 ^ 63
    if b ≤ a ∧ a < b + 0x20000 then .store (a - b)
    else if b + 0x20000 ≤ a ∧ a < b + 0x20100 then .regs (a - b - 0x20000)
    else if b + 0x30000 ≤ a ∧ a < b + 0x34000 then .rom (a - b - 0x30000)
    else .nothing

/-- Cluster-store bytes that a core may reach in its mode (R218). -/
def storeOk (x : Core) (off len : Nat) : Bool :=
  decide (off + len ≤ 0x20000) && (!x.user || (decide (x.uwinBase ≤ off) && decide (off + len ≤ x.uwinLimit)))

/-- HA bytes within the windows of the step that runs (R220), mapped (R36). -/
def windowOk (s : State) (x : Core) (a len : Nat) : Bool :=
  x.ctxPart != 0xF && inWindows s x.ctxPart x.ctx a len && mapped s a

/-- HA bytes that a core may read. -/
def readOk (s : State) (x : Core) (a len : Nat) : Bool :=
  windowOk s x a len || (!x.user && decide (imageBase ≤ a) && decide (a + len ≤ imageEnd))

/-! ### Traps -/

/-- A trap is taken (R242). `off` is 0x80 for CANCEL. -/
def trap (x : Core) (int : Bool) (status code : Nat) (info retpc off : BitVec 64) : Core :=
  { x with retpc := retpc, causeInt := int, causeStatus := status, causeCode := code, info := info,
           priorUser := x.user, priorIe := x.ie, user := false, ie := false, pc := x.vector + off, wait := .none, sent := false }

/-- A jump to an address that is no multiple of 4 raises FETCH_MISALIGN there: the PC always holds a multiple of 4 (R217, R221). -/
def jumpTo (x : Core) (goal : BitVec 64) : Core :=
  if goal.toNat % 4 = 0 then { x with pc := goal } else trap x false 0 2 goal goal 0

/-- An exception of the instruction at the PC (R240, R241). -/
def raise (s : State) (n code : Nat) (info : BitVec 64) : State :=
  modCore s n (fun x => trap x false 0 code info x.pc 0)

/-- The cluster latches the first error status of its step (R252). -/
def clusterLatch (s : State) (n : Nat) (st : Status) : State :=
  modCluster s (n / 16) (fun c => if c.running.isSome ∧ c.latch = .complete then { c with latch := st } else c)

/-- A fault of an HA access (R36, R220): the cluster latches TRANSLATION_FAULT, and an unmapped address logs one event. -/
def haFault (s : State) (n a : Nat) : State :=
  clusterLatch (if mapped s a then s else logUnmapped s (initCluster (n / 16)) a) n .translationFault

/-- The same of a byte range, by the address of it that is unmapped, if one end is. -/
def rangeFault (s : State) (n a len : Nat) : State := haFault s n (if mapped s a then a + len - 1 else a)

/-! ### Running an instruction -/

/-- An interrupt is to be taken (R244). -/
def coreTakes (s : State) (x : Core) : Bool := (x.user || x.ie) && coreReady s x != 0#5

/-- The core runs instructions: its cluster is loaded and it has not failed. -/
def coreActive (s : State) (n : Nat) : Bool :=
  tileLicensed s (n / 160) && (cluster s (n / 16)).loaded && !(core s n).halted

/-- The core may fetch at its PC (R218 to R220). -/
def fetchOk (s : State) (x : Core) : Bool :=
  match placeOf x.pc with
  | .store o => storeOk x o 4
  | .rom _ => !x.user
  | .ha a => readOk s x a 4
  | _ => false

/-- The L0 instruction cache holds the line fetched: 16 sets of 4 lines, the oldest leaves (R214). -/
def fetched (x : Core) : Core :=
  let l := x.pc.toNat / 64
  if x.l0i.contains l then x
  else
    let same := x.l0i.filter (fun k => k % 16 == l % 16)
    let l0i := if same.length < 4 then x.l0i else x.l0i.filter (fun k => some k != same.head?)
    { x with l0i := l0i ++ [l] }

/-- What the instruction at the PC does, or FETCH_FAULT in its place (R219, R220). -/
def fetchDo (c : Fin 25600) (s : State) (f : Core → State → Res) : Res :=
  let x := core s c.val
  if fetchOk s x then
    let x := fetched x
    f x (putCore s c.val x)
  else
    let s := match placeOf x.pc with | .ha a => haFault s c.val a | _ => s
    ok (raise s c.val 3 x.pc)

/-- CANCEL is to be taken, which comes before everything else (R244). -/
def cancelDue (s : State) (x : Core) : Bool := coreTakes s x && (coreReady s x).getLsbD 0

/-- The instruction at the PC of a core has raised an exception. -/
def raised (c : Fin 25600) (x : Core) (r : Res) : Bool :=
  match r with
  | .next t =>
    let y := core t c.val
    y == trap { x with l0i := y.l0i } false y.causeStatus y.causeCode y.info x.pc 0
  | _ => false

/-- An instruction of a core: the core runs and waits for nothing. An interrupt that is to be taken comes before it, but for an exception of
the instruction, which comes before every interrupt other than CANCEL (R244). -/
def coreDo (c : Fin 25600) (s : State) (f : Core → State → Res) : Res :=
  let x := core s c.val
  if !coreActive s c.val || x.wait != .none || cancelDue s x then notDue s
  else if !coreTakes s x || raised c x (fetchDo c s f) then fetchDo c s f
  else notDue s

/-- The instruction retires and the next follows it. -/
def retire (s : State) (c : Fin 25600) (x : Core) : Res := ok (putCore s c.val { x with pc := x.pc + 4 })

/-- An instruction that only computes registers. -/
def coreRegs (c : Fin 25600) (s : State) (f : Core → Core) : Res := coreDo c s (fun x s => retire s c (f x))

/-- ILLEGAL, with the instruction's word (R227, R240). -/
def illegal (s : State) (c : Fin 25600) (word : Nat) : Res := ok (raise s c.val 1 (BitVec.ofNat 64 word))

/-! ### The L0 data cache and the range tracker -/

def l0Find (x : Core) (l : Nat) : Option (Nat × L0Line) :=
  (span (4 * (l % 16)) 4).findSome? (fun k => match smGet none x.l0d k with
    | some y => if y.line = l then some (k, y) else none
    | none => none)

def l0Put (x : Core) (k : Nat) (l : Option L0Line) : Core := { x with l0d := smSet none x.l0d k l }

/-- Lines of the cache that a byte range touches, in ascending order of place. -/
def l0In (x : Core) (lo len : Nat) (all : Bool) : List L0Line :=
  x.l0d.filterMap (fun p => match p.2 with
    | some l => if all || (decide (len ≠ 0) && decide (64 * l.line < lo + len) && decide (lo < 64 * l.line + 64)) then some l else none
    | none => none)

/-- Two byte ranges overlap. -/
def rangesMeet (a n b m : Nat) : Bool := decide (n ≠ 0) && decide (m ≠ 0) && decide (a < b + m) && decide (b < a + n)

/-- A tracked range overlaps bytes of HA space (R231). -/
def trackedAt (x : Core) (lo len : Nat) : Bool := x.tracker.any (fun t => rangesMeet t.lo t.len lo len)

/-- The write-back of a dirty line (R417): its dirty bytes, as a write to the home line that holds it. -/
def writeBackOf (l : L0Line) : LineWrite :=
  let up := l.line % 2
  let d : Line := l.data.zeroExtend 1024
  let m : BitVec 128 := l.dirty.zeroExtend 128
  { line := l.line / 2, data := d <<< (512 * up), mask := m <<< (64 * up), hint := 0, step := l.user }

/-- A dirty line is written back: it is clean and tracked until its write is accepted. -/
def l0WriteBack (x : Core) (l : L0Line) : Core :=
  let clean (y : L0Line) : L0Line := if y.line = l.line then { y with dirty := 0, user := false } else y
  let l0 : SMap (Option L0Line) := x.l0d.map (fun p => (p.1, p.2.map clean))
  { x with l0d := l0, tracker := x.tracker ++ [{ lo := 64 * l.line, len := 64, writes := [writeBackOf l] }] }

/-- Bytes of a cached line. -/
def l0Bytes (l : L0Line) (off n : Nat) : List Byte := toBytes n (l.data.toNat / 2 ^ (8 * off))

/-- Stores bytes into a cached line. -/
def l0Store (l : L0Line) (off : Nat) (b : List Byte) (user : Bool) : L0Line :=
  let ones := 2 ^ (8 * b.length) - 1
  let m := BitVec.ofNat 512 (ones * 2 ^ (8 * off))
  { l with data := (l.data &&& ~~~ m) ||| BitVec.ofNat 512 (ofBytes b * 2 ^ (8 * off))
           dirty := l.dirty ||| BitVec.ofNat 64 ((2 ^ b.length - 1) * 2 ^ off), user := l.user || user }

/-! ### The cluster store -/

def storeBytes (s : State) (k off n : Nat) : List Byte := (span off n).map (smGet 0 (cluster s k).store)
def storePut (s : State) (k off : Nat) (b : List Byte) : State :=
  modCluster s k (fun c => { c with store := (span 0 b.length).foldl (fun m i => smSet 0 m (off + i) (listGet 0 b i)) c.store })

end Sys2Proof.Machine
end

