-- ==== Sys2Proof/Machine/CoreAlu.lean ====
section
/-!
DEFINITION. Arithmetic, immediates, branches and jumps of the porter cores (R223 to R225).
-/
namespace Sys2Proof.Machine

/-! ### Operations -/

/-- Quotient truncated toward zero; by zero 0, and the most negative value by −1 itself (R225). -/
def divs (a b : BitVec 64) : BitVec 64 := if b = 0 then 0 else BitVec.ofInt 64 (a.toInt.tdiv b.toInt)
def divu (a b : BitVec 64) : BitVec 64 := if b = 0 then 0 else BitVec.ofNat 64 (a.toNat / b.toNat)
/-- Remainders; by zero the dividend (R225). -/
def rems (a b : BitVec 64) : BitVec 64 := if b = 0 then a else BitVec.ofInt 64 (a.toInt.tmod b.toInt)
def remu (a b : BitVec 64) : BitVec 64 := if b = 0 then a else BitVec.ofNat 64 (a.toNat % b.toNat)
def mulhs (a b : BitVec 64) : BitVec 64 := BitVec.ofInt 64 ((a.toInt * b.toInt) / 2 ^ 64)
def mulhu (a b : BitVec 64) : BitVec 64 := BitVec.ofNat 64 (a.toNat * b.toNat / 2 ^ 64)
/-- Leading zero bits of a 64-bit value. -/
def clz64 (a : BitVec 64) : Nat := if a = 0 then 64 else 63 - Nat.log2 a.toNat
/-- Set bits. -/
def popc64 (a : BitVec 64) : Nat := ((span 0 64).filter (fun i => a.getLsbD i)).length
/-- A shift amount: bits 5:0 (R225). -/
def shAmt (b : BitVec 64) : Nat := b.toNat % 64

/-- An ALU instruction: G[d] from G[a] and G[b]. -/
def alu (c : Fin 25600) (d a b : Fin 32) (s : State) (f : BitVec 64 → BitVec 64 → BitVec 64) : Res :=
  coreRegs c s (fun x => gSet x d (f (gGet x a) (gGet x b)))

def boolWord (b : Bool) : BitVec 64 := if b then 1 else 0

def execAdd (c : Fin 25600) (d a b : Fin 32) (s : State) : Res := alu c d a b s (fun p q => p + q)
def execSub (c : Fin 25600) (d a b : Fin 32) (s : State) : Res := alu c d a b s (fun p q => p - q)
def execAndC (c : Fin 25600) (d a b : Fin 32) (s : State) : Res := alu c d a b s (fun p q => p &&& q)
def execOrC (c : Fin 25600) (d a b : Fin 32) (s : State) : Res := alu c d a b s (fun p q => p ||| q)
def execXorC (c : Fin 25600) (d a b : Fin 32) (s : State) : Res := alu c d a b s (fun p q => p ^^^ q)
def execSll (c : Fin 25600) (d a b : Fin 32) (s : State) : Res := alu c d a b s (fun p q => p <<< shAmt q)
def execSrl (c : Fin 25600) (d a b : Fin 32) (s : State) : Res := alu c d a b s (fun p q => p >>> shAmt q)
def execSra (c : Fin 25600) (d a b : Fin 32) (s : State) : Res := alu c d a b s (fun p q => p.sshiftRight (shAmt q))
def execSlt (c : Fin 25600) (d a b : Fin 32) (s : State) : Res := alu c d a b s (fun p q => boolWord (p.slt q))
def execSltu (c : Fin 25600) (d a b : Fin 32) (s : State) : Res := alu c d a b s (fun p q => boolWord (p.ult q))
def execMul (c : Fin 25600) (d a b : Fin 32) (s : State) : Res := alu c d a b s (fun p q => p * q)
def execMulhs (c : Fin 25600) (d a b : Fin 32) (s : State) : Res := alu c d a b s mulhs
def execMulhu (c : Fin 25600) (d a b : Fin 32) (s : State) : Res := alu c d a b s mulhu
def execDivs (c : Fin 25600) (d a b : Fin 32) (s : State) : Res := alu c d a b s divs
def execDivu (c : Fin 25600) (d a b : Fin 32) (s : State) : Res := alu c d a b s divu
def execRems (c : Fin 25600) (d a b : Fin 32) (s : State) : Res := alu c d a b s rems
def execRemu (c : Fin 25600) (d a b : Fin 32) (s : State) : Res := alu c d a b s remu
/-- CLZ and POPC ignore G[b] (R225). -/
def execClz (c : Fin 25600) (d a b : Fin 32) (s : State) : Res := alu c d a b s (fun p _ => BitVec.ofNat 64 (clz64 p))
def execPopc (c : Fin 25600) (d a b : Fin 32) (s : State) : Res := alu c d a b s (fun p _ => BitVec.ofNat 64 (popc64 p))
def execMin (c : Fin 25600) (d a b : Fin 32) (s : State) : Res := alu c d a b s (fun p q => if p.slt q then p else q)
def execMax (c : Fin 25600) (d a b : Fin 32) (s : State) : Res := alu c d a b s (fun p q => if p.slt q then q else p)

/-! ### Immediates (R224) -/

/-- An instruction with an immediate: G[d] from G[a]. -/
def aluImm (c : Fin 25600) (d a : Fin 32) (s : State) (f : BitVec 64 → BitVec 64) : Res :=
  coreRegs c s (fun x => gSet x d (f (gGet x a)))

def execAddi (c : Fin 25600) (d a : Fin 32) (imm : BitVec 14) (s : State) : Res := aluImm c d a s (fun p => p + imm.signExtend 64)
def execAndi (c : Fin 25600) (d a : Fin 32) (imm : BitVec 14) (s : State) : Res := aluImm c d a s (fun p => p &&& imm.zeroExtend 64)
def execOri (c : Fin 25600) (d a : Fin 32) (imm : BitVec 14) (s : State) : Res := aluImm c d a s (fun p => p ||| imm.zeroExtend 64)
def execXori (c : Fin 25600) (d a : Fin 32) (imm : BitVec 14) (s : State) : Res := aluImm c d a s (fun p => p ^^^ imm.zeroExtend 64)

/-- SHI: immediate bits 5:0 are the amount and bits 7:6 the shift; 3 is illegal. -/
def execShi (c : Fin 25600) (d a : Fin 32) (imm : BitVec 8) (s : State) : Res :=
  coreDo c s (fun x s =>
    let n := imm.toNat % 64
    let p := gGet x a
    match imm.toNat / 64 with
    | 0 => retire s c (gSet x d (p <<< n))
    | 1 => retire s c (gSet x d (p >>> n))
    | 2 => retire s c (gSet x d (p.sshiftRight n))
    | _ => illegal s c (wordRI 6 d a imm.toNat))

def execSlti (c : Fin 25600) (d a : Fin 32) (imm : BitVec 14) (s : State) : Res :=
  aluImm c d a s (fun p => boolWord (p.slt (imm.signExtend 64)))
def execLdhi (c : Fin 25600) (d : Fin 32) (imm : BitVec 19) (s : State) : Res :=
  coreRegs c s (fun x => gSet x d (imm.signExtend 64 <<< 13))
def execPcadd (c : Fin 25600) (d : Fin 32) (imm : BitVec 19) (s : State) : Res :=
  coreRegs c s (fun x => gSet x d (x.pc + (imm.signExtend 64 <<< 13)))

/-! ### Branches and jumps (R223, R224) -/

/-- A branch: the target is PC + 4 × offset. -/
def branch (c : Fin 25600) (a b : Fin 32) (off : BitVec 14) (s : State) (p : BitVec 64 → BitVec 64 → Bool) : Res :=
  coreDo c s (fun x s =>
    let target := if p (gGet x a) (gGet x b) then x.pc + (off.signExtend 64 <<< 2) else x.pc + 4
    ok (putCore s c.val { x with pc := target }))

def execBeq (c : Fin 25600) (a b : Fin 32) (off : BitVec 14) (s : State) : Res := branch c a b off s (fun p q => p == q)
def execBne (c : Fin 25600) (a b : Fin 32) (off : BitVec 14) (s : State) : Res := branch c a b off s (fun p q => p != q)
def execBlt (c : Fin 25600) (a b : Fin 32) (off : BitVec 14) (s : State) : Res := branch c a b off s (fun p q => p.slt q)
def execBge (c : Fin 25600) (a b : Fin 32) (off : BitVec 14) (s : State) : Res := branch c a b off s (fun p q => !p.slt q)
def execBltu (c : Fin 25600) (a b : Fin 32) (off : BitVec 14) (s : State) : Res := branch c a b off s (fun p q => p.ult q)
def execBgeu (c : Fin 25600) (a b : Fin 32) (off : BitVec 14) (s : State) : Res := branch c a b off s (fun p q => !p.ult q)

def execJlk (c : Fin 25600) (d : Fin 32) (off : BitVec 19) (s : State) : Res :=
  coreDo c s (fun x s => ok (putCore s c.val { gSet x d (x.pc + 4) with pc := x.pc + (off.signExtend 64 <<< 2) }))

/-- JLKR: bits 1:0 of the target are cleared. -/
def execJlkr (c : Fin 25600) (d a : Fin 32) (imm : BitVec 14) (s : State) : Res :=
  coreDo c s (fun x s =>
    let target := (gGet x a + imm.signExtend 64) &&& ~~~ 3#64
    ok (putCore s c.val { gSet x d (x.pc + 4) with pc := target }))

end Sys2Proof.Machine
end

