-- ==== Sys2Proof/Machine/CoreVec.lean ====
section
/-!
DEFINITION. The SIMD unit of the porter cores: VOP (R226) and narrow SIMD (R233 to R236).
-/
namespace Sys2Proof.Machine

/-! ### VOP -/

/-- A lane-wise instruction of two V registers. -/
def vop2 (c : Fin 25600) (vd va vb : Fin 16) (s : State) (f : Nat → Nat → Nat) : Res :=
  coreRegs c s (fun x => vSet x vd (ofLanes (fun j => f (lane (vGet x va) j) (lane (vGet x vb) j))))

def execVadd32 (c : Fin 25600) (vd va vb : Fin 16) (s : State) : Res := vop2 c vd va vb s (fun p q => (p + q) % 2 ^ 32)
def execVsub32 (c : Fin 25600) (vd va vb : Fin 16) (s : State) : Res := vop2 c vd va vb s (fun p q => (p + 2 ^ 32 - q) % 2 ^ 32)
def execVmul32 (c : Fin 25600) (vd va vb : Fin 16) (s : State) : Res := vop2 c vd va vb s (fun p q => p * q % 2 ^ 32)
def execFadd (c : Fin 25600) (vd va vb : Fin 16) (s : State) : Res := vop2 c vd va vb s f32add
def execFsub (c : Fin 25600) (vd va vb : Fin 16) (s : State) : Res := vop2 c vd va vb s f32sub
def execFmul (c : Fin 25600) (vd va vb : Fin 16) (s : State) : Res := vop2 c vd va vb s f32mul

/-- FMA adds to V[vd] with one rounding. -/
def execFma (c : Fin 25600) (vd va vb : Fin 16) (s : State) : Res :=
  coreRegs c s (fun x => vSet x vd (ofLanes (fun j => f32fma (lane (vGet x vd) j) (lane (vGet x va) j) (lane (vGet x vb) j))))

/-- The manual and IEEE 754 leave the result open: an operand is NaN, or the operands are zeros of different signs. -/
def minOpen (a b : Nat) : Bool :=
  fpVal a == .nan || fpVal b == .nan || (decide (a % 2 ^ 31 = 0) && decide (b % 2 ^ 31 = 0) && a != b)

/-- FMIN (`lower`) and FMAX of V registers; a lane whose result is left open is a free value. -/
def minMax (c : Fin 25600) (vd va vb : Fin 16) (lower : Bool) (s : State) : Res :=
  coreDo c s (fun x s =>
    let (d, s) := draw s
    let f (j : Nat) : Nat :=
      let a := lane (vGet x va) j
      let b := lane (vGet x vb) j
      if minOpen a b then (Config.undefWord (4 * d + j)).toNat
      else if (fpVal a).lt (fpVal b) == lower then a else b
    retire s c (vSet x vd (ofLanes f)))

def execFmin (c : Fin 25600) (vd va vb : Fin 16) (s : State) : Res := minMax c vd va vb true s
def execFmax (c : Fin 25600) (vd va vb : Fin 16) (s : State) : Res := minMax c vd va vb false s

def execVand (c : Fin 25600) (vd va vb : Fin 16) (s : State) : Res := coreRegs c s (fun x => vSet x vd (vGet x va &&& vGet x vb))
def execVor (c : Fin 25600) (vd va vb : Fin 16) (s : State) : Res := coreRegs c s (fun x => vSet x vd (vGet x va ||| vGet x vb))
def execVxor (c : Fin 25600) (vd va vb : Fin 16) (s : State) : Res := coreRegs c s (fun x => vSet x vd (vGet x va ^^^ vGet x vb))

/-- VINS: lane (va mod 4) of V[vd] from G[g]. -/
def execVins (c : Fin 25600) (vd va : Fin 16) (g : Fin 32) (s : State) : Res :=
  coreRegs c s (fun x => vSet x vd (ofLanes (fun j => if j = va.val % 4 then (gGet x g).toNat else lane (vGet x vd) j)))

/-- VEXT: lane (vb mod 4) of V[va] into G[g], zero-extended. -/
def execVext (c : Fin 25600) (va vb : Fin 16) (g : Fin 32) (s : State) : Res :=
  coreRegs c s (fun x => gSet x g (BitVec.ofNat 64 (lane (vGet x va) (vb.val % 4))))

def execVsplat (c : Fin 25600) (vd : Fin 16) (g : Fin 32) (s : State) : Res :=
  coreRegs c s (fun x => vSet x vd (ofLanes (fun _ => (gGet x g).toNat)))

/-- A lane as a signed integer. -/
def laneInt (a : Nat) : Int := if 2 ^ 31 ≤ a then (a : Int) - 2 ^ 32 else a

def execCvtI2f (c : Fin 25600) (vd va : Fin 16) (s : State) : Res :=
  coreRegs c s (fun x => vSet x vd (ofLanes (fun j => rne32 (Fv.ofInt (laneInt (lane (vGet x va) j))))))

def execCvtF2i (c : Fin 25600) (vd va : Fin 16) (s : State) : Res :=
  coreRegs c s (fun x => vSet x vd (ofLanes (fun j => (BitVec.ofInt 32 (fpToInt32 (lane (vGet x va) j))).toNat)))

/-! ### Narrow SIMD -/

/-- Byte k of a V register. -/
def vByte (v : BitVec 128) (k : Nat) : Nat := v.toNat / 256 ^ k % 256

/-- Elements that lie wholly in a V register. -/
def vElems (e : Elem) : Nat := 16 / e.contBytes * e.perCont

/-- NDOT (R234). An N8F4 NaN code stands for the integer image 0, and an NT byte of 243 to 255 counts nowhere: R117 gives the code no image,
the block mark of R141 is the engine feeder's, and R163 counts for the plane loader alone (DESIGN CHOICE, log 132). -/
def execNdot (c : Fin 25600) (vd va vb : Fin 16) (g : Fin 32) (s : State) : Res :=
  coreDo c s (fun x s =>
    let w := (gGet x g).toNat
    let wg := bitsOf w 35 32
    let ag := bitsOf w 39 36
    let bad := illegal s c (wordVR 0x31 vd va vb g 1)
    match fmtOf (bitsOf w 15 0), fmtOf (bitsOf w 31 16) with
    | some f, some h =>
      if !f.elem.isWeight || !h.elem.isAct || decide (vElems f.elem < 16 * wg + 16) || decide (vElems h.elem < 16 * ag + 16) then bad
      else
        let wi (i : Nat) : Int := elemImage f.elem (elemCode f.elem (vByte (vGet x va)) (16 * wg + i))
        let ai (i : Nat) : Int := elemImage h.elem (elemCode h.elem (vByte (vGet x vb)) (16 * ag + i))
        let dot (j : Nat) : Nat :=
          (BitVec.ofInt 32 ((lane (vGet x vd) j : Int) + (span (4 * j) 4).foldl (fun t i => t + wi i * ai i) 0)).toNat
        retire s c (vSet x vd (ofLanes dot))
    | _, _ => bad)

/-- The group p of four elements lies wholly in a V register (R233). -/
def groupFits (e : Elem) (p : Nat) : Bool := decide (4 * p + 4 ≤ vElems e)

/-- A V register with elements 4p to 4p + 3 replaced; the containers that hold none of them keep their bytes. -/
def putGroup (e : Elem) (v : BitVec 128) (p : Nat) (codes : List Nat) : BitVec 128 :=
  let code (i : Nat) : Nat := if 4 * p ≤ i ∧ i < 4 * p + 4 then listGet 0 codes (i - 4 * p) else elemCode e (vByte v) i
  let cont (q : Nat) : List Byte :=
    if e.perCont * q < 4 * p + 4 ∧ 4 * p < e.perCont * q + e.perCont then
      toBytes e.contBytes (contOf e ((span (e.perCont * q) e.perCont).map code))
    else (span (e.contBytes * q) e.contBytes).map (fun k => BitVec.ofNat 8 (vByte v k))
  BitVec.ofNat 128 (ofBytes ((span 0 (16 / e.contBytes)).flatMap cont))

/-- NCVT (R235, R236): the four lanes of V[va] become elements 4p to 4p + 3 of V[vd]; under SR each conversion lane advances. -/
def execNcvt (c : Fin 25600) (vd va : Fin 16) (g : Fin 32) (s : State) : Res :=
  coreDo c s (fun x s =>
    let w := (gGet x g).toNat
    let p := bitsOf w 23 16
    let bad := illegal s c (wordVR 0x31 vd va 0 g 2)
    match fmtOf (bitsOf w 15 0) with
    | some f =>
      if f.scale != 0 || f.mx || !groupFits f.elem p then bad
      else
        let lanes := if f.round = 2 then x.lanes.map (lfsrSteps 16) else x.lanes
        let outs := (span 0 4).map (fun j => convert f.elem f.round f.sat false (listGet 1 lanes j % 65536) (lane (vGet x va) j))
        let exc := (outs.filter (fun o => o.2 != .none)).length
        let s := bump s ⟨.prtClConvExc, 0, c.val / 16⟩ exc
        retire s c { vSet x vd (putGroup f.elem (vGet x vd) p (outs.map (fun o => o.1))) with lanes := lanes }
    | none => bad)

/-- NEXP (R114, R235): element 4p + j of V[va] as FP32 in lane j. -/
def execNexp (c : Fin 25600) (vd va : Fin 16) (g : Fin 32) (s : State) : Res :=
  coreDo c s (fun x s =>
    let w := (gGet x g).toNat
    let p := bitsOf w 23 16
    let bad := illegal s c (wordVR 0x31 vd va 0 g 3)
    match fmtOf (bitsOf w 15 0) with
    | some f =>
      if !groupFits f.elem p then bad
      else
        let val (j : Nat) : Nat :=
          let v := elemVal f.elem (elemCode f.elem (vByte (vGet x va)) (4 * p + j))
          rne32 (if f.mxInt then v.mul (.fin false 1 64) else v)
        retire s c (vSet x vd (ofLanes val))
    | none => bad)

end Sys2Proof.Machine
end

