-- ==== Sys2Proof/Machine/CoreHub.lean ====
section
/-!
DEFINITION. The SYS, control-register and hub instructions of the porter cores: calls and returns, SLEEP, ICLR, DBGSTOP
(R225, R242), CCRR and CCRW (R265 to R267), the write-back of dirty lines (R231, R238, R239), BMOVE (R228 to R232), TALLY
(R237), FLUSH, ACQ, STEP_DONE (R247, R248) and the CMA instructions (R254, R255).
-/
namespace Sys2Proof.Machine

/-! ### SYS -/

def execRcall (c : Fin 25600) (s : State) : Res := coreDo c s (fun x s => ok (raise s c (if x.user then 8 else 9) 0))

def execTret (c : Fin 25600) (s : State) : Res :=
  coreDo c s (fun x s =>
    if x.user then illegal s c (wordRR 0x28 0 0 0 1)
    else ok (putCore s c.val (jumpTo { x with user := x.priorUser, ie := x.priorIe } x.retpc)))

def execSleep (c : Fin 25600) (s : State) : Res :=
  coreDo c s (fun x s =>
    if x.user then illegal s c (wordRR 0x28 0 0 0 2)
    else if coreReady s x != 0#5 then retire s c x
    else ok (putCore s c.val { x with wait := .sleep }))

def execIclr (c : Fin 25600) (s : State) : Res := coreRegs c s (fun x => { x with l0i := [] })
def execDbgstop (c : Fin 25600) (s : State) : Res := coreDo c s (fun _ s => ok (raise s c 10 0))

/-! ### Core control registers -/

/-- The value of a core control register; none where there is no such register. -/
def ccVal (s : State) (n : Nat) (x : Core) (r : Nat) : Option (BitVec 64) :=
  let w (v : Nat) : Option (BitVec 64) := some (BitVec.ofNat 64 v)
  match r with
  | 0x000 => w (b2n x.user + 2 * b2n x.ie + 4 * b2n x.priorUser + 8 * b2n x.priorIe)
  | 0x001 => some x.retpc
  | 0x002 => w (2 ^ 31 * b2n x.causeInt + 256 * x.causeStatus + x.causeCode)
  | 0x003 => some x.info
  | 0x004 => some x.vector
  | 0x005 => w (x.enables ||| 1#5).toNat
  | 0x006 => w (corePending s x).toNat
  | 0x008 => w (n / 16 * 2 ^ 20 + (if x.onSpare then 16 else n % 16) * 2 ^ 15 + n)
  | 0x009 => w s.stage.hubTime
  | 0x00A => some x.timecmp
  | 0x00B => w (x.ctxPart * 2 ^ 16 + x.ctx)
  | 0x00C => w x.stepArg
  | 0x00D => w (x.uwinLimit * 2 ^ 32 + x.uwinBase)
  | 0x00E => w x.deadline
  | 0x00F => w x.seed
  | 0x010 => some x.scratch
  | _ => none

/-- A write of a core control register; fields that are read-only keep their value. INTAKE stays set while the step runs. -/
def ccSet (s : State) (n : Nat) (x : Core) (r : Nat) (v : BitVec 64) : Core :=
  let w := v.toNat
  match r with
  | 0x000 => { x with ie := bitOf w 1, priorUser := bitOf w 2, priorIe := bitOf w 3 }
  | 0x001 => { x with retpc := v }
  | 0x004 => { x with vector := v &&& ~~~ 0x7F#64 }
  | 0x005 => { x with enables := BitVec.ofNat 5 w ||| 1#5 }
  | 0x006 =>
    let keep := if x.ctxPart = 0xF then 0b00001#5 else 0b00011#5
    { x with pending := x.pending &&& (~~~ BitVec.ofNat 5 w ||| keep), markAck := if bitOf w 2 then marksFired s else x.markAck }
  | 0x00A => { x with timecmp := v }
  | 0x00D => { x with uwinLimit := bitsOf w 48 32, uwinBase := bitsOf w 16 0 / 256 * 256 }
  | 0x00E => { x with deadline := w % 65536 }
  | 0x00F => { x with seed := w % 2 ^ 32, lanes := (span 0 4).map (fun j => laneStart (w % 2 ^ 32) (4 * n + j)) }
  | 0x010 => { x with scratch := v }
  | _ => x

/-- A core in user mode may read CORE_ID and HUBTIME and read and write SEED (R218). -/
def ccAllowed (x : Core) (r : Nat) (write : Bool) : Bool :=
  !x.user || r == 0x00F || (!write && (r == 0x008 || r == 0x009))

def execCcrr (c : Fin 25600) (d : Fin 32) (imm : BitVec 14) (s : State) : Res :=
  coreDo c s (fun x s =>
    match ccVal s c x imm.toNat with
    | some v => if ccAllowed x imm.toNat false then retire s c (gSet x d v) else illegal s c (wordRI 0x29 d 0 imm.toNat)
    | none => illegal s c (wordRI 0x29 d 0 imm.toNat))

def execCcrw (c : Fin 25600) (d a : Fin 32) (imm : BitVec 14) (s : State) : Res :=
  coreDo c s (fun x s =>
    match ccVal s c x imm.toNat with
    | some v =>
      if ccAllowed x imm.toNat true then retire s c (ccSet s c (gSet x d v) imm.toNat (gGet x a))
      else illegal s c (wordRI 0x2A d a imm.toNat)
    | none => illegal s c (wordRI 0x2A d a imm.toNat))

/-! ### Tallies -/

/-- The L0 data cache invalid: of the lines in a range, or all. -/
def l0Invalidate (x : Core) (lo len : Nat) (all : Bool) : Core :=
  let hit (l : L0Line) : Bool := (l0In { x with l0d := [(0, some l)] } lo len all).length == 1
  { x with l0d := x.l0d.filter (fun p => match p.2 with | some l => !hit l | none => false) }

/-- The operation at the slot (R237, R421); with ACQ the L0 data cache is invalid after it. -/
def tallyDo (s : State) (n : Nat) (op : TallyOp) (slot rd value : Nat) (acq : Bool) : State :=
  let x := core s n
  let old := tallyValue s slot
  let s := match op with | .add => tallyAdd s slot value | _ => s
  match op with
  | .waitGe =>
    if tallyGe old value then
      let x := if acq then l0Invalidate x 0 0 true else x
      putCore s n { gSet x rd (BitVec.ofNat 64 old) with pc := x.pc + 4, wait := .none }
    else putCore s n { x with wait := .tally slot rd value acq }
  | _ =>
    let x := if acq then l0Invalidate x 0 0 true else x
    putCore s n { gSet x rd (BitVec.ofNat 64 old) with pc := x.pc + 4, wait := .none }

/-! ### The end of a cluster's part -/

/-- The status of a step whose cores have all reported (R248). -/
def reportStatus (c : Cluster) : Status :=
  if c.latch ≠ .complete then c.latch else if c.aborted then .aborted else .complete

/-- The cluster reaches its step's commit point once every core in service has reported (R248): the step ends, the context of
its cores reads as none, and the next step of the intake begins. -/
def clusterCommit (s : State) (k : Nat) : State :=
  let c := cluster s k
  match c.running with
  | none => s
  | some id =>
    if (liveCores s k).all (fun n => c.reported.contains n) then
      let s := putCluster s k { c with running := none, reported := [], aborted := false, latch := .complete }
      let s := (coresOf k).foldl (fun s n => modCore s n (fun x =>
        { x with ctxPart := 0xF, pending := x.pending &&& 0b11101#5 })) s
      let s := bump s ⟨.prtClSteps, 0, k⟩ 1
      let s := match stepFind s id with | some x => commitStep s x (reportStatus c) | none => s
      clusterNext s k
    else s

/-- A core reports (R247). -/
def coreReport (s : State) (n : Nat) (aborted : Bool) : State :=
  let k := n / 16
  let s := modCore s n (fun x => { x with pc := x.pc + 4, wait := .none })
  let s := modCluster s k (fun c => if c.running.isSome then
    { c with reported := setAdd c.reported n, aborted := c.aborted || aborted } else c)
  clusterCommit s k

/-! ### Writing dirty lines back -/

/-- Writes back the lines that wait for it while the tracker has room (R231). -/
def drainLines : Nat → Core → List Nat → Core × List Nat
  | 0, x, todo => (x, todo)
  | n + 1, x, todo =>
    match todo with
    | [] => (x, [])
    | l :: rest =>
      match l0Find x l with
      | some (_, y) =>
        if y.dirty = 0 then drainLines n x rest
        else if x.tracker.length < 8 then drainLines n (l0WriteBack x y) rest else (x, todo)
      | none => drainLines n x rest

/-- What a draining core still waits for. -/
def drained (x : Core) (todo : List Nat) (g : AfterDrain) : Bool :=
  todo.isEmpty && (match g with
    | .flush lo len all _ => if all then x.tracker.isEmpty else !trackedAt x lo len
    | .tally _ _ _ _ _ rel => !rel || x.tracker.isEmpty
    | .stepDone _ => x.tracker.isEmpty && !x.tags.contains .pending
    | .again => true)

/-- A core that drains goes on: lines leave while the tracker has room, and once nothing is awaited the instruction ends. -/
def drainCore (s : State) (n : Nat) : State :=
  let x := core s n
  match x.wait with
  | .drain todo g =>
    let (x, todo) := drainLines (todo.length + 1) x todo
    let s := putCore s n { x with wait := .drain todo g }
    if !drained x todo g then s
    else match g with
      | .flush lo len all inv =>
        let x := if inv then l0Invalidate x lo len all else x
        putCore s n { x with pc := x.pc + 4, wait := .none }
      | .tally op slot rd value acq _ => tallyDo s n op slot rd value acq
      | .stepDone a => coreReport s n a
      | .again => putCore s n { x with wait := .none }
  | _ => s

/-- A core begins to drain the dirty lines of a range, or all. -/
def drainStart (s : State) (n lo len : Nat) (all : Bool) (g : AfterDrain) : State :=
  let x := core s n
  let todo := ((l0In x lo len all).filter (fun l => l.dirty != 0)).map L0Line.line
  drainCore (putCore s n { x with wait := .drain todo g }) n

/-- TALLY (R237). `fl` holds FN bits 8:2: bit 0 REL, bit 1 ACQ, the rest reserved. -/
def tally (c : Fin 25600) (op : TallyOp) (code : Nat) (d a b : Fin 32) (fl : BitVec 7) (s : State) : Res :=
  coreDo c s (fun x s =>
    let slot := (gGet x a).toNat
    if 4 ≤ fl.toNat then illegal s c (wordRR 0x39 d a b (4 * fl.toNat + code))
    else if 65536 ≤ slot ∨ x.ctxPart = 0xF ∨ !isTally s x.ctxPart slot then ok (raise s c 11 (gGet x a))
    else
      let value := (gGet x b).toNat % 2 ^ 32
      let rel := bitOf fl.toNat 0
      let acq := bitOf fl.toNat 1
      if rel || acq then ok (drainStart s c 0 0 true (.tally op slot d value acq rel))
      else ok (tallyDo s c op slot d value acq))

def execTallyRead (c : Fin 25600) (d a b : Fin 32) (fl : BitVec 7) (s : State) : Res := tally c .read 0 d a b fl s
def execTallyAdd (c : Fin 25600) (d a b : Fin 32) (fl : BitVec 7) (s : State) : Res := tally c .add 1 d a b fl s
def execTallyWaitGe (c : Fin 25600) (d a b : Fin 32) (fl : BitVec 7) (s : State) : Res := tally c .waitGe 2 d a b fl s

/-- TALLY_WAIT_RELEASE: the tally has reached the operand of a waiting WAIT_GE. -/
def execTallyWaitRelease (c : Fin 25600) (s : State) : Res :=
  match (core s c.val).wait with
  | .tally slot rd value acq =>
    if tallyGe (tallyValue s slot) value then ok (tallyDo s c.val .waitGe slot rd value acq) else notDue s
  | _ => notDue s

/-! ### FLUSH, ACQ, STEP_DONE -/

/-- FLUSH (R238): FN bit 0 INV, bit 1 ALL. -/
def execFlush (c : Fin 25600) (d a b : Fin 32) (fn : BitVec 9) (s : State) : Res :=
  coreDo c s (fun x s =>
    if d ≠ 0 ∨ 4 ≤ fn.toNat then illegal s c (wordRR 0x3A d a b fn.toNat)
    else
      let all := bitOf fn.toNat 1
      ok (drainStart s c (gGet x a).toNat (gGet x b).toNat all (.flush (gGet x a).toNat (gGet x b).toNat all (bitOf fn.toNat 0))))

/-- ACQ (R239): FN bit 1 ALL, bit 0 reserved. -/
def execAcq (c : Fin 25600) (d a b : Fin 32) (fn : BitVec 9) (s : State) : Res :=
  coreDo c s (fun x s =>
    if d ≠ 0 ∨ (fn ≠ 0 ∧ fn ≠ 2) then illegal s c (wordRR 0x3B d a b fn.toNat)
    else
      let all := fn == 2
      ok (drainStart s c (gGet x a).toNat (gGet x b).toNat all (.flush (gGet x a).toNat (gGet x b).toNat all true)))

/-- STEP_DONE (R247): the status is G[a] bits 7:0, and any but 0 reports ABORTED. -/
def execStepDone (c : Fin 25600) (a : Fin 32) (s : State) : Res :=
  coreDo c s (fun x s =>
    if x.user then illegal s c (wordRR 0x28 0 a 0 3)
    else ok (drainStart s c 0 0 true (.stepDone ((gGet x a).toNat % 256 != 0))))

/-! ### BMOVE -/

/-- A range lies where a BMOVE may reach it (R229). -/
def moveReach (s : State) (x : Core) (a : BitVec 64) (len : Nat) (write : Bool) : Bool :=
  match placeOf a with
  | .store o => storeOk x o len
  | .ha h => if write then windowOk s x h len else readOk s x h len
  | _ => false

/-- A BMOVE whose range lies in HA space outside what the core may reach is a fault under R220 as well (R252). -/
def moveFault (s : State) (x : Core) (n : Nat) (a : BitVec 64) (len : Nat) (write : Bool) : State :=
  match placeOf a with
  | .ha h => if moveReach s x a len write then s else rangeFault s n h len
  | _ => s

/-- The writes of bytes at an HA, line by line (R228). -/
def lineWrites (ha : Nat) (bs : List Byte) (hint : Nat) : List LineWrite :=
  (linesOf ha bs.length).map (fun l =>
    let (d, m) := linePart ha bs l
    { line := l, data := d, mask := m, hint := hint })

/-- Adds the writes of a piece to the move's entry in the tracker, which began at `m.dst`. -/
def trackPiece (x : Core) (m : Move) (bs : List Byte) : Core :=
  let add (t : Track) : Track := { t with writes := t.writes ++ lineWrites (m.dst + m.moved) bs m.dstHint }
  { x with tracker := listModFirst (fun t => t.more && t.lo == m.dst) add x.tracker }

/-- Entries of the tracker that hold no write and expect none are free (R231). -/
def trackTidy (x : Core) : Core := { x with tracker := x.tracker.filter (fun t => t.more || !t.writes.isEmpty) }

/-- The registers of a move show its progress (R232). -/
def moveRegs (x : Core) (m : Move) : Core :=
  let by_ := BitVec.ofNat 64 m.moved
  let x := gSet (gSet x m.a (BitVec.ofNat 64 m.src + by_)) m.d (BitVec.ofNat 64 m.dst + by_)
  gSet x m.b (BitVec.ofNat 64 (m.len - m.moved))

/-- A move ends or is interrupted: its entry keeps the part that was written. -/
def moveStop (x : Core) (m : Move) : Core :=
  let x := { x with tracker := x.tracker.map (fun t => if t.more && t.lo == m.dst then { t with len := m.moved, more := false } else t) }
  { trackTidy (moveRegs x m) with wait := .none, sent := false }

/-- Bytes of a piece that was read are written: at once into the cluster store, or by writes under the range tracker. -/
def movePut (s : State) (n : Nat) (m : Move) (bs : List Byte) : State :=
  match placeOf (BitVec.ofNat 64 m.dst) with
  | .store o => storePut s (n / 16) (o + m.moved) bs
  | _ => modCore s n (fun x => trackPiece x m bs)

/-- A piece has been read: it is written, and the move retires after its last piece (R232). -/
def movePiece (s : State) (n : Nat) (m : Move) (bs : List Byte) : State :=
  let s := movePut s n m bs
  let m := { m with moved := m.moved + bs.length, piece := [] }
  if m.len ≤ m.moved then modCore s n (fun x => { moveStop x m with pc := x.pc + 4 })
  else modCore s n (fun x => { x with wait := .move m, sent := false })

/-- BMOVE. -/
def execBmove (c : Fin 25600) (d a b : Fin 32) (fn : BitVec 9) (s : State) : Res :=
  coreDo c s (fun x s =>
    let n := c.val
    let src := gGet x a
    let dst := gGet x d
    let len := (gGet x b).toNat
    if 16 ≤ fn.toNat then illegal s c (wordRR 0x38 d a b fn.toNat)
    else if len = 0 then retire s c x
    else if src.toNat % 256 ≠ 0 ∨ dst.toNat % 256 ≠ 0 ∨ len % 256 ≠ 0 ∨ rangesMeet src.toNat len dst.toNat len then ok (raise s n 12 src)
    else if !moveReach s x src len false ∨ !moveReach s x dst len true then
      ok (raise (moveFault (moveFault s x n src len false) x n dst len true) n 12 src)
    else if trackedAt x src.toNat len then ok (putCore s n { x with wait := .tracked src.toNat len })
    else if trackedAt x dst.toNat len then ok (putCore s n { x with wait := .tracked dst.toNat len })
    else if (l0In x src.toNat len false).any (fun l => l.dirty != 0) then ok (drainStart s n src.toNat len false .again)
    else
      let far := decide (dst.toNat < 2 ^ 52)
      if far && decide (8 ≤ x.tracker.length) then ok (putCore s n { x with wait := .trackRoom })
      else
        let x := l0Invalidate x dst.toNat len false
        let x := if far then { x with tracker := x.tracker ++ [{ lo := dst.toNat, len := len, writes := [], more := true }] } else x
        let m : Move := { d := d, a := a, b := b, src := src.toNat, dst := dst.toNat, len := len, moved := 0
                          srcHint := fn.toNat % 4, dstHint := fn.toNat / 4, piece := [] }
        let s := putCore s n { x with wait := .move m, sent := false }
        match placeOf src with
        | .store o => ok (movePiece s n m (storeBytes s (n / 16) o len))
        | _ => ok s)

/-! ### CMA instructions -/

/-- The tag that an ISSUE takes: the lower of the core's two buffers that is not held (R255). -/
def freeBuffer (x : Core) : Option Nat := (span 0 2).find? (fun u => listGet .none x.tags u != .pending)

def execCmaIssue (c : Fin 25600) (d a : Fin 32) (s : State) : Res :=
  coreDo c s (fun x s =>
    let off := (gGet x a).toNat
    let i := c.val % 16
    if off % 64 ≠ 0 ∨ 0x20000 ≤ off then ok (raise s c 13 (gGet x a))
    else match freeBuffer x with
      | none => ok (putCore s c.val { x with wait := .cmaRoom })
      | some u =>
        let s := modCluster s (c.val / 16) (fun k => { k with cma := k.cma ++ [{ tag := 2 * i + u, off := off }] })
        retire s c (gSet { x with tags := listSet x.tags u .pending } d (BitVec.ofNat 64 (2 * i + u))))

/-- The status of a tag for a core; NONE for one it does not hold (R254). -/
def tagStatus (x : Core) (i tag : Nat) : TagSt := if tag / 2 = i then listGet .none x.tags (tag % 2) else .none

def execCmaWait (c : Fin 25600) (d a : Fin 32) (s : State) : Res :=
  coreDo c s (fun x s =>
    let t := (gGet x a).toNat
    match tagStatus x (c.val % 16) t with
    | .pending => ok (putCore s c.val { x with wait := .cma d t })
    | st => retire s c (gSet x d (BitVec.ofNat 64 st.code)))

def execCmaPoll (c : Fin 25600) (d a : Fin 32) (s : State) : Res :=
  coreRegs c s (fun x => gSet x d (BitVec.ofNat 64 (tagStatus x (c.val % 16) (gGet x a).toNat).code))

/-- CMA_WAIT_RELEASE: the tag that a WAIT waits for has its status. -/
def execCmaWaitRelease (c : Fin 25600) (s : State) : Res :=
  let x := core s c.val
  match x.wait with
  | .cma rd tag =>
    match tagStatus x (c.val % 16) tag with
    | .pending => notDue s
    | st => ok (putCore s c.val { gSet x rd (BitVec.ofNat 64 st.code) with pc := x.pc + 4, wait := .none })
  | _ => notDue s

end Sys2Proof.Machine
end

