-- ==== Sys2Proof/Machine/CoreMem.lean ====
section
/-!
DEFINITION. Loads and stores of the porter cores (R219 to R224, R231, R245): the cluster store, the cluster's registers, HA
space through the L0 data cache.
-/
namespace Sys2Proof.Machine

/-! ### The cluster's own registers -/

/-- PRT_CL_STATUS (R269). -/
def clStatus (s : State) (k : Nat) : Nat :=
  let c := cluster s k
  let owner := match tileOwner s (k / 10) with | some p => p | none => 0xF
  b2n (tileLicensed s (k / 10) && !c.out) + 8 * b2n c.running.isSome + 16 * b2n c.loaded + 32 * b2n c.bootFail +
  64 * b2n c.exhausted + 128 * b2n c.spareFor.isSome + 256 * c.spareFor.getD 0 + 2 ^ 16 * c.role + 2 ^ 20 * owner

/-- PRT_CL_CORE_STATE (R269): two bits for each core. -/
def clCoreState (s : State) (k : Nat) : Nat :=
  (span 0 16).foldl (fun v i =>
    let x := core s (16 * k + i)
    let st := if x.halted then 3 else if !(cluster s k).loaded then 0 else if x.user then 2 else 1
    v + st * 4 ^ i) 0

/-- A cluster register's value; PRT_CL_SOFT is write-only and reads 0. -/
def clRegVal (s : State) (k : Nat) (n : RegName) : Nat :=
  match n with
  | .prtClStatus => clStatus s k
  | .prtClCoreState => clCoreState s k
  | .prtClSoft => 0
  | n => regRaw s ⟨n, 0, k⟩

/-- Offset, size and name of each cluster register, and whether a read clears it (R269 to R271). -/
def clRegs : List (Nat × Nat × RegName × Bool) :=
  [(0x00, 4, .prtClStatus, false), (0x04, 4, .prtClRole, false), (0x08, 4, .prtClCoreState, false), (0x10, 4, .prtClSteps, true),
   (0x14, 4, .prtClCancels, true), (0x18, 8, .prtClCmaBusy, true), (0x20, 4, .prtClConvExc, true), (0x24, 4, .prtClL0Parity, true),
   (0x28, 4, .prtClCmaMalformed, true), (0x30, 4, .prtClIntStatus, false), (0x34, 4, .prtClIntEn, false), (0x38, 4, .prtClSoft, false)]

/-- Reads bytes of a cluster's registers; counters are cleared by the read (R12). -/
def clRead (s : State) (k off n : Nat) : List Byte × State :=
  let byte (o : Nat) : Byte := match clRegs.find? (fun r => decide (r.1 ≤ o) && decide (o < r.1 + r.2.1)) with
    | some r => BitVec.ofNat 8 (clRegVal s k r.2.2.1 / 256 ^ (o - r.1))
    | none => 0
  let s' := (clRegs.filter (fun r => r.2.2.2 && decide (off < r.1 + r.2.1) && decide (r.1 < off + n))).foldl (fun s r => regPut s ⟨r.2.2.1, 0, k⟩ 0) s
  ((span off n).map byte, s')

/-- SOFT of the cores of a cluster that a mask names pends (R271). -/
def softRaise (s : State) (k mask sender : Nat) : State :=
  (span 0 16).foldl (fun s i =>
    if bitOf mask i then pendCore (modCore s (16 * k + i) (fun x => { x with softFrom := sender })) (16 * k + i) 0b10000#5 else s) s

/-! ### One access -/

/-- A load takes its bytes: zero- or sign-extended into G, or whole into V. -/
def loadDone (x : Core) (op : MemOp) (b : List Byte) : Core :=
  let v := ofBytes b
  if op.vec then vSet x op.reg (BitVec.ofNat 128 v)
  else if op.signed && decide (2 ^ (8 * op.size - 1) ≤ v) then gSet x op.reg (BitVec.ofNat 64 (2 ^ 64 + v - 2 ^ (8 * op.size)))
  else gSet x op.reg (BitVec.ofNat 64 v)

/-- A load or store whose line is in the L0 data cache takes place and retires. -/
def lineAccess (x : Core) (op : MemOp) (k : Nat) (l : L0Line) : Core :=
  let off := op.addr % 64
  let x := match op.store with
    | some b => l0Put x k (some (l0Store l off b x.user))
    | none => loadDone x op (l0Bytes l off op.size)
  { x with pc := x.pc + 4, wait := .none, sent := false }

/-- A load or store (R221, R222, R231, R245): its misaligned exception, the fault of its region, or its effect. A miss in the
L0 data cache waits for the line; an access that overlaps a tracked range waits for the writes. -/
def access (c : Fin 25600) (ea : BitVec 64) (op : MemOp) (x : Core) (s : State) : Res :=
  let n := c.val
  let k := n / 16
  let code := if op.store.isSome then 6 else 4
  let fault (s : State) : Res := ok (raise s n (code + 1) ea)
  if ea.toNat % op.size ≠ 0 then ok (raise s n code ea)
  else match placeOf ea with
    | .nothing => fault s
    | .store o =>
      if !storeOk x o op.size then fault s
      else match op.store with
        | some b => retire (storePut s k o b) c x
        | none => retire s c (loadDone x op (storeBytes s k o op.size))
    | .regs o =>
      if x.user then fault s
      else match op.store with
        | some b =>
          if o = 0x38 ∧ op.size = 4 then
            let s := putCore s n { x with pc := x.pc + 4 }
            ok (softRaise s k (ofBytes b % 65536) (n % 16))
          else retire s c x
        | none =>
          let (b, s) := clRead s k o op.size
          retire s c (loadDone x op b)
    | .rom o =>
      if x.user || op.store.isSome then fault s
      else retire s c (loadDone x op ((span o op.size).map Config.romByte))
    | .ha a =>
      let may := if op.store.isSome then windowOk s x a op.size else readOk s x a op.size
      if !may then fault (haFault s n a)
      else if trackedAt x a op.size then ok (putCore s n { x with wait := .tracked a op.size })
      else match l0Find x (a / 64) with
        | some (p, l) => ok (putCore s n (lineAccess x op p l))
        | none => ok (putCore s n { x with wait := .fill op, sent := false })

/-- The address of a load or store: G[a] + imm (R224). -/
def effAddr (x : Core) (a : Fin 32) (imm : BitVec 14) : BitVec 64 := gGet x a + imm.signExtend 64

def load (c : Fin 25600) (d a : Fin 32) (imm : BitVec 14) (size : Nat) (signed : Bool) (s : State) : Res :=
  coreDo c s (fun x s =>
    let ea := effAddr x a imm
    access c ea { reg := d, addr := ea.toNat, size := size, signed := signed, vec := false, store := none } x s)

def store (c : Fin 25600) (d a : Fin 32) (imm : BitVec 14) (size : Nat) (s : State) : Res :=
  coreDo c s (fun x s =>
    let ea := effAddr x a imm
    access c ea { reg := d, addr := ea.toNat, size := size, signed := false, vec := false,
                  store := some (toBytes size (gGet x d).toNat) } x s)

def execLd8u (c : Fin 25600) (d a : Fin 32) (imm : BitVec 14) (s : State) : Res := load c d a imm 1 false s
def execLd16u (c : Fin 25600) (d a : Fin 32) (imm : BitVec 14) (s : State) : Res := load c d a imm 2 false s
def execLd32u (c : Fin 25600) (d a : Fin 32) (imm : BitVec 14) (s : State) : Res := load c d a imm 4 false s
def execLd64 (c : Fin 25600) (d a : Fin 32) (imm : BitVec 14) (s : State) : Res := load c d a imm 8 false s
def execLd8s (c : Fin 25600) (d a : Fin 32) (imm : BitVec 14) (s : State) : Res := load c d a imm 1 true s
def execLd16s (c : Fin 25600) (d a : Fin 32) (imm : BitVec 14) (s : State) : Res := load c d a imm 2 true s
def execLd32s (c : Fin 25600) (d a : Fin 32) (imm : BitVec 14) (s : State) : Res := load c d a imm 4 true s
def execSt8 (c : Fin 25600) (d a : Fin 32) (imm : BitVec 14) (s : State) : Res := store c d a imm 1 s
def execSt16 (c : Fin 25600) (d a : Fin 32) (imm : BitVec 14) (s : State) : Res := store c d a imm 2 s
def execSt32 (c : Fin 25600) (d a : Fin 32) (imm : BitVec 14) (s : State) : Res := store c d a imm 4 s
def execSt64 (c : Fin 25600) (d a : Fin 32) (imm : BitVec 14) (s : State) : Res := store c d a imm 8 s

/-- VLD: the d field names a V register; values of 16 and above are illegal (R223). -/
def execVld (c : Fin 25600) (d a : Fin 32) (imm : BitVec 14) (s : State) : Res :=
  coreDo c s (fun x s =>
    if 16 ≤ d.val then illegal s c (wordRI 0x1C d a imm.toNat)
    else
      let ea := effAddr x a imm
      access c ea { reg := d, addr := ea.toNat, size := 16, signed := false, vec := true, store := none } x s)

def execVst (c : Fin 25600) (d a : Fin 32) (imm : BitVec 14) (s : State) : Res :=
  coreDo c s (fun x s =>
    if 16 ≤ d.val then illegal s c (wordRI 0x1D d a imm.toNat)
    else
      let ea := effAddr x a imm
      access c ea { reg := d, addr := ea.toNat, size := 16, signed := false, vec := true,
                    store := some (toBytes 16 (vGet x d).toNat) } x s)

end Sys2Proof.Machine
end

