-- ==== Sys2Proof/Machine/CoreEvents.lean ====
section
/-!
DEFINITION. Events of the porter clusters: commands of the cluster matrix assist (R253 to R258), interrupts (R244), the return
of fills (R245, R246) and of writes (R231), core faults and the spare (R261 to R264), self-fetch (R259, R260).
-/
namespace Sys2Proof.Machine

/-! ### The cluster matrix assist -/

/-- Byte `k` of a cluster's store as a number. -/
def storeNat (c : Cluster) (k : Nat) : Nat := (smGet 0 c.store k).toNat

/-- A CMA command's fields (R253), read from its 64 bytes. -/
structure CmaDesc where
  k : Nat
  w : Fmt
  a : Fmt
  o : Fmt
  accIn : Bool
  seed : Nat
  wbase : Nat
  abase : Nat
  obase : Nat
  oscale : Nat
  wstride : Nat
  astride : Nat
  ostride : Nat
  wscale : Nat
  ascale : Nat
  tw : Nat
  ta : Nat
  q : Nat
  lane : Nat
  deriving DecidableEq, Repr

def CmaDesc.nb (d : CmaDesc) : Nat := dotBlocks d.w d.a d.k
/-- Scale bytes of an output row. -/
def CmaDesc.ob (d : CmaDesc) : Nat := (16 + d.o.block - 1) / d.o.block

/-- `n` vectors of `len` bytes from `base`, `stride` apart, lie in the cluster store. -/
def inStore (base stride n len : Nat) : Bool := decide (base + (n - 1) * stride + len ≤ 0x20000)

/-- The command's bases, strides and scale offsets hold to R253. -/
def CmaDesc.placed (d : CmaDesc) : Bool :=
  let wl := d.w.elem.packedBytes d.k
  let al := d.a.elem.packedBytes d.k
  let ol := d.o.elem.packedBytes 16
  decide (1 ≤ d.k) && decide (d.k ≤ 4096) &&
  [d.wbase, d.abase, d.obase, d.wstride, d.astride, d.ostride].all (fun v => v % 16 == 0) &&
  decide (wl ≤ d.wstride) && decide (al ≤ d.astride) && decide (ol ≤ d.ostride) && (!d.accIn || decide (64 ≤ d.ostride)) &&
  inStore d.wbase d.wstride 16 wl && inStore d.abase d.astride 16 al && inStore d.obase d.ostride 16 ol &&
  (!d.accIn || inStore d.obase d.ostride 16 64) &&
  (d.w.scale == 0 || (d.wscale != 0 && inStore d.wscale d.nb 16 d.nb)) &&
  (d.a.scale == 0 || (d.ascale != 0 && inStore d.ascale d.nb 16 d.nb)) &&
  (d.o.scale == 0 || (d.oscale != 0 && inStore d.oscale d.ob 16 d.ob)) && !blockClash d.w d.a

/-- Reads a command; none where it is malformed (R253). -/
def cmaOf (b : List Byte) : Option CmaDesc :=
  let f := fieldOf b
  match fmtOf (f 4 2), fmtOf (f 6 2), fmtOf (f 8 2) with
  | some w, some a, some o =>
    let d : CmaDesc := { k := f 2 2, w := w, a := a, o := o, accIn := bitOf (f 1 1) 0, seed := f 0xC 4, wbase := f 0x10 4
                         abase := f 0x14 4, obase := f 0x18 4, oscale := f 0x1C 4, wstride := f 0x20 2, astride := f 0x22 2
                         ostride := f 0x24 2, wscale := f 0x28 4, ascale := f 0x2C 4, tw := f 0x30 4, ta := f 0x34 4
                         q := f 0x38 4, lane := f 0x3C 4 }
    if f 0 1 = 1 ∧ f 1 1 < 2 ∧ f 0xA 2 = 0 ∧ f 0x26 2 = 0 ∧ w.elem.isWeight ∧ a.elem.isAct ∧ d.placed then some d else none
  | _, _, _ => none

/-- The 16 outputs of row `m` before conversion (R117 to R123). -/
def cmaRow (c : Cluster) (d : CmaDesc) (m : Nat) : List Nat :=
  (span 0 16).map (fun n =>
    let wc := elemCode d.w.elem (fun k => storeNat c (d.wbase + n * d.wstride + k))
    let ac := elemCode d.a.elem (fun k => storeNat c (d.abase + m * d.astride + k))
    let wsc := fun b => storeNat c (d.wscale + n * d.nb + b)
    let asc := fun b => storeNat c (d.ascale + m * d.nb + b)
    let start := if d.accIn then ofBytes ((span (d.obase + m * d.ostride + 4 * n) 4).map (smGet 0 c.store)) else 0
    let wi := fun r => elemImage d.w.elem (wc r)
    let ai := fun r => elemImage d.a.elem (ac r)
    let nan := fun r => codeNan d.a.elem (ac r)
    outputValue (dotOut d.w d.a wi ai nan wsc asc d.k start 0).v d.tw d.ta d.q)

/-- The 16 × 16 FP32 values that a command leaves in its result buffer (R255). -/
def cmaResult (c : Cluster) (d : CmaDesc) : List Nat := (span 0 16).flatMap (cmaRow c d)

/-- The writes of a result buffer: row by row its outputs in OFMT packing and its scale bytes (R253). The conversion results of R127 count
nowhere, for PRT_CL_CONV_EXC counts those of R235, and NT bytes of 243 to 255 neither (DESIGN CHOICE, log 132). -/
def cmaWrites (d : CmaDesc) (buf : List Nat) : List (Nat × List Byte) :=
  (span 0 16).flatMap (fun m =>
    let (sc, cs, _) := convertRow d.o (fun n => laneRandom d.seed (d.lane + n) (m + 1)) ((buf.drop (16 * m)).take 16)
    let out := (d.obase + m * d.ostride, packCodes d.o.elem cs)
    if d.o.scale = 0 then [out] else [out, (d.oscale + m * d.ob, sc.map (BitVec.ofNat 8))])

/-- The core whose tag got its status goes on (R247, R255). -/
def tagSettled (s : State) (n u : Nat) (st : TagSt) : State :=
  let s := modCore s n (fun x => { x with tags := listSet x.tags u st, wait := if x.wait = .cmaRoom then .none else x.wait })
  drainCore s n

/-- A command has finished: its results stand in the buffer of its tag (R255). -/
def cmaFinish (s : State) (k tag : Nat) (d : CmaDesc) : State :=
  modCluster s k (fun c => { c with results := smSet [] c.results tag (cmaResult c d) })

/-- A result buffer is written to the cluster store (R257). -/
def cmaWriteOut (s : State) (k tag : Nat) (d : CmaDesc) : State :=
  (cmaWrites d (smGet [] (cluster s k).results tag)).foldl (fun s w => storePut s k w.1 w.2) s

/-- CMA_COMMAND_DONE (R255 to R258): the oldest command of a cluster ends; its results may be written, since it has retired, and its buffer
is free. -/
def execCmaCommandDone (k : Fin 1600) (s : State) : Res :=
  let c := cluster s k.val
  match c.cma with
  | [] => notDue s
  | q :: rest =>
    let n := 16 * k.val + q.tag / 2
    let s := putCluster s k { c with cma := rest }
    match cmaOf ((span q.off 64).map (smGet 0 c.store)) with
    | none => ok (tagSettled (bump s ⟨.prtClCmaMalformed, 0, k⟩ 1) n (q.tag % 2) .malformed)
    | some d =>
      let s := cmaWriteOut (cmaFinish s k q.tag d) k q.tag d
      let s := bump s ⟨.prtClCmaBusy, 0, k⟩ ((if d.a.elem.is8 then 2 * d.k else d.k) + 40)
      ok (tagSettled s n (q.tag % 2) .done)

/-! ### Interrupts -/

/-- An interrupt may be taken in what the core waits for: between the pieces of a BMOVE, and not while a fill or a FLUSH is
under way (R232, R237 to R239, R254). -/
def CoreWait.breaks : CoreWait → Bool → Bool
  | .fill _, _ => false
  | .drain _ _, _ => false
  | .move m, sent => m.piece.isEmpty && !sent
  | _, _ => true

/-- The interrupt that a core takes first (R244): its code and PRT_C_INFO. -/
def firstIrq (s : State) (x : Core) : Nat × Nat :=
  let r := coreReady s x
  if r.getLsbD 0 then (0, x.cancelInfo)
  else if r.getLsbD 1 then (1, 0)
  else if r.getLsbD 2 then (2, s.stage.number % 2 ^ 32)
  else if r.getLsbD 3 then (3, 0)
  else (4, x.softFrom)

/-- TAKE_INTERRUPT (R242, R244). -/
def execTakeInterrupt (c : Fin 25600) (s : State) : Res :=
  let x := core s c.val
  if !coreActive s c.val || !coreTakes s x || !x.wait.breaks x.sent then notDue s
  else
    let (code, info) := firstIrq s x
    let x := match x.wait with | .move m => moveStop x m | _ => x
    let x := if code = 0 then { x with pending := x.pending &&& 0b11110#5 } else x
    ok (putCore s c.val (trap x true 0 code (BitVec.ofNat 64 info) x.pc (if code = 0 then 0x80 else 0)))

/-- TIMER_EXPIRY (R266): hub time reaches PRT_C_TIMECMP. -/
def execTimerExpiry (c : Fin 25600) (s : State) : Res :=
  let x := core s c.val
  if !coreActive s c.val || x.pending.getLsbD 3 then notDue s
  else ok (pendCore (advance s x.timecmp.toNat) c.val 0b01000#5)

/-- SOFT_RAISE (R271): PRT_CL_SOFT written outside the cluster; what PRT_C_INFO then names is a free value. -/
def execSoftRaise (k : Fin 1600) (mask : BitVec 16) (s : State) : Res :=
  let (d, s) := draw s
  ok (softRaise s k mask.toNat (Config.freeNat d))

/-! ### The return of fills and writes -/

/-- The home line that a core waits for, its deadline in units of 8 ns, and the hint of the read. -/
def awaitedRead (x : Core) : Option (Nat × Nat × Nat) :=
  match x.wait with
  | .fill op => some (op.addr / 128, if op.store.isNone then x.deadline else 0, 0)
  | .move m => some ((m.src + m.moved + m.piece.length) / 128, 0, m.srcHint)
  | _ => none

/-- A new line takes a way of its set in the L0 data cache: a free one, else one that the hardware chooses. None where the
dirty line that must leave finds no room in the tracker. -/
def l0Install (s : State) (x : Core) (l : L0Line) : Option (State × Core × Nat) :=
  let ways := span (4 * (l.line % 16)) 4
  match ways.find? (fun k => (smGet none x.l0d k).isNone) with
  | some k => some (s, l0Put x k (some l), k)
  | none =>
    let (d, s) := draw s
    let k := 4 * (l.line % 16) + Config.freeNat d % 4
    match smGet none x.l0d k with
    | some old =>
      if old.dirty = 0 then some (s, l0Put x k (some l), k)
      else if x.tracker.length < 8 then some (s, l0Put (l0WriteBack x old) k (some l), k)
      else none
    | none => some (s, l0Put x k (some l), k)

/-- A fill that failed (R245, R246): the instruction takes READ_LATE or READ_ERROR, and the cluster latches the status. -/
def readFails (s : State) (n : Nat) (st : Status) (a : Nat) : State :=
  if st = .late then raise s n 14 (BitVec.ofNat 64 a)
  else
    let s := clusterLatch s n st
    modCore s n (fun x => trap x false st.code 15 (BitVec.ofNat 64 a) x.pc 0)

/-- The home has answered a core's read. -/
def answerOf (s : State) (n line : Nat) (write : Bool) : Option Answer :=
  s.mem.answers.find? (fun a => a.who == .core n && a.line == line && a.write == write)
def dropAnswer (s : State) (a : Answer) : State := { s with mem := { s.mem with answers := listDelFirst (fun b => b == a) s.mem.answers } }

/-- L0_FILL_RETURN (R228 to R232, R245, R246): the line that a load, a store or a BMOVE waits for arrives. -/
def execL0FillReturn (c : Fin 25600) (s : State) : Res :=
  let n := c.val
  let x := core s n
  match awaitedRead x with
  | none => notDue s
  | some (line, _, _) =>
    match answerOf s n line false with
    | none => notDue s
    | some a =>
      let s0 := s
      let s := dropAnswer s a
      let s := if passed s a.deadline && a.status == .complete then bump s ⟨.tolLateDelivered, 0, initPart s a.init⟩ 1 else s
      match x.wait with
      | .fill op =>
        if a.status ≠ .complete then ok (readFails s n a.status op.addr)
        else
          let half := BitVec.ofNat 512 (a.data.toNat / 2 ^ (512 * (op.addr / 64 % 2)))
          let l : L0Line := { line := op.addr / 64, data := half }
          match l0Install s x l with
          | none => notDue s0
          | some (s, x, k) => ok (putCore s n (lineAccess x op k l))
      | .move m =>
        if a.status ≠ .complete then
          ok (readFails (putCore s n (moveStop x m)) n a.status (m.src + m.moved))
        else
          let piece := m.piece ++ lineBytes a.data
          if piece.length < 256 then ok (putCore s n { x with wait := .move { m with piece := piece }, sent := false })
          else ok (movePiece s n m piece)
      | _ => notDue s

/-- A core whose tracker changed goes on: an instruction that waited for a range or for room is free to run again. -/
def trackerFreed (s : State) (n : Nat) : State :=
  let x := core s n
  match x.wait with
  | .tracked lo len => if trackedAt x lo len then s else putCore s n { x with wait := .none }
  | .trackRoom => if x.tracker.length < 8 then putCore s n { x with wait := .none } else s
  | _ => drainCore s n

/-- Removes the oldest write of a line that has reached its home. -/
def writeGone (line : Nat) (l : List Track) : List Track :=
  listModFirst (fun t => t.writes.any (fun w => w.sent && w.line == line))
    (fun t => { t with writes := listDelFirst (fun w => w.sent && w.line == line) t.writes }) l

/-- WRITE_ACCEPTED (R231, R306): the home has accepted a write of a core. -/
def execWriteAccepted (c : Fin 25600) (s : State) : Res :=
  let n := c.val
  match s.mem.answers.find? (fun a => a.who == .core n && a.write) with
  | none => notDue s
  | some a =>
    let s := dropAnswer s a
    let s := if a.status = .complete then s else clusterLatch s n a.status
    let s := modCore s n (fun x => trackTidy { x with tracker := writeGone a.line x.tracker })
    ok (trackerFreed s n)

/-! ### Self-fetch -/

/-- Bytes of the image area as a number. -/
def imageNat (s : State) (off n : Nat) : Nat := ofBytes ((homeBytes s (imageBase + off) n).getD [])
def imageBytes (s : State) (off n : Nat) : List Byte := (homeBytes s (imageBase + off) n).getD []

/-- A role entry of the porter payload (R259). -/
structure RoleEntry where
  codeOff : Nat
  codeLen : Nat
  dataOff : Nat
  dataLen : Nat
  dest    : Nat
  entry   : Nat
  perCore : Nat
  deriving DecidableEq, Repr

def roleEntry (s : State) (r : Nat) : RoleEntry :=
  let f (k : Nat) : Nat := imageNat s (0x40 + 32 * r + 4 * k) 4
  { codeOff := f 0, codeLen := f 1, dataOff := f 2, dataLen := f 3, dest := f 4, entry := f 5, perCore := f 6 }

/-- The role's entry is one that the boot ROM accepts (R260). -/
def roleOk (s : State) (r : Nat) : Bool :=
  let e := roleEntry s r
  decide (r < imageNat s 4 1) && decide (e.dest + e.codeLen + e.dataLen ≤ 0x20000) &&
  decide (e.entry < e.codeLen + e.dest) && decide (e.dest ≤ e.entry)

/-- A core starts at its runtime's entry (R260): SOFT is enabled, G1 to G8 hold its block of the per-core table, and every
core but the leader has been called by SOFT. -/
def startCore (s : State) (n r lead : Nat) : State :=
  let e := roleEntry s r
  let word (j : Nat) : BitVec 64 := if e.perCore = 0 then 0 else BitVec.ofNat 64 (imageNat s (e.perCore + 64 * n + 8 * j) 8)
  modCore s n (fun x =>
    let x := (span 0 8).foldl (fun x j => gSet x (j + 1) (word j)) x
    let x := { x with user := false, ie := false, enables := 0b10001#5, wait := .none
                      pending := if n = lead then x.pending else x.pending ||| 0b10000#5
                      softFrom := if n = lead then x.softFrom else lead % 16 }
    jumpTo x (BitVec.ofNat 64 (2 ^ 63 + e.entry)))

/-- The cluster load and the start of its cores, in the role that PRT_CL_ROLE names (R260, R269). -/
def bootCluster (s : State) (k : Nat) : State :=
  let r := regBits s ⟨.prtClRole, 0, k⟩ 2 0
  let live := liveCores s k
  let lead := live.headD (16 * k)
  if roleOk s r then
    let e := roleEntry s r
    let s := storePut s k e.dest (imageBytes s e.codeOff e.codeLen)
    let s := storePut s k (e.dest + e.codeLen) (imageBytes s e.dataOff e.dataLen)
    let s := modCluster s k (fun c => { c with loaded := true, role := r })
    live.foldl (fun s n => startCore s n r lead) s
  else
    let s := modCluster s k (fun c => { c with bootFail := true, out := true })
    let s := live.foldl (fun s n => modCore s n (fun x => { x with halted := true })) s
    setStatus s ⟨.prtClIntStatus, 0, k⟩ 3 k 0

/-- WAVE_RELEASE (R260, R268, R650): the clusters of wave w are released and fetch. -/
def execWaveRelease (w : Nat) (s : State) : Res :=
  match s.prt.fetchAt with
  | none => notDue s
  | some t =>
    if s.prt.waves ≤ w ∨ s.prt.released.contains w then notDue s
    else
      let s := advance s (t + w * s.prt.interval * 1000)
      let s := { s with prt := { s.prt with released := setAdd s.prt.released w } }
      let ks := (span 0 1600).filter (fun k => k % s.prt.waves == w && tileLicensed s (k / 10) && !(cluster s k).loaded && !(cluster s k).out)
      ok (ks.foldl bootCluster s)

/-! ### Core faults -/

/-- The spare takes the place of a core (R262, R263): it runs the boot ROM and takes the core's own block. It takes over the LFSR states of
the core's lanes (R132), and the result buffers that the core's commands still hold (R257). -/
def spareStart (s : State) (k n : Nat) : State :=
  let c := cluster s k
  let x := core s n
  let s := putCore s n { onSpare := true, markAck := marksFired s, lanes := x.lanes, seed := x.seed
                         tags := x.tags.map (fun t => if t = .pending then .pending else .none) }
  if c.loaded then startCore s n c.role n else s

/-- The cluster leaves service (R264). -/
def clusterOut (s : State) (k : Nat) : State :=
  let s := modCluster s k (fun c => { c with out := true, exhausted := true })
  let s := setStatus s ⟨.prtClIntStatus, 0, k⟩ 2 k 0
  breakSteps s (fun x => match x.body with
    | .porter _ _ _ _ => x.unit == k && (x.begun || x.phase == .sent)
    | _ => false) .aborted

/-- A core's commands are killed with the step that runs (R249, R257); without one they stay committed. -/
def killTags (s : State) (n : Nat) : State :=
  if (cluster s (n / 16)).running.isNone then s
  else
    let s := modCluster s (n / 16) (fun c => { c with cma := c.cma.filter (fun q => q.tag / 2 != n % 16) })
    modCore s n (fun x => { x with tags := x.tags.map (fun t => if t = .pending then .none else t) })

/-- A core fault (R262 to R264). -/
def coreFault (s : State) (n : Nat) : State :=
  let k := n / 16
  let s := killTags (dropReads s n) n
  let s := modCore s n (fun x => { x with halted := true, wait := .none, sent := false })
  match (cluster s k).spareFor with
  | none =>
    let s := match (cluster s k).running with
      | some id => breakSteps s (fun x => x.id == id) .aborted
      | none => s
    let s := modCluster s k (fun c => { c with spareFor := some (n % 16) })
    setStatus (spareStart s k n) ⟨.prtClIntStatus, 0, k⟩ 1 k 0
  | some _ => clusterOut s k

/-- CORE_FAULT (R243, R244, R261, R262): a parity error, a machine check or a failed self-test. A clean L0 line is only
invalidated, and a machine check that the core can take is an exception. CANCEL, where it is due, comes before the machine check, which then
finds the core in runtime mode with IE 0 and is a core fault. -/
def execCoreFault (c : Fin 25600) (t : CoreTrouble) (s : State) : Res :=
  let n := c.val
  let x := core s n
  if x.halted then notDue s
  else match t with
    | .register => ok (coreFault s n)
    | .selfTest => if (cluster s (n / 16)).loaded then notDue s else ok (coreFault s n)
    | .line l => match l0Find x l with
      | none => notDue s
      | some (k, y) =>
        if y.dirty ≠ 0 then ok (coreFault s n)
        else ok (bump (putCore s n (l0Put x k none)) ⟨.prtClL0Parity, 0, n / 16⟩ 1)
    | .codeLine l =>
      if x.l0i.contains l then ok (bump (putCore s n { x with l0i := x.l0i.filter (fun k => k != l) }) ⟨.prtClL0Parity, 0, n / 16⟩ 1)
      else notDue s
    | .machineCheck w =>
      if (!x.user && !x.ie) || cancelDue s x then ok (coreFault s n)
      else
        let s := dropReads s n
        let x := match x.wait with | .move m => moveStop x m | _ => x
        ok (putCore s n (trap x false 0 16 w x.pc 0))

end Sys2Proof.Machine
end

