-- ==== Sys2Proof/Machine/Engines.lean ====
section
/-!
DEFINITION. The matrix engines and the weighbridge: descriptors fetched, planes loaded, descriptors started under the slot
map, guard tiles checked and released, the fault ladder, and a step's commit point (R147 to R213).
-/
namespace Sys2Proof.Machine

/-! ### Which step an engine serves -/

/-- The partition that owns an engine's current slot (R166). While a descriptor overruns its slot the owner is that of the window
that has begun (DESIGN CHOICE, log 131). -/
def slotOwner (s : State) (e : Nat) : Option Nat := (span 0 9).find? (fun p => bitOf (slotsOn s p e) s.stage.window)

def hasWork (x : Engine) (p : Nat) : Bool := x.intake.any (fun w => w.part == p)

/-- The partition that an engine serves in its current slot (R166, R167). -/
def serving (s : State) (e : Nat) : Option Nat :=
  let x := engine s e
  let shared := if regBits s ⟨.mecSlotCtrl, e, 0⟩ 0 0 = 1 then (span 0 9).find? (hasWork x) else none
  match slotOwner s e with
  | some p => if hasWork x p then some p else shared
  | none => shared

/-- Descriptors of an engine step. -/
def descCount (s : State) (id : Nat) : Nat :=
  match stepFind s id with
  | some x => (match x.body with | .engine _ c _ => c | _ => 0)
  | none => 0

/-- The step whose next descriptor the engine runs: the partition's oldest, unless it only awaits its commit (R165). -/
def chosen (s : State) (e : Nat) : Option EngStep :=
  match serving s e with
  | none => none
  | some p => match (engine s e).intake.find? (fun w => w.part == p) with
    | some w => if w.next < descCount s w.step then some w else none
    | none => none

/-- The engine may start descriptors (R177). -/
def engineOpen (s : State) (e : Nat) : Bool :=
  let x := engine s e
  s.stage.running && engineLicensed s e && !x.outOfService && !x.cancelling &&
  regBits s ⟨.mecCtrl, e, 0⟩ 0 0 == 1 && regBits s ⟨.mecCtrl, e, 0⟩ 1 1 == 0

def EngRun.desc (r : EngRun) : Option EngDesc := engDescOf r.bytes

def modEngStep (x : Engine) (id : Nat) (f : EngStep → EngStep) : Engine :=
  { x with intake := listModFirst (fun w => w.step == id) f x.intake }

/-! ### Starts -/

/-- The engine takes a plane's tag to load into the shadow plane (R147, R149). -/
def wantPlane (s : State) (e : Nat) (t : PlaneTag) : State :=
  modEngine s e (fun x =>
    if x.active.tag = some t ∨ x.shadow.tag = some t ∨ x.loading = some t then x
    else { x with shadow := {}, loading := some t, idleAt := s.stage.hubTime })

/-- When an engine that starts from idle begins: no two engines ramp up within 100 ns (R686). -/
def rampTime (s : State) : Nat :=
  match s.eng.rampAt with | some t => max s.stage.hubTime (t + 100) | none => s.stage.hubTime

/-- What the loader had waiting at the engine's admission point is given up with its work. -/
def dropLoad (s : State) (e : Nat) : State :=
  let s := ungate s (fun h => h.req.who == .engine e && h.req.line == 1)
  modEngine s e (fun x => { x with next := none, loading := none, shadow := {} })

/-- Starts the fetched descriptor if its turn has come and its plane is ready (R149, R166). A descriptor that is not the one
the slot map now chooses is discarded with the loader's work. A step's first descriptor adds the fill and drain of the array (R151).
MEC_CUR_DESC keeps the last descriptor's address when none is in progress (DESIGN CHOICE, log 131). -/
def engStart (s : State) (e : Nat) (idle : Bool) : State :=
  let x := engine s e
  match x.run, x.next, chosen s e with
  | none, some r, some w =>
    if r.step ≠ w.step ∨ r.index ≠ w.next then dropLoad s e
    else if !engineOpen s e then s
    else match r.desc with
      | none => s
      | some d =>
        let t := d.tag r.part r.ctx
        let y := if x.active.tag = some t then some x
          else if x.shadow.tag = some t then some { x with active := x.shadow, shadow := {} } else none
        match y with
        | none => wantPlane s e t
        | some y =>
          let at' := if idle then rampTime s else s.stage.hubTime
          let rows (w : EngStep) : List Nat := d.rows.foldl setAdd w.rows
          let run := { r with start := at', clocks := if r.index = 0 then 1100 else 0 }
          let y := modEngStep { y with run := some run, next := none, active := y.active.checked d } r.step
            (fun w => { w with begun := true, next := r.index + 1, rows := rows w })
          let s := putEngine s e y
          let s := { s with eng := { s.eng with rampAt := if idle then some at' else s.eng.rampAt } }
          let s := regPut s ⟨.mecCurDesc, e, 0⟩ r.ha
          if w.begun then s else beginStep s r.step e
  | _, _, _ => s

/-- Every engine starts what it may, in ascending order (R686). -/
def enginesGo (s : State) : State := (span 0 8).foldl (fun s e => engStart s e true) s

/-- At a slot boundary a descriptor that runs on in a slot that is not its partition's begins to overrun (R168). -/
def slotBoundary (s : State) : State :=
  let mark (s : State) (e : Nat) : State := modEngine s e (fun x =>
    { x with run := x.run.map (fun r => if r.overAt.isNone && slotOwner s e != some r.part then { r with overAt := some s.stage.hubTime } else r) })
  enginesGo ((span 0 8).foldl mark s)

/-- A step leaves an engine with a breaking status that the engine itself found (R161, R162, R197, R305): its outputs hold no defined
content. -/
def engineBreak (s : State) (e id : Nat) (st : Status) : State :=
  let s := if (match (engine s e).run with | some r => r.step == id | none => false) then endRun s e else s
  let s := match (engine s e).intake.find? (fun w => w.step == id) with | some w => engineUngate s e w.part | none => s
  let s := if (match (engine s e).next with | some r => r.step == id | none => false) then dropLoad s e else s
  let s := modEngine s e (fun x => { x with intake := listDelFirst (fun w => w.step == id) x.intake })
  let s := match stepFind s id with
    | some y => if y.begun then s else beginStep s id e
    | none => s
  match stepFind s id with
  | some y => engStart (endStep (freeOutputs s y) y st) e false
  | none => s

/-! ### Fetching descriptors -/

/-- The descriptor to fetch next (R149): the rest of the running step, else the first of the next step. -/
def fetchNext (s : State) (e : Nat) : Option (EngStep × Nat) :=
  let x := engine s e
  match x.run with
  | none => (chosen s e).map (fun w => (w, w.next))
  | some r =>
    match x.intake.find? (fun w => w.step == r.step) with
    | none => none
    | some w =>
      if r.index + 1 < descCount s r.step then some (w, r.index + 1)
      else match serving s e with
        | none => none
        | some p => (x.intake.find? (fun w => w.part == p && w.step != r.step && decide (w.next < descCount s w.step))).map (fun w => (w, w.next))

/-- Ranges outside the windows of a step that are unmapped at an end are unmapped accesses (R36). -/
def logOutside (s : State) (p c init : Nat) (rs : List (Nat × Nat)) : State :=
  rs.foldl (fun s r =>
    if r.2 = 0 ∨ inWindows s p c r.1 r.2 then s
    else if !mapped s r.1 then logUnmapped s init r.1
    else if !mapped s (r.1 + r.2 - 1) then logUnmapped s init (r.1 + r.2 - 1) else s) s

/-- A descriptor that may not run: its step breaks at once, or where a descriptor of it is in the array, at the boundary.
MEC_INT_STATUS.MALFORMED and its event come of a malformed descriptor (R161, R183), not of an address outside the windows, whose event is
that of R36 (DESIGN CHOICE, log 131). -/
def fetchFails (s : State) (e : Nat) (r : EngRun) (st : Status) : State :=
  let s := if st = .aborted then setStatus s ⟨.mecIntStatus, e, 0⟩ 0 e r.index else s
  if (match (engine s e).run with | some q => q.step == r.step | none => false) then
    modEngine s e (fun x => { x with next := some { r with bad := st } })
  else engineBreak s e r.step st

/-- DESCRIPTOR_FETCH (R147, R149, R158 to R162, R305). -/
def execDescriptorFetch (e : Fin 8) (s : State) : Res :=
  let x := engine s e
  if x.next.isSome || !engineOpen s e then notDue s
  else match fetchNext s e with
    | none => notDue s
    | some (w, ix) =>
      match stepFind s w.step with
      | none => notDue s
      | some y =>
        let ha := (match y.body with | .engine d _ _ => d | _ => 0) + 128 * ix
        let r : EngRun := { step := w.step, part := w.part, ctx := y.ctx, index := ix, ha := ha, bytes := [] }
        if !inWindows s w.part y.ctx ha 128 then okT (fetchFails (logOutside s w.part y.ctx (initEngine e) [(ha, 128)]) e r .translationFault)
        else match gate s (.engine e) 0 (initEngine e) w.part 128 with
          | (s', false) => okT s'
          | (s', true) => match readNow s' ha 128 0 with
            | .wait v => okT (waitFor s v)
            | .bad s st => okT (fetchFails s e r st)
            | .done s b =>
              let r := { r with bytes := b }
              match engDescOf b, checkDesc s w.part y.ctx e ha b with
              | some d, .complete =>
                let s := modEngine s e (fun x => { x with next := some r })
                okT (engStart (wantPlane s e (d.tag r.part r.ctx)) e true)
              | some d, st => okT (fetchFails (logOutside s w.part y.ctx (initEngine e) d.ranges) e r st)
              | none, st => okT (fetchFails s e r (if st = .complete then .aborted else st))

/-! ### Planes -/

/-- Reads byte ranges at one instant. -/
def readAll (s : State) : List (Nat × Nat) → Now (List (List Byte))
  | [] => .done s []
  | r :: rs => match readNow s r.1 r.2 0 with
    | .done s b => match readAll s rs with
      | .done s bs => .done s (b :: bs)
      | .bad s st => .bad s st
      | .wait s => .wait s
    | .bad s st => .bad s st
    | .wait s => .wait s

def planeRanges (d : EngDesc) : List (Nat × Nat) := [(d.wb0, 65536), (d.wb1, if d.wb1 = 0 then 0 else 65536), (d.wscale, d.wScales)]

/-- Bytes of a list of ranges. -/
def rangeBytes (l : List (Nat × Nat)) : Nat := l.foldl (fun n r => n + r.2) 0

/-- Loads the plane of a descriptor from memory, forms the weights of the checksum column, and takes up the column map (R146, R163, R174,
R188). -/
def planeLoad (s : State) (e : Nat) (r : EngRun) (d : EngDesc) : Now Plane :=
  match readAll s (planeRanges d) with
  | .done s l =>
    let b0 := listGet [] l 0
    let b1 := listGet [] l 1
    let s := if d.w.elem = .nt then bump s ⟨.mecFmtErr, e, 0⟩ (ntErrors b0 + ntErrors b1) else s
    let spare (k : Nat) : Option Nat := if regBits s ⟨.mecSpare, e, k⟩ 31 31 = 1 then some (regBits s ⟨.mecSpare, e, k⟩ 8 0) else none
    let pl : Plane := { tag := some (d.tag r.part r.ctx), bale0 := b0, bale1 := b1, scales := listGet [] l 2, spares := (span 0 4).map spare }
    .done s (pl.checked d)
  | .bad s st => .bad s st
  | .wait s => .wait s

/-- PLANE_LOAD_DONE (R147, R149, R150): the shadow plane is loaded at time `t`; an array that waited for it starts. -/
def execPlaneLoadDone (e : Fin 8) (t : Nat) (s : State) : Res :=
  let x := engine s e
  match x.next, x.loading with
  | some r, some _ =>
    match r.desc with
    | none => notDue s
    | some d =>
      match gate s (.engine e) 1 (initEngine e) r.part (rangeBytes (planeRanges d)) with
      | (s', false) => okT s'
      | (s', true) =>
        let s' := advance s' t
        match planeLoad s' e r d with
        | .wait v => okT (waitFor s v)
        | .bad s st => okT (fetchFails (modEngine s e (fun x => { x with loading := none })) e r st)
        | .done s pl =>
          let s := if x.run.isNone then bump s ⟨.mecLoadStallClk, e, 0⟩ ((s.stage.hubTime - x.idleAt) * 3 / 2) else s
          okT (engStart (modEngine s e (fun x => { x with shadow := pl, loading := none })) e true)
  | _, _ => notDue s

/-! ### Guard tiles -/

/-- What a guard tile reads row by row: the activations and their block scales (R159). -/
def tileRanges (d : EngDesc) (g : Nat) : List (Nat × Nat) :=
  (d.tileRows g).flatMap (fun m => [(d.abase + m * d.astride, d.aBytes), (d.ascale + m * d.ascaleStride, d.aScales)])

/-- The weight scales that a plane does not hold, which are read with the tile (R147). -/
def moreScales (pl : Plane) (d : EngDesc) : Nat × Nat := (d.wscale + pl.scales.length, d.wScales - pl.scales.length)

/-- Pairs up the rows and scales that were read. -/
def pairRows : List Nat → List (List Byte) → List ActRow
  | m :: ms, a :: b :: l => { m := m, row := a, sc := b } :: pairRows ms l
  | _, _ => []

/-- The value in the accumulation SRAM of an output (R152, R153). -/
def accStart (x : Engine) (d : EngDesc) (m n : Nat) : Nat :=
  if d.accIn then sramAt x (d.accRow + m * d.rowsPer + n / 512) (n % 512) else 0

/-- Reads what a guard tile needs: the weight scales of the active plane's tile, and the tile's vectors. -/
def tileInputs (s : State) (e : Nat) (d : EngDesc) (g : Nat) : Now (List Byte × List ActRow) :=
  let pl := (engine s e).active
  match readAll s (moreScales pl d :: tileRanges d g) with
  | .done s (sc :: l) => .done s (pl.scales ++ sc, pairRows (d.tileRows g) l)
  | .done s [] => .done s (pl.scales, [])
  | .bad s st => .bad s st
  | .wait s => .wait s

/-- Runs a guard tile on the active plane under the flaws that it meets. -/
def tileRun (s : State) (e : Nat) (d : EngDesc) (fl : List Flaw) (i : List Byte × List ActRow) : TileRun :=
  let x := engine s e
  runTile d x.active i.1 fl i.2 (accStart x d)

/-- Writes byte ranges at one instant; the first error is the step's (R306). -/
def writeAll (s : State) (id : Nat) : List (Nat × List Byte) → Now Unit
  | [] => .done s ()
  | w :: ws => match writeNow s w.1 w.2 0 with
    | .done s _ => writeAll s id ws
    | .bad s st => writeAll (stepErr s id st) id ws
    | .wait s => .wait s

/-- Marks a numeric trip of a step (R201): one event for each step. -/
def numericTrip (s : State) (e : Nat) (r : EngRun) (d : EngDesc) : State :=
  let reg : Reg := ⟨.mecWbIntStatus, e, 0⟩
  let seen := (engine s e).intake.any (fun w => w.step == r.step && w.numeric)
  let s := modEngine s e (fun x => modEngStep x r.step (fun w => { w with numeric := true, strict := w.strict || d.strict }))
  if seen then
    let s := regSetBits s reg 3 3 1
    if regBits s ⟨.mecWbIntEn, e, 0⟩ 3 3 = 1 then raiseStatus s reg else s
  else setStatus s reg 3 e r.ha

/-- Counts the sentinels of a tile (R200). -/
def countTile (s : State) (e : Nat) (r : EngRun) (d : EngDesc) (t : TileRun) : State :=
  let s := bump (bump (bump s ⟨.mecWbSentNan, e, 0⟩ t.nan) ⟨.mecWbSentInf, e, 0⟩ t.inf) ⟨.mecWbSentThresh, e, 0⟩ t.thresh
  if 0 < t.nan + t.inf + t.thresh then numericTrip s e r d else s

/-- The outputs of a tile in memory (R159). -/
def tileWrites (d : EngDesc) (t : TileRun) : List (Nat × List Byte) × ConvCount :=
  t.rows.foldl (fun acc v =>
    let (o, sc, n) := outputRow d v.1 v.2
    let c := acc.2
    (acc.1 ++ [(d.obase + v.1 * d.ostride, o)] ++ (if sc.isEmpty then [] else [(d.oscale + v.1 * d.oscaleStride, sc)]),
     { nan := c.nan + n.nan, inf := c.inf + n.inf, ovf := c.ovf + n.ovf })) ([], {})

/-- Releases a guard tile (R153, R193): to the SRAM, or through the requantizer to memory. -/
def releaseTile (s : State) (e : Nat) (r : EngRun) (d : EngDesc) (t : TileRun) : Now Unit :=
  let next (x : Engine) : Engine := { x with run := x.run.map (fun r => { r with tile := r.tile + 1, ladder := none }) }
  if d.final then
    let (ws, n) := tileWrites d t
    match writeAll s r.step ws with
    | .done s _ =>
      let s := bump (bump (bump s ⟨.mecConvNan, e, 0⟩ n.nan) ⟨.mecConvInf, e, 0⟩ n.inf) ⟨.mecConvOvf, e, 0⟩ n.ovf
      let s := if 0 < n.nan + n.inf + n.ovf then numericTrip s e r d else s
      let s := undefRows s e (t.rows.flatMap (fun v => span (d.accRow + v.1 * d.rowsPer) d.rowsPer))
      .done (modEngine s e next) ()
    | .bad s st => .bad s st
    | .wait s => .wait s
  else
    let put (x : Engine) (v : Nat × List Nat) : Engine :=
      (span 0 d.rowsPer).foldl (fun x i => sramPut x (d.accRow + v.1 * d.rowsPer + i) ((v.2.drop (512 * i)).take 512)) x
    .done (modEngine s e (fun x => next (t.rows.foldl put x))) ()

/-- Bytes of a tile's traffic (R150). The ranges of a tile, and those of a plane, are charged as one request each, cut in pieces of 256
bytes (DESIGN CHOICE, log 131). -/
def tileBytes (pl : Plane) (d : EngDesc) (g : Nat) : Nat :=
  rangeBytes (moreScales pl d :: tileRanges d g) + (d.tileRows g).length * (d.oBytes + d.oScales)

/-- The first fault trip since the last clear (R213), which a later one of the same tile does not replace (DESIGN CHOICE, log 131). KIND 1
column check, 2 row check, 3 unresolved. -/
def lastTrip (s : State) (e kind column tile block : Nat) : State :=
  let r : Reg := ⟨.mecWbLast, e, 0⟩
  if regBits s r 63 63 = 1 then s
  else regPut s r (2 ^ 63 + kind * 2 ^ 60 + column * 2 ^ 48 + tile * 2 ^ 40 + block * 2 ^ 32 + s.stage.number % 2 ^ 32)

/-- A run of a guard tile tripped a check (R189, R191). -/
def TileRun.tripped (t : TileRun) : Bool := !t.colTrips.isEmpty || !t.rowTrips.isEmpty

/-- Counts the trips of a run (R212) and records the first of them (R213): the column check trips while the tile runs, the row check at its
end. -/
def countTrips (s : State) (e tile : Nat) (t : TileRun) : State :=
  let s := bump (bump s ⟨.mecWbColTrip, e, 0⟩ t.colTrips.length) ⟨.mecWbRowTrip, e, 0⟩ t.rowTrips.length
  match t.colTrips, t.rowTrips with
  | v :: _, _ => lastTrip s e 1 0x3FF tile v.2
  | [], c :: _ => lastTrip s e 2 c tile 0xFF
  | [], [] => s

def modRun (s : State) (e : Nat) (f : EngRun → EngRun) : State := modEngine s e (fun x => { x with run := x.run.map f })

def setLadder (s : State) (e : Nat) (l : Ladder) : State := modRun s e (fun r => { r with ladder := some l })

/-- The checksum comparisons run for a descriptor (R187, R193). -/
def checksRun (s : State) (e : Nat) (d : EngDesc) : Bool := !d.chkOff || regBits s ⟨.mecWbCtrl, e, 0⟩ 0 0 == 1

/-- A read of the running descriptor failed (R305). -/
def runFails (s : State) (e : Nat) (r : EngRun) (st : Status) : State := engineBreak s e r.step st

/-- A run of a guard tile ends with its checks ready (R192, R193, R200): the sentinels and the skipped columns count, the checksum row holds
its sums, the clocks add up. A trip costs 24 clocks more: the tile that follows is discarded (R195). -/
def tileRan (s : State) (e : Nat) (r : EngRun) (d : EngDesc) (t : TileRun) (clk : Nat) (chk : Bool) : State :=
  let s := countTile s e r d t
  let s := if chk then bump s ⟨.mecWbUnchecked, e, 0⟩ t.unchecked else s
  let s := modRun s e (fun r => { r with sums := t.sums, clocks := r.clocks + clk + (if chk && t.tripped then 24 else 0) })
  if chk then countTrips s e r.tile t else s

/-- GUARD_CHECK_DONE (R184 to R206): a guard tile has left the array and its checks are ready; `flaws` are the faults of the silicon that
its run met. A tile whose checks find nothing is released, a trip begins the ladder. -/
def execGuardCheckDone (e : Fin 8) (flaws : List Flaw) (s : State) : Res :=
  if !flaws.all flawOk then illFormed
  else match (engine s e).run with
  | none => notDue s
  | some r => match r.desc with
    | none => notDue s
    | some d =>
      if r.ladder.isSome || decide (d.tiles ≤ r.tile) then notDue s
      else match gate s (.engine e) (2 + r.tile) (initEngine e) r.part (tileBytes (engine s e).active d r.tile) with
        | (s', false) => okT s'
        | (s', true) => match tileInputs s' e d r.tile with
          | .wait v => okT (waitFor s v)
          | .bad s'' st => okT (runFails s'' e r st)
          | .done s'' i =>
            let t := tileRun s'' e d flaws i
            let chk := checksRun s e d
            let w := tileRan s'' e r d t (i.2.length * vectorClocks d (d.narrow && !t.escalated)) chk
            let w := if !d.narrow then w
              else bump w ⟨if t.escalated then .mecWbEscalated else .mecWbNarrowTiles, e, 0⟩ 1
            if chk && t.tripped then okT (setLadder w e { rung := 1, column := none })
            else match releaseTile w e r d t with
              | .wait v => okT (waitFor s v)
              | .bad s _ => okT s
              | .done s _ => okT s

/-! ### The fault ladder -/

/-- The lowest-numbered spare column that is free (R175). -/
def freeSpare (s : State) (e : Nat) : Option Nat := (span 0 4).find? (fun k => regBits s ⟨.mecSpare, e, k⟩ 31 31 == 0)

/-- An engine leaves service (R176, R198): its descriptor ends, and every step goes back to the scheduler, which sends it to another
engine of its mask, where its outcome is that of its new run (R202). A step whose abort, lateness or reset is under way ends with it (R173,
R199). -/
def engineOut (s : State) (e : Nat) : State :=
  let s := endRun s e
  let ws := (engine s e).intake
  let s := ungate s (fun h => h.req.who == .engine e)
  let s := modEngine s e (fun x => { x with outOfService := true, next := none, loading := none, intake := [] })
  let s := setStatus s ⟨.mecIntStatus, e, 0⟩ 2 e 0
  ws.foldl (fun s w =>
    let s := if w.begun then undefRows s e w.rows else s
    match stepFind s w.step with
    | some y =>
      let mask := match y.body with | .engine _ _ m => m | _ => 0
      match y.phase with
      | .cancelling st => breakStep s y st
      | _ =>
        if (span 0 8).any (fun k => bitOf mask k && engineLicensed s k && !(engine s k).outOfService) then
          modStep (freeOutputs s y) w.step (fun y => { y with phase := .waiting, err := .complete })
        else breakStep s y .aborted
    | none => s) s

/-- A failed column takes the lowest free spare (R174, R175): both tags are cleared. The running descriptor's plane is
reloaded with the rerun. None where no spare is free. -/
def remapColumn (s : State) (e column : Nat) : Option State :=
  match freeSpare s e with
  | none => none
  | some k =>
    let s := regPut s ⟨.mecSpare, e, k⟩ (2 ^ 31 + column)
    let s := setStatus s ⟨.mecIntStatus, e, 0⟩ 1 e column
    let again (x : Engine) : Option PlaneTag := match x.next with
      | some r => if r.bad = .complete then r.desc.map (fun d => d.tag r.part r.ctx) else none
      | none => none
    some (modEngine s e (fun x => { x with active := { x.active with tag := none }, shadow := {}, loading := again x }))

/-- A guard tile is unresolved (R197); the record names the logical column that the ladder has localized, if any (R213). -/
def unresolved (s : State) (e : Nat) (r : EngRun) (column : Option Nat) : State :=
  let s := lastTrip (bump s ⟨.mecWbUnresolved, e, 0⟩ 1) e 3 (column.getD 0x3FF) r.tile 0xFF
  engineBreak (setStatus s ⟨.mecWbIntStatus, e, 0⟩ 2 e r.ha) e r.step .guardUnresolved

/-- Rung 3 (R195, R198): the one physical column that the logical columns named lie on is remapped, unless the descriptor forbids it. -/
def rung3 (s : State) (e : Nat) (r : EngRun) (d : EngDesc) (columns : List Nat) : State :=
  match (columns.map (engine s e).active.phys).eraseDups, columns with
  | [_], c :: _ =>
    if d.noRemap then unresolved s e r (some c)
    else match remapColumn s e (c % 512) with
      | some s => setLadder s e { rung := 3, column := some c }
      | none => engineOut (bump s ⟨.mecWbUnresolved, e, 0⟩ 1) e
  | _, _ => unresolved s e r none

/-- The clocks of a plane load (R150). -/
def planeClocks (d : EngDesc) : Nat := (rangeBytes (planeRanges d) + 511) / 512

/-- A rerun of the held tile (R195), with the plane reloaded where `reload`: `extra` clocks are added to its normal run. What follows it is
`clean` once it has been released, or `again` of the vectors that it ran and what they gave. -/
def rerunTile (s : State) (e : Fin 8) (r : EngRun) (d : EngDesc) (fl : List Flaw) (reload : Bool) (extra : Nat)
    (again : State → TileRun → List ActRow → Option State) (clean : State → State) : Res :=
  let pl0 : Plane := if reload then {} else (engine s e).active
  let bytes := if reload then rangeBytes (planeRanges d) + tileBytes { pl0 with scales := List.replicate d.wScales 0 } d r.tile
    else tileBytes pl0 d r.tile
  match gate s (.engine e) (2 + r.tile) (initEngine e) r.part bytes with
  | (s', false) => okT s'
  | (s', true) => match (if reload then planeLoad s' e r d else .done s' pl0) with
    | .wait v => okT (waitFor s v)
    | .bad s' st => okT (runFails s' e r st)
    | .done s' pl =>
      let s' := modEngine s' e (fun x => { x with active := pl })
      match tileInputs s' e d r.tile with
      | .wait v => okT (waitFor s v)
      | .bad s' st => okT (runFails s' e r st)
      | .done s' i =>
        let t := tileRun s' e d fl i
        let load := if reload then planeClocks d else 0
        let w := bump s' ⟨.mecLoadStallClk, e, 0⟩ load
        let w := tileRan w e r d t (i.2.length * vectorClocks d false + load + extra) true
        match again w t i.2 with
        | some w => okT w
        | none => match releaseTile w e r d t with
          | .wait v => okT (waitFor s v)
          | .bad s' _ => okT s'
          | .done s' _ => okT (clean s')

/-- The columns that rung 2 takes from the row check where the trip was one (R195): the trip of the rung 1 rerun decides, and a row-check
trip goes before the column-check trips of the same run (DESIGN CHOICE, log 131). -/
def afterRung1 (e : Nat) (r : EngRun) (d : EngDesc) (w : State) (t : TileRun) : Option State :=
  if !t.tripped then none
  else some (if t.rowTrips.isEmpty then setLadder w e { rung := 2, column := none } else rung3 w e r d t.rowTrips)

/-- LADDER_RERUN_DONE (R195 to R199): the rerun of rung 1 or 3, or the localizing rerun of rung 2, which appends the checksum vector
(R196); `flaws` are the faults of the silicon that the tile met, `feed` those that the checksum vector met. -/
def execLadderRerunDone (e : Fin 8) (flaws : List Flaw) (feed : List FeedFlaw) (s : State) : Res :=
  if !(flaws.all flawOk && feed.all feedFlawOk) then illFormed
  else match (engine s e).run with
  | none => notDue s
  | some r => match r.desc, r.ladder with
    | some d, some l =>
      if l.rung = 1 then
        rerunTile s e r d flaws true 0 (fun w t _ => afterRung1 e r d w t)
          (fun s => setStatus (bump s ⟨.mecWbTransient, e, 0⟩ 1) ⟨.mecWbIntStatus, e, 0⟩ 0 e r.ha)
      else if l.rung = 2 then
        rerunTile s e r d flaws false 12 (fun w _ acts => some (rung3 w e r d (namedColumns d (engine w e).active flaws feed acts))) id
      else
        rerunTile s e r d flaws true 0 (fun w t _ => if t.tripped then some (unresolved w e r l.column) else none)
          (fun s => setStatus (bump s ⟨.mecWbRemap, e, 0⟩ 1) ⟨.mecWbIntStatus, e, 0⟩ 1 e r.ha)
    | _, _ => notDue s

/-! ### The end of a descriptor and of a step -/

/-- DESCRIPTOR_END (R149, R151, R165 to R168): every guard tile of the descriptor is released at time `t`, not before the clocks
that R151 gives have passed; the engine goes on with what the slot map chooses. -/
def execDescriptorEnd (e : Fin 8) (t : Nat) (s : State) : Res :=
  match (engine s e).run with
  | none => notDue s
  | some r => match r.desc with
    | none => notDue s
    | some d =>
      if r.ladder.isSome || decide (r.tile < d.tiles) || decide (3 * t < 3 * r.start + 2 * r.clocks) then notDue s
      else
        let s := endRun (bump (advance s t) ⟨.mecDescDone, e, 0⟩ 1) e
        match (engine s e).next with
        | some n => if n.bad = .complete then okT (engStart s e false)
          else if n.step = r.step then okT (engineBreak s e n.step n.bad) else okT s
        | none => okT s

/-- ENGINE_STEP_COMMIT (R58, R164, R201, R424): the writes of the last descriptor are accepted. -/
def execEngineStepCommit (e : Fin 8) (part : Fin 9) (s : State) : Res :=
  let x := engine s e
  match x.intake.find? (fun w => w.part == part.val) with
  | none => notDue s
  | some w =>
    let running := match x.run with | some r => r.step == w.step | none => false
    if !w.begun || running || decide (w.next < descCount s w.step) then notDue s
    else match stepFind s w.step with
      | none => notDue s
      | some y =>
        let st := if y.err ≠ .complete then y.err else if w.strict then .guardUnresolved else .complete
        let s := putEngine s e { x with intake := listDelFirst (fun v => v.step == w.step) x.intake }
        okT (engStart (commitStep s y st) e true)

/-- MEC_DRAIN and MEC_ENABLE (R177): the fields of MEC_CTRL. -/
def execMecDrain (e : Fin 8) (v : Bool) (s : State) : Res :=
  okT (engStart (regSetBits s ⟨.mecCtrl, e, 0⟩ 1 1 (b2n v)) e true)
def execMecEnable (e : Fin 8) (v : Bool) (s : State) : Res :=
  okT (engStart (regSetBits s ⟨.mecCtrl, e, 0⟩ 0 0 (b2n v)) e true)

/-- A step is the unit's: an engine's, a cluster's, or a queue's for its TIER and COPY steps. -/
def Step.ofUnit (x : Step) (u : CancelUnit) : Bool :=
  match u, x.body with
  | .engine e, .engine _ _ _ => x.unit == e
  | .cluster k, .porter _ _ _ _ => x.unit == k
  | .queue q, .tier _ _ => x.queue == q
  | .queue q, .copy _ _ _ _ => x.queue == q
  | _, _ => false

/-- STEP_CANCEL_DONE (R61, R568): a unit finishes cancelling. -/
def execStepCancelDone (u : CancelUnit) (s : State) : Res :=
  let due := s.work.steps.filter (fun x => x.ofUnit u && x.cancelling)
  let busy := match u with
    | .engine e => (engine s e).cancelling
    | .cluster k => (cluster s k).cancelling
    | .queue _ => false
  if due.isEmpty && !busy then notDue s
  else
    let s := due.foldl (fun s x => match x.phase with | .cancelling st => breakStep s x st | _ => s) s
    let s := match u with
      | .engine e => engStart (modEngine s e (fun x => { x with cancelling := false })) e true
      | .cluster k => clusterNext (modCluster s k (fun c => { c with cancelling := false })) k
      | .queue _ => s
    okT s

end Sys2Proof.Machine
end

