-- ==== Sys2Proof/Machine/Home.lean ====
section
/-!
DEFINITION. Requests of the porter cores at the home of a line, held requests, the return of misses, deadlines that expire,
the way sweep and the zeroing of granules (R62 to R66, R72, R325 to R330, R395, R547).
-/
namespace Sys2Proof.Machine

/-! ### Admission -/

/-- An earlier request of the initiator waits at its admission point (R72). -/
def admissionHeld (s : State) (init p : Nat) : Bool :=
  s.stage.held.any (fun h => h.init == init && h.part == p && !h.instant)

/-- Data slots of a chiplet's request (R385, R470). -/
def dataSlots (op : ReqOp) : Nat := match op with | .wbDirty => 8 | .wrFull => 8 | .wrPart => 9 | _ => 0

/-- What a request carries of its admission (R72): the arbiters serve guaranteed pieces first. -/
def Req.admitted (r : Req) (a : Admission) : Req := { r with guar := a == .guaranteed }

/-- An admitted request goes to its home; the data credits of a chiplet's return (R484). -/
def forward (s : State) (r : Req) : State :=
  let s := match r.who with
    | .chiplet _ _ => if dataSlots r.op = 0 then s else returnCredit s (r.init / 64) (dataSlots r.op) 0 0
    | _ => s
  arrive s r

/-- A request passes its initiator's admission point and arrives at its home, or waits there in order (R72). -/
def presentReq (s : State) (r : Req) (cls bytes : Nat) : State :=
  let p := initPart s r.init
  if admissionHeld s r.init p || admission s r.init p cls == .held then
    { s with stage := { s.stage with held := s.stage.held ++ [{ init := r.init, part := p, cls := cls, bytes := bytes, req := r }] } }
  else forward (charge s r.init p cls bytes) (r.admitted (admission s r.init p cls))

/-- Bytes that a mask selects. -/
def maskCount (m : BitVec 128) : Nat := ((span 0 128).filter (fun k => m.getLsbD k)).length

/-- HOME_READ (R62, R72, R325): the read that a core waits for leaves its cluster and reaches its home. -/
def execHomeRead (c : Fin 25600) (s : State) : Res :=
  let n := c.val
  let x := core s n
  match awaitedRead x with
  | none => notDue s
  | some (line, deadline, hint) =>
    if x.sent then notDue s
    else
      let r : Req := { who := .core n, op := .rdCur, line := line, hint := hint, deadline := deadlineAt s deadline,
                       init := initCluster (n / 16) }
      let bytes := match x.wait with | .fill _ => 64 | _ => 128
      okT (presentReq (putCore s n { x with sent := true }) r 0 bytes)

/-- The oldest write of a line in a core's range tracker that has not left the cluster. -/
def nextWrite (x : Core) (line : Nat) : Option LineWrite :=
  x.tracker.findSome? (fun t => t.writes.find? (fun w => !w.sent && w.line == line))

def markSent (line : Nat) (l : List Track) : List Track :=
  listModFirst (fun t => t.writes.any (fun w => !w.sent && w.line == line))
    (fun t => { t with writes := listModFirst (fun w => !w.sent && w.line == line) (fun w => { w with sent := true }) t.writes }) l

/-- HOME_WRITE (R72, R231, R325): a write of a core's range tracker reaches the home of its line. -/
def execHomeWrite (c : Fin 25600) (line : Nat) (s : State) : Res :=
  let n := c.val
  let x := core s n
  match nextWrite x line with
  | none => notDue s
  | some w =>
    -- what a step has written holds no defined content if it is cancelled (R60)
    let s := if w.step then modCluster s (n / 16) (fun c => if c.running.isSome then { c with written := c.written ++ [(line, w.mask)] } else c) else s
    let op : ReqOp := if w.mask = BitVec.allOnes 128 then .wrFull else .wrPart
    let r : Req := { who := .core n, op := op, line := line, data := w.data, mask := w.mask, hint := w.hint,
                     init := initCluster (n / 16) }
    okT (presentReq (putCore s n { x with tracker := markSent line x.tracker }) r 0 (maskCount w.mask))

/-! ### Held requests and misses -/

/-- LINE_UNBUSY (R39, R326, R395): the next request held for a line that is not busy is taken up. -/
def execLineUnbusy (line : Nat) (s : State) : Res :=
  match nextHeld s line with
  | none => notDue s
  | some s => okT (serveHeld 16 s line)

/-- Every request of a transaction is answered with a status and the entry is freed (R363). -/
def failTxn (s : State) (t : Txn) (st : Status) : State :=
  t.requests.foldl (fun s r => answerErr s r st) (txnDel s t.line)

/-- The data of a miss whose partition's lines find no way (log 123) serves its first request from HBM; the requests behind it look again. -/
def serveUnplaced (s : State) (t : Txn) (d : Line) : State :=
  let s := txnPut s { t with missing := false, hbmSent := false, hbmDone := none }
  let s := match t.req with
    | none => endTxn s t.line
    | some r =>
      if r.dropped then endTxn s t.line
      else if r.isWrite || r.op == .wbDirty then
        let w := r.asWrite
        let s := lowerWrite s t.line (if w.op = .wrFull then w.data else mergeLine d w.data w.mask) false
        endTxn (answerCmp (countLateWrite (dirSet s t.line none) r) r .complete 0) t.line
      else readHome s r d id
  serveHeld 16 s t.line

/-- MISS_FILL_RETURN (R327, R363): the data of an HBM line comes to its slice, which allocates the line and serves the merged
requests in their order; an uncorrectable line is not allocated. -/
def execMissFillReturn (line : Nat) (s : State) : Res :=
  match txnFind s line with
  | none => notDue s
  | some t =>
    if !t.missing || !isHbm (lineHa line) then notDue s
    else match t.hbmDone with
      | none => notDue s
      | some .complete =>
        let (d, p) := lowerLine s line
        if p then okT (failTxn s t .uncorrectable)
        else match seraiAlloc s line ((t.req.map Req.hint).getD 0) d false false with
          | .way _ s => okT (serveMiss s line)
          | .bale v => okT (askLeave s v)
          | .noWay => if bypasses s line then okT (serveUnplaced s t d) else notDue s
          | .noBuffer => notDue s
      | some st => okT (failTxn s t st)

/-! ### Deadlines that expire -/

/-- A read of an initiator for a line with a deadline, that has not been dropped. -/
def Req.isLate (r : Req) (who : Issuer) (line : Nat) : Bool :=
  r.who == who && r.line == line && r.isRead && r.deadline != 0 && !r.dropped

/-- DEADLINE_EXPIRY (R64, R65): a read that waits at no decision point is dropped once its deadline has passed: at its
admission point, at the slice input, merged, or with its entry's HBM read outstanding. -/
def execDeadlineExpiry (who : Issuer) (line : Nat) (s : State) : Res :=
  match s.stage.held.find? (fun h => !h.instant && h.req.isLate who line) with
  | some h =>
    let s := advance s h.req.deadline
    ok (dropLate { s with stage := { s.stage with held := listDelFirst (fun q => q == h) s.stage.held } } h.req)
  | none => match s.mem.heldIn.find? (fun r => r.isLate who line) with
    | some r =>
      let s := advance s r.deadline
      ok (dropLate { s with mem := { s.mem with heldIn := listDelFirst (fun q => q == r) s.mem.heldIn } } r)
    | none => match txnFind s line with
      | none => notDue s
      | some t => match t.merged.find? (fun r => r.isLate who line) with
        | some r =>
          let s := advance s r.deadline
          ok (dropLate (txnPut s { t with merged := listModFirst (fun q => q == r) (fun q => { q with dropped := true }) t.merged }) r)
        | none => match t.req with
          | some r =>
            if t.missing && r.isLate who line then
              let s := advance s r.deadline
              ok (dropLate (txnPut s { t with req := some { r with dropped := true } }) r)
            else notDue s
          | none => notDue s

/-! ### Marks: the way sweep and zeroing -/

/-- Serai lines that a test on their place and content accepts, with their slices and ways. -/
def seraiWhere (s : State) (p : Nat → Nat → Nat → SeraiLine → Bool) : List (Nat × SeraiLine) :=
  s.mem.serai.filterMap (fun e => match e.2 with
    | some l => if p (e.1 / 16384) (e.1 / 16 % 1024) (e.1 % 16) l then some (e.1 % 16, l) else none
    | none => none)

/-- The ownership of the ways of its slice allows a line in a way (R329, R330, R337): Customs' way holds the image's lines, a way that the
partition borrows its own. -/
def wayAllows (s : State) (w line : Nat) : Bool :=
  let tile := homeTile s line
  let p := partOf s (lineHa line)
  if isImage (lineHa line) then wayOwnerAt s tile w == 0xE
  else wayOwnerAt s tile w != 0xE && (wayOwnerAt s tile w == 0xF || wayOwnerAt s tile w == p || (usableWays s p tile).contains w)

/-- WAY_SWEEP_DONE (R330): every slice has swept the ways that left their owner: dirty HBM lines are written back, lines
that the new ownership does not allow leave, a tier line with its whole bale. -/
def execWaySweepDone (s : State) : Res :=
  if s.mem.sweep.isEmpty then notDue s
  else
    let ls := seraiWhere s (fun _ _ w _ => s.mem.sweep.contains w)
    let s := ls.foldl (fun s e =>
      let line := e.2.line
      if isTier (lineHa line) then
        if wayAllows s e.1 line then s else askLeave s line
      else if isImage (lineHa line) then s
      else
        let s := seraiClean s line
        if wayAllows s e.1 line then s else seraiDrop s line) s
    okT { s with mem := { s.mem with sweep := [] } }

/-- A granule reads as zeros: no listed byte, no undefined content, no poison (R547). -/
def zeroGranule (m : HbmMem) (g : Nat) : HbmMem :=
  { cells := m.cells.filter (fun c => c.1 / 2 ^ 30 != g), undef := smSet 0 m.undef g 0,
    poison := m.poison.filter (fun k => k / 2 ^ 24 != g) }

/-- GRANULE_ZEROING_DONE (R547): the zeroing of a granule that changed its owner ends. -/
def execGranuleZeroingDone (g : Nat) (s : State) : Res :=
  match smGet none s.work.zeroing g with
  | none => notDue s
  | some _ =>
    let s := putHbm s (zeroGranule (hbm s) g)
    ok { s with work := { s.work with zeroing := smSet none s.work.zeroing g none } }

end Sys2Proof.Machine
end

