-- ==== Sys2Proof/Machine/Maintain.lean ====
section
/-!
DEFINITION. Maintenance of the Serai (R331 to R335): the start of a command, its refusals, its effect on each line, its end.
-/
namespace Sys2Proof.Machine

def maintReg (s : State) (n : RegName) (fn : Nat) : Nat := regRaw s ⟨n, 0, fn⟩
def maintResult (s : State) (fn v : Nat) : State := regSetBits s ⟨.sriMaintStatus, 0, fn⟩ 11 8 v

/-- The HBM range or tier block that a partition function may name (R332). -/
def maintInRange (s : State) (fn a n : Nat) : Bool :=
  if fn = 0 then true
  else if isTier a then decide (tierFn a = fn) && decide (tierFn (a + n - 1) = fn) && isTier (a + n - 1)
  else (span (a / 2 ^ 30) ((a + n - 1) / 2 ^ 30 + 1 - a / 2 ^ 30)).all (fun g => (part s fn).granules.any (fun e => e.granule == g))

/-- Why the interface refuses a command that is not met by a running one (R332): the first line of its table that holds. -/
def maintRefusal (s : State) (fn op : Nat) (setWay : Bool) : Option Nat :=
  let a := maintReg s .sriMaintAddr fn
  let n := maintReg s .sriMaintLen fn
  let e := a + n
  let tier := decide (a < 0x2_0000_0000_0000) && decide (tierBase < e)
  if op = 0 ∨ 5 < op then some 2
  else if setWay then (if fn ≠ 0 ∨ op = 4 then some 1 else none)
  else
    let unit := if tier then 65536 else 128
    if n = 0 ∨ a % unit ≠ 0 ∨ n % unit ≠ 0 then some 2
    else if !maintInRange s fn a n then some 1
    else if op = 4 ∧ tier then some 1
    else if a < imageEnd ∧ imageBase < e then some 1
    else none

/-- The scope that the registers of a function's block name. -/
def maintScope (s : State) (fn op : Nat) (setWay : Bool) : Maint :=
  let a := maintReg s .sriMaintAddr fn
  let n := maintReg s .sriMaintLen fn
  let w := maintReg s .sriMaintSetway fn
  if setWay then { op := op, setWay := true, lo := bitsOf w 9 0, hi := bitsOf w 25 16, ways := bitsOf w 62 48, tile := bitsOf w 39 32 }
  else { op := op, setWay := false, lo := a / 128, hi := (a + n) / 128 - 1, ways := 0, tile := 0xFF }

/-- A valid line in its place is in scope; way 15 never is (R336). -/
def Maint.holds (m : Maint) (tile set way : Nat) (l : SeraiLine) : Bool :=
  decide (way ≠ 15) &&
  (if m.setWay then decide (m.lo ≤ set) && decide (set ≤ m.hi) && bitOf m.ways way && (m.tile == 0xFF || m.tile == tile)
   else decide (m.lo ≤ l.line) && decide (l.line ≤ m.hi))

/-- The lines of the Serai in scope, ascending. -/
def maintLines (s : State) (m : Maint) : List Nat := (seraiWhere s m.holds).foldl (fun l e => setAdd l e.2.line) []

/-- The lines of an address range with a directory entry. -/
def maintDir (s : State) (m : Maint) : List Nat :=
  if m.setWay then []
  else s.mem.dir.foldl (fun l e => match e.2 with
    | some d => if m.lo ≤ d.line ∧ d.line ≤ m.hi then setAdd l d.line else l
    | none => l) []

/-- Bales that a command acts on as a whole (R331): those with a line in scope, and those of the range whose fill is pending, which are
acted on behind it (R333). Each is named by its address in units of 64 KiB. -/
def maintBales (s : State) (m : Maint) : List Nat :=
  let here := (maintLines s m ++ maintDir s m).filter (fun l => isTier (lineHa l))
  let fills := if m.setWay then [] else (s.tier.ops.filter (fun o => (match o.kind with | .fill _ => true | _ => false) &&
    decide (m.lo ≤ baleLine o.fn o.bale) && decide (baleLine o.fn o.bale ≤ m.hi))).map (fun o => baleLine o.fn o.bale)
  (here ++ fills).foldl (fun l x => setAdd l (x / 512)) []

/-- The operation on a bale of OP 1, 2 and 3. -/
def maintKind (op : Nat) : TierKind := match op with | 1 => .writeback | 2 => .discard | _ => .evict

/-- GO is written (R332, R342). A command that starts asks the tier engines for the bales in scope. -/
def maintGo (s : State) (fn op : Nat) (setWay : Bool) : State :=
  let s := regSetBits (regSetBits s ⟨.sriMaintCmd, 0, fn⟩ 4 4 (b2n setWay)) ⟨.sriMaintCmd, 0, fn⟩ 2 0 op
  if (smGet none s.mem.maint fn).isSome then maintResult s fn 3
  else match maintRefusal s fn op setWay with
    | some r => maintResult s fn r
    | none =>
      let m := maintScope s fn op setWay
      let s := regPut (regSetBits s ⟨.sriMaintStatus, 0, fn⟩ 0 0 1) ⟨.sriMaintCount, 0, fn⟩ 0
      let bales := if op = 1 ∨ op = 2 ∨ op = 3 then maintBales s m else []
      let s := { s with mem := { s.mem with maint := smSet none s.mem.maint fn (some m) } }
      bales.foldl (fun s b => match tierCtx s (65536 * b) with
        | some (c, x) => queueOpFor s c x.fn (b % 2 ^ 26) (maintKind op) none (some fn) false
        | none => dropBale s (tierFn (65536 * b)) (b % 2 ^ 26)) s

/-- A command of the maintenance interface of a function: the write of GO with its operation. -/
def maintCmd (fn : Fin 9) (op : Nat) (setWay : Bool) (s : State) : Res := okT (maintGo s fn.val op setWay)

def execClean (fn : Fin 9) (setWay : Bool) (s : State) : Res := maintCmd fn 1 setWay s
def execInv (fn : Fin 9) (setWay : Bool) (s : State) : Res := maintCmd fn 2 setWay s
def execCleanInv (fn : Fin 9) (setWay : Bool) (s : State) : Res := maintCmd fn 3 setWay s
def execPreloadLock (fn : Fin 9) (setWay : Bool) (s : State) : Res := maintCmd fn 4 setWay s
def execUnlock (fn : Fin 9) (setWay : Bool) (s : State) : Res := maintCmd fn 5 setWay s

/-! ### The effect on a line -/

/-- A line is unlocked: normal class, most recently used (R331). -/
def unlockLine (s : State) (line : Nat) : State :=
  match seraiFind s line with
  | some (w, l) =>
    let (u, s) := nextMru s
    seraiSetLine s line w (some { l with locked := false, cls := .normal, used := u })
  | none => s

/-- A set/way command skips a locked line for OP 2 and 3 (R331): it is not acted on. -/
def maintSkips (s : State) (m : Maint) (line : Nat) : Bool :=
  m.setWay && (m.op == 2 || m.op == 3) && (match seraiFind s line with | some (_, l) => l.locked | none => false)

/-- OP 1, 2, 3 and 5 on one line. Address scope recalls modified chiplet copies for OP 1 and 3 and invalidates every chiplet
copy for OP 2 and 3. An invalidation without write-back leaves what HBM holds, older writes of the line included (R350). -/
def maintLine (s : State) (m : Maint) (line : Nat) : State :=
  let s := if m.setWay then s else match m.op with
    | 1 => recallNow s line false true
    | 2 => recallNow s line true false
    | 3 => recallNow s line true true
    | _ => s
  match m.op with
    | 1 => seraiClean s line
    | 2 => seraiDrop s line
    | 3 => seraiDrop (seraiClean s line) line
    | _ => unlockLine s line

/-- A free way for a locked line (R334): an invalid lock way of the issuing partition in the line's set, else one that holds an
HBM line which is not locked. -/
def lockWayFor (s : State) (p line : Nat) : Option Nat :=
  let tile := homeTile s line
  let ws := (span 0 15).filter (fun w => bitOf (part s p).lockWays w && !wayDisabled s tile w && !s.mem.sweep.contains w && !s.mem.wayClosing.contains (16 * tile + w))
  match ws.find? (fun w => (seraiAt s tile (homeSet line) w).isNone) with
  | some w => some w
  | none => ws.find? (fun w => match seraiAt s tile (homeSet line) w with
    | some l => !l.locked && isHbm (lineHa l.line)
    | none => false)

/-- PRELOAD_LOCK on one line (R334): false where it is not locked. -/
def lockLine (s : State) (p line : Nat) : State × Bool :=
  let put (s : State) (w : Nat) (l : SeraiLine) : State :=
    let s := match seraiAt s (homeTile s line) (homeSet line) w with
      | some old => if old.line = line then s else seraiDrop (seraiClean s old.line) old.line
      | none => s
    let (u, s) := nextMru s
    seraiSetLine (seraiDrop s line) line w (some { l with locked := true, used := u })
  match seraiFind s line with
  | some (w, l) =>
    if bitOf (part s p).lockWays w then (put s w l, true)
    else match lockWayFor s p line with
      | some v => (put s v l, true)
      | none => (s, false)
  | none =>
    if populated s ≤ lineHa line then (logUnmapped s 0 (lineHa line), false)
    else match lockWayFor s p line with
      | none => (s, false)
      | some v =>
        let s := recallNow s line false true
        match seraiFind s line with
        | some (_, l) => (put s v l, true)
        | none =>
          let (s, d, bad) := missNow s line
          if bad then (s, false)
          else (put s v { line := line, data := d, cls := .normal, dirty := false, locked := true, used := 0 }, true)

/-- The HBM lines that a command reads or writes below the Serai. -/
def maintHbm (s : State) (m : Maint) : List Nat :=
  if m.op = 4 then (span m.lo (m.hi + 1 - m.lo)).filter (fun l => (seraiFind s l).isNone)
  else (maintLines s m).filter (fun l => isHbm (lineHa l) && (match seraiFind s l with | some (_, x) => x.dirty | none => false))

/-- Something that the command must still wait for: a busy line in scope, a bale (R333), room at a controller (R39). -/
def maintWaits (s : State) (fn : Nat) (m : Maint) : Bool :=
  s.tier.ops.any (fun o => o.maint == some fn) ||
  ((m.op == 1 || m.op == 3 || m.op == 4) && (maintHbm s m).any (fun l => hbmBusy s (lineHa l) 128)) ||
  s.mem.txns.any (fun t => if m.setWay then (maintLines s m).contains t.line else decide (m.lo ≤ t.line) && decide (t.line ≤ m.hi))

/-- The command has reached every line: HBM lines take its effect, DONE and MISSED count (R331, R334). -/
def maintRun (s : State) (fn : Nat) (m : Maint) : State × Nat × Nat :=
  if m.op = 4 then
    (span m.lo (m.hi + 1 - m.lo)).foldl (fun (acc : State × Nat × Nat) l =>
      let (s, ok) := lockLine acc.1 fn l
      if ok then (s, acc.2.1 + 1, acc.2.2) else (s, acc.2.1, acc.2.2 + 1)) (s, 0, 0)
  else
    let ls := ((maintDir s m).foldl setAdd (maintLines s m)).filter (fun l => (isHbm (lineHa l) || m.op == 5) && !maintSkips s m l)
    (ls.foldl (fun s l => maintLine s m l) s, m.done + ls.length, 0)

/-- MAINT_DONE (R333): every slice in scope has finished; RESULT is set, BUSY clears, vector 7 of the function is raised. -/
def execMaintDone (fn : Fin 9) (s : State) : Res :=
  match smGet none s.mem.maint fn.val with
  | none => notDue s
  | some m =>
    if maintWaits s fn m then notDue s
    else
      let (s, done, missed) := maintRun s fn m
      let s := { s with mem := { s.mem with maint := smSet none s.mem.maint fn.val none } }
      let s := regPut s ⟨.sriMaintCount, 0, fn⟩ (min missed (2 ^ 32 - 1) * 2 ^ 32 + min done (2 ^ 32 - 1))
      let s := maintResult (regSetBits s ⟨.sriMaintStatus, 0, fn⟩ 0 0 0) fn (if m.error then 6 else if missed ≠ 0 then 4 else 0)
      let s := if missed ≠ 0 then setStatus s ⟨.sriIntStatus, 0, 0⟩ 0 fn 0 else s
      okT (raiseVector s fn 7)

end Sys2Proof.Machine
end

