-- ==== Sys2Proof/Machine/HbmCmds.lean ====
section
/-!
DEFINITION. The HBM controllers (R345 to R369): pending entries, the choice of the next access, read and write batches, read
outcomes, refresh, patrol scrub and the recovery of lost data (R663), row repair and retirement.
-/
namespace Sys2Proof.Machine

/-! ### Places -/

/-- The half address of a stack's place (the inverse of R356). -/
def placeHalf (s : State) (h : Nat) (r : HbmRow) (col : Nat) : Nat :=
  let st := stacksOfHalf s (h / 4)
  let n := if st.length = 4 then 8 else 7
  let k := (st.findIdx? (fun x => x == h)).getD 0
  let w := r.row
  let v := 16 * w + Nat.xor (Nat.xor r.bank (w % 16)) (w / 16 % 16)
  let u := 4 * v + col
  let q := 64 * k + r.pc
  256 * (u * 2 ^ n + Nat.xor q (Nat.xor (Nat.xor u (u / 2 ^ 8)) (u / 2 ^ 16) % 2 ^ n))

/-- The granule and the parity of the blocks that stand in a slab of a half (the inverse of R352). -/
def slabGranule (s : State) (half slab : Nat) : Option (Nat × Nat) :=
  s.mem.gmap.findSome? (fun e => match e.2 with
    | some g =>
      if g.mode = 2 then
        if half = 0 then (if g.slabA = slab then some (e.1, 0) else none)
        else (if g.slabB = slab then some (e.1, 1) else none)
      else if g.mode = half then
        if g.slabA = slab then some (e.1, 0) else if g.slabB = slab then some (e.1, 1) else none
      else none
    | none => none)

/-- The HA of a chunk of a row, if a granule stands there. -/
def placeHa (s : State) (h : Nat) (r : HbmRow) (col : Nat) : Option Nat :=
  let p := placeHalf s h r col
  (slabGranule s (h / 4) (p / 2 ^ 29)).map (fun g =>
    g.1 * 2 ^ 30 + (2 * (p % 2 ^ 29 / 65536) + g.2) * 65536 + p % 65536)

/-- Rows in a bank (R345), by CAP of HBC_CFG. -/
def rowsOf (cap : Nat) : Nat := match cap with | 1 => 24576 | 2 => 36864 | 3 => 49152 | 4 => 65536 | _ => 0

/-- How a sector read ends (R362): a sector that holds the poison encoding is uncorrectable whatever the stack gives. -/
def sectorEnd (s : State) (ha : Nat) (o : SectorRead) : SectorRead := if (hbm s).poison.contains (ha / 64) then .bad else o

/-! ### Entries -/

/-- An entry of a controller with the transaction its read serves. -/
def entryReqs (s : State) (e : HbmEntry) : List Req := match txnFind s e.line with | some t => t.requests | none => []

/-- The earliest deadline among the reads that wait on an entry, 0 for none (R69, R357). -/
def entryDeadline (s : State) (e : HbmEntry) : Nat :=
  (entryReqs s e).foldl (fun d r => if r.isRead && r.deadline != 0 && !r.dropped && (d == 0 || decide (r.deadline < d)) then r.deadline else d) 0

/-- A write of a line has gone to its controller for every buffer that holds the line (R324). -/
def writesSent (s : State) (line : Nat) : Bool :=
  decide ((s.mem.wbBufs.filter (fun b => b.line == line)).length ≤
    ((s.mem.entries ++ s.mem.hbmHeld).filter (fun e => e.line == line && e.isWrite)).length)

/-- HBM_REQUEST (R30, R39, R349, R350): the read of a line that misses, or the write of a buffered line, reaches its controller by one
of the stack's attachment ports. -/
def execHbmRequest (x : PortLine) (write : Bool) (s : State) : Res :=
  let line := x.line
  if !isHbm (lineHa line) then illFormed
  else match hbmPlace s (lineHa line) with
    | none => notDue s
    | some (h, p) =>
      let e : HbmEntry := { stack := h, pc := p.pc, bank := p.bank, row := p.row, line := line, isWrite := write, port := x.port,
                            arrived := s.stage.hubTime }
      if !(stackOf s h).inService ∨ (stackOf s h).selfRefresh then notDue s
      else if write then (if writesSent s line then notDue s else ok (takeEntry s e))
      else match txnFind s line with
        | some t => if t.missing && !t.hbmSent then ok (takeEntry (txnPut s { t with hbmSent := true }) e) else notDue s
        | none => notDue s

/-- The entry has been passed over for 1 µs (R357). -/
def overdue (s : State) (e : HbmEntry) : Bool := decide (e.arrived + 1000 ≤ s.stage.hubTime)

/-- A request that waits on an entry was admitted at guaranteed priority (R72). -/
def entryGuar (s : State) (e : HbmEntry) : Bool := (entryReqs s e).any (fun r => r.guar && !r.dropped)

/-- The order among entries (R69, R72, R357): one passed over for 1 µs, then guaranteed priority, then the earliest deadline, then an
open row, then age. -/
def entryFirst (s : State) (a b : HbmEntry) : Bool :=
  let da := entryDeadline s a
  let db := entryDeadline s b
  if overdue s b then false
  else if overdue s a then true
  else if entryGuar s a ≠ entryGuar s b then entryGuar s a
  else if da ≠ 0 ∧ (db = 0 ∨ da < db) then true
  else if da = db then rowOpen s a.stack a.place && !rowOpen s b.stack b.place
  else false

/-- The entry that the controller serves next; `l` in order of arrival. -/
def nextEntry (s : State) (l : List HbmEntry) : Option HbmEntry :=
  l.foldl (fun (b : Option HbmEntry) e => match b with
    | some x => if entryFirst s e x then some e else some x
    | none => some e) none

/-- Decision point 2 (R63): reads of a transaction whose deadline has passed are dropped. -/
def dropPassed (s : State) (line : Nat) : State :=
  match txnFind s line with
  | none => s
  | some t =>
    let late (r : Req) : Bool := (asTaken s r).isRead && !r.dropped && passed s r.deadline
    let mark (r : Req) : Req := if late r then { r with dropped := true } else r
    let s := (t.requests.filter late).foldl dropLate s
    txnPut s { t with req := t.req.map mark, merged := t.merged.map mark }

/-- HBM_READ_ISSUE (R66, R357): the controller issues the next read of a pseudo-channel, or frees its entry and the line's
miss-handling entry where every request has been dropped. -/
def execHbmReadIssue (h : Fin 8) (pc : Fin 64) (s : State) : Res :=
  if smGet 0 (stackOf s h).writing pc ≠ 0 then notDue s
  else match nextEntry s ((pcEntries s h pc).filter (fun e => !e.isWrite && !e.issued && !bankHeld s e)) with
    | none => notDue s
    | some e =>
      let s := dropPassed s e.line
      if (entryReqs s e).all (fun r => r.dropped) then okT (txnDel (dropEntry s e) e.line)
      else
        let s := openRow s e.stack e.place
        ok { s with mem := { s.mem with entries := listModFirst (fun x => x == e) (fun x => { x with issued := true }) s.mem.entries } }

/-- HBM_MODE_SWITCH (R357): a pseudo-channel switches to its write batch, or back to reads. -/
def execHbmModeSwitch (h : Fin 8) (pc : Fin 64) (s : State) : Res :=
  let es := pcEntries s h pc
  let writes := (es.filter (fun e => e.isWrite)).length
  let reads := es.filter (fun e => !e.isWrite && !e.issued)
  let x := stackOf s h
  let n := smGet 0 x.writing pc
  let go (v : Nat) : Res := ok (bump (putStack s h { x with writing := smSet 0 x.writing pc v }) ⟨.hbcTurn, h, 0⟩ 1)
  if n = 0 then
    if 12 ≤ writes ∨ (reads.isEmpty ∧ writes ≠ 0) then go 1 else notDue s
  else if 13 ≤ n ∨ writes = 0 ∨ reads.any (fun e => entryDeadline s e != 0) then go 0
  else notDue s

/-- WRITEBACK_BUFFER_FREE (R324, R357): in a write batch the controller writes a buffered line to HBM and its buffer is free. -/
def execWritebackBufferFree (line : Nat) (s : State) : Res :=
  match s.mem.entries.find? (fun e => e.line == line && e.isWrite), s.mem.wbBufs.find? (fun b => b.line == line) with
  | some e, some b =>
    let x := stackOf s e.stack
    let n := smGet 0 x.writing e.pc
    if n = 0 ∨ 13 ≤ n ∨ bankHeld s e then notDue s
    else
      let s := putStack s e.stack { x with writing := smSet 0 x.writing e.pc (n + 1) }
      let s := lowerPut (dropEntry (openRow s e.stack e.place) e) line b.data b.poison
      let s := { s with mem := { s.mem with wbBufs := listDelFirst (fun y => y.line == line) s.mem.wbBufs } }
      okT (bump s ⟨.hbcWrBytes, e.stack, 0⟩ 128)
  | _, _ => notDue s

/-- HBM_READ_DATA (R30, R360, R362): the two sectors of a line come from the stack, with the corrections that the stack reported, by
the attachment port on which the request arrived. -/
def execHbmReadData (line : Nat) (a b : SectorRead) (ondie : Nat) (s : State) : Res :=
  match s.mem.entries.find? (fun e => e.line == line && !e.isWrite && e.issued), txnFind s line with
  | some e, some t =>
    let a := sectorEnd s (lineHa line) a
    let b := sectorEnd s (lineHa line + 64) b
    let col := match hbmPlace s (lineHa line) with | some (_, p) => p.col | none => 0
    let st : Status := if a = .bad ∨ b = .bad then .uncorrectable else .complete
    let sector (s : State) (o : SectorRead) : State := clientSector s e.stack e.place col (lineHa line) o
    let s := sector (sector (txnPut (dropEntry s e) { t with hbmDone := some st, hbmPort := e.port }) a) b
    ok (bump (bump s ⟨.hbcOdeccCount, e.stack, 0⟩ ondie) ⟨.hbcRdBytes, e.stack, 0⟩ 128)
  | _, _ => notDue s

/-- HBM_REFRESH (R358): a bank is refreshed, which closes its row. -/
def execHbmRefresh (h : Fin 8) (pc : Fin 64) (bank : Fin 16) (s : State) : Res :=
  let x := stackOf s h
  if !x.inService || x.selfRefresh then notDue s
  else ok (putStack s h { x with openRows := smSet 0 x.openRows (16 * pc.val + bank.val) 0 })

/-! ### Patrol scrub -/

/-- The class of a lost sector's HA (R663): KIND, context and slot. -/
def lossKind (s : State) (ha : Nat) : Loss :=
  let owner := granuleOwner s (ha / 2 ^ 30)
  let p := owner.getD 0xFF
  if licRelay s && decide (mirrorBase s ≤ ha) then { ha := ha, part := p, kind := 4, ctx := 0xFFFF, slot := 0 }
  else match owner with
    | none => { ha := ha, part := 0xFF, kind := 0, ctx := 0xFFFF, slot := 0 }
    | some p =>
      match s.work.ctxs.findSome? (fun c => match c.2 with
          | some x =>
            if x.fn ≠ p ∨ x.tier.bales = 0 then none
            else if x.tier.poolBase ≤ ha ∧ ha < x.tier.poolBase + 65536 * x.tier.poolSlots then
              some { ha := ha, part := p, kind := 2, ctx := c.1, slot := (ha - x.tier.poolBase) / 65536 : Loss }
            else if x.tier.recBase ≤ ha ∧ ha < x.tier.recBase + 64 * x.tier.bales then
              some { ha := ha, part := p, kind := 3, ctx := c.1, slot := 0 : Loss }
            else none
          | none => none) with
      | some l => l
      | none => { ha := ha, part := p, kind := 1, ctx := 0xFFFF, slot := 0 }

/-- A sector is lost (R663, R664): counted, listed and logged. -/
def loseSector (s : State) (ha : Nat) : State :=
  let l := lossKind s ha
  let ls := s.flt.losses ++ [l]
  logEvent { s with flt := { s.flt with lost := satAdd 32 s.flt.lost 1, losses := ls.drop (ls.length - 256) } } 0x0FE1 l.part 1 ha

/-- A line is rescued (R663). -/
def rescueLine (s : State) (ha : Nat) : State :=
  logEvent { s with flt := { s.flt with rescued := satAdd 32 s.flt.rescued 1 } } 0x0FE2 0 3 ha

/-- A copy of the line is sought for a poisoned sector (R663): the home slice's, then a chiplet's in M, which is a free value
of the owner. -/
def recoverSector (s : State) (ha : Nat) : State :=
  let line := ha / 128
  match seraiFind s line with
  | some (w, l) => rescueLine (seraiSetLine s line w (some { l with dirty := true })) ha
  | none =>
    if (bufferLine s line).isSome then rescueLine s ha
    else match dirSt s line with
      | some (.owned _) =>
        let (d, s) := draw s
        if Config.ownerDirty d then rescueLine s ha else loseSector s ha
      | _ => loseSector s ha

/-- The row, chunk and sector of a place of the patrol scrub (R364). -/
def scrubPlace (cap pos : Nat) : HbmRow × Nat × Nat :=
  let row := pos / 16
  ({ pc := row / rowsOf cap / 16, bank := row / rowsOf cap % 16, row := row % rowsOf cap }, pos % 16 / 4, pos % 4)

/-- Sectors of a stack. -/
def sectorsOf (cap : Nat) : Nat := 64 * 16 * rowsOf cap * 16

/-- The scrub goes to its next sector; at the end of a pass the counts of its period start again (R364, R366, R374). -/
def scrubNext (s : State) (h : Nat) : State :=
  let x := stackOf s h
  if x.scrubPos + 1 < sectorsOf x.cap then putStack s h { x with scrubPos := x.scrubPos + 1 }
  else
    let s := putStack s h { x with scrubPos := 0, rowCount := [] }
    regSetBits s ⟨.hbcScrubStatus, h, 0⟩ 31 16 (satAdd 16 (regBits s ⟨.hbcScrubStatus, h, 0⟩ 31 16) 1)

/-- PATROL_SCRUB_READ (R364, R365, R663): the scrub of a stack reads its next sector. -/
def execPatrolScrubRead (h : Fin 8) (o : SectorRead) (s : State) : Res :=
  let x := stackOf s h
  if !x.inService || x.selfRefresh || regBits s ⟨.hbcScrubCtrl, h, 0⟩ 31 31 == 0 || rowsOf x.cap == 0 then notDue s
  else
    let (r, col, k) := scrubPlace x.cap x.scrubPos
    match x.repairing with
    | some q => if q.pc = r.pc ∧ q.bank = r.bank then notDue s else ok (scrubEnd s h r col k o)
    | none => ok (scrubEnd s h r col k o)
where
  scrubEnd (s : State) (h : Nat) (r : HbmRow) (col k : Nat) (o : SectorRead) : State :=
    let ha := (placeHa s h r col).map (fun a => a + 64 * k)
    let s := scrubNext s h
    match (match ha with | some a => sectorEnd s a o | none => o) with
    | .good => s
    | .corrected =>
      let s := bump (bump s ⟨.hbcCeCount, h, 0⟩ 1) ⟨.hbcScrubCe, h, 0⟩ 1
      rowCorrected (hbcLastErr s h 1 r col) h r 1
    | .bad =>
      let s := hbcLastErr (bump s ⟨.hbcScrubUe, h, 0⟩ 1) h 3 r col
      let s := match ha with
        | some a => putHbm s { hbm s with poison := setAdd (hbm s).poison (a / 64) }
        | none => s
      let s := rowDue (setStatus s ⟨.hbcIntStatus, h, 0⟩ 1 h (ha.getD 0)) h r
      match ha with
      | some a => recoverSector s a
      | none => s

/-! ### Repair -/

/-- ROW_REPAIR (R366, R367, R369): the row that is due first is repaired if its bank has a spare row, and else retired. -/
def execRowRepair (h : Fin 8) (spare : Bool) (s : State) : Res :=
  let x := stackOf s h
  match x.due with
  | [] => notDue s
  | r :: rest =>
    if !x.inService || x.selfRefresh || x.repairing.isSome || regBits s ⟨.hbcRepairCtrl, h, 0⟩ 8 8 == 0 then notDue s
    else
      let x := { x with due := rest, rowCount := x.rowCount.filter (fun p => p.1 != r) }
      if spare then
        ok (putStack s h { x with repairing := some r, sparesUsed := smMod 0 x.sparesUsed (16 * r.pc + r.bank) (· + 1) })
      else if x.retired.length < 1024 then
        let s := putStack s h { x with retired := x.retired ++ [r] }
        ok (setStatus (hbcLastErr s h 5 r 0) ⟨.hbcIntStatus, h, 0⟩ 3 h 0)
      else ok (setStatus (putStack s h { x with retireFull := true }) ⟨.hbcIntStatus, h, 0⟩ 4 h 0)

/-- ROW_REPAIR_DONE (R367): the bank is released and Customs adds the row to the stack's health record. -/
def execRowRepairDone (h : Fin 8) (s : State) : Res :=
  let x := stackOf s h
  match x.repairing with
  | none => notDue s
  | some r =>
    let s := putStack s h { x with repairing := none, unfused := x.unfused ++ [r] }
    let s := regSetBits s ⟨.hbcRepairStatus, h, 0⟩ 20 10 (satAdd 11 (regBits s ⟨.hbcRepairStatus, h, 0⟩ 20 10) 1)
    ok (setStatus (hbcLastErr s h 4 r 0) ⟨.hbcIntStatus, h, 0⟩ 2 h 0)

end Sys2Proof.Machine
end

