-- ==== Sys2Proof/Machine/Ehp.lean ====
section
/-!
DEFINITION. The header slots of the Efkaxo Hub Protocol (R469 to R472, R478) and the checks that a site makes of a message
(R381, R404, R471).
-/
namespace Sys2Proof.Machine

abbrev Header := BitVec 128

/-- Bits `hi` to `lo` of a header slot. -/
def hBits (h : Header) (hi lo : Nat) : Nat := h.toNat / 2 ^ lo % 2 ^ (hi + 1 - lo)

def hOp (h : Header) : Nat := hBits h 7 0
def hClass (h : Header) : Nat := hBits h 10 8
def hSlots (h : Header) : Nat := hBits h 15 11
def hToll (h : Header) : Nat := hBits h 17 16
def hHint (h : Header) : Nat := hBits h 19 18
def hInit (h : Header) : Nat := hBits h 28 20
def hTag (h : Header) : Nat := hBits h 40 29
def hPasid (h : Header) : Nat := hBits h 60 41
def hSize (h : Header) : Nat := hBits h 63 62
def hDeadline (h : Header) : Nat := hBits h 79 64
/-- The address of a request, an HA. -/
def hAddr (h : Header) : Nat := 16 * hBits h 127 80

/-- The message can arrive: the module is trained and its site is not in reset (R467). -/
def canReceive (s : State) (k : Nat) (m : Nat) : Bool :=
  let x := site s k
  !x.inReset && !x.refused && x.present && (let w := (smGet {} x.modules m).width; w == 1 || w == 2)

/-- A message from a chiplet counts at its site (R494). -/
def received (s : State) (k : Nat) : State := bump s ⟨.ucsRxMsg, k, 0⟩ 1

/-- INIT names the site, or the other site that its chiplet spans (R456). -/
def initFits (s : State) (k : Nat) (h : Header) : Bool :=
  (chipSites s (chipSite s k)).contains (hInit h / 64)

/-- A request header is malformed (R471): SZ outside class 1, DSLOTS, alignment, TOLL, DEADLINE of the bale class, a tag in use. -/
def malformedHdr (s : State) (k : Nat) (h : Header) (slots align : Nat) : Bool :=
  (decide (hClass h ≠ 1) && decide (hSize h ≠ 0)) || decide (hSlots h ≠ slots) || decide (hAddr h % align ≠ 0) ||
  decide (2 ≤ hToll h) || (decide (hClass h = 2) && decide (hDeadline h ≠ 0)) || tagOpen s (hInit h) (hTag h) || !initFits s k h

/-- The credits that a request of a chiplet uses (R482): none of its kind may lack. -/
def creditsFor (s : State) (k slots : Nat) : Bool := decide (1 ≤ (site s k).reqCr) && decide (slots ≤ (site s k).dataCr)

/-- A request takes its credits; its tag is in use. -/
def takeRequest (s : State) (h : Header) (slots : Nat) : State :=
  modSite s (hInit h / 64) (fun x => { x with reqCr := x.reqCr - 1, dataCr := x.dataCr - slots, tags := x.tags ++ [hTag h] })

/-- A malformed message (R471): CMP with status ABORTED, counted; its credits return. -/
def refuseMalformed (s : State) (k : Nat) (h : Header) (slots : Nat) : State :=
  let s := modSite s k (fun x => { x with reqCr := x.reqCr - 1, dataCr := x.dataCr - slots })
  let s := sendEhp s k (hClass h) 0x61 (hTag h) (hInit h) Status.aborted.code 0 0 []
  protoErr (returnCredit s k slots 1 0) k (hClass h) (hOp h) (hTag h)

/-- An error completion of a request that takes no effect (R473). -/
def refuseRequest (s : State) (k : Nat) (h : Header) (slots : Nat) (st : Status) : State :=
  let s := sendReply (takeRequest s h slots) k (hClass h) 0x61 (hTag h) (hInit h) st.code 0 0 []
  if slots = 0 then s else returnCredit s (hInit h / 64) slots 0 0

/-- The address lies in a carve-out or tier block of a partition of a domain (R381). -/
def domainHolds (s : State) (d ha : Nat) : Bool :=
  (span 0 9).any (fun p => bitOf (domain s d).parts p &&
    (if isHbm ha then (granuleOwner s (ha / 2 ^ 30)) == some p
     else isTier ha && decide (tierFn ha = p)))

/-- What a site does first with a request (R381, R404, R471): refuse it, or take it with its domain. -/
inductive Intake where
  | refused (s : State)
  | taken (s : State) (d : Nat)

/-- A request to an HA that its issuer may not reach ends TRANSLATION_FAULT (R381); an unmapped one is logged too (R36). -/
def refuseAddress (s : State) (k : Nat) (h : Header) (slots : Nat) : State :=
  refuseRequest (if mapped s (hAddr h) then s else logUnmapped s (hInit h) (hAddr h)) k h slots .translationFault

/-- Takes a request of the coherent or the bale class. `slots` are its data slots, `align` the alignment of its address. -/
def takeIn (s : State) (k : Nat) (h : Header) (slots align : Nat) : Intake :=
  let s := received s k
  if malformedHdr s k h slots align then .refused (refuseMalformed s k h slots)
  else match siteDomain s k with
    | none => .refused (refuseAddress s k h slots)
    | some d =>
      if (domain s d).st ≠ .up then .refused (refuseRequest s k h slots .domainDown)
      else if !domainHolds s d (hAddr h) || !mapped s (hAddr h) then .refused (refuseAddress s k h slots)
      else .taken (takeRequest s h slots) d

/-- The opcode and class of a header are those of the command. -/
def isMessage (h : Header) (cls op : Nat) : Bool := hClass h == cls && hOp h == op

end Sys2Proof.Machine
end

