-- ==== Sys2Proof/Machine/Domains.lean ====
section
/-!
DEFINITION. Coherent domains (R402 to R408): the declaration of a dead chiplet, the domain-down sequence, lost lines, site
reset (R467) and domain reset.
-/
namespace Sys2Proof.Machine

def inDomain (s : State) (d k : Nat) : Bool := bitOf (domain s d).sites k

/-- A request of a chiplet of a domain. -/
def Req.ofDomain (r : Req) (s : State) (d : Nat) : Bool := match r.site with | some q => inDomain s d q | none => false

/-- Requests of the chiplets of a domain that no home has taken up are answered DOMAIN_DOWN (R404). -/
def answerWaiting (s : State) (d : Nat) : State :=
  let mine (r : Req) : Bool := r.ofDomain s d
  let rs := (s.stage.held.filter (fun h => mine h.req)).map (fun h => h.req) ++ s.mem.heldIn.filter mine ++
    s.mem.txns.flatMap (fun t => t.merged.filter mine)
  let s := { s with stage := { s.stage with held := s.stage.held.filter (fun h => !mine h.req) }
                    mem := { s.mem with heldIn := s.mem.heldIn.filter (fun r => !mine r)
                                        txns := s.mem.txns.map (fun t => { t with merged := t.merged.filter (fun r => !mine r) }) } }
  rs.foldl (fun s r => answerCmp s r .domainDown 0) s

/-- Open bale writes of the chiplets of a domain end with DOMAIN_DOWN. -/
def endBales (s : State) (d : Nat) : State :=
  ((span 0 8).filter (inDomain s d)).foldl (fun s k =>
    let bs := (site s k).bales
    let s := modSite s k (fun x => { x with bales := [] })
    bs.foldl (fun s b => sendReply s k 2 0x61 b.tag b.init Status.domainDown.code 0 0 []) s) s

/-- A domain is taken down (R404); a condition that arises while it is not UP has no further effect (R403). -/
def domainDown (s : State) (d cause dead : Nat) : State :=
  let x := domain s d
  if x.st ≠ .up then s
  else
    let s := putDomain s d { x with st := .down, cause := cause, deadSite := dead, swept := false, upNext := false,
                                    stageLow := s.stage.number % 2 ^ 32 }
    let s := setStatus s ⟨.sriDirIntStatus, 0, 0⟩ 0 d cause
    let s := endBales (answerWaiting s d) d
    breakSteps s (fun y => bitOf x.parts y.part && y.phase != .waiting) .domainDown

/-- A chiplet is dead (R402). -/
def chipletDead (s : State) (k cause : Nat) : State :=
  match siteDomain s k with
  | some d => domainDown s d cause (chipSite s k)
  | none => s

/-! ### The sweep -/

/-- A line is lost (R405). -/
def loseLine (s : State) (d line : Nat) : State :=
  let ha := lineHa line
  let s := if isTier ha then
      match tierCtx s ha with
      | some (_, x) => tierUncorr (poisonRec (dropBale s x.fn (baleNum ha)) x (baleNum ha) 4) x.fn (baleNum ha)
      | none => s
    else lowerWrite (seraiDrop s line) line 0 true
  let s := bump s ⟨.sriDirLost, 0, d⟩ 1
  let r : Reg := ⟨.sriDirDomainLost, 0, d⟩
  if regBits s r 63 63 = 1 then s else regPut s r (2 ^ 63 + line % 2 ^ 45)

/-- The directory sweep (R404): a domain's chiplets leave every entry; lines that one of them owned are lost. -/
def sweepEntries (s : State) (d : Nat) : State :=
  let es := s.mem.dir.filterMap (fun e => e.2)
  es.foldl (fun s e => match e.st with
    | .owned o => if inDomain s d o then loseLine (dirSet s e.line none) d e.line else s
    | .shared m =>
      let m' := (span 0 8).foldl (fun m k => if inDomain s d k then setBitOf m k false else m) m
      if m' = m then s else dirSet s e.line (if m' = 0 then none else some (.shared m'))) s

def OpenSnoop.isForward (o : OpenSnoop) : Bool := o.kind == .fwdS || o.kind == .fwdX

/-- What the sweep closes in one transaction (R404): snoops to the domain's chiplets, acknowledgements awaited from them. -/
def closeTxn (s : State) (d line : Nat) : State :=
  match txnFind s line with
  | none => s
  | some t =>
    let dead := t.snoops.filter (fun o => inDomain s d o.site)
    let gone := match t.fwdAck with | some q => inDomain s d q | none => false
    let t := { t with req := t.req.map (fun r => if r.ofDomain s d && !r.isWrite then { r with dropped := true } else r) }
    if dead.isEmpty && !gone then txnPut s t
    else
      let s := dead.foldl (fun s o => dirRemove s line o.site) s
      let t := { t with snoops := t.snoops.filter (fun o => !inDomain s d o.site), fwdAck := if gone then none else t.fwdAck }
      if t.snoops.isEmpty && dead.any OpenSnoop.isForward then
        let t := { t with fwdAck := none, fwd := false }
        retake (txnPut s t) t
      else
        let done := { t with fwd := false, req := t.req.map (fun r => { r with dropped := true }) }
        txnGoOn (txnPut s (if gone then done else t)) line

/-- The sweep of every directory slice ends (R404). -/
def sweepDomain (s : State) (d : Nat) : State :=
  let s := sweepEntries s d
  let s := (s.mem.txns.map (fun t => t.line)).foldl (fun s l => closeTxn s d l) s
  putDomain s d { domain s d with swept := true }

/-- DOMAIN_SWEEP_DONE (R404). -/
def execDomainSweepDone (d : Fin 4) (s : State) : Res :=
  let x := domain s d
  if x.st = .down ∧ !x.swept then okT (sweepDomain s d) else notDue s

/-- DOMAIN_DOWN_COMMAND (R402, cause 7). -/
def execDomainDownCommand (d : Fin 4) (s : State) : Res := okT (domainDown s d 7 0)

/-! ### Site reset and domain reset -/

/-- A request of a chiplet at a site that its site reset leaves without a reply. -/
def Req.ofSite (r : Req) (k : Nat) : Bool := match r.who with | .chiplet _ _ => r.init / 64 == k | _ => false

/-- A request that a home has taken up when its site is reset (R467): a write stands, a read is dropped, neither is answered. -/
def Req.orphan (r : Req) (k : Nat) : Req :=
  if !r.ofSite k then r
  else match r.who with
    | .chiplet q tag => if r.isWrite || r.op == .wbDirty || r.op == .evict then { r with who := .chiplet q (tag + 4096) } else { r with dropped := true }
    | _ => r

/-- The site reset of one site (R467). What a bring-up recorded of it stays. -/
def resetSite (s : State) (k : Nat) : State :=
  let s := { s with stage := { s.stage with held := s.stage.held.filter (fun h => !h.req.ofSite k) }
                    mem := { s.mem with heldIn := s.mem.heldIn.filter (fun r => !r.ofSite k)
                                        txns := s.mem.txns.map (fun t => { t with req := t.req.map (fun r => r.orphan k)
                                                                                  merged := t.merged.filter (fun r => !r.ofSite k) }) } }
  putSite s k { ref := (site s k).ref, inReset := true }

/-- A site reset acts on every site of the chiplet (R467). -/
def siteReset (s : State) (k : Nat) : State := (chipSites s (chipSite s k)).foldl resetSite s

/-- SITE_RESET (R467, R402 cause 6): a write of UCS_CTRL.RESET. A site in a domain that is UP takes its domain down. -/
def execSiteReset (k : Fin 8) (s : State) : Res :=
  let d := siteDomain s k
  let q := chipSite s k
  let s := siteReset s k
  okT (match d with
    | some d => domainDown s d 6 q
    | none => s)

/-- A domain reset begins (R407). -/
def domainResetBegin (s : State) (d : Nat) : State :=
  let s := domainDown s d 7 0
  let s := if (domain s d).swept then s else sweepDomain s d
  let s := putDomain s d { domain s d with st := .recovering, upNext := false }
  ((span 0 8).filter (inDomain s d)).foldl (fun s k => if (site s k).inReset then s else siteReset s k) s

/-- DOMAIN_RESET (R407): by command through 0x3000 + d:03. -/
def execDomainReset (d : Fin 4) (s : State) : Res :=
  match (domain s d).st with
  | .unused => notDue s
  | .recovering => notDue s
  | _ => okT (domainResetBegin s d)

/-- A site's chiplet is the one that the site map of bring-up records (R407, R461). -/
def matchesMap (s : State) (k : Nat) : Bool :=
  let x := site s k
  match x.ref with
  | some m => x.present && fieldOf x.desc 8 8 == m.serial && fieldOf x.desc 4 1 == m.modules
  | none => false

/-- DOMAIN_RESET_COMPARE (R407): the domain comes up at the next mark, or fails. -/
def execDomainResetCompare (d : Fin 4) (s : State) : Res :=
  let x := domain s d
  if x.st ≠ .recovering ∨ x.upNext then notDue s
  else if ((span 0 8).filter (inDomain s d)).all (matchesMap s) then ok (putDomain s d { x with upNext := true })
  else ok (setStatus (putDomain s d { x with st := .failed }) ⟨.sriDirIntStatus, 0, 0⟩ 2 d 0)

end Sys2Proof.Machine
end

