-- ==== Sys2Proof/Machine/ChipReqs.lean ====
section
/-!
DEFINITION. Messages of chiplets in the coherent class: requests (R385, R390), snoop responses and FWD_ACK (R387, R391), and the
times that the home keeps: hold time, snoop timeout, link grace (R398, R402).
-/
namespace Sys2Proof.Machine

/-- A coherent request with its header, data and byte mask (R385). -/
def chipRequest (k : Fin 8) (m : Fin 4) (h : Header) (op : ReqOp) (code : Nat) (data : Line) (mask : BitVec 128) (bytes : Nat)
    (s : State) : Res :=
  if !isMessage h 0 code then illFormed
  else if !canReceive s k m || !creditsFor s (chipSite s k) (dataSlots op) then notDue s
  else match takeIn s k h (dataSlots op) 128 with
    | .refused s => okT s
    | .taken s _ =>
      let r : Req := { who := .chiplet (chipSite s k) (hTag h), op := op, line := hAddr h / 128, data := data, mask := mask,
                       hint := hHint h, deadline := deadlineAt s (hDeadline h), init := hInit h, via := k }
      okT (presentReq s r (hToll h) bytes)

def execRdCur (k : Fin 8) (m : Fin 4) (h : BitVec 128) (s : State) : Res := chipRequest k m h .rdCur 1 0 0 128 s
def execRdShared (k : Fin 8) (m : Fin 4) (h : BitVec 128) (s : State) : Res := chipRequest k m h .rdShared 2 0 0 128 s
def execRdOwn (k : Fin 8) (m : Fin 4) (h : BitVec 128) (s : State) : Res := chipRequest k m h .rdOwn 3 0 0 128 s
def execUpgrade (k : Fin 8) (m : Fin 4) (h : BitVec 128) (s : State) : Res := chipRequest k m h .upgrade 4 0 0 0 s
def execWbDirty (k : Fin 8) (m : Fin 4) (h : BitVec 128) (data : BitVec 1024) (s : State) : Res := chipRequest k m h .wbDirty 5 data 0 128 s
def execEvict (k : Fin 8) (m : Fin 4) (h : BitVec 128) (s : State) : Res := chipRequest k m h .evict 6 0 0 0 s
def execWrFull (k : Fin 8) (m : Fin 4) (h : BitVec 128) (data : BitVec 1024) (s : State) : Res :=
  chipRequest k m h .wrFull 7 data (BitVec.allOnes 128) 128 s
def execWrPart (k : Fin 8) (m : Fin 4) (h : BitVec 128) (data : BitVec 1024) (mask : BitVec 128) (s : State) : Res :=
  chipRequest k m h .wrPart 8 data mask (maskCount mask) s

/-! ### Responses -/

/-- A protocol violation takes down the sender's domain (R389, R402 cause 3). -/
def violation (s : State) (k : Nat) : State := chipletDead s k 3

/-- The open snoop of a line to a chiplet. -/
def Txn.snoopTo (t : Txn) (q : Nat) : Option OpenSnoop := t.snoops.find? (fun o => o.site == q && o.issued)

/-- A response to the snoop of a line (R387, R391): `fits` says which snoops it may answer, `go` what it does, the snoop being
closed. The line stands for the SNP_ID of R470. -/
def respond (k : Fin 8) (line : Nat) (fits : Snoop → Bool) (go : State → Txn → Nat → Snoop → State) (s : State) : Res :=
  let q := chipSite s k
  if !(site s k).present || (site s k).inReset then notDue s
  else
    let s := received s k
    match txnFind s line with
    | none => okT (violation s k)
    | some t => match t.snoopTo q with
      | none => okT (violation s k)
      | some o =>
        if fits o.kind then
          let t := { t with snoops := listDelFirst (fun x => x == o) t.snoops }
          okT (go (txnPut s t) t q o.kind)
        else okT (violation s k)

/-- The holder's new state is I, or S (R386): what the directory records. -/
def holderNow (s : State) (line q : Nat) (shared : Bool) : State :=
  if shared then
    match dirSt s line with
    | some (.owned o) => if o = q then dirSet s line (some (.shared (2 ^ q))) else s
    | _ => s
  else dirRemove s line q

def plainSnoop : Snoop → Bool | .share => true | .inv => true | _ => false
def forwardSnoop : Snoop → Bool | .fwdS => true | .fwdX => true | _ => false

def execRspI (k : Fin 8) (line : Nat) (s : State) : Res :=
  respond k line plainSnoop (fun s t q _ => txnGoOn (holderNow s line q false) line) s
def execRspS (k : Fin 8) (line : Nat) (s : State) : Res :=
  respond k line (· == .share) (fun s t q _ => txnGoOn (holderNow s line q true) line) s
def execRspIData (k : Fin 8) (line : Nat) (data : BitVec 1024) (poison : Bool) (s : State) : Res :=
  respond k line plainSnoop (fun s t q _ => txnGoOn (returnData (holderNow s line q false) line data poison) line) s
def execRspSData (k : Fin 8) (line : Nat) (data : BitVec 1024) (poison : Bool) (s : State) : Res :=
  respond k line (· == .share) (fun s t q _ => txnGoOn (returnData (holderNow s line q true) line data poison) line) s

/-- A forwarder's response (R390, R391): its FWD_DATA goes to the requester, whose request is answered by it; STATE is the
forwarder's new state. The transaction ends once the requester has acknowledged. -/
def forwarded (line : Nat) (shared : Bool) (data : Line) (poison : Bool) (s : State) (t : Txn) (q : Nat) (kind : Snoop) : State :=
  match t.req with
  | none => s
  | some r =>
    let s := holderNow s line q shared
    let s := bumpSiteDom s .sriDirForwards q
    let grant := (if kind = .fwdS then 1 else 2) + 4 * b2n poison
    let s := match r.who with
      | .chiplet _ tag => if tagOpen s r.init tag && !r.dropped then sendReply s r.via 0 0x62 tag r.init 0 grant line (lineBytes data) else s
      | _ => s
    txnGoOn s line

/-- STATE is one that R386 gives: I or S after SNP_FWD_S, I after SNP_FWD_X. -/
def stateFits (state : Nat) (kind : Snoop) : Bool :=
  match kind with | .fwdS => decide (state ≤ 1) | .fwdX => state == 0 | _ => false

/-- RSP_FWD: the holder has sent FWD_DATA with `data`. -/
def execRspFwd (k : Fin 8) (line : Nat) (state : Fin 4) (data : BitVec 1024) (poison : Bool) (s : State) : Res :=
  respond k line (stateFits state) (forwarded line (state == 1) data poison) s

/-- RSP_FWD_DATA: as RSP_FWD, the dirty data also returned to the home. -/
def execRspFwdData (k : Fin 8) (line : Nat) (state : Fin 4) (data : BitVec 1024) (poison : Bool) (s : State) : Res :=
  respond k line (stateFits state) (fun s t q kind => forwarded line (state == 1) data poison (returnData s line data poison) t q kind) s

/-- RSP_FWD_MISS (R391): the holder leaves the entry and the request is taken up again. -/
def execRspFwdMiss (k : Fin 8) (line : Nat) (s : State) : Res :=
  respond k line forwardSnoop (fun s t q _ =>
    retake (bumpSiteDom (dirRemove s line q) .sriDirFwdMiss q) { t with fwdAck := none, fwd := false }) s

/-- FWD_ACK (R391, R398): the requester has the forwarded data; its hold time begins. A delivery at or after the deadline is
late (R67). -/
def execFwdAck (k : Fin 8) (line : Nat) (s : State) : Res :=
  let q := chipSite s k
  if !(site s k).present || (site s k).inReset then notDue s
  else
    let s := received s k
    match txnFind s line with
    | none => okT (violation s k)
    | some t =>
      if t.fwdAck ≠ some q then okT (violation s k)
      else match t.req with
        | none => notDue s
        | some r =>
          let s := startHold s line q
          let s := if passed s r.deadline then bump s ⟨.tolLateDelivered, 0, initPart s r.init⟩ 1 else s
          okT (txnGoOn (txnPut s { t with fwdAck := none }) line)

/-! ### Times -/

/-- The deadline of a read that waits on a hold has passed (R399): it is dropped, and snoops not issued are given up. -/
def dropOnHold (s : State) (t : Txn) (r : Req) : State :=
  let s := dropLate s r
  let t := { t with req := some { r with dropped := true }, snoops := t.snoops.filter (fun o => o.issued), fwdAck := none, fwd := false }
  txnGoOn (txnPut s t) t.line

/-- HOLD_EXPIRY (R398, R399): a hold time ends and the snoop that it delayed is issued. -/
def execHoldExpiry (k : Fin 8) (line : Nat) (s : State) : Res :=
  match txnFind s line with
  | none => notDue s
  | some t => match t.snoops.find? (fun o => o.site == k.val && !o.issued) with
    | none => notDue s
    | some o =>
      let s := advance s o.time
      match t.req with
      | some r =>
        if r.isRead && !r.dropped && passed s r.deadline then okT (dropOnHold s t r)
        else
          let (s, o') := mkSnoop s line k o.kind (some r)
          ok (txnPut s { t with snoops := listModFirst (fun x => x == o) (fun _ => o') t.snoops })
      | none =>
        let (s, o') := mkSnoop s line k o.kind none
        ok (txnPut s { t with snoops := listModFirst (fun x => x == o) (fun _ => o') t.snoops })

/-- A chiplet has a trained module. -/
def chipTrained (s : State) (k : Nat) : Bool :=
  (chipSites s (chipSite s k)).any (fun q => (span 0 4).any (fun m => let w := (smGet {} (site s q).modules m).width; w == 1 || w == 2))

/-- SNOOP_TIMEOUT (R402 cause 1): a snoop has had no response for SNOOP_TO µs; the timer rests while no module is trained. -/
def execSnoopTimeout (k : Fin 8) (line : Nat) (s : State) : Res :=
  match txnFind s line with
  | none => notDue s
  | some t => match t.snoopTo k with
    | none => notDue s
    | some o =>
      if chipTrained s k then
        okT (chipletDead (advance s (o.time + 1000 * regBits s ⟨.sriDirCtrl, 0, 0⟩ 26 16)) k 1)
      else notDue s

/-- LINK_GRACE_EXPIRY (R402 cause 2): a chiplet has had no trained module for LINK_GRACE µs. -/
def execLinkGraceExpiry (k : Fin 8) (s : State) : Res :=
  match (site s k).graceFrom with
  | none => notDue s
  | some t =>
    let s := advance s (t + 1000 * regBits s ⟨.sriDirCtrl, 0, 0⟩ 41 32)
    okT (chipletDead (modSite s k (fun x => { x with graceFrom := none })) k 2)

/-- FATAL (R402 cause 4, R479): the chiplet reports a fatal error of its own. -/
def execFatal (k : Fin 8) (m : Fin 4) (reason : BitVec 8) (s : State) : Res :=
  if !canReceive s k m || (site s k).msgCr == 0 then notDue s
  else
    let s := received (modSite s k (fun x => { x with msgCr := x.msgCr - 1 })) k
    okT (chipletDead (returnCredit s k 0 0 1) k 4)

end Sys2Proof.Machine
end

