-- ==== Sys2Proof/Machine/HostPorts.lean ====
section
/-!
DEFINITION. The host ports (R497 to R528): requests of the host and the order of its writes, Bus Master Enable, MSI-X,
translations and their invalidation, resets of links and functions, detached functions.
-/
namespace Sys2Proof.Machine

/-! ### Links and functions -/

/-- Link of a number (R580) and its port. -/
def linkTrained (s : State) (l : Nat) : Bool := (linkState s l).trained

/-- The function is present on a link that is trained: its host can send to it. -/
def fnUp (s : State) (fn : Nat) : Bool :=
  fnPresent s fn && linkTrained s (fnLinkOf s fn) && !(decide (9 ≤ fn) && fn - 9 == s.host.controlLink)

/-- The function answers memory requests (R523, R528). -/
def fnOpen (s : State) (fn : Nat) : Bool := (hostFn s fn).mse && !(hostFn s fn).d3hot && !(hostFn s fn).inFlr

/-- Registers that a reset of a function returns to their reset values (R525): every HPF_ register kept for it. -/
def hpfNames : List RegName :=
  [.hpfId, .hpfStatus, .hpfBringup, .hpfWin2Offset, .hpfWin4Offset, .hpfAttach, .hpfIntStatus, .hpfIntEn, .hpfTcInv, .hpfTcHits,
   .hpfTcMisses, .hpfTrFaults, .hpfMdAborts, .hpfBacklogDrops, .hpfWrDrop, .hpfDenied, .hpfRdPoisoned, .hpfFence, .hpfCmdBuf,
   .hpfCmd, .hpfCmdStatus, .hpfCmdResult, .hpfMbxCtrl, .hpfMbxStatus, .hpfMbxLen, .hpfDbTail, .hpfDbEvtHead, .hpfDbHead, .hpfDbState]

def clearHpf (s : State) (fn : Nat) : State :=
  let mine (k : Nat) : Bool := (k / 65536) % 65536 == fn && hpfNames.any (fun n => n.ctorIdx == k / 65536 / 65536)
  { s with regs := s.regs.filter (fun p => !mine p.1) }

/-- Configuration space, BAR sizes and HPF_ registers of a function return to their reset values (R525). What the function's
driver does not reset stays: what it holds for its partition. -/
def resetConfig (s : State) (fn : Nat) : State :=
  let h := hostFn s fn
  clearHpf (putFn s fn { ready := h.ready, bringupFail := h.bringupFail, detached := h.detached, preserved := h.preserved,
                         backlog := h.backlog, posted := h.posted }) fn

/-- The reads of a function that are outstanding at a port end with an error (R525). -/
def endReads (s : State) (fn : Nat) (st : Status) : State :=
  (span 0 2).foldl (fun s port => (hostPort s port).tags.foldl (fun s t =>
    match t.2 with
    | some (.stepRead f id _ _) =>
      if f = fn then copySettle (stepErr (countFault (dropTag s port t.1) fn st) id st) id else s
    | some (.parkRead f bale _ _) => if f = fn then modOp (dropTag s port t.1) f bale (fun o => { o with parkErr := true }) else s
    | none => s) s) s

/-- Contexts of a function that are live. -/
def hasContexts (s : State) (fn : Nat) : Bool :=
  s.work.ctxs.any (fun c => match c.2 with | some x => x.fn == fn && x.phase == .live | none => false)

/-- A write-back of a function's bale to a parking slot that runs as its link is reset has not issued all its writes: its record becomes
POISON with ERR 0x03 (R308). -/
def endParkWrites (s : State) (fn : Nat) : State :=
  (s.tier.ops.filter (fun o => o.fn == fn && o.started)).foldl (fun s o => match o.kind with
    | .writeback | .evict | .replace => match context s o.ctx with
      | some x => match readRec s x o.bale with
        | .good r => if r.tier = 2 then
            opTierError (writeRec s x o.bale { r with state := 0, poison := true, err := 3, newTier := 0, newSlot := 0 }) o 2
          else s
        | _ => s
      | none => s
    | _ => s) s

/-- A reset of the link a function is on (R308, R525, R526). -/
def linkResetFn (s : State) (fn : Nat) : State :=
  let s := resetConfig s fn
  if 9 ≤ fn then s
  else
    let s := tcDrop (emptyStaged s fn) (fun e => e.fn == fn)
    let s := { s with host := { s.host with trans := s.host.trans.filter (fun r => !(r.fn == fn && r.agent.isNone)) } }
    let s := revokeParking (endParkWrites (endReads s fn .masterDisabled) fn) fn
    if hasContexts s fn then modFn s fn (fun h => { h with preserved := true, detached := true }) else s

/-- The functions on a link, PF0 or its view first. -/
def fnsOn (s : State) (l : Nat) : List Nat :=
  (if s.host.controlLink = l then [0] else [9 + l]) ++
  (span 1 8).filter (fun fn => fnPresent s fn && fnLinkOf s fn == l)

/-- A function takes up the link its object names at the reset of the link it is on (R501), and function 0 the control link
that 0x2020 names (R499). -/
def moveFns (s : State) (l : Nat) : State :=
  let s := (span 1 8).foldl (fun s fn =>
    if smGet 0 s.host.fnLink fn = l then { s with host := { s.host with fnLink := smSet 0 s.host.fnLink fn (part s fn).link } } else s) s
  if s.host.controlLink = l then { s with host := { s.host with controlLink := objVal s 0x2020 1 0, subsystemId := objVal s 0x2021 1 0 } }
  else s

/-- The SPDM sessions held over the DOE of a link end (R632). -/
def endSessions (s : State) (l : Nat) : State :=
  { s with cus := { s.cus with sessions := s.cus.sessions.filter (fun p => p != .doe l) } }

/-- A link is reset: its functions, then the link itself, which trains again (R525). -/
def resetLink (s : State) (l : Nat) : State :=
  let s := (fnsOn (endSessions s l) l).foldl linkResetFn (endSessions s l)
  pumpHost (moveFns (putLink s l {}) l)

def linkUsed (s : State) (l : Nat) : Bool := decide (l < 4) && (decide (l < 2) || (hostPort s (l % 2)).bifurc)
def linksOf (s : State) (port : Nat) : List Nat := [port, port + 2].filter (linkUsed s)

/-- PERST_ASSERT (R525): a fundamental reset of every function on the port. -/
def execPerstAssert (port : Nat) (s : State) : Res :=
  if 2 ≤ port then illFormed
  else if (hostPort s port).perst then notDue s
  else
    let s := putPort s port { hostPort s port with perst := true }
    okT ((linksOf s port).foldl resetLink s)

/-- PERST_DEASSERT (R528): the port's links begin training. -/
def execPerstDeassert (port : Nat) (s : State) : Res :=
  if 2 ≤ port then illFormed
  else if (hostPort s port).perst then ok (putPort s port { hostPort s port with perst := false }) else notDue s

/-- HOST_LINK_UP (R528): a link of a port that is out of reset has trained and answers configuration requests. -/
def execHostLinkUp (l : Nat) (s : State) : Res :=
  if 4 ≤ l then illFormed
  else if !linkUsed s l || (hostPort s (l % 2)).perst || linkTrained s l then notDue s
  else
    let s := putPort s (l % 2) { hostPort s (l % 2) with refclk := true }
    ok (putLink s l { trained := true, configOk := true })

/-- HOT_RESET (R525): an in-band hot reset of one link. -/
def execHotReset (l : Nat) (s : State) : Res :=
  if 4 ≤ l then illFormed else if !linkUsed s l || !linkTrained s l then notDue s else okT (resetLink s l)

/-- HOST_REFCLK_LOSS (R687): the port's links go down, as by a hot reset of each. -/
def execHostRefclkLoss (port : Nat) (s : State) : Res :=
  if 2 ≤ port then illFormed
  else if !(hostPort s port).refclk then notDue s
  else okT ((linksOf s port).foldl resetLink (putPort s port { hostPort s port with refclk := false }))

/-- FLR (R525, R528): a partition reset of the function's partition; a PF0 view resets only itself. -/
def execFlr (fn : Nat) (s : State) : Res :=
  if 13 ≤ fn then illFormed
  else if !fnUp s fn || (hostFn s fn).inFlr then notDue s
  else if 9 ≤ fn then ok (modFn s fn (fun h => { h with inFlr := true }))
  else
    let s := modFn (if fn = 0 then endSessions s s.host.controlLink else s) fn (fun h => { h with inFlr := true })
    okT (if (part s fn).phase = .resetting then s else partitionReset s fn)

/-- FLR_COMPLETE (R525, R528): the partition reset has ended; configuration space, HPF_ registers, translations and backlog
are at their reset values and the function answers again. -/
def execFlrComplete (fn : Nat) (s : State) : Res :=
  if 13 ≤ fn then illFormed
  else if !(hostFn s fn).inFlr then notDue s
  else if 9 ≤ fn then ok (resetConfig s fn)
  else if (part s fn).phase = .resetting then notDue s
  else
    let s := tcDrop (resetConfig s fn) (fun e => e.fn == fn)
    okT (modFn s fn (fun h => { h with backlog := [], detached := false, preserved := false }))

/-! ### Bus Master Enable and power states -/

/-- What can be sent again of a function that may master (R524). -/
def resumeFn (s : State) (fn : Nat) : State :=
  let h := hostFn s fn
  if !h.master then s
  else
    let s := sendPending s fn
    pumpHost (if h.detached then s else deliverBacklog s fn)

/-- BME_CLEAR (R523). -/
def execBmeClear (fn : Nat) (s : State) : Res :=
  if 13 ≤ fn then illFormed
  else if !fnUp s fn then notDue s
  else okT (pumpHost (modFn s fn (fun h => { h with bme := false })))

/-- BME_SET (R524). -/
def execBmeSet (fn : Nat) (s : State) : Res :=
  if 13 ≤ fn then illFormed
  else if !fnUp s fn then notDue s
  else okT (resumeFn (modFn s fn (fun h => { h with bme := true })) fn)

/-- D3HOT_ENTRY (R523). -/
def execD3hotEntry (fn : Nat) (s : State) : Res :=
  if 13 ≤ fn then illFormed
  else if !fnUp s fn || (hostFn s fn).d3hot then notDue s
  else okT (pumpHost (modFn s fn (fun h => { h with d3hot := true })))

/-- D0_ENTRY (R523). -/
def execD0Entry (fn : Nat) (s : State) : Res :=
  if 13 ≤ fn then illFormed
  else if !fnUp s fn || !(hostFn s fn).d3hot then notDue s
  else okT (resumeFn (modFn s fn (fun h => { h with d3hot := false })) fn)

/-- MSIX_UNMASK (R512): MSI-X is enabled, the function is unmasked, or one entry is; pending vectors that nothing holds any
longer are sent. -/
def execMsixUnmask (fn : Nat) (c : MsixChange) (s : State) : Res :=
  if decide (13 ≤ fn) || (match c with | .vector v => decide (2048 ≤ v) | _ => false) then illFormed
  else if !fnUp s fn then notDue s
  else match c with
    | .enable => ok (sendPending (modFn s fn (fun h => { h with msixEnable := true })) fn)
    | .function => ok (sendPending (modFn s fn (fun h => { h with msixMask := false })) fn)
    | .vector v =>
      ok (sendPending (modFn s fn (fun h =>
        { h with msixTable := smSet {} h.msixTable v { smGet {} h.msixTable v with masked := false } })) fn)

/-! ### Translations -/

/-- Reads of a function that are outstanding, as 4,096 × port + tag. -/
def outstandingOf (s : State) (fn : Nat) : List Nat :=
  (span 0 2).flatMap (fun port => (hostPort s port).tags.filterMap (fun t => match t.2 with
    | some (.stepRead f _ _ _) => if f = fn then some (4096 * port + t.1) else none
    | _ => none))

/-- An invalidation begins (R521): covered entries are invalid at once; it completes when the reads that may use them have. -/
def beginInval (s : State) (fn : Nat) (b : InvBy) (p : TcEntry → Bool) : State :=
  let w := outstandingOf s fn
  modFn (tcDrop s (fun e => e.fn == fn && p e)) fn (fun h => { h with invals := h.invals ++ [{ by_ := b, waits := w }] })

/-- Finds an invalidation that has completed and removes it. -/
def endInval (s : State) (fn : Nat) (b : InvBy) : Option State :=
  let h := hostFn s fn
  if h.invals.any (fun v => v.by_ == b && v.waits.isEmpty) then
    some (putFn s fn { h with invals := listDelFirst (fun v => v.by_ == b && v.waits.isEmpty) h.invals })
  else none

/-- The pages of two translations meet. -/
def TcEntry.meets (e : TcEntry) (va log2 : Nat) : Bool :=
  let m := max e.log2 log2
  e.va / 2 ^ m == va / 2 ^ m

/-- ATS_INVALIDATION_REQUEST (R521): of a range for one PASID, or for all (Global Invalidate). Up to 32 are in progress. -/
def execAtsInvalidationRequest (fn itag : Nat) (all : Bool) (pasid va log2 : Nat) (s : State) : Res :=
  if 9 ≤ fn ∨ 32 ≤ itag ∨ 2 ^ 20 ≤ pasid ∨ log2 < 12 ∨ 64 < log2 then illFormed
  else if !fnUp s fn || (hostFn s fn).invals.any (fun v => v.by_ == .ats itag) then notDue s
  else ok (beginInval s fn (.ats itag) (fun e => (all || e.pasid == pasid) && e.meets va log2))

/-- ATS_INVALIDATION_COMPLETION (R521): entries are invalid and their users have completed. -/
def execAtsInvalidationCompletion (fn itag : Nat) (s : State) : Res :=
  if 9 ≤ fn ∨ 32 ≤ itag then illFormed
  else match endInval s fn (.ats itag) with
    | some s => ok (emit s (.atsInvalComplete fn itag))
    | none => notDue s

/-- ATS_ENABLE_CLEAR (R521): ATS Enable or PASID Enable is cleared. -/
def execAtsEnableClear (fn : Nat) (pasid : Bool) (s : State) : Res :=
  if 9 ≤ fn then illFormed
  else if !fnUp s fn then notDue s
  else
    let s := modFn s fn (fun h => if pasid then { h with pasidEnable := false } else { h with atsEnable := false })
    let s := tcDrop s (fun e => e.fn == fn)
    okT (pumpHost { s with host := { s.host with trans := s.host.trans.filter (fun r => !(r.fn == fn && r.agent.isNone)) } })

/-- The requests that wait for a translation that an agent denied end with TRANSLATION_FAULT (R520): reads of rings halt
their queues, COPY steps break, event entries count as faults. -/
def denyTranslation (s : State) (fn pasid page : Nat) : State :=
  let s := s.work.queues.foldl (fun s p => match p.2 with
    | some q =>
      let mine := match context s q.ctx with | some x => x.pasid == pasid | none => false
      if q.fn == fn && q.asked == some page && mine then haltQueue (countFault s fn .translationFault) p.1 5 else s
    | none => s) s
  let s := { s with host := { s.host with denied := [(fn, pasid, page)] } }
  let s := deliverBacklog (pumpHost s) fn
  { s with host := { s.host with denied := [] } }

/-- An agent's answer for a page has come: it is cached and the requests that waited go on, or it is denied. -/
def translationCame (s : State) (fn pasid page : Nat) (ans : Option TransAnswer) (isHa : Bool) : State :=
  match ans with
  | some a =>
    if a.read || a.write then
      let base := page / 2 ^ a.log2 * 2 ^ a.log2
      let s := tcAdd s fn pasid base a.log2 (a.bus / 2 ^ a.log2 * 2 ^ a.log2) a.read a.write isHa page
      deliverBacklog (pumpHost s) fn
    else denyTranslation s fn pasid page
  | none => denyTranslation s fn pasid page

/-- TRANSLATION_COMPLETION (R517, R518, R520): the host's answer to an ATS request. -/
def execTranslationCompletion (fn pasid va : Nat) (ans : Option TransAnswer) (s : State) : Res :=
  let page := va / 4096 * 4096
  if decide (9 ≤ fn) || decide (2 ^ 20 ≤ pasid) || (match ans with | some a => decide (a.log2 < 12 ∨ 64 < a.log2) | none => false) then
    illFormed
  else if s.host.trans.any (fun r => r.fn == fn && r.pasid == pasid && r.va == page && r.agent.isNone) then
    let ts := s.host.trans.filter (fun r => !(r.fn == fn && r.pasid == pasid && r.va == page && r.agent.isNone))
    okT (translationCame { s with host := { s.host with trans := ts } } fn pasid page ans false)
  else notDue s

/-- TC_INV (R541): a write of HPF_TC_INV with GO; none while BUSY. -/
def execTcInv (fn : Nat) (all : Bool) (pasid : Nat) (s : State) : Res :=
  if 13 ≤ fn ∨ 2 ^ 20 ≤ pasid then illFormed
  else if (hostFn s fn).invals.any (fun v => v.by_ == .own) then ok s
  else
    let s := regSetBits (regSetBits s ⟨.hpfTcInv, fn, 0⟩ 61 61 (b2n all)) ⟨.hpfTcInv, fn, 0⟩ 19 0 pasid
    ok (beginInval s fn .own (fun e => all || e.pasid == pasid))

/-- TC_INV_COMPLETE (R541): BUSY clears. -/
def execTcInvComplete (fn : Nat) (s : State) : Res :=
  if 13 ≤ fn then illFormed
  else match endInval s fn .own with
    | some s => ok s
    | none => notDue s

/-! ### Detached functions -/

/-- ADOPT (R527, R539). -/
def execAdopt (fn : Nat) (s : State) : Res :=
  if 13 ≤ fn then illFormed
  else
    let h := hostFn s fn
    if h.detached || h.preserved then
      okT (pumpHost (deliverBacklog (putFn s fn { h with detached := false, preserved := false }) fn))
    else ok s

/-- ATTACH_DISCARD (R527, R539): a partition reset; DETACHED and PRESERVED clear as it ends. -/
def execAttachDiscard (fn : Nat) (s : State) : Res :=
  if 13 ≤ fn then illFormed
  else
    let h := hostFn s fn
    if (h.detached || h.preserved) && decide (fn < 9) && (part s fn).phase != .resetting then okT (partitionReset s fn) else ok s

/-! ### The host windows -/

/-- Performs one posted write (R429, R513, R514); false where it must wait. -/
def performPosted (s : State) (fn : Nat) : PostedOp → State × Bool
  | .fence seq => (regPut s ⟨.hpfFence, fn, 0⟩ (seq % 2 ^ 32), true)
  | .tail page v => (writeTail s fn page v, true)
  | .evtHead page v => (writeEvtHead s fn page v, true)
  | .tally slot v => (windowTally s fn slot v, true)
  | .window bar off b =>
    let init := initHost (fnPort s fn) fn
    match barHa s fn bar off with
    | none => (logUnmapped s init off, true)
    | some ha =>
      if !mapped s ha then (logUnmapped s init ha, true)
      else match gate s (.host fn) (2 * off + bar / 4) init fn b.length with
        | (s1, false) => (s1, false)
        | (s1, true) => match writeNow s1 ha b 0 with
          | .done s1 _ => (s1, true)
          | .bad s1 _ => (bump s1 ⟨.hpfWrDrop, fn, 0⟩ 1, true)
          | .wait w => (waitFor s w, false)

def PostedOp.isFence : PostedOp → Bool | .fence _ => true | _ => false

/-- Performs what may be performed of a function's posted writes, in order of arrival (R429, R431): `held` says whether an
earlier write is held, `ordered` whether an earlier one without Relaxed Ordering is. -/
def postedRun (fn : Nat) : List Posted → State → Bool → Bool → List Posted → State × List Posted
  | [], s, _, _, kept => (s, kept)
  | p :: l, s, held, ordered, kept =>
    if p.op.isFence && held then (s, kept ++ p :: l)
    else if !p.ro && ordered then postedRun fn l s true true (kept ++ [p])
    else match performPosted s fn p.op with
      | (s, true) => postedRun fn l s held ordered kept
      | (s, false) => postedRun fn l s true (ordered || !p.ro) (kept ++ [p])

def runPosted (s : State) (fn : Nat) : State :=
  let (s, kept) := postedRun fn (hostFn s fn).posted s false false []
  modFn s fn (fun h => { h with posted := kept })

/-- A posted write joins those of its function and is performed as soon as its order allows. -/
def post (s : State) (fn : Nat) (p : Posted) : State := runPosted (modFn s fn (fun h => { h with posted := h.posted ++ [p] })) fn

def PostedOp.size : PostedOp → Nat | .window _ _ b => b.length | _ => 4

/-- Bytes in a port's posted-write buffer (R515). -/
def postedBytes (s : State) (port : Nat) : Nat :=
  (span 0 13).foldl (fun n fn => if fnPort s fn = port then (hostFn s fn).posted.foldl (fun n p => n + p.op.size) n else n) 0

/-- An offset and length that one request may have: within a BAR and a 4 KiB page (PCIe lets no request cross one). -/
def windowReq (bar off len : Nat) : Bool := (bar == 2 || bar == 4) && decide (len ≠ 0) && decide (off % 4096 + len ≤ 4096)

/-- HOST_WRITE (R429, R513 to R515): a posted write through BAR2 or BAR4. One with Relaxed Ordering may be performed later
than writes that follow it: whether it is held at first is a free value. -/
def execHostWrite (fn bar off : Nat) (bytes : List Byte) (ro : Bool) (s : State) : Res :=
  if 13 ≤ fn ∨ !windowReq bar off bytes.length ∨ 512 < bytes.length then illFormed
  else if !fnUp s fn || decide (2 ^ 21 < postedBytes s (fnPort s fn) + bytes.length) then notDue s
  else if !fnOpen s fn || decide (9 ≤ fn) then ok s
  else if !(hostFn s fn).ready then ok (bump s ⟨.hpfWrDrop, fn, 0⟩ 1)
  else
    let p : Posted := { op := .window bar off bytes, ro := ro }
    if ro then
      let (d, s) := draw s
      if Config.freeNat d % 2 = 1 then ok (modFn s fn (fun h => { h with posted := h.posted ++ [p] }))
      else okT (post s fn p)
    else okT (post s fn p)

/-- PULL (R437): the destination has a buffer, and what may be performed of a function's held posted writes is. -/
def execPull (fn : Nat) (s : State) : Res :=
  if 13 ≤ fn then illFormed
  else if (hostFn s fn).posted.isEmpty then notDue s
  else okT (runPosted s fn)

/-- HOST_READ (R430, R513, R514): a read through BAR2 or BAR4. It waits for the function's earlier writes without Relaxed
Ordering, for its line and for a fill; the command is then presented again. -/
def execHostRead (fn bar off len : Nat) (s : State) : Res :=
  if 13 ≤ fn ∨ !windowReq bar off len then illFormed
  else if !fnUp s fn then notDue s
  else if !fnOpen s fn || decide (9 ≤ fn) then ok (emit s (.hostUnsupported fn))
  else if !(hostFn s fn).ready then ok (emit s (.hostData fn (List.replicate len 0xFF)))
  else
    let s := runPosted s fn
    if (hostFn s fn).posted.any (fun p => !p.ro) then okT s
    else
      let init := initHost (fnPort s fn) fn
      let unmapped (ha : Nat) : Res := ok (emit (logUnmapped s init ha) (.hostUnsupported fn))
      match barHa s fn bar off with
      | none => unmapped off
      | some ha =>
        if !mapped s ha then unmapped ha
        else match gate s (.host fn) (2 ^ 50 + 2 * off + bar / 4) init fn len with
          | (s1, false) => okT s1
          | (s1, true) => match readNow s1 ha len 0 with
            | .done s1 b => okT (emit s1 (.hostData fn b))
            | .bad s1 _ => okT (emit (logEvent (bump s1 ⟨.hpfRdPoisoned, fn, 0⟩ 1) 0x0AE0 fn 1 ha) (.hostPoisoned fn))
            | .wait w => okT (waitFor s w)

/-- A write to BAR0 whose order is that of a posted write without Relaxed Ordering (R431). Before READY it is ignored (R654). -/
def postOwn (s : State) (fn : Nat) (p : PostedOp) : Res :=
  if 13 ≤ fn then illFormed
  else if !fnUp s fn then notDue s
  else if !fnOpen s fn || !(hostFn s fn).ready then ok s
  else okT (post s fn { op := p, ro := false })

/-- FENCE_WRITE (R431, R432). -/
def execFenceWrite (fn seq : Nat) (s : State) : Res := if 2 ^ 32 ≤ seq then illFormed else postOwn s fn (.fence seq)

/-- FENCE_READ (R431, R432): it completes once every write of the function received before it has been performed. -/
def execFenceRead (fn : Nat) (s : State) : Res :=
  if 13 ≤ fn then illFormed
  else if !fnUp s fn then notDue s
  else if !fnOpen s fn then ok (emit s (.hostUnsupported fn))
  else
    let s := runPosted s fn
    if (hostFn s fn).posted.isEmpty then okT (emit s (.regData (regRaw s ⟨.hpfFence, fn, 0⟩))) else okT s

/-- DOORBELL_TAIL_WRITE (R431, R555). -/
def execDoorbellTailWrite (fn page value : Nat) (s : State) : Res :=
  if 1024 ≤ page ∨ 2 ^ 32 ≤ value then illFormed else postOwn s fn (.tail page value)

/-- EVT_HEAD_WRITE (R555, R567). -/
def execEvtHeadWrite (fn page value : Nat) (s : State) : Res :=
  if 1024 ≤ page ∨ 2 ^ 32 ≤ value then illFormed else postOwn s fn (.evtHead page value)

/-- TALLY_WINDOW_ADD (R431, R564). -/
def execTallyWindowAdd (fn slot value : Nat) (s : State) : Res :=
  if 65536 ≤ slot ∨ 2 ^ 32 ≤ value then illFormed else postOwn s fn (.tally slot value)

end Sys2Proof.Machine
end

