-- ==== Sys2Proof/Machine/Sites.lean ====
section
/-!
DEFINITION. Training and discovery of chiplets, module repair and loss (R455 to R467, R489), and the messages of chiplets in the
bale, control and translation classes (R476 to R490).
-/
namespace Sys2Proof.Machine

/-! ### Modules -/

def moduleOf (s : State) (k m : Nat) : Module := smGet {} (site s k).modules m
def putModule (s : State) (k m : Nat) (x : Module) : State := modSite s k (fun t => { t with modules := smSet {} t.modules m x })

def siteTrained (s : State) (k : Nat) : Bool := (span 0 4).any (fun m => (moduleOf s k m).trained)

/-- The highest rate of a module that UCS_CTRL and its rate cap allow (R458, R677). -/
def maxRate (s : State) (k m : Nat) : Nat := min (regBits s ⟨.ucsCtrl, k, 0⟩ 9 8) (3 - smGet 0 s.age.caps (4 * k + m))

def siteStatus (s : State) (k bit : Nat) : State := setStatus s ⟨.ucsIntStatus, k, 0⟩ bit k 0

/-- A chiplet that has lost its last trained module: LINK_GRACE runs (R402, R465). -/
def graceCheck (s : State) (k : Nat) : State :=
  let q := chipSite s k
  if (site s q).present && !chipTrained s q then
    modSite s q (fun x => { x with graceFrom := match x.graceFrom with | some t => some t | none => some s.stage.hubTime })
  else modSite s q (fun x => { x with graceFrom := none })

/-- A module is out of service until the next site reset (R465). -/
def moduleOut (s : State) (k m : Nat) : State :=
  let s := putModule s k m { moduleOf s k m with width := 3, asked := false }
  graceCheck (siteStatus (ucsLastErr s k 4 m 0 0 0) k 2) k

/-- The initial credits of a site (R457, R482). -/
def grantCredits (s : State) (k : Nat) : State := returnCredit s k 32768 4096 64

/-! ### Descriptors -/

/-- A site descriptor keeps to its table (R459, R460): CRC, reserved fields and values. -/
def siteDescOk (b : List Byte) : Bool :=
  let f := fieldOf b
  b.length == 64 && crc32c (b.take 60) == f 0x3C 4 && f 0 2 != 0 && f 0 2 != 0xFFFF && f 2 1 == 1 && decide (f 3 1 ≤ 4) &&
  decide (f 4 1 < 32) && decide (f 5 1 ≤ if bitOf (f 4 1) 4 then 128 else 64) && decide (f 6 1 < 4) && f 7 1 == 0 && f 8 8 != 0 &&
  decide (1 ≤ f 0x10 2) && decide (f 0x10 2 ≤ 4096) && decide (1 ≤ f 0x12 1) && f 0x13 1 == 0 && f 0x20 28 == 0

/-- A module group of R455. -/
def groupOk (modules : Nat) (spans : Bool) : Bool :=
  if spans then modules == 0xF else [1, 2, 4, 8, 3, 12, 15].contains modules

/-- Every answer of a site is the same, accepted, and from a module that it names (R460). -/
def answersOk (x : Site) : Bool :=
  match x.answers with
  | [] => false
  | (_, b) :: _ =>
    let g := fieldOf b 4 1
    siteDescOk b && x.answers.all (fun a => a.2 == b && bitOf g a.1) && groupOk (g % 16) (bitOf g 4)

/-- The serial of the first answer of a site. -/
def answeredSerial (x : Site) : Nat := match x.answers with | (_, b) :: _ => fieldOf b 8 8 | [] => 0

/-- The site still awaits a module's training or its descriptor. -/
def siteOpen (s : State) (k : Nat) : Bool := (site s k).inReset || (span 0 4).any (fun m => (moduleOf s k m).asked)

/-- The site refuses its chiplet (R460). -/
def refuseChiplet (s : State) (k : Nat) : State :=
  siteStatus (ucsLastErr (modSite s k (fun x => { x with refused := true, identFail := true })) k 5 0 3 3 0) k 3

/-- The site records its chiplet (R457, R460, R461): modules that MODULES names but did not answer are out of service. -/
def recordChiplet (s : State) (k : Nat) (up down : Bool) : State :=
  match (site s k).answers with
  | [] => s
  | (_, b) :: _ =>
    let s := modSite s k (fun x => { x with present := true, desc := b, snpCr := fieldOf b 0x10 2, outCr := fieldOf b 0x12 1,
                                            spanUp := up, spanDown := down })
    (span 0 4).foldl (fun s m =>
      if bitOf (fieldOf b 4 1) m && !(site s k).answers.any (fun a => a.1 == m) then putModule s k m { moduleOf s k m with width := 3 }
      else s) s

/-- The modules of a site have answered or been left out: the chiplet is recorded or refused (R457, R460). One that spans waits
for the other site. -/
def identify (s : State) (k : Nat) : State :=
  let x := site s k
  if siteOpen s k || x.present || x.refused || x.answers.isEmpty then s
  else if !answersOk x then refuseChiplet s k
  else if !bitOf (match x.answers with | (_, b) :: _ => fieldOf b 4 1 | [] => 0) 4 then recordChiplet s k false false
  else
    let near := (span 0 8).filter (sitesAdjacent k)
    match near.find? (fun n => !(site s n).answers.isEmpty && answeredSerial (site s n) == answeredSerial x && !siteOpen s n) with
    | some n =>
      if answersOk (site s n) then
        recordChiplet (recordChiplet s k (decide (n < k)) (decide (k < n))) n (decide (k < n)) (decide (n < k))
      else refuseChiplet (refuseChiplet s k) n
    | none => if near.any (siteOpen s) then s else refuseChiplet s k

/-- A site and its neighbours are identified as far as they can be. -/
def identifyAll (s : State) (k : Nat) : State :=
  ((span 0 8).filter (sitesAdjacent k)).foldl identify (identify s k)

/-! ### Training -/

/-- A module finishes training (R457, R458, R462 to R465): `width` 1 x64, 2 x32, 0 if it failed down to 4 GT/s. -/
def execModuleTrainingDone (k : Fin 8) (m : Fin 4) (width : Fin 3) (rate : Fin 4) (repaired : Fin 8) (half : Fin 2) (s : State) : Res :=
  let x := moduleOf s k m
  if regBits s ⟨.ucsCtrl, k, 0⟩ 0 0 = 0 ∨ x.width ≠ 0 ∨ maxRate s k m < rate.val then notDue s
  else
    let first := !siteTrained s k && !(site s k).present
    let s := modSite s k (fun t => { t with inReset := false })
    if width.val = 0 ∨ (width.val = 2 ∧ regBits s ⟨.ucsCtrl, k, 0⟩ 1 1 = 0) then okT (identifyAll (moduleOut s k m) k)
    else
      let s := putModule s k m { width := width, rate := rate, repaired := repaired, half := half, asked := !(site s k).present }
      let s := if repaired.val ≠ 0 then siteStatus s k 0 else s
      let s := if width.val = 2 then siteStatus s k 1 else s
      if (site s k).present then okT (graceCheck s k)
      else
        let s := if first then grantCredits s k else s
        okT (sendEhp s k 3 2 0 0 0 0 (m.val + 16 * k.val) [])

/-- DESCRIPTOR (R457, R460): the answer of a module to IDENTIFY. One that answers no IDENTIFY changes nothing. -/
def execDescriptor (k : Fin 8) (m : Fin 4) (bytes : List (BitVec 8)) (s : State) : Res :=
  let x := moduleOf s k m
  if bytes.length ≠ 64 then illFormed
  else if !x.trained || (site s k).inReset || (site s k).msgCr == 0 || (site s k).dataCr < 4 then notDue s
  else
    let s := received (modSite s k (fun t => { t with msgCr := t.msgCr - 1, dataCr := t.dataCr - 4 })) k
    let s := returnCredit s k 4 0 1
    if x.asked then
      let s := putModule s k m { x with asked := false }
      okT (identifyAll (modSite s k (fun t => { t with answers := t.answers ++ [(m.val, bytes)] })) k)
    else ok s

/-- IDENTIFY_TIMEOUT (R457): a module that has not answered within 100 µs is left out. -/
def execIdentifyTimeout (k : Fin 8) (m : Fin 4) (s : State) : Res :=
  let x := moduleOf s k m
  if !x.asked then notDue s
  else
    let s := putModule s k m { x with asked := false, width := 3 }
    okT (identifyAll (siteStatus (modSite s k (fun t => { t with identFail := true })) k 3) k)

/-- MODULE_RETRAIN (R462 to R465): the retry rate makes the adapter retrain a module; `lanes` redundant lanes repair it, or, where
none is left, it runs at x32 on the half without the failed lane, or leaves service. -/
def execModuleRetrain (k : Fin 8) (m : Fin 4) (retries lanes : Nat) (half : Fin 2) (s : State) : Res :=
  let x := moduleOf s k m
  if !x.trained || (site s k).inReset then notDue s
  else
    let s := bump (bump s ⟨.ucsRetry, k, 0⟩ retries) ⟨.ucsRetrain, k, 0⟩ 1
    if lanes ≠ 0 then ok (siteStatus (putModule s k m { x with repaired := min 7 (x.repaired + lanes), rate := min x.rate (maxRate s k m) }) k 0)
    else if x.width = 1 ∧ regBits s ⟨.ucsCtrl, k, 0⟩ 1 1 = 1 then
      ok (siteStatus (putModule s k m { x with width := 2, half := half }) k 1)
    else okT (moduleOut s k m)

/-- MODULE_LINK_DOWN (R489): a module leaves training; an incomplete message on it is discarded, and a request is answered
ABORTED. -/
def execModuleLinkDown (k : Fin 8) (m : Fin 4) (part : Option (BitVec 128)) (s : State) : Res :=
  let x := moduleOf s k m
  if !x.trained then notDue s
  else
    let s := match part with
      | none => s
      | some h =>
        let s := bump (ucsLastErr s k 3 m (hClass h) (hOp h) (hTag h)) ⟨.ucsDiscard, k, 0⟩ 1
        if (hClass h == 0 && decide (hOp h < 0x20)) || hClass h == 1 || (hClass h == 2 && decide (hOp h ≤ 2)) || isMessage h 3 6 then
          sendEhp s k (hClass h) 0x61 (hTag h) (hInit h) Status.aborted.code 0 0 []
        else s
    okT (graceCheck (putModule s k m { x with width := 0, asked := false }) k)

/-! ### Bales -/

/-- Sends the DATA messages of a bale read for the lines that can be read (R476): LINE stands in the argument. The first failing
status, or none. -/
def sendBale (q : Nat) (h : Header) (line : Nat) : List Nat → State → Option Status → Now (Option Status)
  | [], s, st => .done s st
  | i :: l, s, st => match lineReadNow s (line + i) (hHint h) with
    | .done s d => sendBale q h line l (sendEhp s q 2 0x60 (hTag h) (hInit h) 0 0 i (lineBytes d)) st
    | .bad s e => sendBale q h line l s (match st with | some x => some x | none => some e)
    | .wait s => .wait s

/-- BALE_RD (R476): 512 DATA messages, and an error completion with the first failing status if a line failed. -/
def execBaleRd (k : Fin 8) (m : Fin 4) (h : BitVec 128) (s : State) : Res :=
  if !isMessage h 2 1 then illFormed
  else if !canReceive s k m || !creditsFor s (chipSite s k) 0 then notDue s
  else match takeIn s k h 0 65536 with
    | .refused s => okT s
    | .taken s1 _ =>
      let q := chipSite s k
      match gateCls s (.chiplet q (hTag h)) (hAddr h / 128) (hInit h) (initPart s (hInit h)) (hToll h) 65536 with
      | (g, false) => ok g
      | (g, true) =>
        match sendBale k h (hAddr h / 128) (span 0 512) { s1 with stage := g.stage } none with
        | .wait w => okT (waitFor s w)
        | .bad s _ => okT s
        | .done s none => okT (freeTag s (hInit h) (hTag h))
        | .done s (some st) => okT (sendReply s k 2 0x61 (hTag h) (hInit h) st.code 0 0 [])

/-- Microseconds of the reassembly timer (R490). -/
def baleTo (s : State) (k : Nat) : Nat :=
  let t := regBits s ⟨.ucsCtrl, k, 0⟩ 23 16
  16 * (if t = 0 then 16 else t)

/-- BALE_WR (R477, R490): a bale write is opened and its reassembly timer starts. -/
def execBaleWr (k : Fin 8) (m : Fin 4) (h : BitVec 128) (s : State) : Res :=
  if !isMessage h 2 2 then illFormed
  else if !canReceive s k m || !creditsFor s (chipSite s k) 0 then notDue s
  else match takeIn s k h 0 65536 with
    | .refused s => okT s
    | .taken s _ =>
      ok (modSite s (hInit h / 64) (fun x => { x with bales := x.bales ++
        [{ tag := hTag h, init := hInit h, ha := hAddr h, got := [], endAt := s.stage.hubTime + 1000 * baleTo s k, hint := hHint h, cls := hToll h }] }))

/-- A BALE_DATA of no use is discarded: its data credits return (R477, R490). -/
def discardBaleData (s : State) (k : Nat) : State := returnCredit s k 8 0 0

/-- A line that a chiplet marked as poisoned is poisoned at its home (R402). -/
def poisonLine (s : State) (line : Nat) : State :=
  match seraiFind s line with
  | some (w, l) => seraiSetLine s line w (some { l with poison := true })
  | none => if isHbm (lineHa line) then lowerWrite s line 0 true else s

/-- BALE_DATA (R477, R490): one line of an open bale write, applied as WR_FULL; the last one ends the write. -/
def execBaleData (k : Fin 8) (m : Fin 4) (tag : Fin 4096) (init line : Fin 512) (data : BitVec 1024) (poison : Bool) (s : State) : Res :=
  let n := init.val / 64
  if !canReceive s k m || (site s n).dataCr < 8 then notDue s
  else
    let s1 := received (modSite s n (fun x => { x with dataCr := x.dataCr - 8 })) k
    match (site s n).bales.find? (fun b => b.tag == tag.val && b.init == init.val) with
    | none => ok (discardBaleData (bump (ucsLastErr s1 k 3 m 2 3 tag) ⟨.ucsDiscard, k, 0⟩ 1) n)
    | some b =>
      if b.got.contains line.val then ok (discardBaleData (protoErr s1 k 2 3 tag) n)
      else
        let l := b.ha / 128 + line.val
        match gateCls s (.chiplet (chipSite s k) tag) l init (initPart s init) b.cls 128 with
        | (g, false) => ok g
        | (g, true) =>
          let s2 := { s1 with stage := g.stage }
          let put (s : State) : State :=
            let b' := { b with got := setAdd b.got line.val }
            let s := discardBaleData s n
            if b'.got.length = 512 then
              sendReply (modSite s n (fun x => { x with bales := listDelFirst (fun y => y == b) x.bales })) k 2 0x61 tag init 0 0 0 []
            else modSite s n (fun x => { x with bales := listModFirst (fun y => y == b) (fun _ => b') x.bales })
          match lineWriteNow s2 l b.hint data (BitVec.allOnes 128) with
          | .done s _ => okT (put (if poison then poisonLine s l else s))
          | .bad s st =>
            let s := discardBaleData (modSite s n (fun x => { x with bales := listDelFirst (fun y => y == b) x.bales })) n
            okT (sendReply s k 2 0x61 tag init st.code 0 0 [])
          | .wait w => okT (waitFor s w)

/-- BALE_TIMEOUT (R490): the timer ends a bale write with ABORTED; lines performed stand. -/
def execBaleTimeout (k : Fin 8) (tag : Fin 4096) (s : State) : Res :=
  match (site s k).bales.find? (fun b => b.tag == tag.val) with
  | none => notDue s
  | some b =>
    let s := advance s b.endAt
    let s := modSite s k (fun x => { x with bales := listDelFirst (fun y => y == b) x.bales })
    let s := sendReply s k 2 0x61 b.tag b.init Status.aborted.code 0 0 []
    ok (siteStatus (bump (ucsLastErr s k 2 0 2 2 b.tag) ⟨.ucsBaleTimeout, k, 0⟩ 1) k 5)

/-! ### Control and translation -/

/-- EHP_TALLY (R478, R479): READ (`op` 0) or ADD (1) of a tally of a partition of the chiplet's domain; the reply's VALUE is the
slot's value before. -/
def execEhpTally (k : Fin 8) (m : Fin 4) (h : BitVec 128) (s : State) : Res :=
  let op := hBits h 17 16
  let slot := hBits h 56 41
  let v := hBits h 111 80
  if !isMessage h 3 6 then illFormed
  else if !canReceive s k m || !creditsFor s (chipSite s k) 0 then notDue s
  else
    let s := received s k
    if 2 ≤ op ∨ hSlots h ≠ 0 ∨ hBits h 19 18 ≠ 0 ∨ hBits h 79 57 ≠ 0 ∨ hBits h 127 112 ≠ 0 ∨ tagOpen s (hInit h) (hTag h) ∨ !initFits s k h then
      okT (refuseMalformed s k h 0)
    else
      let s := takeRequest s h 0
      let reply (s : State) (st : Status) (v : Nat) : Res := okT (sendReply s k 3 0x61 (hTag h) (hInit h) st.code 0 v [])
      match siteDomain s k with
      | none => reply s .aborted 0
      | some d =>
        if (domain s d).st ≠ .up then reply s .domainDown 0
        else match slotPart s slot with
          | none => reply s .aborted 0
          | some p =>
            if bitOf (domain s d).parts p && isTally s p slot then
              let old := tallyValue s slot
              reply (if op = 1 then tallyAdd s slot v else s) .complete old
            else reply s .aborted 0

/-- CREDIT (R478, R482): the chiplet grants or returns snoop and message credits; held messages follow (R488). -/
def execCredit (k : Fin 8) (m : Fin 4) (snoop : Fin 8192) (msg : Fin 256) (s : State) : Res :=
  if !(moduleOf s k m).trained || (site s k).inReset then notDue s
  else
    let q := chipSite s k
    let s := received s k
    ok (sendHeld (modSite s q (fun x => { x with snpCr := x.snpCr + snoop.val, outCr := x.outCr + msg.val })) q)

/-- One entry of a TR_CPL (R480): its translation, and the page that it covers. -/
def entryAnswer (b : List Byte) : TransAnswer × Nat :=
  let lo := fieldOf b 0 8
  let hi := fieldOf b 8 8
  ({ log2 := bitsOf lo 5 0, bus := bitsOf lo 51 12 * 4096, read := bitOf lo 6, write := bitOf lo 7 }, bitsOf hi 63 12 * 4096)

/-- The entry of a completion that covers a page. -/
def coveringEntry (page : Nat) (es : List (List Byte)) : Option TransAnswer :=
  (es.map entryAnswer).findSome? (fun e =>
    if 12 ≤ e.1.log2 ∧ e.1.log2 ≤ 52 ∧ page / 2 ^ e.1.log2 = e.2 / 2 ^ e.1.log2 then some e.1 else none)

/-- TR_CPL (R480, R517): the translation agent answers TR_REQ `tag` with STATUS and 1 to 8 entries. -/
def execTrCpl (k : Fin 8) (m : Fin 4) (tag : Fin 4096) (status : Nat) (entries : List (List (BitVec 8))) (s : State) : Res :=
  if entries.isEmpty || decide (8 < entries.length) || entries.any (fun e => e.length != 16) then illFormed
  else if !canReceive s k m then notDue s
  else
    let s := received s k
    match s.host.trans.find? (fun r => r.agent == some (chipSite s k) && r.tag == tag.val) with
    | none => ok (protoErr s k 4 2 tag)
    | some r =>
      let s := { s with host := { s.host with trans := listDelFirst (fun x => x == r) s.host.trans } }
      let ans := if status = 0 then coveringEntry r.va entries else none
      okT (translationCame s r.fn r.pasid r.va ans true)

/-- TR_REQ_TIMEOUT (R481): a TR_REQ without TR_CPL for 64 µs ends the requests that wait on it. -/
def execTrReqTimeout (k : Fin 8) (tag : Fin 4096) (s : State) : Res :=
  match s.host.trans.find? (fun r => r.agent == some k.val && r.tag == tag.val) with
  | none => notDue s
  | some r =>
    let s := advance s (r.sent + 64000)
    let s := { s with host := { s.host with trans := listDelFirst (fun x => x == r) s.host.trans } }
    okT (denyTranslation (protoErr s k 4 1 tag) r.fn r.pasid r.va)

/-- The functions that a chiplet serves as translation agent. -/
def agentFns (s : State) (k : Nat) : List Nat := (span 1 8).filter (fun fn => transAgentOf s fn == some k)

/-- INV_REQ (R480, R481): the agent invalidates translations of its functions, of a range and PASID, or of all (GLOBAL). -/
def execInvReq (k : Fin 8) (m : Fin 4) (tag : Fin 4096) (all : Bool) (pasid va log2 : Nat) (s : State) : Res :=
  if 2 ^ 20 ≤ pasid ∨ log2 < 12 ∨ 52 < log2 then illFormed
  else if !canReceive s k m || (site s k).msgCr == 0 then notDue s
  else
    let q := chipSite s k
    let fns := agentFns s q
    let s := returnCredit (received (modSite s k (fun x => { x with msgCr := x.msgCr - 1 })) k) k 0 0 1
    if fns.isEmpty then ok (sendEhp s k 4 4 tag 0 0 0 0 [])
    else ok (fns.foldl (fun s fn => beginInval s fn (.agent q tag) (fun e => (all || e.pasid == pasid) && e.meets va log2)) s)

/-- INV_CPL (R481): every covered entry is invalid and every request that used one has completed. -/
def execInvCpl (k : Fin 8) (tag : Fin 4096) (s : State) : Res :=
  let fns := (span 0 9).filter (fun fn => (hostFn s fn).invals.any (fun v => v.by_ == .agent k tag))
  if fns.isEmpty then notDue s
  else match fns.foldl (fun (o : Option State) fn => o.bind (fun s => endInval s fn (.agent k tag))) (some s) with
    | none => notDue s
    | some s => ok (sendEhp s k 4 4 tag 0 0 0 0 [])

/-- UCIE_LOW_POWER_REQUEST (R454): the site refuses the low-power state and keeps the module active. -/
def execUcieLowPowerRequest (k : Fin 8) (m : Fin 4) (s : State) : Res := if (moduleOf s k m).trained then ok s else notDue s

end Sys2Proof.Machine
end

