-- ==== Sys2Proof/Machine/Network.lean ====
section
/-!
DEFINITION. The fabric as commands see it: packets that are lost (R443, R444, R449 to R451) and the latency histograms' selectors
(R452).
-/
namespace Sys2Proof.Machine

/-- Where a packet met its error (R451): hop error or CRC, network, freight plane, channel, router and port. -/
def nocLastErr (s : State) (kind net plane channel tile port : Nat) : State :=
  let r : Reg := ⟨.nocLastErr, 0, 0⟩
  if regBits s r 63 63 = 1 then s
  else regPut s r (2 ^ 63 + kind % 4 * 2 ^ 61 + net % 2 * 2 ^ 60 + plane % 2 * 2 ^ 59 + channel % 8 * 2 ^ 56 + tile % 256 * 2 ^ 48 +
    port % 8 * 2 ^ 45 + s.stage.number % 2 ^ 32)

/-- The answer that a core's read or write awaits is replaced by an error (R444). -/
def replaceAnswer (s : State) (n line : Nat) (write : Bool) (st : Status) : Option State :=
  (answerOf s n line write).map (fun a =>
    { s with mem := { s.mem with answers := listModFirst (fun b => b == a) (fun b => { b with status := st }) s.mem.answers } })

/-- The line is poisoned at its home: reads are answered UNCORRECTABLE until a whole-line write replaces it (R444). -/
def poisonHome (s : State) (line : Nat) : State :=
  match seraiFind s line with
  | some (w, l) => seraiSetLine s line w (some { l with poison := true, dirty := true })
  | none => if isHbm (lineHa line) then lowerWrite s line 0 true else s

/-- A request that has not been answered, lost on its way: a core's or a chiplet's. It is answered no more by its home. -/
def lostRequest (s : State) (who : Issuer) (line : Nat) : Option (Req × State) :=
  let mine (r : Req) : Bool := r.who == who && r.line == line && !r.dropped
  match s.mem.heldIn.find? mine with
  | some r => some (r, { s with mem := { s.mem with heldIn := listDelFirst mine s.mem.heldIn } })
  | none => (txnFind s line).bind (fun t => match t.merged.find? mine with
    | some r => some (r, txnPut s { t with merged := listDelFirst mine t.merged })
    | none => (t.req.filter mine).map (fun r => (r, txnPut s { t with req := some { r with dropped := true } })))

/-- PACKET_ERROR (R444): an uncorrectable hop error, or a CRC failure at the destination, discards a packet. Read data: the
receiver ends the core's read UNCORRECTABLE. Write data: the home poisons the line and answers UNCORRECTABLE. A control message
is lost, and RESPONSE_TIMEOUT ends its request. A port without a link carries no packet (R27). -/
def execPacketError (crc : Bool) (site : LostAt) (what : LostPacket) (s : State) : Res :=
  let log (s : State) : State :=
    let s := nocLastErr s (if crc then 2 else 1) site.net site.plane site.channel site.tile site.port
    if crc then setStatus (bump s ⟨.nocErrCrc, 0, 0⟩ 1) ⟨.nocIntStatus, 0, 0⟩ 1 0 0
    else setStatus (bump s ⟨.nocErrUe, 0, 0⟩ 1) ⟨.nocIntStatus, 0, 0⟩ 0 0 0
  if !placeOccurs site then illFormed
  else match what with
  | .readData n line => match replaceAnswer s n line false .uncorrectable with
    | some s => ok (log s)
    | none => notDue s
  | .writeData n line => match replaceAnswer s n line true .uncorrectable with
    | some s => ok (log (poisonHome s line))
    | none => notDue s
  | .control => ok (log s)

/-- RESPONSE_TIMEOUT (R444): a request whose control message was lost ends ABORTED after RSP_TO µs; whether a write was applied is
a free value. -/
def execResponseTimeout (who : Issuer) (line : Nat) (s : State) : Res :=
  match lostRequest s who line with
  | none => notDue s
  | some (r, s) =>
    let s := setStatus (bump (nocLastErr s 3 0 0 3 0 0) ⟨.nocRspTimeout, 0, 0⟩ 1) ⟨.nocIntStatus, 0, 0⟩ 2 0 0
    let (d, s) := draw s
    let s := if r.isWrite && Config.freeNat d % 2 == 1 then
        match applyWrite s r with
        | .done s => s
        | _ => s
      else s
    okT (answerCmp s r .aborted 0)

/-- NOC_HIST_SEL_WRITE (R452): the selector of a histogram is written; its 32 bins clear. -/
def execNocHistSelWrite (n : Fin 8) (v : BitVec 32) (s : State) : Res :=
  let s := regPut s ⟨.nocHistSel, 0, n⟩ (v.toNat % 2 ^ 14 + bitsOf v.toNat 31 31 * 2 ^ 31)
  ok ((span 0 32).foldl (fun s k => regPut s ⟨.nocHistBin, 0, 32 * n.val + k⟩ 0) s)

end Sys2Proof.Machine
end

