-- ==== Sys2Proof/Machine/RegView.lean ====
section
/-!
DEFINITION. What each register reads: registers whose value stands elsewhere in the state are computed from it, the others
read as kept (R12 and the register tables).
-/
namespace Sys2Proof.Machine

/-- The sum of values shifted to their lowest bits. -/
def bitsAt (l : List (Nat × Nat)) : Nat := l.foldl (fun v p => v + p.2 * 2 ^ p.1) 0

/-- An accepted set that is not applied changes the stage period (R86). -/
def periodPending (s : State) : Bool :=
  s.dict.accepted.any (fun a => a.set.any (fun v => match v.key with
    | .obj 0x2000 1 => decide (ofBytes v.bytes ≠ regBits s ⟨.stgPeriod, 0, 0⟩ 3 0)
    | .reg r _ _ => r.name == .stgPeriod && decide (ofBytes v.bytes ≠ regBits s ⟨.stgPeriod, 0, 0⟩ 3 0)
    | _ => false))

/-- STG_STATUS (R86). -/
def stgStatusValue (s : State) : Nat :=
  bitsAt [(0, s.stage.window), (4, b2n (periodPending s)), (5, b2n s.stage.running), (6, regBits s ⟨.stgStatus, 0, 0⟩ 7 6)]

/-- TOL_PROBE_DATA (R93, R79): for an engine, of the partition that owns its current slot, or P0. A request that is admitted and only
waits for its line waits at no admission point. -/
def probeValue (s : State) : Nat :=
  let i := regBits s ⟨.tolProbeSel, 0, 0⟩ 11 0
  let p := if 0x840 ≤ i ∧ i < 0x848 then (slotOwner s (i - 0x840)).getD 0 else initPart s i
  let waits := s.stage.held.any (fun h => h.init == i && h.part == p && !(h.instant && h.bytes == 0))
  bitsAt [(0, b2n waits), (24, min ((tollOf s i p).a / 64) 0xFFFFFF), (54, (ruleFor s p i).getD 0x3FF)]

/-- Owners of numbered resources in four bits each, 0xF for none (R179, R340). -/
def ownerMap (n : Nat) (own : Nat → Option Nat) : Nat := (span 0 n).foldl (fun v k => v + (own k).getD 0xF * 16 ^ k) 0

/-- The partition that owns bank `j` of engine `e` (R152). -/
def bankOwner (s : State) (e j : Nat) : Option Nat := (span 0 9).find? (fun p => bitOf (part s p).meBanks (8 * e + j))

/-- Spare columns assigned (R178). -/
def sparesUsed (s : State) (e : Nat) : Nat := ((span 0 4).filter (fun k => regBits s ⟨.mecSpare, e, k⟩ 31 31 == 1)).length

/-- MEC_STATUS (R178). -/
def mecStatusValue (s : State) (e : Nat) : Nat :=
  let x := engine s e
  bitsAt [(3, b2n x.run.isSome), (4, b2n x.loading.isSome), (5, b2n (engineLicensed s e)), (6, b2n x.outOfService),
            (7, b2n x.outOfService), (8, sparesUsed s e), (16, match x.active.tag with | some t => t.part | none => 0xF),
            (20, match slotOwner s e with | some p => p | none => 0xF)]

/-- A guard tile overruns the narrow path (R203), as the bytes of its vectors stand now. -/
def tileEscalated (s : State) (d : EngDesc) (g : Nat) : Bool :=
  (d.tileRows g).any (fun m => match homeBytes s (d.abase + m * d.astride) d.aBytes with
    | some b => ({ m := m, row := b, sc := [] } : ActRow).overruns d
    | none => false)

/-- The guard tile in the array runs on the narrow path (R204, R210): no rerun does (R195). -/
def narrowNow (s : State) (r : EngRun) (d : EngDesc) : Bool :=
  d.narrow && r.ladder.isNone && decide (r.tile < d.tiles) && !tileEscalated s d r.tile

/-- A guard tile awaits its checks (R193, R210): one on the ladder, or one whose last vector has left the array. -/
def holdingNow (s : State) (e : Nat) (r : EngRun) (d : EngDesc) : Bool :=
  let clk := (d.tileRows r.tile).length * vectorClocks d (narrowNow s r d)
  r.ladder.isSome ||
  (checksRun s e d && decide (r.tile < d.tiles) && decide (3 * r.start + 2 * (r.clocks + clk) ≤ 3 * s.stage.hubTime))

/-- MEC_WB_STATUS (R210). -/
def wbStatusValue (s : State) (e : Nat) : Nat :=
  match (engine s e).run with
  | none => 0
  | some r => match r.desc with
    | none => 0
    | some d => bitsAt [(0, b2n (holdingNow s e r d)), (1, b2n (checksRun s e d)), (2, b2n (narrowNow s r d)),
        (3, match r.ladder with | some l => l.rung | none => 0)]

/-- PRT_BOOT_STATUS (R268). -/
def bootStatusValue (s : State) : Nat :=
  bitsAt [(0, (s.prt.clusters.filter (fun p => p.2.loaded)).length), (16, (s.prt.clusters.filter (fun p => p.2.bootFail)).length)]

/-- TIR_TILE_n (R314). -/
def tirTileValue (s : State) (t : Nat) : Nat :=
  let ops := s.tier.ops.filter (fun o => o.tile == t)
  bitsAt [(0, (smGet [] s.tier.cached t).length), (24, (ops.filter (fun o => o.started)).length),
            (32, min (ops.filter (fun o => !o.started)).length 65535)]

/-- SRI_SLICE_n (R344). -/
def sriSliceValue (s : State) (t : Nat) : Nat :=
  let w14 := s.mem.customsW14.contains t
  let ways := (span 0 16).foldl (fun v w => v + b2n (wayDisabled s t w) * 2 ^ w) 0
  bitsAt [(0, min (mheUsed s t) 255), (8, wbUsed s t), (14, b2n w14), (32, ways), (48, smGet 0 s.mem.rowsUsed t)]

/-- SRI_DIR_DOMAIN_d_STATE (R412). -/
def domainValue (s : State) (d : Nat) : Nat :=
  let x := domain s d
  bitsAt [(0, x.stageLow), (32, x.st.code), (40, b2n x.swept), (41, x.deadSite), (44, x.cause), (47, x.parts), (56, x.sites)]

/-- HBC_CFG (R373). -/
def hbcCfgValue (s : State) (h : Nat) : Nat :=
  let x := stackOf s h
  bitsAt [(0, b2n x.inService), (1, b2n (stackLicensed s h)), (2, b2n x.retained), (8, x.cap)]

/-- HBC_SCRUB_STATUS (R374). -/
def scrubValue (s : State) (h : Nat) : Nat :=
  let x := stackOf s h
  regBits s ⟨.hbcScrubStatus, h, 0⟩ 31 16 * 2 ^ 16 + (if sectorsOf x.cap = 0 then 0 else x.scrubPos * 1000 / sectorsOf x.cap)

/-- HBC_REPAIR_STATUS (R374). -/
def repairValue (s : State) (h : Nat) : Nat :=
  let x := stackOf s h
  bitsAt [(0, min x.fused 1023), (10, regBits s ⟨.hbcRepairStatus, h, 0⟩ 20 10), (21, x.retired.length)]

/-- HBC_GMAP_g (R378). -/
def gmapValue (s : State) (g : Nat) : Nat :=
  let e := (gmapOf s g).getD { mode := 0, slabA := 0, slabB := 0 }
  bitsAt [(0, e.slabA), (16, e.slabB), (32, e.mode), (63, b2n (decide (g < s.mem.westGib + s.mem.eastGib)))]

/-- UCS_STATUS (R491). -/
def ucsStatusValue (s : State) (k : Nat) : Nat :=
  let x := site s k
  let mods (p : Module → Bool) : Nat := (span 0 4).foldl (fun v m => v + b2n (p (moduleOf s k m)) * 2 ^ m) 0
  bitsAt [(0, mods Module.trained), (4, mods (fun m => m.width == 2)), (9, b2n x.present), (10, b2n x.identFail),
            (11, b2n x.spanDown), (12, b2n x.spanUp), (13, match siteDomain s k with | some d => if s.stage.running then d else 7 | none => 7)]

/-- UCS_MOD_m (R492). -/
def ucsModValue (s : State) (k m : Nat) : Nat :=
  let x := moduleOf s k m
  bitsAt [(4, x.rate), (6, x.width), (8, x.half), (9, x.repaired)]

/-- HPF_ID (R537). -/
def hpfIdValue (s : State) (fn : Nat) : Nat :=
  let l := if 9 ≤ fn then fn - 9 else fnLinkOf s fn
  bitsAt [(0, if 9 ≤ fn then 0 else fn), (4, l % 2), (5, l / 2), (6, b2n (fn == 0)), (7, b2n (decide (9 ≤ fn)))]

/-- HPF_STATUS (R537). -/
def hpfStatusValue (s : State) (fn : Nat) : Nat :=
  let h := hostFn s fn
  bitsAt [(0, b2n h.ready), (1, b2n h.bringupFail), (2, b2n h.preserved), (3, b2n h.detached), (20, h.backlog.length)]

/-- A stage's record (R642). -/
def stageRec (s : State) (id : Nat) : StageRec := smGet {} s.bring.recs id

/-- STAGE of HPF_BRINGUP (R655): the lowest stage that runs. -/
def bringupStage (s : State) : Nat :=
  if s.bring.done then 0xFF else if s.bring.stopped then 0xFE
  else ((span 1 11).find? (fun i => (stageRec s i).res == .running)).getD 1

/-- HPF_DB_STATE (R555). -/
def dbStateValue (s : State) (fn page : Nat) : Nat :=
  match pageQueue s fn page with
  | none => 0
  | some (n, q) => bitsAt [(0, if q.halted then 3 else if q.head = q.tail then 1 else 2), (4, q.cause), (20, n)]

/-- HPF_RELAY_STATUS (R543). -/
def relayValue (s : State) : Nat :=
  let r := s.host.relay
  bitsAt [(0, b2n r.endpoint), (1, b2n r.linkUp), (2, r.width), (6, r.rate)]

/-- CUS_STATUS and CUS_SVN (R636). -/
def cusStatusValue (s : State) : Nat :=
  let c := s.cus
  bitsAt [(0, c.lc), (4, b2n c.pplReady), (5, c.cfwSlot), (6, c.pplSlot), (7, b2n c.fallback), (8, s.licences),
            (11, b2n c.burn.isSome), (12, b2n c.sealed)]
def cusSvnValue (s : State) : Nat := bitsAt [(0, s.cus.cfwSvn), (8, s.cus.minCfw), (16, s.cus.pplSvn), (24, s.cus.minPpl)]

/-- The value of a register with its write-only fields as 0 (R12). -/
def readableBits (r : Reg) (v : Nat) : Nat :=
  (regSpec r.name).fields.foldl (fun v f => if f.acc = .wo then setBitsOf v f.hi f.lo 0 else v) v

/-- The register counts what the model does not follow: the latencies of a histogram that runs (R447; a write of its selector
clears its bins, R452), the bytes on the seam (R448). -/
def uncounted (s : State) (r : Reg) : Bool :=
  decide (s.bring.supply = .released) &&
  match r.name with
  | .nocHistBin => bitOf (regRaw s ⟨.nocHistSel, 0, r.idx / 32⟩) 31
  | .nocSeamWe => true
  | .nocSeamEw => true
  | _ => false

/-- The free value that stands for such a count. -/
def countValue (s : State) (r : Reg) : Nat := Config.traffic s.free (regOffset r) % 2 ^ (regSpec r.name).width

/-- What a register reads. -/
def regValue (s : State) (r : Reg) : Nat :=
  match r.name with
  | .stgNumber => s.stage.number
  | .stgMarkTime => s.stage.markTime
  | .stgHubTime => s.stage.hubTime
  | .stgStatus => stgStatusValue s
  | .tolProbeData => probeValue s
  | .mecId => r.inst
  | .mecStatus => mecStatusValue s r.inst
  | .mecSlotMap => ownerMap 16 (fun k => (span 0 9).find? (fun p => bitOf (slotsOn s p r.inst) k))
  | .mecAccMap => ownerMap 8 (bankOwner s r.inst)
  | .mecWbStatus => wbStatusValue s r.inst
  | .prtBootStatus => bootStatusValue s
  | .prtClStatus => clRegVal s r.idx .prtClStatus
  | .prtClCoreState => clRegVal s r.idx .prtClCoreState
  | .tirTile => tirTileValue s r.idx
  | .sriStatus => bitsAt [(0, b2n !s.mem.sweep.isEmpty), (1, b2n s.mem.customsReady)]
  | .sriWayOwner => ownerMap 16 (fun w => some (wayOwner s w))
  | .sriLockWays => (span 0 16).foldl (fun v w => v + b2n (isLockWay s w) * 2 ^ w) 0
  | .sriSlice => sriSliceValue s r.idx
  | .sriDirDomainState => domainValue s r.idx
  | .hbcCfg => hbcCfgValue s r.inst
  | .hbcStatus => bitsAt [(0, b2n (stackOf s r.inst).selfRefresh), (1, b2n (stackOf s r.inst).hot), (2, b2n (stackOf s r.inst).repairing.isSome)]
  | .hbcScrubStatus => scrubValue s r.inst
  | .hbcRepairStatus => repairValue s r.inst
  | .hbcGeom => bitsAt [(0, s.mem.westGib), (10, s.mem.eastGib)]
  | .hbcGmap => gmapValue s r.idx
  | .ucsStatus => ucsStatusValue s r.inst
  | .ucsMod => ucsModValue s r.inst r.idx
  | .ucsDesc => if (site s r.inst).present then fieldOf (site s r.inst).desc (4 * r.idx) 4 else 0
  | .hpfId => hpfIdValue s r.inst
  | .hpfStatus => hpfStatusValue s r.inst
  | .hpfBringup => bitsAt [(0, if s.bring.done then 0 else s.bring.eta), (14, s.bring.progress), (24, bringupStage s)]
  | .hpfWin2Offset => win2 s r.inst
  | .hpfWin4Offset => win4 s r.inst
  | .hpfTcInv => readableBits r (regRaw s r) + b2n ((hostFn s r.inst).invals.any (fun i => i.by_ == .own)) * 2 ^ 62
  | .hpfDbTail => match pageQueue s r.inst r.idx with | some (_, q) => q.tail | none => 0
  | .hpfDbEvtHead => match pageQueue s r.inst r.idx with | some (_, q) => q.evtHead | none => 0
  | .hpfDbHead => match pageQueue s r.inst r.idx with | some (_, q) => q.head | none => 0
  | .hpfDbState => dbStateValue s r.inst r.idx
  | .hpfRelayStatus => relayValue s
  | .cusStatus => cusStatusValue s
  | .cusSvn => cusSvnValue s
  | _ => if uncounted s r then countValue s r else readableBits r (regRaw s r)

/-- Clears the counter fields of a register that was read (R12); a count that is free is another one after it. -/
def clearRc (s : State) (r : Reg) : State :=
  let s := if uncounted s r then (draw s).2 else s
  (regSpec r.name).fields.foldl (fun s f => if f.acc = .rc then regSetBits s r f.hi f.lo 0 else s) s

/-- A read of a register: its value, and its counters cleared. -/
def readReg (s : State) (r : Reg) : Nat × State := (regValue s r, clearRc s r)

end Sys2Proof.Machine
end

