-- ==== Sys2Proof/Machine/DictObjs.lean ====
section
/-!
DEFINITION. The objects of the dictionary (R576 to R580 and the object tables of every chapter): types, rights, ranges, and
the value of each subindex.
-/
namespace Sys2Proof.Machine

/-- The types of R579. -/
inductive Ty where
  | u8 | u16 | u32 | u64 | i32 | bool | enum8 | str | blob | time64
  deriving DecidableEq, Repr

/-- The TYPE codes of R584. -/
def Ty.code : Ty → Nat
  | .u8 => 1 | .u16 => 2 | .u32 => 3 | .u64 => 4 | .i32 => 5 | .bool => 6 | .enum8 => 7 | .str => 8 | .blob => 9 | .time64 => 10

/-- The size of a type (R579); a STR or BLOB has its subindex's own largest size. -/
def Ty.size : Ty → Option Nat
  | .u8 => some 1 | .u16 => some 2 | .u32 => some 4 | .u64 => some 8 | .i32 => some 4 | .bool => some 1 | .enum8 => some 1
  | .str => none | .blob => none | .time64 => some 8

/-- The rights of R577. -/
inductive Right where
  | none | r | w | s
  deriving DecidableEq, Repr

def Right.code : Right → Nat
  | .none => 0 | .r => 1 | .w => 2 | .s => 3

/-- A row of an object table: type, the rights of D0, Dn and M, the largest size, the default of a number. -/
structure ObjSpec where
  ty   : Ty
  d0   : Right
  dn   : Right
  m    : Right
  max  : Nat
  dflt : Nat := 0
  deriving DecidableEq, Repr

/-- A row for a number. -/
def numObj (ty : Ty) (d0 dn m : Right) (dflt : Nat := 0) : Option ObjSpec :=
  some { ty := ty, d0 := d0, dn := dn, m := m, max := ty.size.getD 0, dflt := dflt }
/-- A row for a STR or BLOB. -/
def blobObj (d0 dn m : Right) (max : Nat) : Option ObjSpec := some { ty := .blob, d0 := d0, dn := dn, m := m, max := max }

/-- Subindexes of a partition object (R544). -/
def partObj (sub : Nat) : Option ObjSpec :=
  match sub with
  | 1 => numObj .bool .s .r .s | 2 => numObj .enum8 .s .r .s | 3 => blobObj .s .r .s 4096
  | 4 => numObj .u16 .s .r .s | 5 => numObj .u16 .s .r .s | 6 => blobObj .s .r .s 20 | 7 => blobObj .s .r .s 16
  | 8 => numObj .u64 .s .r .s | 9 => numObj .u64 .s .r .s | 10 => numObj .u64 .s .r .s | 11 => numObj .enum8 .s .r .s 0xFF
  | 12 => numObj .enum8 .s .r .s | 13 => numObj .enum8 .s .r .s 0xFF | 14 => numObj .u16 .s .r .s | 15 => numObj .enum8 .r .r .r
  | 16 => numObj .bool .w .none .w
  | _ => none

/-- The row of a subindex other than 0 (R580, R544, R590, R598 to R600, R634, R656, R664, R666, R667, R669, R678, R695). An
object that is written as an index alone has subindex 1. -/
def objSpec (index sub : Nat) : Option ObjSpec :=
  match index, sub with
  | 0x1000, 1 => numObj .u16 .r .r .r 0x1F7A
  | 0x1000, 2 => some { ty := .str, d0 := .r, dn := .r, m := .r, max := 7 }
  | 0x1000, 3 => numObj .u8 .r .r .r 0x10
  | 0x1000, 4 => numObj .u64 .r .r .r
  | 0x1000, 5 => numObj .u8 .r .r .r 1
  | 0x1010, 1 => numObj .u16 .r .none .r
  | 0x1010, 2 => numObj .u32 .r .none .r
  | 0x1010, 3 => numObj .u16 .r .none .r
  | 0x1020, 1 => blobObj .r .none .r 1480
  | 0x1030, 1 => numObj .u8 .r .r .r
  | 0x2000, 1 => numObj .u8 .s .r .s 6
  | 0x2010, 1 => numObj .enum8 .s .r .s
  | 0x2010, 2 => numObj .u8 .s .r .s
  | 0x2020, 1 => numObj .enum8 .r .none .s
  | 0x2021, 1 => numObj .u16 .r .none .s
  | 0x2F00, 1 => numObj .u8 .w .w .w
  | 0x2F00, 2 => numObj .u32 .w .w .w
  | 0x2F01, 1 => numObj .enum8 .r .r .r
  | 0x2F01, 2 => numObj .u32 .r .r .r
  | 0x2F01, 3 => numObj .u64 .r .r .r
  | 0x2F01, 4 => numObj .u16 .r .r .r
  | 0x2F01, 5 => numObj .u8 .r .r .r
  | 0x2F01, 6 => numObj .enum8 .r .r .r
  | 0x4010, 1 => numObj .u32 .s .r .s 6500
  | 0x4010, 2 => numObj .u32 .s .r .s 6500
  | 0x5001, 1 => numObj .enum8 .w .none .w
  | 0x5001, 2 => numObj .enum8 .r .r .r
  | 0x5001, 3 => numObj .u16 .r .none .r
  | 0x5001, 4 => numObj .u8 .r .none .r
  | 0x5001, 5 => numObj .u16 .r .none .r
  | 0x5001, 6 => numObj .u32 .r .none .r
  | 0x5001, 7 => numObj .u8 .r .none .r
  | 0x5010, 1 => numObj .bool .w .none .r
  | 0x5010, 2 => numObj .u8 .w .none .r 3
  | 0x5010, 3 => numObj .u64 .w .none .r
  | 0x5010, 4 => numObj .u8 .w .none .r 10
  | 0x5010, 5 => numObj .u32 .w .none .r
  | 0x5010, 6 => numObj .u8 .r .none .w 2
  | 0x5010, 7 => numObj .u16 .w .none .w 1000
  | 0x5010, 8 => numObj .u8 .r .none .w 1
  | 0x5011, 13 => numObj .bool .w .none .w
  | 0x5012, 1 => blobObj .r .none .r 16384
  | 0x5012, 2 => blobObj .r .none .r 114688
  | 0x5012, 3 => numObj .u16 .r .none .r
  | 0x5012, 4 => numObj .bool .w .none .w
  | 0x5030, 1 => numObj .u32 .r .none .r
  | 0x5030, 2 => numObj .u32 .r .none .r
  | 0x5030, 3 => blobObj .r .none .r 4096
  | 0x5030, 4 => numObj .bool .w .none .w
  | 0x5040, 1 => numObj .u16 .r .r .r
  | 0x5040, 2 => blobObj .r .none .r 368
  | 0x5040, 3 => numObj .u16 .r .none .r
  | 0x5040, 4 => blobObj .r .none .r 168
  | 0x5040, 5 => numObj .time64 .r .none .r
  | 0x5041, 1 => numObj .u16 .w .none .w 24
  | 0x5041, 2 => numObj .u16 .w .none .w 850
  | 0x5041, 3 => numObj .bool .w .none .w 1
  | 0x5041, 4 => numObj .u8 .w .none .w 15
  | 0x5041, 5 => numObj .bool .w .none .w
  | 0x5050, 1 => numObj .enum8 .r .r .r 2
  | 0x5050, 2 => numObj .enum8 .w .none .w
  | 0x5050, 3 => numObj .u32 .r .none .r
  | 0x5050, 4 => numObj .enum8 .r .none .r
  | 0x5050, 5 => numObj .u8 .s .r .s 2
  | 0x5050, 6 => numObj .u64 .r .none .r
  | 0x5050, 7 => numObj .u32 .r .none .r
  | 0x5070, 1 => numObj .u16 .w .none .w 1875
  | 0x5070, 2 => numObj .u8 .w .none .w 95
  | 0x5070, 3 => numObj .u8 .r .r .r 16
  | 0x5070, 4 => numObj .u32 .r .none .r
  | 0x5070, 5 => numObj .u16 .r .none .r
  | 0x5070, 6 => numObj .u16 .r .none .r
  | 0x5071, 1 => numObj .u8 .r .r .r
  | 0x5071, 2 => blobObj .r .none .r 160
  | 0x5071, 3 => blobObj .r .none .r 8
  | 0x6000, 1 => numObj .enum8 .r .r .r
  | 0x6001, 1 => numObj .u64 .r .none .r
  | 0x6002, 1 => blobObj .w .none .w 65536
  | 0x6003, 1 => numObj .enum8 .r .none .r
  | 0x6010, 5 => numObj .u8 .r .none .r
  | 0x6011, 1 => blobObj .w .none .w 65536
  | 0x6020, 1 => numObj .u8 .r .r .r
  | 0x6020, 2 => numObj .u8 .r .r .r
  | 0x6020, 3 => numObj .u8 .r .r .r
  | 0x6020, 4 => numObj .u8 .r .r .r
  | 0x6020, 5 => numObj .u32 .r .r .r
  | 0x6020, 6 => numObj .u8 .r .none .r
  | 0x6020, 7 => numObj .u8 .r .none .r
  | 0x6020, 8 => numObj .u8 .w .none .w
  | 0x6030, 1 => blobObj .r .r .r 64
  | 0x6040, 1 => numObj .u8 .w .none .w
  | 0x6040, 2 => numObj .u32 .w .none .w
  | 0x6040, 3 => blobObj .w .none .w 65536
  | 0x6040, 4 => numObj .enum8 .r .none .r
  | 0x7000, 1 => blobObj .r .none .r 624
  | 0x7010, 1 => numObj .enum8 .w .none .w
  | 0x7010, 2 => numObj .enum8 .r .r .r
  | 0x7030, 1 => numObj .u8 .w .none .w
  | i, k =>
    if 0x3000 ≤ i ∧ i < 0x3004 then
      match k with
      | 1 => numObj .enum8 .r .none .r | 2 => numObj .bool .w .none .w | 3 => numObj .bool .w .none .w | _ => none
    else if 0x3100 ≤ i ∧ i < 0x3109 then partObj k
    else if 0x4100 ≤ i ∧ i < 0x4109 ∧ 1 ≤ k ∧ k ≤ 0x40 then blobObj .s .s .s 16
    else if i = 0x5011 ∧ 1 ≤ k ∧ k ≤ 12 then numObj .u32 .r .none .r
    else if 0x5020 ≤ i ∧ i < 0x5028 then
      match k with | 1 => numObj .u16 .r .none .r | 2 => blobObj .r .none .r 65536 | _ => none
    else if 0x5060 ≤ i ∧ i < 0x5069 ∧ 1 ≤ k ∧ k ≤ 0x10 then blobObj .s .s .s 16
    else if i = 0x6010 ∧ 1 ≤ k ∧ k ≤ 4 then blobObj .r .none .r 48
    else if i = 0x7020 ∧ 1 ≤ k ∧ k ≤ 4 then numObj .u8 .s .r .s (if k = 1 then 0xFF else 0)
    else none

/-- The highest subindex of an object (R578), 0 where there is no such object. -/
def objHighest (index : Nat) : Nat := (span 1 0x40).foldl (fun m k => if (objSpec index k).isSome then k else m) 0

/-- The partition of an object on which Dn holds its rights only for its own (R577). -/
def ownObj (index : Nat) : Option Nat :=
  if 0x3100 ≤ index ∧ index < 0x3109 then some (index - 0x3100)
  else if 0x4100 ≤ index ∧ index < 0x4109 then some (index - 0x4100)
  else if 0x5060 ≤ index ∧ index < 0x5069 then some (index - 0x5060)
  else none

/-- The right of an accessor on a subindex other than 0 (R577). Customs holds every right. -/
def rightOf (a : Accessor) (index : Nat) (o : ObjSpec) : Right :=
  match a with
  | .customs => if o.d0 = .s ∨ o.m = .s then .s else .w
  | .mI3c => o.m
  | .mPcie => o.m
  | .d n => if n.val = 0 then o.d0
    else match ownObj index with
      | some p => if p = n.val then o.dn else .none
      | none => o.dn

/-- A written value lies outside the range that its object states (R579). -/
def valueBad (index sub v : Nat) : Bool :=
  match index, sub with
  | 0x2010, 1 => decide (1 < v)
  | 0x2010, 2 => decide (7 < v)
  | 0x2020, _ => decide (3 < v)
  | 0x2F00, 1 => v != 1 && v != 2
  | 0x5001, 1 => decide (1 < v)
  | 0x5010, 2 => decide (3 < v)
  | 0x5010, 3 => decide (v % 4096 ≠ 0)
  | 0x5010, 4 => decide (v < 6) || decide (16 < v)
  | 0x5010, 6 => decide (3 < v)
  | 0x5010, 8 => decide (3 < v)
  | 0x5041, 1 => decide (v < 1) || decide (8760 < v)
  | 0x5041, 2 => decide (v < 750) || decide (850 < v)
  | 0x5041, 4 => decide (v < 5) || decide (40 < v)
  | 0x5050, 2 => v != 1 && v != 2
  | 0x5050, 5 => decide (v < 2) || decide (16 < v)
  | 0x5070, 1 => decide (v < 800) || decide (1875 < v)
  | 0x5070, 2 => decide (v < 80) || decide (95 < v)
  | 0x6020, 8 => v != 1 && v != 2
  | 0x6040, 1 => decide (v < 1) || decide (5 < v)
  | 0x7010, 1 => decide (2 < v)
  | 0x7030, _ => v != 0x5A
  | i, k =>
    if 0x3100 ≤ i ∧ i < 0x3109 then
      match k with
      | 2 => decide (2 < v)
      | 11 => v != 0xFF && decide (3 < v)
      | 12 => decide (3 < v)
      | 13 => v != 0xFF && decide (7 < v)
      | 14 => decide (4096 < v)
      | _ => false
    else false

/-! ### Values -/

def zeroBytes (n : Nat) : List Byte := List.replicate n 0
/-- Bytes cut or filled with zeros to a length. -/
def fitBytes (n : Nat) (b : List Byte) : List Byte := (b ++ zeroBytes n).take n

/-- STATE of a partition (R544, R547). -/
def partState (s : State) (p : Nat) : Nat :=
  let x := part s p
  if !partEnabled s p then 0
  else if x.phase = .resetting then 2
  else if s.work.zeroing.any (fun z => z.2 == some p) then 3
  else 1

/-- The 8 bytes of a GRANULES entry (R545). -/
def Granule.bytes (g : Granule) : List Byte := toBytes 2 g.granule ++ toBytes 2 g.slabA ++ toBytes 2 g.slabB ++ toBytes 1 g.mode ++ [0]
def granuleOf (b : List Byte) : Granule := { granule := fieldOf b 0 2, slabA := fieldOf b 2 2, slabB := fieldOf b 4 2, mode := fieldOf b 6 1 }

/-- Pieces of `n` bytes. -/
def pieces (n : Nat) : Nat → List Byte → List (List Byte)
  | 0, _ => []
  | k + 1, b => if b.isEmpty then [] else b.take n :: pieces n k (b.drop n)

/-- The value in effect of a subindex of a partition object. -/
def partBytes (s : State) (p sub : Nat) : List Byte :=
  let x := part s p
  match sub with
  | 1 => toBytes 1 (b2n x.enable) | 2 => toBytes 1 x.interleave | 3 => x.granules.flatMap Granule.bytes
  | 4 => toBytes 2 x.seraiWays | 5 => toBytes 2 x.lockWays | 6 => toBytes 20 x.tiles | 7 => toBytes 16 x.meSlots
  | 8 => toBytes 8 x.meBanks | 9 => toBytes 8 x.syncBlocks | 10 => toBytes 8 x.queueBlocks | 11 => toBytes 1 x.domain
  | 12 => toBytes 1 x.link | 13 => toBytes 1 x.transAgent | 14 => toBytes 2 x.contextMax | 15 => toBytes 1 (partState s p)
  | _ => [0]

/-- A mirror region entry and any other BLOB kept as written. -/
def keptBytes (s : State) (index sub max : Nat) : List Byte :=
  match smGet none s.dict.vals (index * 256 + sub) with
  | some b => fitBytes max b
  | none => zeroBytes max

/-- The bytes of the black box's areas (R600). -/
def entriesBytes (l : List LogEntry) : List Byte := l.flatMap LogEntry.bytes

/-- The 16 bytes of a loss (R664). -/
def Loss.bytes (l : Loss) : List Byte := toBytes 8 l.ha ++ toBytes 1 l.part ++ toBytes 1 l.kind ++ toBytes 2 l.ctx ++ toBytes 4 l.slot

/-- AGEING_BASE (R675). -/
def ageingBase (s : State) : List Byte :=
  toBytes 2 s.age.vbase ++ toBytes 2 184 ++ zeroBytes 4 ++
  (span 0 184).flatMap (fun k => toBytes 2 (smGet 1000 s.age.pdPs k) ++ toBytes 2 (smGet 1000 s.age.roPs k) ++ zeroBytes 4)

/-- The hub index (R676). -/
def hubIndex (s : State) : Nat := s.age.index.foldl (fun m p => max m p.2) 0

/-- A site-map entry (R631); zeros for a site without a chiplet. -/
def siteEntry (s : State) (k : Nat) : List Byte :=
  let x := site s k
  match x.ref with
  | none => zeroBytes 32
  | some r =>
    toBytes 8 r.serial ++ toBytes 2 r.maker ++ toBytes 1 r.role ++ toBytes 1 r.modules ++
    (span 0 4).flatMap (fun m => toBytes 1 ((moduleOf s k m).width + 4 * (moduleOf s k m).rate)) ++
    toBytes 8 (smGet 0 s.cus.measured k) ++ zeroBytes 8

/-- A stage record (R642). -/
def StageRec.bytes (id : Nat) (r : StageRec) : List Byte :=
  toBytes 1 id ++ toBytes 1 r.res.code ++ toBytes 2 r.cause ++ zeroBytes 4 ++ toBytes 8 r.start ++ toBytes 8 r.finish ++ toBytes 8 r.detail

/-- The stage report (R642). -/
def stageReport (s : State) : List Byte :=
  toBytes 1 1 ++ toBytes 1 s.bring.path ++ zeroBytes 2 ++ toBytes 4 s.bring.boots ++ toBytes 8 s.bring.start ++
  (span 1 11).flatMap (fun i => (stageRec s i).bytes i) ++ (span 0 8).flatMap (siteEntry s)

def popCount (n v : Nat) : Nat := ((span 0 n).filter (bitOf v)).length
def maskOf (n : Nat) (p : Nat → Bool) : Nat := (span 0 n).foldl (fun v k => v + b2n (p k) * 2 ^ k) 0

/-- Way disables over all slices (R666). -/
def waysDisabled (s : State) : Nat := s.mem.wayOff.foldl (fun n p => n + popCount 16 p.2) 0 + s.mem.customsW14.length

/-- Page addresses that a stack has retired (R369, R370): ascending, without repeats. -/
def retiredPages (s : State) (h : Nat) : List Nat :=
  (stackOf s h).retired.foldl (fun l r => (span 0 4).foldl (fun l c => match placeHa s h r c with
    | some a => setAdd l (a / 4096 * 4096)
    | none => l) l) []

/-- COMMIT_RESULT of an accessor (R590). -/
def resultOf (s : State) (a : Nat) : CommitResult := (smGet {} s.dict.accs a).result

/-- The value in effect of a subindex other than 0, as an accessor reads it (R577: one that starts an action reads 0 or empty). -/
def objBytes (s : State) (a : Nat) (index sub : Nat) : List Byte :=
  let num (n v : Nat) : List Byte := toBytes n v
  let kept (n d : Nat) : List Byte := toBytes n (objVal s index sub d)
  let c := s.dict.coll
  let r := resultOf s a
  let pair (n v : Nat) : List Byte := toBytes n (if licRelay s then v else 0)
  match index, sub with
  | 0x1000, 1 => num 2 0x1F7A
  | 0x1000, 2 => [0x46, 0x48, 0x2D, 0x37, 0x37, 0x30, 0x30]
  | 0x1000, 3 => num 1 0x10
  | 0x1000, 4 => num 8 s.cus.serial
  | 0x1000, 5 => num 1 1
  | 0x1010, 1 => kept 2 0
  | 0x1010, 2 => kept 4 0
  | 0x1010, 3 => kept 2 0
  | 0x1020, _ => ageingBase s
  | 0x1030, _ => num 1 s.licences
  | 0x2000, _ => num 1 (regBits s ⟨.stgPeriod, 0, 0⟩ 3 0)
  | 0x2010, _ => kept 1 0
  | 0x2020, _ => kept 1 0
  | 0x2021, _ => kept 2 0
  | 0x2F00, 2 => num 4 (smGet {} s.dict.accs a).tag
  | 0x2F00, _ => [0]
  | 0x2F01, 1 => num 1 r.res.code
  | 0x2F01, 2 => num 4 r.tag
  | 0x2F01, 3 => num 8 r.stage
  | 0x2F01, 4 => num 2 r.failIx
  | 0x2F01, 5 => num 1 r.failSub
  | 0x2F01, _ => num 1 r.reason.code
  | 0x4010, _ => kept 4 6500
  | 0x5001, 1 => kept 1 0
  | 0x5001, 2 => num 1 s.flt.health.code
  | 0x5001, 3 => num 2 (s.prt.clusters.filter (fun p => p.2.out)).length
  | 0x5001, 4 => num 1 (maskOf 8 (fun e => (engine s e).outOfService))
  | 0x5001, 5 => num 2 (waysDisabled s)
  | 0x5001, 6 => num 4 (maskOf 32 (fun k => (moduleOf s (k / 4) (k % 4)).width == 3))
  | 0x5001, _ => num 1 (maskOf 8 (fun h => (stackOf s h).retireFull))
  | 0x5010, 1 => num 1 (b2n c.hostEnable)
  | 0x5010, 2 => num 1 c.hostPrio
  | 0x5010, 3 => num 8 c.hostBase
  | 0x5010, 4 => num 1 c.hostLog2
  | 0x5010, 5 => num 4 c.hostHead
  | 0x5010, 6 => num 1 c.mgmtPrio
  | 0x5010, 7 => num 2 c.coalesceUs
  | 0x5010, _ => num 1 c.notifyPrio
  | 0x5011, 13 => [0]
  | 0x5011, k => num 4 (listGet 0 c.drops (k - 1))
  | 0x5012, 1 => entriesBytes c.boxFirst
  | 0x5012, 2 => entriesBytes c.boxLast
  | 0x5012, 3 => num 2 c.boxNext
  | 0x5012, _ => [0]
  | 0x5030, 1 => num 4 s.flt.lost
  | 0x5030, 2 => num 4 s.flt.rescued
  | 0x5030, 3 => s.flt.losses.flatMap Loss.bytes
  | 0x5030, _ => [0]
  | 0x5040, 1 => num 2 (hubIndex s)
  | 0x5040, 2 => (span 0 184).flatMap (fun k => toBytes 2 (smGet 0 s.age.index k))
  | 0x5040, 3 => num 2 s.age.target
  | 0x5040, 4 => (span 0 168).flatMap (fun k => toBytes 1 (smGet 0 s.age.steps k))
  | 0x5040, _ => num 8 s.age.lastReplan
  | 0x5041, 1 => kept 2 24
  | 0x5041, 2 => kept 2 850
  | 0x5041, 3 => kept 1 1
  | 0x5041, 4 => kept 1 15
  | 0x5041, _ => [0]
  | 0x5050, 1 => num 1 (roleNow s).code
  | 0x5050, 2 => [0]
  | 0x5050, 3 => pair 4 s.pair.epoch
  | 0x5050, 4 => pair 1 s.pair.sync.code
  | 0x5050, 5 => pair 1 (objVal s 0x5050 5 2)
  | 0x5050, 6 => pair 8 s.pair.lastApplied
  | 0x5050, _ => pair 4 s.pair.skips
  | 0x5070, 1 => kept 2 1875
  | 0x5070, 2 => kept 1 95
  | 0x5070, 3 => num 1 s.age.fraction
  | 0x5070, 4 => num 4 s.age.throttled
  | 0x5070, 5 => num 2 s.age.power
  | 0x5070, _ => num 2 s.age.current
  | 0x5071, 1 => num 1 (s.age.tileTemp.foldl (fun m p => max m p.2) 0)
  | 0x5071, 2 => (span 0 160).flatMap (fun t => toBytes 1 (smGet 0 s.age.tileTemp t))
  | 0x5071, _ => (span 0 8).flatMap (fun h => toBytes 1 (if (stackOf s h).inService then smGet 0 s.age.stackTemp h else 0))
  | 0x6000, _ => num 1 s.cus.lc
  | 0x6001, _ => num 8 s.cus.nonce
  | 0x6002, _ => []
  | 0x6003, _ => num 1 s.cus.result
  | 0x6010, 5 => num 1 s.cus.revoked
  | 0x6010, k => smGet (zeroBytes 48) s.cus.owners k
  | 0x6011, _ => []
  | 0x6020, 1 => num 1 s.cus.cfwSlot
  | 0x6020, 2 => num 1 s.cus.cfwSvn
  | 0x6020, 3 => num 1 s.cus.pplSlot
  | 0x6020, 4 => num 1 s.cus.pplSvn
  | 0x6020, 5 => num 4 s.cus.payloadId
  | 0x6020, 6 => num 1 s.cus.minCfw
  | 0x6020, 7 => num 1 s.cus.minPpl
  | 0x6020, _ => [0]
  | 0x6030, _ => (span 0 16).flatMap (fun k => let e := listGet (0, 0) s.cus.licTable k; toBytes 1 e.1 ++ toBytes 1 e.2 ++ [0, 0])
  | 0x6040, 1 => [0]
  | 0x6040, 2 => num 4 s.cus.addr
  | 0x6040, 3 => s.cus.data
  | 0x6040, _ => num 1 s.cus.flashRes
  | 0x7000, _ => stageReport s
  | 0x7010, 1 => kept 1 0
  | 0x7010, _ => num 1 s.bring.lastTest
  | 0x7020, k => kept 1 (if k = 1 then 0xFF else 0)
  | 0x7030, _ => [0]
  | i, k =>
    if i < 0x3004 ∧ 0x3000 ≤ i then (if k = 1 then num 1 (domain s (i - 0x3000)).st.code else [0])
    else if 0x3100 ≤ i ∧ i < 0x3109 then partBytes s (i - 0x3100) k
    else if 0x4100 ≤ i ∧ i < 0x4109 then
      let n := 64 * (i - 0x4100) + k - 1
      toBytes 8 (regRaw s ⟨.tolRuleMatch, 0, n⟩) ++ toBytes 8 (regRaw s ⟨.tolRuleBudget, 0, n⟩)
    else if 0x5020 ≤ i ∧ i < 0x5028 then
      let l := retiredPages s (i - 0x5020)
      if k = 1 then num 2 l.length else l.flatMap (toBytes 8)
    else keptBytes s i k 16

/-! ### Staged sets -/

def accOf (s : State) (a : Nat) : AccState := smGet {} s.dict.accs a
def putAcc (s : State) (a : Nat) (x : AccState) : State := { s with dict := { s.dict with accs := smSet {} s.dict.accs a x } }

/-- The object behind a register field that is also an object (STG_PERIOD is 0x2000, R45): one staged value for both. -/
def stKeyOf (k : StKey) : StKey :=
  match k with
  | .reg r _ _ => if r.name = .stgPeriod then .obj 0x2000 1 else k
  | k => k

/-- Bytes of BLOB data in a staged set (R588). -/
def blobLoad (l : List Staged) : Nat :=
  l.foldl (fun n v => match v.key with
    | .obj i k => (match objSpec i k with | some o => if o.ty = .blob then n + v.bytes.length else n | none => n)
    | .reg _ _ _ => n) 0

/-- Enters a value into an accessor's staged set (R588); none where the set is full. -/
def stagePut (s : State) (a : Nat) (k : StKey) (b : List Byte) : Option State :=
  let x := accOf s a
  let k := stKeyOf k
  let old := x.staged.filter (fun v => v.key != k)
  let l : List Staged := old ++ [{ key := k, bytes := b }]
  if 1024 < l.length ∨ 262144 < blobLoad l then none else some (putAcc s a { x with staged := l })

/-- The staged value of a subindex, if the accessor has one. -/
def stagedValue (s : State) (a index sub : Nat) : Option (List Byte) :=
  ((accOf s a).staged.find? (fun v => v.key == .obj index sub)).map (fun v => v.bytes)

end Sys2Proof.Machine
end

