-- ==== Sys2Proof/Machine/RegAccess.lean ====
section
/-!
DEFINITION. Accesses to the registers of the blocks (R12 to R16, R509, R584): who may read and write which, where registers
lie, what a write does.
-/
namespace Sys2Proof.Machine

/-! ### Rights -/

/-- The driver of a function may read a register of a block (R83, R94, R509 and the sentence before each block's tables). -/
def mayRead (fn : Nat) (r : Reg) : Bool :=
  if fn = 0 then true
  else match r.name with
    | .tolRuleMatch => decide (r.idx / 64 = fn) | .tolRuleBudget => decide (r.idx / 64 = fn)
    | .tolMissCount => decide (r.idx = fn) | .tolLateReads => decide (r.idx = fn) | .tolLateWrites => decide (r.idx = fn)
    | .tolLateDelivered => decide (r.idx = fn) | .tolMissFirst => decide (r.idx = fn) | .tolIntStatus => decide (r.idx = fn)
    | .tolIntEn => decide (r.idx = fn)
    | .tirFills => decide (r.idx = fn) | .tirWritebacks => decide (r.idx = fn) | .tirMoves => decide (r.idx = fn)
    | .tirErrTier => decide (r.idx = fn) | .tirErrUncorr => decide (r.idx = fn) | .tirParkErr => decide (r.idx = fn)
    | .tirWriteDrop => decide (r.idx = fn) | .tirRecovered => decide (r.idx = fn) | .tirInBytes => decide (r.idx = fn)
    | .tirOutBytes => decide (r.idx = fn)
    | .sriWayOwner => true | .sriLockWays => true
    | .sriMaintAddr => decide (r.idx = fn) | .sriMaintLen => decide (r.idx = fn) | .sriMaintCmd => decide (r.idx = fn)
    | .sriMaintStatus => decide (r.idx = fn) | .sriMaintCount => decide (r.idx = fn) | .sriMaintSetway => decide (r.idx = fn)
    | .sriHits => decide (r.idx = fn) | .sriMisses => decide (r.idx = fn) | .sriMerges => decide (r.idx = fn)
    | .sriWritebacks => decide (r.idx = fn) | .sriDiscardDrops => decide (r.idx = fn) | .sriEntryWaits => decide (r.idx = fn)
    | _ => false

/-- The driver of a function may write a register of a block. -/
def mayWrite (fn : Nat) (r : Reg) : Bool :=
  mayRead fn r && (decide (fn = 0) || match (regSpec r.name).block with
    | .tol => true
    | .sri => (match r.name with
      | .sriMaintAddr => true | .sriMaintLen => true | .sriMaintCmd => true | .sriMaintSetway => true | _ => false)
    | _ => false)

/-! ### Where registers lie -/

/-- TYPE of a block in the Waybill (R531); 0 for the function regions, which are reached through BAR0 alone. -/
def blockType : Block → Nat
  | .stg => 1 | .tol => 2 | .mec => 3 | .prt => 4 | .tir => 5 | .sri => 6 | .hbc => 7 | .hbcCommon => 8 | .ucs => 9
  | .noc => 10 | .relay => 11 | .cus => 12 | .hpf => 0

/-- The blocks of the register aperture, with their number. -/
def apertureBlocks : List (Block × Nat) :=
  [(.stg, 0), (.tol, 0)] ++ (span 0 8).map (fun k => (Block.mec, k)) ++ [(.prt, 0), (.tir, 0), (.sri, 0)] ++
  (span 0 8).map (fun k => (Block.hbc, k)) ++ [(.hbcCommon, 0)] ++ (span 0 8).map (fun k => (Block.ucs, k)) ++
  [(.noc, 0), (.relay, 0), (.cus, 0)]

/-- The base of a block as the Waybill reports it (R530), as an offset in the register aperture. -/
def blockBaseOf (b : Block) (k : Nat) : Nat := Config.blockBase (16 * blockType b + k)

/-- The number of the register of a table entry that holds the byte at an offset of its block. -/
def regIdxAt (n : RegName) (off : Nat) : Option Nat :=
  let sp := regSpec n
  match n with
  | .nocHistBin =>
    if 0x110 ≤ off ∧ (off - 0x100) / 0x100 < 8 ∧ 0x10 ≤ off % 0x100 ∧ off % 0x100 < 0x90 then
      some (32 * ((off - 0x100) / 0x100) + (off % 0x100 - 0x10) / 4)
    else none
  | _ =>
    if off < sp.off then none
    else if sp.stride = 0 then (if off - sp.off < sp.width / 8 then some 0 else none)
    else
      let i := (off - sp.off) / sp.stride
      if i < sp.count ∧ (off - sp.off) % sp.stride < sp.width / 8 then some i else none

/-- The register of a block that holds the byte at an offset. -/
def regInBlock (b : Block) (inst off : Nat) : Option Reg :=
  allRegNames.findSome? (fun n =>
    if (regSpec n).block = b then (regIdxAt n off).map (fun i => { name := n, inst := inst, idx := i }) else none)

/-- The register that holds the byte at an offset of the register aperture (R509), with the offset of the byte in it. The first
block in the Waybill's order counts (R19). -/
def regAtAperture (k : Nat) : Option (Reg × Nat) :=
  apertureBlocks.findSome? (fun p =>
    let base := blockBaseOf p.1 p.2
    if k < base then none
    else (regInBlock p.1 p.2 (k - base)).map (fun r => (r, k - base - regOffset r)))

/-- Bytes of a register. -/
def regWidth (r : Reg) : Nat := (regSpec r.name).width / 8

/-! ### Writes -/

/-- Writes the fields of a register under their access codes (R12, R14, R16); ST fields enter the staged set of accessor `a`
(R588). None where the staged set is full; nothing changes then. -/
def writeFields (s : State) (a : Nat) (r : Reg) (v : Nat) : Option State :=
  (regSpec r.name).fields.foldl (fun (o : Option State) f => o.bind (fun s =>
    if f.lk && s.cus.sealed then some s
    else match f.acc with
      | .rw => some (regSetBits s r f.hi f.lo (bitsOf v f.hi f.lo))
      | .w1c => some (regSetBits s r f.hi f.lo (Nat.land (regBits s r f.hi f.lo) (2 ^ (f.hi + 1 - f.lo) - 1 - bitsOf v f.hi f.lo)))
      | .st => stagePut s a (.reg r f.hi f.lo) (toBytes 8 (bitsOf v f.hi f.lo))
      | _ => some s)) (some s)

/-- ENABLE of a site is 0 (R491): its modules are held untrained. -/
def holdSite (s : State) (k : Nat) : State :=
  let s := (span 0 4).foldl (fun s m =>
    let x := moduleOf s k m
    if x.trained then putModule s k m { x with width := 0, asked := false } else s) s
  graceCheck s k

/-- What a write does besides its fields: enables, commands and clears that stand in a register of a block. -/
def writeEffect (s : State) (r : Reg) (v : Nat) : State :=
  match r.name with
  | .mecCtrl => engStart s r.inst true
  | .prtClSoft =>
    let (d, s) := draw s
    softRaise s r.idx (v % 65536) (Config.freeNat d % 16)
  | .sriMaintCmd => if bitOf v 31 then maintGo s r.idx (bitsOf v 2 0) (bitOf v 4) else s
  | .ucsCtrl =>
    let s := if bitOf v 0 then s else holdSite s r.inst
    if bitOf v 31 then
      let d := siteDomain s r.inst
      let q := chipSite s r.inst
      let s := siteReset s r.inst
      (match d with | some d => domainDown s d 6 q | none => s)
    else s
  | .nocHistSel => (span 0 32).foldl (fun s k => regPut s ⟨.nocHistBin, 0, 32 * r.idx + k⟩ 0) s
  | _ => enableWritten s r v

/-- A write of a whole register of a block by accessor `a`; none where its staged set is full. -/
def writeBlockReg (s : State) (a : Nat) (r : Reg) (v : Nat) : Option State := (writeFields s a r v).map (fun s => writeEffect s r v)

/-! ### The aperture -/

/-- Bytes of the aperture at an offset as the driver of `fn` reads them: 0 where no register lies, and 0 and counted where the read
is denied (R506, R509). Counters of the registers that are read clear. -/
def apertureRegs (k n : Nat) : List Reg := ((span k n).filterMap (fun o => (regAtAperture o).map (fun p => p.1))).eraseDups

/-- A denied access counts in HPF_DENIED and sets HPF_INT_STATUS.DENIED (R509, R540). -/
def apertureDenied (s : State) (fn : Nat) : State :=
  setStatus (bump s ⟨.hpfDenied, fn, 0⟩ 1) ⟨.hpfIntStatus, fn, 0⟩ 3 fn 0

def readAperture (s : State) (fn k n : Nat) : List Byte × State :=
  let rs := apertureRegs k n
  let s := if rs.any (fun r => !mayRead fn r) then apertureDenied s fn else s
  let byte (o : Nat) : Byte := match regAtAperture o with
    | some (r, i) => if mayRead fn r then BitVec.ofNat 8 (regValue s r / 256 ^ i) else 0
    | none => 0
  ((span k n).map byte, (rs.filter (mayRead fn)).foldl clearRc s)

/-- Writes bytes to the aperture: every register that they cover whole (R509). -/
def writeAperture (s : State) (fn k : Nat) (b : List Byte) : State :=
  let rs := (apertureRegs k b.length).filter (fun r => match regAtAperture k with
    | some (r0, i) => r0 != r || i == 0
    | none => true)
  let s := if rs.any (fun r => !mayWrite fn r) then apertureDenied s fn else s
  (rs.filter (mayWrite fn)).foldl (fun s r =>
    match (span k b.length).find? (fun o => match regAtAperture o with | some (q, i) => q == r && i == 0 | none => false) with
    | some o => if o + regWidth r ≤ k + b.length then (writeBlockReg s fn r (fieldOf b (o - k) (regWidth r))).getD s else s
    | none => s) s

/-- APERTURE_ACCESS (R509): a read of `n` bytes, or a write, at offset `k` of the aperture through BAR0 of a function. A function
without READY reads 0 and its writes are ignored (R654); so do the views (R500). -/
def execApertureAccess (fn k n : Nat) (data : Option (List (BitVec 8))) (s : State) : Res :=
  let len := match data with | some b => b.length | none => n
  if 13 ≤ fn ∨ 0x300000 < k + len ∨ len = 0 ∨ 64 < len then illFormed
  else if !fnOpen s fn then ok (match data with | some _ => s | none => emit s (.hostUnsupported fn))
  else if 9 ≤ fn ∨ !(hostFn s fn).ready then
    ok (match data with | some _ => s | none => emit s (.hostData fn (zeroBytes n)))
  else match data with
    | some b => okT (writeAperture s fn k b)
    | none =>
      let (b, s) := readAperture s fn k n
      ok (emit s (.hostData fn b))

end Sys2Proof.Machine
end

