-- ==== Sys2Proof/Machine/Resets.lean ====
section
/-!
DEFINITION. The resets of the whole hub and the hub faults (R21, R268, R338, R371, R372, R592, R608, R613, R628, R648, R660,
R661, R668, R677, R694, R708): power-on reset, hub warm reset, halt.
-/
namespace Sys2Proof.Machine

/-! ### What a reset finds in progress in Customs -/

/-- Bytes of the flash; a byte that is not listed reads 0xFF. -/
def flashByte (s : State) (a : Nat) : Byte := smGet 0xFF s.cus.flash a
def flashBytes (s : State) (a n : Nat) : List Byte := (span a n).map (flashByte s)
def flashPut (s : State) (a : Nat) (b : List Byte) : State :=
  { s with cus := { s.cus with flash := ((span a b.length).zip b).foldl (fun m p => smSet 0xFF m p.1 p.2) s.cus.flash } }

/-- The first byte and the length of the sectors that a flash command erases or programs. -/
def FlashCmd.target (c : FlashCmd) : Nat × Nat :=
  match c.op with
  | 1 => (c.addr, 4096)
  | 2 => (c.addr, 65536)
  | 3 => (c.addr / 4096 * 4096, 4096)
  | _ => (0, 0)

/-- A flash command that a reset cuts short leaves its sectors with no defined content (R628): a free value for each byte. -/
def cutFlash (s : State) : State :=
  match s.cus.cmd with
  | none => s
  | some c =>
    let (d, s) := draw s
    let (a, n) := c.target
    flashPut s a ((span a n).map (Config.undefByte d))

/-- The life-cycle word with a group of fuses replaced (R607). -/
def setGroup (w g x : Nat) : Nat := setBitsOf w (16 * g + 15) (16 * g) x

/-- A power failure cuts a burn short (R608): a group of LC_WORD is torn, another field is left partly blown. -/
def cutBurn (s : State) : State :=
  match s.cus.burn with
  | none => s
  | some b =>
    let (d, s) := draw s
    let c := s.cus
    let f := Config.freeNat d
    { s with cus := match b with
        | .group g => { c with lcWord := setGroup c.lcWord g (1 + f % 65534) }
        | .owner k _ => { c with owners := smSet (zeroBytes 48) c.owners k ((span 0 48).map (Config.undefByte d)) }
        | .revoke k => { c with revoked := setBitOf c.revoked (k - 1) (f % 2 == 1) }
        | .svn 1 t => { c with minCfw := c.minCfw + f % (t - c.minCfw + 1) }
        | .svn _ t => { c with minPpl := c.minPpl + f % (t - c.minPpl + 1) } }

/-! ### Power-on reset -/

/-- What outlives the supplies: fuses, the flash, what the stacks' health records and fuses hold, the pins; and the model's own
queue, counter and outputs. -/
def powerOn (s : State) : State :=
  let s := cutBurn (cutFlash s)
  let c := s.cus
  { State.reset with
    pending := s.pending
    free := s.free
    out := s.out
    cus := { serial := c.serial, lcWord := c.lcWord, rootHash := c.rootHash, uds := c.uds, owners := c.owners, revoked := c.revoked,
             minCfw := c.minCfw, minPpl := c.minPpl, flash := c.flash }
    mem := { stackSt := s.mem.stackSt.map (fun p => (p.1, { cap := p.2.cap, retired := p.2.retired, unfused := p.2.unfused,
                                                            fused := p.2.fused, sparesUsed := p.2.sparesUsed })) }
    age := { vbase := s.age.vbase, pdPs := s.age.pdPs, roPs := s.age.roPs }
    host := { ports := s.host.ports.map (fun p => (p.1, { perst := p.2.perst, refclk := p.2.refclk })) } }

/-! ### Hub warm reset -/

/-- The register that is kept under a key. -/
def regOfKey (k : Nat) : Option Reg :=
  (allRegNames.find? (fun n => n.ctorIdx == k / 65536 / 65536)).map
    (fun n => { name := n, inst := (k / 65536) % 65536, idx := k % 65536 })

/-- The registers that outlive a hub warm reset: their ST fields (R648), but after hub fault cause 1 (`lost`, R661), PRT_BOOT_CTRL (R268),
and the count of rows repaired since power-on reset (R374). -/
def warmReg (lost : Bool) (k v : Nat) : Option (Nat × Nat) :=
  match regOfKey k with
  | none => none
  | some r =>
    let w := if r.name = .prtBootCtrl then v
      else if r.name = .hbcRepairStatus then bitsOf v 20 10 * 2 ^ 10
      else (regSpec r.name).fields.foldl (fun w f => if f.acc = .st ∧ !lost then setBitsOf w f.hi f.lo (bitsOf v f.hi f.lo) else w) (regReset r)
    if w = regReset r then none else some (k, w)

/-- A controller stops (R372): writes that hold a pending entry are completed, and a repair in progress; the stack is in
self-refresh. -/
def stackStops (s : State) (h : Nat) : State :=
  let s := s.mem.entries.foldl (fun s e =>
    if e.stack = h ∧ e.isWrite then
      match s.mem.wbBufs.find? (fun b => b.line == e.line) with
      | some b => lowerPut { s with mem := { s.mem with wbBufs := listDelFirst (fun y => y.line == e.line) s.mem.wbBufs } } e.line b.data b.poison
      | none => s
    else s) s
  let x := stackOf s h
  let s := if x.repairing.isSome then
      regSetBits s ⟨.hbcRepairStatus, h, 0⟩ 20 10 (satAdd 11 (regBits s ⟨.hbcRepairStatus, h, 0⟩ 20 10) 1)
    else s
  putStack s h { cap := x.cap, retired := x.retired, unfused := x.unfused, fused := x.fused, sparesUsed := x.sparesUsed,
                 retireFull := x.retireFull, selfRefresh := x.inService }

/-- The staged sets after a hub warm reset (R592): emptied; an accessor with a set that was accepted and not applied, or whose
check ran or waited, reads LOST. -/
def warmAccs (s : State) : SMap AccState :=
  let lost (a : Nat) : Bool := s.dict.checks.any (fun c => c.acc == a) || s.dict.accepted.any (fun c => c.acc == a)
  (span 0 12).foldl (fun m a =>
    let x := accOf s a
    smSet {} m a { result := if lost a then { x.result with res := .lost, stage := 0 } else x.result }) []

/-- The collector after a hub warm reset (R708): the black box and SEQ stay. -/
def warmColl (c : Collector) : Collector :=
  { seq := c.seq, boxFirst := c.boxFirst, boxLast := c.boxLast, boxNext := c.boxNext }

/-- The configuration that the black box restores (R592, R648), or the power-on values after hub fault cause 1 (R661). -/
def warmConfig (s : State) (lost : Bool) : State :=
  if lost then
    { State.reset with pending := s.pending, free := s.free, out := s.out, regs := s.regs.filterMap (fun p => warmReg true p.1 p.2) }
  else
    { State.reset with
      pending := s.pending
      free := s.free
      out := s.out
      regs := s.regs.filterMap (fun p => warmReg false p.1 p.2)
      mem := { gmap := s.mem.gmap }
      work := { parts := s.work.parts.map (fun p => (p.1, { p.2 with phase := .steady })), zeroing := s.work.zeroing }
      dict := { vals := s.dict.vals } }

/-- A hub warm reset begins (R371, R372, R592, R613, R648, R649, R708): every unit stops; bring-up takes the fast path. A test in
progress is noted (R658). Hub time goes on. -/
def warmNow (s : State) (lost : Bool) : State :=
  let s := (span 0 8).foldl stackStops s
  let s := cutFlash s
  let n := warmConfig s lost
  let c := s.cus
  let a := s.age
  let testing := (stageRec s 7).res == .running
  { n with
    stage := { hubTime := s.stage.hubTime }
    mem := { n.mem with hbm := s.mem.hbm, stackSt := s.mem.stackSt }
    dict := { n.dict with accs := warmAccs s, coll := warmColl s.dict.coll }
    host := { ports := s.host.ports.map (fun p => (p.1, { p.2 with linkA := {}, linkB := {}, tags := [] }))
              relay := { endpoint := s.host.relay.endpoint }
              fnLink := (span 1 8).foldl (fun m fn => smSet 0 m fn (part n fn).link) []
              controlLink := objVal n 0x2020 1 0
              subsystemId := objVal n 0x2021 1 0 }
    ucs := { sites := (span 0 8).foldl (fun m k => smSet {} m k { ref := (site s k).ref, inReset := true }) [] }
    flt := { health := s.flt.health, faulted := s.flt.faulted }
    age := { vbase := a.vbase, pdPs := a.pdPs, roPs := a.roPs, target := a.target, steps := a.steps, caps := a.caps,
             lastReplan := a.lastReplan, tileTemp := a.tileTemp, stackTemp := a.stackTemp }
    cus := { serial := c.serial, lcWord := c.lcWord, rootHash := c.rootHash, uds := c.uds, owners := c.owners, revoked := c.revoked,
             minCfw := c.minCfw, minPpl := c.minPpl, flash := c.flash, lc := c.lc, measured := c.measured }
    bring := { supply := s.bring.supply, path := 2, boots := s.bring.boots + 1, start := s.stage.hubTime
               recs := [(1, { res := .skipped }), (2, { res := .running, start := s.stage.hubTime })]
               bootQuick := s.bring.bootQuick, lastTest := s.bring.lastTest, lostStack := lost
               interrupted := if testing && s.bring.level != 0 then some s.bring.level else s.bring.interrupted } }

/-- A hub warm reset is asked for: Customs defers it during a burn (R613). A halted hub ends only by power-on reset (R660). -/
def warmReset (s : State) (lost : Bool) : State :=
  if s.flt.halted then s
  else if s.cus.burn.isSome then
    { s with cus := { s.cus with resetDue := true }, bring := { s.bring with lostStack := s.bring.lostStack || lost } }
  else warmNow s lost

/-- WARM_RESET (R648, R656): 0x5A is written to 0x7030. -/
def execWarmReset (s : State) : Res := ok (warmReset s false)

/-! ### Hub faults -/

/-- Every unit stops (R660): no further mark, no dispatch, the SerDes links in electrical idle; every step is gone without a status,
with the slots and rings in the hub's SRAM. -/
def haltHub (s : State) : State :=
  { s with flt := { s.flt with halted := true }
           work := { parts := s.work.parts, zeroing := s.work.zeroing }
           tier := {}
           eng := {}
           prt := {}
           stage := { s.stage with held := [], arm := none, armed := [] }
           mem := { s.mem with txns := [], heldIn := [], answers := [], maint := [], entries := [], hbmHeld := [] }
           ucs := { sites := (span 0 8).foldl (fun m k => smSet {} m k { ref := (site s k).ref, inReset := true }) [] }
           host := { s.host with ports := s.host.ports.map (fun p => (p.1, { p.2 with linkA := {}, linkB := {}, tags := [] }))
                                 relay := { s.host.relay with linkUp := false } } }

/-- HEALTH changes (R666): event 0x0FEC. -/
def setHealth (s : State) (h : Health) : State :=
  if s.flt.health = h then s else logEvent { s with flt := { s.flt with health := h } } 0x0FEC 0 0 h.code

/-- A hub fault (R660): event 0x0FE0, then a hub warm reset or a halt. -/
def hubFault (s : State) (cause : Nat) : State :=
  let s := setHealth (logEvent s 0x0FE0 0 0 cause) .failed
  -- the black box records the fault (R660): its occurrence is taken at once
  let s := (span 0 (coll s).intake.length).foldl (fun s _ => match (coll s).intake with
    | [] => s
    | o :: rest => takeOcc (putColl s { coll s with intake := rest }) o) s
  let s := { s with flt := { s.flt with faulted := true } }
  if cause = 7 then haltHub (emit s (.pin 0 false))
  else if 5 ≤ cause ∨ objVal s 0x5001 1 0 = 1 then haltHub s
  else warmReset s (cause = 1)

/-- HUB_FAULT (R660) of a cause that comes from outside what the hub computes: a stack that stops answering or reports its
catastrophic-temperature alarm, a PLL that loses lock, the Customs watchdog. The causes 4 to 7 follow from the hub's own steps. -/
def execHubFault (cause : Fin 8) (s : State) : Res :=
  if s.flt.halted ∨ cause.val = 0 ∨ 4 ≤ cause.val then notDue s else ok (hubFault s cause)

end Sys2Proof.Machine
end

