-- ==== Sys2Proof/Machine/SeraiFail.lean ====
section
/-!
DEFINITION. Failing rows and ways of the Serai (R337, R665): spare rows, way disable, borrowed ways.
-/
namespace Sys2Proof.Machine

/-- A partition has lines homed in every slice, and all the ways they may use are disabled in one (R665). -/
def waysGone (s : State) (p tile : Nat) : Bool :=
  partEnabled s p && !(part s p).granules.isEmpty && !(openWays s p).isEmpty && (openWays s p).all (wayDisabled s tile)

/-- Partitions that borrow a way in a slice. -/
def borrowers (s : State) (tile : Nat) : List Nat := (span 0 9).filter (fun p => waysGone s p tile)

/-- Slices with a disabled way. -/
def cutSlices (s : State) : List Nat := s.mem.customsW14.foldl setAdd (smKeys s.mem.wayOff)

/-- Some partition borrows a way in some slice (R666). -/
def anyBorrow (s : State) : Bool := (cutSlices s).any (fun t => !(borrowers s t).isEmpty)

/-- A slice keeps a way that partitions may borrow: enabled, no lock way, not Customs' (R665). -/
def hasSpareWay (s : State) (tile : Nat) : Bool := (span 0 15).any (fun w => !wayDisabled s tile w && !isLockWay s w)

/-- The lines of a way of a slice are cleaned and invalidated, locked ones too (R337); a tier line leaves with its bale. -/
def clearWay (s : State) (tile w : Nat) : State :=
  (seraiWhere s (fun t _ v _ => t == tile && v == w)).foldl (fun s e =>
    if isTier (lineHa e.2.line) then askLeave s e.2.line
    else seraiDrop (seraiClean s e.2.line) e.2.line) s

/-- A tier line still stands in a way of a slice. -/
def wayHolds (s : State) (tile w : Nat) : Bool := !(seraiWhere s (fun t _ v _ => t == tile && v == w)).isEmpty

/-- After a way of a slice was disabled: WAY_DISABLED, and a borrowed way is logged (R665) or, where none is left, hub fault
cause 5. `before` are the partitions that borrowed already. -/
def wayGone (s : State) (tile : Nat) (before : List Nat) : State :=
  let s := setStatus s ⟨.sriIntStatus, 0, 0⟩ 2 tile 0
  let now := borrowers s tile
  if !now.isEmpty && !hasSpareWay s tile then hubFault s 5
  else if now.any (fun p => !before.contains p) then logEvent s 0x0FEB tile 1 0 else s

/-- The image lines of a slice go from way 15 to way 14 (R337). -/
def moveImage (s : State) (tile : Nat) : State :=
  { s with mem := { s.mem with serai := s.mem.serai.map (fun e =>
      if e.1 / 16384 = tile ∧ e.1 % 16 = 15 then (e.1 - 1, e.2) else e) } }

def setWayOff (s : State) (tile w : Nat) : State :=
  { s with mem := { s.mem with wayOff := smMod 0 s.mem.wayOff tile (fun m => setBitOf m w true) } }

/-- A way that is being given up takes no line any more, and its lines go (R337). -/
def closeWay (s : State) (tile w : Nat) : State :=
  clearWay { s with mem := { s.mem with wayClosing := setAdd s.mem.wayClosing (16 * tile + w) } } tile w

/-- It has been given up. -/
def wayClosed (s : State) (tile w : Nat) : State :=
  { s with mem := { s.mem with wayClosing := s.mem.wayClosing.filter (fun k => k != 16 * tile + w) } }

/-- A way of a slice is disabled once its lines have left (R337). Way 15 takes way 14 with it, which Customs takes over; true while
bales have not left. -/
def disableWay (s : State) (tile w : Nat) : State × Bool :=
  let before := borrowers s tile
  if w < 15 then
    if w = 14 ∧ s.mem.customsW14.contains tile then (hubFault (setWayOff s tile 14) 6, false)
    else
      let s := closeWay s tile w
      if wayHolds s tile w then (s, true) else (wayGone (setWayOff (wayClosed s tile w) tile w) tile before, false)
  else if bitOf (smGet 0 s.mem.wayOff tile) 14 then (hubFault (setWayOff s tile 15) 6, false)
  else
    let s := closeWay s tile 14
    if wayHolds s tile 14 then (s, true)
    else
      let s := wayClosed s tile 14
      let s := { s with mem := { s.mem with customsW14 := setAdd s.mem.customsW14 tile } }
      (wayGone (moveImage (setWayOff s tile 15) tile) tile before, false)

/-- A row of a way fails (R665): one of the 15 spare rows of the slice replaces it, or the way is disabled. -/
def rowFails (s : State) (tile w : Nat) : State × Bool :=
  if smGet 0 s.mem.rowsUsed tile < 15 then
    let s := { s with mem := { s.mem with rowsUsed := smMod 0 s.mem.rowsUsed tile (· + 1) } }
    (setStatus s ⟨.sriIntStatus, 0, 0⟩ 1 tile 0, false)
  else disableWay s tile w

/-- SERAI_ROW_FAIL (R665, R337): a row of a way of a slice fails. Where bales must leave the way first, the command is presented again until
they have left. -/
def execSeraiRowFail (tile : Fin 160) (w : Fin 16) (s : State) : Res :=
  if s.flt.halted || bitOf (smGet 0 s.mem.wayOff tile) w then notDue s
  else okT (rowFails s tile w).1

end Sys2Proof.Machine
end

