-- ==== Sys2Proof/Machine/Ageing.lean ====
section
/-!
DEFINITION. Ageing, the voltage target, clock steps, rate caps, sensors, and the power and thermal limiter (R666, R675 to R678,
R685, R691 to R696).
-/
namespace Sys2Proof.Machine

/-! ### The ageing index -/

/-- AI_k (R676): `d` the path delay of a site in ps, `pd` its PD_PS. -/
def ageIndex (d pd : Nat) : Nat := if pd = 0 then 1000 else min 1000 ((d - pd) * 12500 / pd)

/-- Every site measures (R676): the path delays, site 0 first, and the sites whose monitor shows negative slack. -/
def measureSites (s : State) (d slack : List Nat) : State :=
  let ix := (span 0 184).foldl (fun m k => match d[k]? with
    | some v => smSet 0 m k (ageIndex v (smGet 1000 s.age.pdPs k))
    | none => m) s.age.index
  { s with age := { s.age with index := ix, slack := slack.foldl setAdd [] } }

/-- AGEING_MEASURE (R676). -/
def execAgeingMeasure (d slack : List Nat) (s : State) : Res :=
  if d.length ≠ 184 ∨ slack.any (fun k => decide (184 ≤ k)) then illFormed
  else if s.flt.halted then notDue s else ok (measureSites s d slack)

/-! ### The re-plan -/

def vmax (s : State) : Nat := objVal s 0x5041 2 850
/-- The VDD target of R677 step 1, in mV. -/
def vddTarget (s : State) : Nat := min (vmax s) (s.age.vbase + 5 * ((hubIndex s + 49) / 50))

/-- The VDD target goes to the regulator (R677, R685). -/
def sendTarget (s : State) (mv : Nat) : State :=
  let s := if mv = s.age.target then s else logEvent s 0x0FE8 0 3 mv
  emit { s with age := { s.age with target := mv } } (.avsTarget mv)

/-- Monitor site of a clock step: engines 0 to 7 first, then tiles (R678). -/
def stepSite (j : Nat) : Nat := if j < 8 then 160 + j else j - 8

/-- Clock steps of R677 step 2: units with negative slack take one more step, up to 4. -/
def planSteps (s : State) : State :=
  if s.age.target ≠ vmax s ∨ objVal s 0x5041 3 1 = 0 then s
  else (span 0 168).foldl (fun s j =>
    let n := smGet 0 s.age.steps j
    if s.age.slack.contains (stepSite j) ∧ n < 4 then
      logEvent { s with age := { s.age with stepsNext := s.age.stepsNext ++ [j] } } 0x0FE9 (stepSite j) 1 (n + 1)
    else s) s

/-- Rate caps of R677 step 3; `eyes` are the eye margins in percent, 4 × site + module. A module at 4 GT/s goes on by R464 and
R465. How the event's DETAIL holds the module and the cap is not stated: a free value. -/
def planCaps (s : State) (eyes : List Nat) : State :=
  (span 0 32).foldl (fun s j =>
    let x := moduleOf s (j / 4) (j % 4)
    if !x.trained || decide (objVal s 0x5041 4 15 ≤ eyes[j]?.getD 100) then s
    else if x.rate = 0 then
      if x.width = 1 ∧ regBits s ⟨.ucsCtrl, j / 4, 0⟩ 1 1 = 1 then
        let (d, s) := draw s
        siteStatus (putModule s (j / 4) (j % 4) { x with width := 2, half := Config.freeNat d % 2 }) (j / 4) 1
      else moduleOut s (j / 4) (j % 4)
    else
      let (d, s) := draw s
      logEvent { s with age := { s.age with capsNext := s.age.capsNext ++ [j] } } 0x0FEA (j / 4) 2 (Config.freeNat d)) s

/-- A re-plan (R677). -/
def replan (s : State) (eyes : List Nat) : State :=
  let s := planCaps (planSteps (sendTarget s (vddTarget s))) eyes
  { s with age := { s.age with lastReplan := s.stage.hubTime, replanDue := false } }

/-- Clock steps that were decided take effect (R677). -/
def applySteps (s : State) : State :=
  { s with age := { s.age with steps := s.age.stepsNext.foldl (fun m j => smMod 0 m j (fun n => min 4 (n + 1))) s.age.steps
                               stepsNext := [] } }

/-- Rate caps that were decided take effect: the module retrains under its cap (R677). -/
def applyCaps (s : State) : State :=
  let js := s.age.capsNext
  let s := { s with age := { s.age with capsNext := [] } }
  js.foldl (fun s j =>
    let x := moduleOf s (j / 4) (j % 4)
    if !x.trained ∨ x.rate = 0 then s
    else
      let s := { s with age := { s.age with caps := smSet 0 s.age.caps j (4 - x.rate) } }
      graceCheck (putModule s (j / 4) (j % 4) { x with width := 0, asked := false }) (j / 4)) s

/-- REPLAN_NOW (R677): 1 is written to 0x5041:05. -/
def execReplanNow (s : State) : Res := ok { s with age := { s.age with replanDue := true } }

/-- REPLAN_INTERVAL (R677): REPLAN_H hours after the last re-plan. -/
def execReplanInterval (s : State) : Res :=
  let t := s.age.lastReplan + objVal s 0x5041 1 24 * 3600000000000
  if s.flt.halted || !s.stage.running || decide (s.stage.nextMark < t) then notDue s
  else ok (advance { s with age := { s.age with replanDue := true } } t)

/-! ### Sensors and the regulator -/

/-- TEMP_SAMPLE (R358, R691, R692): temperatures of the tiles and of the stacks, in °C. -/
def execTempSample (tiles hot : List Nat) (s : State) : Res :=
  if tiles.length ≠ 160 ∨ hot.length ≠ 8 then illFormed
  else if s.flt.halted then notDue s
  else
    let trips := (span 0 160).filter (fun t => decide (110 ≤ tiles[t]?.getD 0))
    let again := trips.any (fun t => s.age.tripping.contains t)
    let fill (l : List Nat) : SMap Nat := ((span 0 l.length).zip l).foldl (fun m p => smSet 0 m p.1 p.2) []
    let s := { s with age := { s.age with tileTemp := fill tiles, stackTemp := fill hot, tripping := trips } }
    let s := (span 0 8).foldl (fun s h =>
      if (stackOf s h).inService then putStack s h { stackOf s h with hot := decide (85 < hot[h]?.getD 0) } else s) s
    ok (if again then hubFault s 7 else s)

/-- AVS_CURRENT_READ (R685, R694): the regulator's output current in A. -/
def execAvsCurrentRead (amps : Nat) (s : State) : Res :=
  if 2 ^ 16 ≤ amps then illFormed
  else if s.flt.halted then notDue s else ok { s with age := { s.age with current := amps, avsSilent := false } }

/-- AVS_TIMEOUT (R685): the regulator has not answered for 10 ms. -/
def execAvsTimeout (s : State) : Res :=
  if s.flt.halted || s.age.avsSilent then notDue s
  else ok (logEvent { s with age := { s.age with avsSilent := true } } 0x0FEF 0 1 0)

/-! ### The limiter -/

/-- VDD power of the window in mW (R694): the product of current and target, or the on-die estimate in units of 0.5 W. -/
def windowPower (s : State) (est : Nat) : Nat := if s.age.avsSilent then 500 * est else s.age.current * s.age.target

/-- The hottest tile, the lowest among equals. -/
def hottest (s : State) : Nat × Nat := s.age.tileTemp.foldl (fun m p => if m.2 < p.2 then p else m) (0, 0)

/-- The limiter at the end of a toll window (R694, R695). -/
def limiter (s : State) (est : Nat) : State :=
  let p := windowPower s est
  let lim := 500 * objVal s 0x5070 1 1875
  let thr := objVal s 0x5070 2 95
  let f := s.age.fraction
  let hot := hottest s
  let s := { s with age := { s.age with power := min 65535 (p / 500)
                                        throttled := satAdd 32 s.age.throttled (b2n (decide (f < 16))) } }
  let put (s : State) (f : Nat) : State := { s with age := { s.age with fraction := f } }
  if decide (thr ≤ hot.2) || decide (lim < p) || decide (937500 < p) || decide (1250 * s.age.target < p) then
    if f ≤ 4 then s
    else if thr ≤ hot.2 then logEvent (put s (f - 1)) 0x0FEE hot.1 1 hot.2
    else logEvent (put s (f - 1)) 0x0FED 0 2 (f - 1)
  else if 100 * p < 95 * lim ∧ hot.2 + 2 < thr then put s (min 16 (f + 1))
  else s

/-! ### Health -/

/-- A unit has left service, a way is borrowed, a stack has RETIRE_FULL, a clock is stepped or a rate capped (R666, R677). -/
def serviceDue (s : State) : Bool :=
  s.prt.clusters.any (fun p => p.2.out) || (span 0 8).any (fun e => (engine s e).outOfService) ||
  !(cutSlices s).isEmpty || anyBorrow s || (span 0 32).any (fun j => (moduleOf s (j / 4) (j % 4)).width == 3) ||
  (span 0 8).any (fun h => (stackOf s h).retireFull || (stackLicensed s h && !(stackOf s h).inService)) ||
  !s.age.steps.isEmpty || !s.age.caps.isEmpty

/-- HEALTH at a mark (R666): the highest value that applies; it returns to GOOD only at power-on reset. -/
def healthNow (s : State) : Health :=
  if s.flt.faulted then .failed
  else if serviceDue s then .serviceDue
  else if s.bring.recs.any (fun r => r.2.res == .degraded) then .degraded
  else s.flt.health

end Sys2Proof.Machine
end

