-- ==== Sys2Proof/Machine/DictCheck.lean ====
section
/-!
DEFINITION. Staged sets laid over the configuration, and the check of a set (R74, R82, R84, R329, R334, R339, R354, R409, R449,
R535, R544 to R546, R581, R589, R590, R652, R668, R669).
-/
namespace Sys2Proof.Machine

/-! ### Laying a value over the configuration -/

/-- The ST fields of a register take the bits of a value. -/
def layReg (s : State) (r : Reg) (v : Nat) : State :=
  (regSpec r.name).fields.foldl (fun s f => if f.acc = .st then regSetBits s r f.hi f.lo (bitsOf v f.hi f.lo) else s) s

/-- A subindex of a partition object takes a value (R544, R545). -/
def layPart (s : State) (p sub : Nat) (b : List Byte) : State :=
  let x := part s p
  let v := ofBytes b
  match sub with
  | 1 => putPart s p { x with enable := v != 0 }
  | 2 => putPart s p { x with interleave := v }
  | 3 =>
    let gs := (pieces 8 512 b).map granuleOf
    let s := putPart s p { x with granules := gs }
    { s with mem := { s.mem with gmap := gs.foldl (fun m g => smSet none m g.granule (some { mode := g.mode, slabA := g.slabA, slabB := g.slabB })) s.mem.gmap } }
  | 4 => putPart s p { x with seraiWays := v }
  | 5 => putPart s p { x with lockWays := v }
  | 6 => putPart s p { x with tiles := v }
  | 7 => putPart s p { x with meSlots := v }
  | 8 => putPart s p { x with meBanks := v }
  | 9 => putPart s p { x with syncBlocks := v }
  | 10 => putPart s p { x with queueBlocks := v }
  | 11 => putPart s p { x with domain := v }
  | 12 => putPart s p { x with link := v }
  | 13 => putPart s p { x with transAgent := v }
  | 14 => putPart s p { x with contextMax := v }
  | _ => s

/-- Keeps the bytes of a value that has no field of its own. -/
def keepVal (s : State) (index sub : Nat) (b : List Byte) : State :=
  { s with dict := { s.dict with vals := smSet none s.dict.vals (index * 256 + sub) (some b) } }

/-- A subindex that takes effect at a mark takes a value. -/
def layObj (s : State) (index sub : Nat) (b : List Byte) : State :=
  if index = 0x2000 then regSetBits s ⟨.stgPeriod, 0, 0⟩ 3 0 (ofBytes b)
  else if 0x3100 ≤ index ∧ index < 0x3109 then layPart s (index - 0x3100) sub b
  else if 0x4100 ≤ index ∧ index < 0x4109 then
    let n := 64 * (index - 0x4100) + sub - 1
    layReg (layReg s ⟨.tolRuleMatch, 0, n⟩ (fieldOf b 0 8)) ⟨.tolRuleBudget, 0, n⟩ (fieldOf b 8 8)
  else keepVal s index sub b

def layValue (s : State) (v : Staged) : State :=
  match v.key with
  | .obj i k => layObj s i k v.bytes
  | .reg r hi lo => regSetBits s r hi lo (ofBytes v.bytes)

def laySet (s : State) (l : List Staged) : State := l.foldl layValue s

/-- Sites and partitions of each domain by the domain plan (R42, R652): a site needs a chiplet in the site map. -/
def planSites (s : State) (d : Nat) : Nat :=
  maskOf 8 (fun k => bitOf (objVal s 0x7020 (d + 1) (if d = 0 then 0xFF else 0)) k && (site s k).ref.isSome)
def planParts (s : State) (d : Nat) : Nat := maskOf 9 (fun p => (part s p).domain == d)
/-- The site map records one chiplet for a site and the next (R42, R456, R461). -/
def spansUp (s : State) (k : Nat) : Bool :=
  match (site s k).ref, (site s (k + 1)).ref with
  | some a, some b => bitOf a.modules 4 && bitOf b.modules 4 && a.serial == b.serial && sitesAdjacent k (k + 1)
  | _, _ => false
def layMembers (s : State) : State :=
  (span 0 4).foldl (fun s d => putDomain s d { domain s d with sites := planSites s d, parts := planParts s d }) s

/-! ### What a failing check names -/

/-- A failure: the value that it names, and why. -/
structure Failing where
  ix  : Nat
  sub : Nat
  why : Reason
  deriving DecidableEq, Repr

/-- The name of a staged value (R590): a register field is 0xFFFF, and ranks last. -/
def nameOf (k : StKey) : Nat × Nat := match k with | .obj i n => (i, n) | .reg _ _ _ => (0xFFFF, 0)
def lowest (l : List (Nat × Nat)) : Option (Nat × Nat) :=
  l.foldl (fun (m : Option (Nat × Nat)) x => match m with
    | none => some x
    | some y => if x.1 * 256 + x.2 < y.1 * 256 + y.2 then some x else some y) none

/-- A failure that concerns some values: the lowest of them in the checked set, or the lowest of all. -/
def failing (set : List Staged) (why : Reason) (l : List (Nat × Nat)) : List Failing :=
  let names := set.map (fun v => nameOf v.key)
  match lowest (l.filter names.contains) with
  | some x => [⟨x.1, x.2, why⟩]
  | none => match lowest l with
    | some x => [⟨x.1, x.2, why⟩]
    | none => []

/-- A failure of the set as a whole: it names the lowest value of the kinds that it rests on. -/
def failingOf (set : List Staged) (why : Reason) (kind : Nat × Nat → Bool) : List Failing :=
  let names := set.map (fun v => nameOf v.key)
  match lowest (names.filter kind) with
  | some x => [⟨x.1, x.2, why⟩]
  | none => match lowest names with
    | some x => [⟨x.1, x.2, why⟩]
    | none => []

def isPartName (n : Nat × Nat) : Bool := decide (0x3100 ≤ n.1) && decide (n.1 < 0x3109)

/-! ### Tolls and the period -/

/-- Valid rules of a partition. -/
def validRules (s : State) (p : Nat) : List (Nat × TollRule) :=
  ((span (64 * p) 64).map (fun n => (n, tollRule s n))).filter (fun r => r.2.valid)

/-- Guaranteed bytes of an initiator under a partition's valid rules. -/
def guarOf (rules : List (Nat × TollRule)) (init : Nat) : Nat :=
  match rules.foldl (fun (m : Option TollRule) r =>
    if r.2.lo ≤ init ∧ init ≤ r.2.hi then match m with
      | none => some r.2
      | some x => if x.prio < r.2.prio then some r.2 else some x
    else m) none with
  | some r => r.guar * 1024
  | none => 0

/-- The numbers of R78 that are initiators. -/
def initiators : List Nat := (span 0 0x900).filter isInitiator

/-- Guaranteed parts of the initiators of a half (R74, R79): an engine counts for each partition. -/
def guaranteed (s : State) (half : Nat) : Nat :=
  let rules := (span 0 9).map (validRules s)
  let of (p i : Nat) : Nat := guarOf (rules[p]?.getD []) i
  if rules.all (fun l => l.all (fun r => r.2.guar == 0)) then 0
  else initiators.foldl (fun n i =>
    if initHalf i ≠ half then n
    else if 0x840 ≤ i ∧ i < 0x848 then (span 0 9).foldl (fun n p => n + of p i) n
    else n + of (initPart s i) i) 0

/-- R74: the guaranteed parts exceed the regulated capacity of a half in a toll window. -/
def overCapacity (s : State) : Bool :=
  (span 0 2).any (fun h =>
    decide (objVal s 0x4010 (h + 1) 6500 * 1000 * 2 ^ (regBits s ⟨.stgPeriod, 0, 0⟩ 3 0) < guaranteed s h))

def checkTolls (c : State) (set : List Staged) : List Failing :=
  let bad := (span 0 9).flatMap (fun p => (validRules c p).filter (fun r => decide (r.2.hi < r.2.lo) || decide (r.2.ceil < r.2.guar)))
  let name (n : Nat) : List (Nat × Nat) :=
    if set.any (fun v => match v.key with | .reg r _ _ => (r.name == .tolRuleMatch || r.name == .tolRuleBudget) && r.idx == n | _ => false)
    then [(0xFFFF, 0)] else [(0x4100 + n / 64, n % 64 + 1)]
  (if 10 < regBits c ⟨.stgPeriod, 0, 0⟩ 3 0 then failing set .range [(0x2000, 1)] else []) ++
  failing set .tollRule (bad.flatMap (fun r => name r.1)) ++
  (if overCapacity c then failingOf set .capacity (fun n =>
      isPartName n || n.1 == 0x2000 || n.1 == 0x4010 || n.1 == 0x7020 || (decide (0x4100 ≤ n.1) && decide (n.1 < 0x4109)) || n.1 == 0xFFFF)
   else [])

/-! ### Register fields -/

def regFails (c : State) (v : Staged) : Bool :=
  match v.key with
  | .obj _ _ => false
  | .reg r _ _ => match r.name with
    | .sriCtrl => decide (16 < regBits c r 4 0)
    | .nocCtrl => regBits c r 9 0 == 0
    | .sriDirCtrl =>
      let hold := regBits c r 6 0
      let timeout := regBits c r 26 16
      let grace := regBits c r 41 32
      hold == 0 || decide (64 < hold) || timeout == 0 || decide (1024 < timeout) || decide (grace < 10) || decide (1000 < grace)
    | _ => false

def checkRegs (c : State) (set : List Staged) : List Failing := if set.any (regFails c) then [⟨0xFFFF, 0, .range⟩] else []

/-! ### Partition objects -/

/-- Names of a subindex of the partitions that a test accepts. -/
def partNames (sub : Nat) (p : Nat → Bool) : List (Nat × Nat) := ((span 0 9).filter p).map (fun n => (0x3100 + n, sub))

/-- Partitions that name a resource another names too; `own` is a mask of what a partition names. -/
def sharing (c : State) (own : Part → Nat) : Nat → Bool := fun p =>
  (span 0 9).any (fun q => q != p && Nat.land (own (part c p)) (own (part c q)) != 0)

/-- Ways: R329, R334, R544. -/
def checkWays (c : State) (set : List Staged) : List Failing :=
  let used := (span 0 9).foldl (fun m p => Nat.lor m (part c p).seraiWays) 0
  let none' (p : Nat) : Bool := !(part c p).granules.isEmpty && (part c p).seraiWays % 2 ^ 15 == 0 && used % 2 ^ 15 == 2 ^ 15 - 1
  let lockBad (p : Nat) : Bool :=
    let x := part c p
    decide (Nat.land x.lockWays x.seraiWays ≠ x.lockWays) || (p == 0 && x.lockWays != 0) || bitOf x.lockWays 15
  (if (span 0 9).any none' then
    failing set .seraiWays (((span 0 9).flatMap (fun p => [(0x3100 + p, 3), (0x3100 + p, 4)])).filter (fun n => set.any (fun v => nameOf v.key == n))
      ++ (if set.any (fun v => isPartName (nameOf v.key) && ((nameOf v.key).2 == 3 || (nameOf v.key).2 == 4)) then [] else partNames 4 none'))
   else []) ++
  failing set .seraiWays (partNames 5 lockBad) ++
  failing set .range (partNames 4 (fun p => bitOf (part c p).seraiWays 15))

/-- Slabs that a map entry takes, as half × 65,536 + slab. -/
def GmapEntry.slabs (e : GmapEntry) : List Nat :=
  match e.mode with
  | 0 => [e.slabA, e.slabB] | 1 => [65536 + e.slabA, 65536 + e.slabB] | _ => [e.slabA, 65536 + e.slabB]

/-- The granule map: R354, R545. `b` is the configuration before the set. -/
def checkMap (b c : State) (set : List Staged) : List Failing :=
  let n := c.mem.westGib + c.mem.eastGib
  let slabs := c.mem.gmap.flatMap (fun g => match g.2 with | some e => e.slabs | none => [])
  let bad (p : Nat) : Bool := (part c p).granules.any (fun g =>
    let e : GmapEntry := { mode := g.mode, slabA := g.slabA, slabB := g.slabB }
    decide (2 < g.mode) || g.mode != (part c p).interleave ||
    e.slabs.any (fun k => decide (2 * (if k < 65536 then c.mem.westGib else c.mem.eastGib) ≤ k % 65536) || decide (1 < slabs.count k)) ||
    (gmapOf b g.granule != some e && (granuleOwner b g.granule).isSome))
  let beyond (p : Nat) : Bool := (part c p).granules.any (fun g => decide (n ≤ g.granule))
  let changed (p : Nat) : Bool := set.any (fun v => match v.key with
    | .obj i k => i == 0x3100 + p && (k == 2 || k == 3)
    | _ => false)
  failing set .range (partNames 3 beyond) ++ failing set .granuleMap (partNames 3 (fun p => changed p && bad p))

/-- Ownership, licences and limits: R544, R546. -/
def checkOwners (c : State) (set : List Staged) : List Failing :=
  let twice (p : Nat) : Bool :=
    let mine := (part c p).granules.map (fun g => g.granule)
    mine.any (fun g => (span 0 9).any (fun q => q != p && (part c q).granules.any (fun e => e.granule == g)))
  let tilesOff := (span 0 160).foldl (fun m t => m + b2n (!tileLicensed c t) * 2 ^ t) 0
  let slotsOff := (span 0 8).foldl (fun m e => m + (if engineLicensed c e then 0 else 0xFFFF) * 2 ^ (16 * e)) 0
  let banksOff := (span 0 8).foldl (fun m e => m + (if engineLicensed c e then 0 else 0xFF) * 2 ^ (8 * e)) 0
  let total := (span 0 9).foldl (fun n p => n + (part c p).contextMax) 0
  failing set .range (partNames 1 (fun p => p == 0 && !(part c p).enable)) ++
  failing set .ownership (partNames 3 twice ++ partNames 4 (sharing c Part.seraiWays) ++ partNames 6 (sharing c Part.tiles) ++
    partNames 7 (sharing c Part.meSlots) ++ partNames 8 (sharing c Part.meBanks) ++ partNames 9 (sharing c Part.syncBlocks) ++
    partNames 10 (sharing c Part.queueBlocks)) ++
  failing set .licence (partNames 1 (fun p => (part c p).enable && !partLicensed c p) ++
    partNames 6 (fun p => Nat.land (part c p).tiles tilesOff != 0) ++ partNames 7 (fun p => Nat.land (part c p).meSlots slotsOff != 0) ++
    partNames 8 (fun p => Nat.land (part c p).meBanks banksOff != 0)) ++
  (if 4096 < total then
    match lowest ((set.map (fun v => nameOf v.key)).filter (fun n => isPartName n && n.2 == 14)) with
    | some x => [⟨x.1, x.2, .range⟩]
    | none => failing set .range (partNames 14 (fun p => (part c p).contextMax != 0))
   else [])

/-- What a change would take from under a live object (R546). -/
def checkInUse (s b c : State) (set : List Staged) : List Failing :=
  let live (p : Nat) (q : Context → Bool) : Bool := s.work.ctxs.any (fun x => match x.2 with | some x => x.fn == p && q x | none => false)
  let gone (f : Part → Nat) (p k : Nat) : Bool := bitOf (f (part b p)) k && !bitOf (f (part c p)) k
  let slotIn (p : Nat) : Bool := s.work.slots.any (fun x => x.2 != .free && gone Part.syncBlocks p (x.1 / 1024))
  let queueIn (p : Nat) : Bool := s.work.queues.any (fun x => x.2.isSome && gone Part.queueBlocks p (x.1 / 64))
  let within (a n g : Nat) : Bool := decide (n ≠ 0) && decide (a / 2 ^ 30 ≤ g) && decide (g ≤ (a + n - 1) / 2 ^ 30)
  let granuleIn (p : Nat) : Bool := (part b p).granules.any (fun g =>
    !(part c p).granules.any (fun h => h.granule == g.granule) &&
    live p (fun x => within x.tier.recBase (64 * x.tier.bales) g.granule || within x.tier.poolBase (65536 * x.tier.poolSlots) g.granule ||
                     within x.tier.parkTable (8 * x.tier.parkSlots) g.granule))
  failing set .inUse (partNames 9 slotIn ++ partNames 10 queueIn ++ partNames 3 granuleIn ++
    partNames 1 (fun p => !(part c p).enable && live p (fun _ => true)))

/-! ### Mirrors, links, domains, the pair -/

/-- Mirror regions (R669): partition, subindex, address, length. -/
def mirrorRegions (c : State) : List (Nat × Nat × Nat × Nat) :=
  (span 0 9).flatMap (fun p => (span 1 16).filterMap (fun k => match smGet none c.dict.vals ((0x5060 + p) * 256 + k) with
    | some b => if fieldOf b 8 8 = 0 then none else some (p, k, fieldOf b 0 8, fieldOf b 8 8)
    | none => none))

def checkMirror (c : State) (set : List Staged) : List Failing :=
  let rs := mirrorRegions c
  let bad (r : Nat × Nat × Nat × Nat) : Bool :=
    decide (r.2.2.1 % 4096 ≠ 0) || decide (r.2.2.2 % 4096 ≠ 0) || !inCarveOut c r.1 r.2.2.1 r.2.2.2 ||
    rs.any (fun q => (q.1 != r.1 || q.2.1 != r.2.1) && overlap q.2.2.1 q.2.2.2 r.2.2.1 r.2.2.2)
  let name (r : Nat × Nat × Nat × Nat) : Nat × Nat := (0x5060 + r.1, r.2.1)
  let sum : Nat := rs.foldl (fun n r => n + r.2.2.2) 0
  failing set .mirrorArea ((rs.filter bad).map name) ++
  (if 3584 * 2 ^ 20 < sum then failing set .mirrorArea (rs.map name) else []) ++
  (if licRelay c then failing set .mirrorArea (partNames 3 (fun p => (part c p).granules.any (fun g => decide (mirrorBase c ≤ g.granule * 2 ^ 30))))
   else [])

/-- The domain plan (R652) and the control link (R581). -/
def checkDomains (c : State) (set : List Staged) : List Failing :=
  let mask (d : Nat) : Nat := objVal c 0x7020 (d + 1) (if d = 0 then 0xFF else 0)
  let twice (d : Nat) : Bool := (span 0 4).any (fun e => e != d && Nat.land (mask d) (mask e) != 0)
  let split (d : Nat) : Bool := (span 0 8).any (fun k => spansUp c k && (bitOf (mask d) k != bitOf (mask d) (k + 1)))
  failing set .ownership (((span 0 4).filter (fun d => twice d || split d)).map (fun d => (0x7020, d + 1))) ++
  (if linkUsed c (objVal c 0x2020 1 0) then [] else failing set .range [(0x2020, 1)])

/-- A standby fails commits that change partition objects (R668). -/
def checkStandby (s b c : State) (set : List Staged) : List Failing :=
  if roleNow s ≠ .standby then []
  else
    let ch := set.filter (fun v => match v.key with
      | .obj i k => isPartName (i, k) && partBytes b (i - 0x3100) k != partBytes c (i - 0x3100) k
      | _ => false)
    failing set .ownership (ch.map (fun v => nameOf v.key))

/-- The failures of a set (R589): `s` the hub now, `b` with the accepted sets laid over it. -/
def checkSet (s b : State) (set : List Staged) : List Failing :=
  if set.isEmpty then []
  else
    let c := layMembers (laySet b set)
    checkTolls c set ++ checkRegs c set ++ checkWays c set ++ checkMap b c set ++ checkOwners c set ++ checkInUse s b c set ++
    checkMirror c set ++ checkDomains c set ++ checkStandby s b c set

/-- The failure that the result names (R590). -/
def worst (l : List Failing) : Option Failing :=
  l.foldl (fun (m : Option Failing) x => match m with
    | none => some x
    | some y => if (x.ix * 256 + x.sub) * 16 + x.why.code < (y.ix * 256 + y.sub) * 16 + y.why.code then some x else some y) none

/-- The mark that follows now, and whether its ARM message has left the controller (R48, R55). -/
def nextMarkNo (s : State) : Nat := if s.stage.running then s.stage.number + 1 else 0

/-- The mark at which a commit that completes now takes effect (R55). -/
def markOfEffect (s : State) : Nat := if s.stage.arm.isSome then nextMarkNo s + 1 else nextMarkNo s

end Sys2Proof.Machine
end

