-- ==== Sys2Proof/Machine/DictApply.lean ====
section
/-!
DEFINITION. The configuration at a mark (R54 action 2, R591): accepted sets take effect, and the hub clears what changes its owner
or its place (R172, R328, R330, R335, R355, R407, R547).
-/
namespace Sys2Proof.Machine

/-! ### HBM granules -/

/-- Serai lines and write-back buffers of a granule are gone without write-back. -/
def dropGranule (s : State) (g : Nat) : State :=
  { s with mem := { s.mem with
      serai := s.mem.serai.filter (fun e => match e.2 with | some l => lineHa l.line / 2 ^ 30 != g | none => true)
      wbBufs := s.mem.wbBufs.filter (fun b => lineHa b.line / 2 ^ 30 != g) } }

/-- The content of a granule is not defined (R355): a free value stands for it. -/
def undefGranule (s : State) (g : Nat) : State :=
  let (d, s) := draw s
  let m := zeroGranule (hbm s) g
  putHbm s { m with undef := smSet 0 m.undef g (d + 1) }

/-- The map entry of a granule changed (R355). -/
def granuleMoved (s : State) (g : Nat) : State := undefGranule (dropGranule s g) g

/-- Chiplet copies of the lines of a granule are recalled and not kept. -/
def recallGranule (s : State) (g : Nat) : State :=
  let ls := s.mem.dir.filterMap (fun e => match e.2 with
    | some d => if lineHa d.line / 2 ^ 30 = g then some d.line else none
    | none => none)
  ls.foldl (fun s l => recallNow s l true false) s

/-- A granule changed its owner (R547): its zeroing begins for the new one. A zeroing that ends early leaves content that is not
defined. -/
def granuleOwned (s : State) (g : Nat) (new : Option Nat) : State :=
  let cut := (smGet none s.work.zeroing g).isSome && new.isNone
  let s := dropGranule (recallGranule s g) g
  let s := if cut then undefGranule s g else s
  { s with work := { s.work with zeroing := smSet none s.work.zeroing g (new.map some |>.getD none) } }

/-! ### Serai ways -/

/-- A way that is no lock way any more: its lines are unlocked, of normal class (R335). -/
def unlockWay (s : State) (w : Nat) : State :=
  { s with mem := { s.mem with serai := s.mem.serai.map (fun e =>
      if e.1 % 16 = w then (e.1, e.2.map (fun l => if l.locked then { l with locked := false, cls := .normal } else l)) else e) } }

/-- Keep lines of each set beyond KEEP_MAX become normal (R321). -/
def trimKeep (s : State) : State :=
  (smKeys s.mem.serai).foldl (fun s k =>
    let t := k / 16384
    let set := k / 16 % 1024
    if keepCount s t set ≤ keepMax s then s
    else (span 0 16).foldl (fun s _ => if keepCount s t set ≤ keepMax s then s else keepRoom s t set) s) s

/-! ### Tiles and accumulation banks -/

/-- A tile changed its owner (R547): its clusters cancel the steps they hold, and their user windows are zeroed. -/
def tileMoved (s : State) (t : Nat) : State :=
  let mine (x : Step) : Bool :=
    x.phase != .waiting && decide (x.unit / 10 = t) && (match x.body with | .porter _ _ _ _ => true | _ => false)
  (span (10 * t) 10).foldl zeroUserWindows (breakSteps s mine .aborted)

/-- Rows of a bank hold +0. -/
def zeroBank (s : State) (e j : Nat) : State :=
  modEngine s e (fun x => { x with sram := x.sram.filter (fun p => p.1 / 512 / 256 != j), undef := x.undef.filter (fun p => p.1 / 256 != j) })

/-- An accumulation bank left partition `p` (R172): the step of it in progress ends if it uses the bank. -/
def bankMoved (s : State) (e j : Nat) (p : Option Nat) : State :=
  let ids := (engine s e).intake.filterMap (fun w =>
    if w.begun && p == some w.part && w.rows.any (fun r => decide (r / 256 = j)) then some w.step else none)
  zeroBank (breakSteps s (fun x => ids.contains x.id) .aborted) e j

/-! ### Domains -/

/-- Membership of the domains at the mark (R403, R407, R652). -/
def memberships (old s : State) : State :=
  let s := layMembers s
  (span 0 4).foldl (fun s d =>
    let x := domain s d
    let o := domain old d
    if x.sites = o.sites ∧ x.parts = o.parts then s
    else if x.sites = 0 then putDomain s d { x with st := .unused, swept := false, upNext := false }
    else match x.st with
      | .unused => putDomain s d { x with st := .up }
      | .failed => putDomain s d { x with st := .up, swept := false }
      | _ => s) s

/-! ### The application -/

/-- What the new configuration changes in the units; `old` is the hub before it. -/
def reconfigure (old s : State) : State :=
  let gs := (smKeys old.mem.gmap ++ smKeys s.mem.gmap ++ (span 0 9).flatMap (fun p => (part old p).granules.map (fun g => g.granule)) ++
    (span 0 9).flatMap (fun p => (part s p).granules.map (fun g => g.granule))).foldl setAdd []
  let s := gs.foldl (fun t g => if gmapOf old g = gmapOf s g then t else granuleMoved t g) s
  let s := gs.foldl (fun t g => if granuleOwner old g = granuleOwner s g then t else granuleOwned t g (granuleOwner s g)) s
  let ws := (span 0 15).filter (fun w => wayOwner old w != wayOwner s w)
  let s := { s with mem := { s.mem with sweep := ws.foldl setAdd s.mem.sweep } }
  let s := ((span 0 15).filter (fun w => isLockWay old w && !isLockWay s w)).foldl unlockWay s
  let s := ((span 0 160).filter (fun t => tileOwner old t != tileOwner s t)).foldl tileMoved s
  let s := if keepMax s < keepMax old then trimKeep s else s
  let s := (span 0 64).foldl (fun s k =>
    let o := bankOwner old (k / 8) (k % 8)
    if o = bankOwner s (k / 8) (k % 8) then s else bankMoved s (k / 8) (k % 8) o) s
  memberships old s

/-- The result of an applied set, and event 0x0DE1 (R590, R591). -/
def reportApplied (s : State) (m : Nat) (a : Accepted) : State :=
  let x := accOf s a.acc
  let s := if x.result.res = .accepted ∧ x.result.tag = a.tag ∧ x.result.stage = a.mark then
      putAcc s a.acc { x with result := { x.result with res := .applied } } else s
  logEvent s 0x0DE1 a.acc 3 m

/-- Every accepted set that is due at mark `m` takes effect, in order of acceptance (R591). -/
def applySets (s : State) (m : Nat) : State :=
  let due := s.dict.accepted.filter (fun a => decide (a.mark ≤ m))
  if due.isEmpty then s
  else
    let n := { s with dict := { s.dict with accepted := s.dict.accepted.filter (fun a => decide (m < a.mark)) } }
    let n := due.foldl (fun n a => laySet n a.set) n
    due.foldl (fun n a => reportApplied n m a) (reconfigure s n)

/-- COMMIT_CHECK (R55, R589, R590): the check of the first set in turn ends. -/
def execCommitCheck (s : State) : Res :=
  match s.dict.checks with
  | [] => notDue s
  | c :: rest =>
    if s.flt.halted then notDue s
    else
      let base := s.dict.accepted.foldl (fun b a => laySet b a.set) s
      let x := accOf s c.acc
      let s := { s with dict := { s.dict with checks := rest } }
      match worst (checkSet s (layMembers base) c.set) with
      | some f =>
        let r : CommitResult := { res := .failed, tag := c.tag, failIx := f.ix, failSub := f.sub, reason := f.why }
        ok (logEvent (putAcc s c.acc { x with result := if x.result.res = .checking ∧ x.result.tag = c.tag then r else x.result })
          0x0DE2 c.acc 3 f.why.code)
      | none =>
        let m := markOfEffect s
        let r : CommitResult := { res := .accepted, tag := c.tag, stage := m }
        let left := x.staged.filter (fun v => !c.set.contains v)
        let s := putAcc s c.acc { x with staged := left, result := if x.result.res = .checking ∧ x.result.tag = c.tag then r else x.result }
        ok { s with dict := { s.dict with accepted := s.dict.accepted ++ [{ acc := c.acc, tag := c.tag, set := c.set, mark := m }] } }

end Sys2Proof.Machine
end

