-- ==== Sys2Proof/Machine/Pair.lean ====
section
/-!
DEFINITION. Mirrored pairs (R533 to R536, R543, R667 to R674): the relay port, deltas, promotion, the roles.
-/
namespace Sys2Proof.Machine

/-! ### The mirror area and its header -/

/-- Places in the pair header (R669). Those of ACK_SEQ and of ROLE are PRESUMED. -/
def hdrHeartbeat : Nat := 0
def hdrDoneSeq : Nat := 8
def hdrEpoch : Nat := 12
def hdrAckSeq : Nat := 16
def hdrRole : Nat := 20
def ringOff : Nat := 0x0010_0000
def ringSize : Nat := 0x0FF0_0000
def imageOff : Nat := 0x1000_0000
def regionOff : Nat := 0x2000_0000

def putPair (s : State) (x : PairState) : State := { s with pair := x }

/-- A write to the partner's header, charged to initiator 0x85A (R536). -/
def relaySend (s : State) (off : Nat) (b : List Byte) : State :=
  if !s.host.relay.linkUp then s
  else
    let s := charge s 0x85A 0 0 b.length
    let s := bump (emit s (.relayWrite off b)) ⟨.hpfRelayTxBytes, 0, 0⟩ b.length
    putPair s { s.pair with wrote := true }

/-- EPOCH and ROLE go to the partner's header (R669, R674). -/
def sendRole (s : State) : State :=
  relaySend (relaySend s hdrEpoch (toBytes 4 s.pair.epoch)) hdrRole (toBytes 1 s.pair.role.code ++ toBytes 1 s.pair.sync.code ++ [0, 0])

/-! ### Snapshots -/

/-- The registers with ST fields, as configured. -/
def configRegs (s : State) : SMap Nat :=
  s.regs.filterMap (fun p => match regOfKey p.1 with
    | none => none
    | some r =>
      let w := (regSpec r.name).fields.foldl (fun w f => if f.acc = .st then setBitsOf w f.hi f.lo (bitsOf p.2 f.hi f.lo) else w) (regReset r)
      if w = regReset r then none else some (p.1, w))

/-- The control state of a snapshot (R670). -/
def snapshotOf (s : State) : Snapshot :=
  { parts := s.work.parts, vals := s.dict.vals, regs := configRegs s,
    ctxs := s.work.ctxs.filter (fun p => match p.2 with | some x => x.phase != .creating | none => false),
    queues := s.work.queues, slots := s.work.slots }

/-- The pages of the mirror regions: place in the region image and HA (R669). -/
def regionPages (s : State) : List (Nat × Nat) :=
  ((mirrorRegions s).foldl (fun (acc : Nat × List (Nat × Nat)) r =>
    (acc.1 + r.2.2.2, acc.2 ++ (span 0 (r.2.2.2 / 4096)).map (fun k => (acc.1 + 4096 * k, r.2.2.1 + 4096 * k)))) (0, [])).2

/-- A page as the home reads it; one that cannot be read is not sent. -/
def readPages (s : State) (l : List (Nat × Nat)) : List (Nat × List Byte) :=
  l.filterMap (fun p => (homeBytes s p.2 4096).map (fun b => (p.1, b)))

/-- Pages whose bytes differ from what was sent last. -/
def changedPages (s : State) : List (Nat × List Byte) :=
  (readPages s (regionPages s)).filter (fun p => smGet (zeroBytes 4096) s.pair.sent p.1 != p.2)

def unackedLen (s : State) : Nat := s.pair.unacked.foldl (fun n d => n + d.len) 0

/-- The relay engine begins to send a delta (R670). The size of its control-image records is not stated: a free number of
64-byte units. -/
def sendDelta (s : State) (kind : Nat) (pages : List (Nat × List Byte)) (last : Bool) : State :=
  let (d, s) := draw s
  let len := 64 + 4160 * pages.length + 64 * Config.freeNat d
  if ringSize < unackedLen s + len then putPair s { s.pair with resyncDue := true, resyncAt := none }
  else
    let seq := (s.pair.seq + 1) % 2 ^ 32
    let s := emit s (.delta kind s.pair.epoch seq s.stage.number len (snapshotOf s) pages)
    putPair s { s.pair with seq := seq, sending := some { seq := seq, len := len, last := last }, wrote := true
                            sent := pages.foldl (fun m p => smSet (zeroBytes 4096) m p.1 p.2) s.pair.sent }

/-- Pages of a resync piece: its number of pages is the hub's own choice. -/
def piecePages : Nat := 16384

/-- The next piece of a resync, or the first one where a resync is due (R673). -/
def resyncGo (s : State) : State :=
  let x := s.pair
  if roleNow s ≠ .active ∨ !s.host.relay.linkUp ∨ x.sending.isSome then s
  else match x.resyncAt, x.resyncDue with
    | some k, _ =>
      let ps := regionPages s
      let last := decide (ps.length ≤ k + piecePages)
      let t := sendDelta s 1 (readPages s ((ps.drop k).take piecePages)) last
      if t.pair.sending.isNone then s
      else putPair t { t.pair with resyncAt := if last then none else some (k + piecePages) }
    | none, true =>
      let ps := regionPages s
      let last := decide (ps.length ≤ piecePages)
      let t := sendDelta (putPair s { x with sent := [] }) 1 (readPages s (ps.take piecePages)) last
      if t.pair.sending.isNone then s
      else putPair t { t.pair with resyncDue := false, resyncAt := if last then none else some piecePages }
    | none, false => s

/-- A resync is due (R673). -/
def resyncStart (s : State) : State := resyncGo (putPair s { s.pair with resyncDue := true, resyncAt := none })

/-- Action 4 of a mark on an active hub (R54, R670). -/
def mirrorSnapshot (s : State) : State :=
  if roleNow s ≠ .active ∨ !s.host.relay.linkUp then s
  else if s.pair.sending.isSome ∨ s.pair.resyncAt.isSome then
    logEvent (putPair s { s.pair with skips := satAdd 32 s.pair.skips 1 }) 0x0FE7 0 2 0
  else if s.pair.resyncDue then resyncGo s
  else sendDelta s 0 (changedPages s) true

/-- DELTA_SENT (R670): the last byte of the delta is sent, once the tolls have admitted it, and DONE_SEQ is written. -/
def execDeltaSent (s : State) : Res :=
  match s.pair.sending with
  | none => notDue s
  | some d =>
    if !s.host.relay.linkUp || s.flt.halted then notDue s
    else match gate s .relay d.seq 0x85A 0 d.len with
      | (s, false) => ok s
      | (s, true) =>
        let s := bump s ⟨.hpfRelayTxBytes, 0, 0⟩ d.len
        let s := putPair s { s.pair with sending := none, unacked := s.pair.unacked ++ [d] }
        ok (resyncGo (relaySend s hdrDoneSeq (toBytes 4 d.seq)))

/-! ### Writes that arrive -/

/-- ACK_SEQ arrives at the active (R670, R673): bit 31 asks for a resync. -/
def ackArrives (s : State) (v : Nat) : State :=
  if bitOf v 31 then resyncStart (putPair s { s.pair with unacked := [] })
  else
    let rec drop : List DeltaOut → List DeltaOut
      | [] => s.pair.unacked
      | d :: l => if d.seq % 2 ^ 31 = v then l else drop l
    resyncGo (putPair s { s.pair with unacked := drop s.pair.unacked, ackMark := s.stage.number })

/-- ROLE and SYNC of the partner arrive: a standby with SYNC NONE receives a resync (R668, R673). -/
def roleArrives (s : State) (role sync : Nat) : State :=
  let e := match s.pair.partner with | some p => p.1 | none => 0
  let s := putPair s { s.pair with partner := some (e, role, sync) }
  if roleNow s = .active ∧ role = 2 ∧ sync = 0 then resyncStart s else s

/-- RELAY_WRITE (R536, R543): a posted write of the partner is performed into the mirror area at an offset; any other request is
dropped and counted, and one that is not posted is answered Unsupported Request. -/
def execRelayWrite (off : Nat) (data : Option (List (BitVec 8))) (posted : Bool) (s : State) : Res :=
  if (match data with | some b => b.isEmpty || decide (4096 < b.length) || decide (2 ^ 32 < off + b.length) || !posted | none => false) then
    illFormed
  else if !s.host.relay.linkUp || s.flt.halted then notDue s
  else match data with
    | none =>
      let s := bump s ⟨.hpfRelayDrop, 0, 0⟩ 1
      ok (if posted then s else emit s .relayUnsupported)
    | some b =>
        match gate s .relay (2 ^ 32 + off) 0x85A 0 b.length with
        | (s, false) => ok s
        | (s, true) =>
          let s := bump (homePut s (mirrorBase s + off) b) ⟨.hpfRelayRxBytes, 0, 0⟩ b.length
          let s := putPair s { s.pair with lastWrite := s.stage.hubTime }
          let covers (at' n : Nat) : Bool := decide (off ≤ at') && decide (at' + n ≤ off + b.length)
          let s := if covers hdrEpoch 4 then
              putPair s { s.pair with partner := s.pair.partner.map (fun p => (fieldOf b (hdrEpoch - off) 4, p.2)) } else s
          let s := if covers hdrAckSeq 4 && roleNow s == .active then ackArrives s (fieldOf b (hdrAckSeq - off) 4) else s
          ok (if covers hdrRole 4 then roleArrives s (fieldOf b (hdrRole - off) 1) (fieldOf b (hdrRole - off + 1) 1) else s)

/-! ### The standby applies a delta -/

/-- The records of a delta (R670): data of TYPE 1 into the control image, of TYPE 2 into the region image. -/
def applyRecords : Nat → State → List Byte → State
  | 0, s, _ => s
  | n + 1, s, b =>
    if b.length < 16 then s
    else
      let len := fieldOf b 4 4
      let base := mirrorBase s + (if fieldOf b 0 1 = 1 then imageOff else regionOff)
      let s := if fieldOf b 0 1 = 1 ∨ fieldOf b 0 1 = 2 then homePut s (base + fieldOf b 8 8) ((b.drop 16).take len) else s
      applyRecords n s (b.drop ((16 + len + 63) / 64 * 64))

/-- The standby asks for a resync (R670). -/
def askResync (s : State) : State :=
  relaySend (putPair s { s.pair with lastSeq := none }) hdrAckSeq (toBytes 4 (2 ^ 31 + (s.pair.lastSeq.getD 0) % 2 ^ 31))

/-- Losses of the mirror area in object 0x5030 (R664). -/
def mirrorLosses (s : State) : Nat := (s.flt.losses.filter (fun l => l.kind == 4)).length

/-- The delta at a place of the ring passes the standby's checks (R17, R670): its bytes, header first. -/
def deltaAt (s : State) (off : Nat) : Option (List Byte) :=
  let a := mirrorBase s + ringOff + off
  match homeBytes s a 64 with
  | none => none
  | some h =>
    let len := fieldOf h 0x18 4
    if fieldOf h 5 3 ≠ 0 ∨ fieldOf h 0x20 28 ≠ 0 ∨ 1 < fieldOf h 4 1 then none
    else if fieldOf h 0 4 ≠ 0x544C_444B ∨ crc32c (h.take 60) ≠ fieldOf h 0x3C 4 ∨ len < 64 ∨ len % 64 ≠ 0 ∨ ringSize < off + len then none
    else match homeBytes s (a + 64) (len - 64) with
      | none => none
      | some d => if crc32c d = fieldOf h 0x1C 4 then some (h ++ d) else none

/-- DELTA_APPLY (R670, R673): the delta that DONE_SEQ names, at an offset of the ring. How the control image encodes the control
state is not stated: `image` is what the image then holds. -/
def execDeltaApply (off : Nat) (image : Snapshot) (s : State) : Res :=
  if roleNow s ≠ .standby ∨ s.flt.halted ∨ off % 64 ≠ 0 ∨ ringSize < off + 64 then notDue s
  else match deltaAt s off with
    | none => ok (askResync s)
    | some b =>
      let seq := fieldOf b 0x0C 4
      let kind := fieldOf b 4 1
      let done := (homeBytes s (mirrorBase s + hdrDoneSeq) 4).map ofBytes
      let follows := match s.pair.lastSeq with | some n => decide (seq = (n + 1) % 2 ^ 32) | none => kind == 1
      if done ≠ some seq then notDue s
      else if !follows || decide (s.pair.lossSeen < mirrorLosses s) then
        ok (askResync (putPair s { s.pair with lossSeen := mirrorLosses s }))
      else
        let s := applyRecords (b.length / 64) s (b.drop 64)
        let s := putPair s { s.pair with lastSeq := some seq, image := some image, lastApplied := fieldOf b 0x10 8, lossSeen := mirrorLosses s
                                         sync := if kind = 1 then .resyncing else s.pair.sync }
        ok (relaySend s hdrAckSeq (toBytes 4 (seq % 2 ^ 31)))

/-- RESYNC_DONE (R673): the last piece is applied. -/
def execResyncDone (s : State) : Res :=
  if roleNow s ≠ .standby ∨ s.pair.sync ≠ .resyncing ∨ s.pair.lastSeq.isNone then notDue s
  else ok (sendRole (logEvent (putPair s { s.pair with sync := .synced }) 0x0FE6 0 2 0))

/-! ### Roles -/

/-- The hub becomes a standby with SYNC NONE (R668). -/
def becomeStandby (s : State) : State :=
  sendRole (putPair s { s.pair with role := .standby, sync := .none, lastSeq := none, image := none, sending := none, unacked := []
                                    resyncDue := false, resyncAt := none, restoring := false, restored := false })

/-- The hub becomes active; a standby partner with SYNC NONE receives a resync (R668, R673). -/
def becomeActive (s : State) : State :=
  let s := putPair s { s.pair with role := .active, sync := .none, ackMark := s.stage.number, sending := none, unacked := []
                                   sent := [] }
  let s := sendRole s
  match s.pair.partner with
  | some (_, 2, _) => if s.host.relay.linkUp then resyncStart s else s
  | _ => s

/-- The hub becomes fenced (R674). -/
def becomeFenced (s : State) : State :=
  let s := putPair s { s.pair with role := .fenced, sync := .none, sending := none, unacked := [], resyncDue := false, resyncAt := none }
  sendRole (logEvent (breakSteps s (fun _ => true) .aborted) 0x0FE5 0 0 0)

/-- RELAY_LINK_UP (R533, R668, R673, R674): the relay link trains; `epoch`, `role` and `sync` stand in the partner's pair header. -/
def execRelayLinkUp (width : Fin 9) (rate : Fin 4) (epoch : Nat) (role : Fin 5) (sync : Fin 3) (s : State) : Res :=
  if !licRelay s || s.flt.halted || s.host.relay.linkUp || width.val == 0 || rate.val == 0 || decide (2 ^ 32 ≤ epoch) then notDue s
  else
    let s := { s with host := { s.host with relay := { s.host.relay with linkUp := true, width := width, rate := rate } } }
    let s := putPair s { s.pair with partner := some (epoch, role.val, sync.val) }
    let serving := s.pair.role = .active ∨ s.pair.role = .solo
    if serving ∧ (role.val = 1 ∨ role.val = 3) ∧
        (s.pair.epoch < epoch ∨ (s.pair.epoch = epoch ∧ s.host.relay.endpoint)) then okT (becomeFenced s)
    else if s.pair.role = .solo ∧ role.val = 2 then
      okT (resyncStart (becomeActive s))
    else
      let s := sendRole s
      if s.pair.role = .active ∧ role.val = 2 ∧ sync.val = 0 then okT (resyncStart s) else okT (resyncGo s)

/-- The relay link is down (R536). A delta in flight is lost, and a resync begins again. -/
def relayDown (s : State) : State :=
  let s := { s with host := { s.host with relay := { s.host.relay with linkUp := false, width := 0, rate := 0 } } }
  let x := s.pair
  putPair s { x with partner := none, sending := none, resyncAt := none
                     resyncDue := x.resyncDue || x.sending.isSome || x.resyncAt.isSome }

/-- RELAY_LINK_DOWN (R536). -/
def execRelayLinkDown (s : State) : Res := if s.host.relay.linkUp then ok (relayDown s) else notDue s

/-- A REQUEST of 1 or 2 is written to 0x5050:02 (R667): it takes effect at the next mark. Without the Relay licence it changes nothing
(R9). -/
def pairRequest (s : State) (v : Nat) : State := if licRelay s then putPair s { s.pair with request := v } else s
/-- REQUEST_ACTIVE and REQUEST_STANDBY. -/
def execRequestActive (s : State) : Res := ok (pairRequest s 1)
def execRequestStandby (s : State) : Res := ok (pairRequest s 2)

/-- ST fields of the registers as an image holds them. -/
def restoreRegs (s : State) (m : SMap Nat) : State :=
  let s := s.regs.foldl (fun s p => match regOfKey p.1 with | some r => layReg s r (regReset r) | none => s) s
  m.foldl (fun s p => match regOfKey p.1 with | some r => layReg s r p.2 | none => s) s

/-- The configuration of an image (R672). What changes its owner is cleared at once. -/
def restoreConfig (s : State) (i : Snapshot) : State :=
  let n := restoreRegs { s with work := { s.work with parts := i.parts }, dict := { s.dict with vals := i.vals } } i.regs
  let gs := i.parts.flatMap (fun p => p.2.granules)
  let map : SMap (Option GmapEntry) :=
    gs.foldl (fun m g => smSet none m g.granule (some { mode := g.mode, slabA := g.slabA, slabB := g.slabB })) n.mem.gmap
  let n := { n with mem := { n.mem with gmap := map } }
  let n := reconfigure s n
  let n := (smKeys n.work.zeroing).foldl (fun n g => putHbm n (zeroGranule (hbm n) g)) n
  { n with work := { n.work with zeroing := [] } }

/-- The standby promotes itself (R672): the configuration of the last delta applied takes effect at this mark (R44). -/
def promote (s : State) : State :=
  let e := (s.pair.epoch + 1) % 2 ^ 32
  let s := match s.pair.image with | some i => restoreConfig s i | none => s
  let s := putPair s { s.pair with epoch := e, restoring := true, restored := false }
  let s := becomeActive (logEvent s 0x0FE3 0 0 e)
  putPair s { s.pair with lastSeq := none }

/-- A promoted standby has heard nothing for too long (R671). -/
def promotionDue (s : State) (period : Nat) : Bool :=
  roleNow s == .standby && s.pair.sync == .synced &&
  decide ((objVal s 0x5050 5 2 - 1) * period < s.stage.hubTime - s.pair.lastWrite)

/-- What a mark does to the role (R667, R671, R672, R674); `period` is that of the stage just ended. -/
def pairMark (s : State) (period : Nat) : State :=
  if !licRelay s then putPair s { s.pair with request := 0 }
  else
    let s := if s.pair.restored then putPair s { s.pair with restoring := false, restored := false } else s
    let r := s.pair.request
    let s := putPair s { s.pair with request := 0 }
    let s := if r = 1 ∧ (s.pair.role = .standby ∨ s.pair.role = .solo) then becomeActive s
      else if r = 2 ∧ s.pair.role ≠ .standby then becomeStandby s
      else if promotionDue s period then promote s
      else s
    let s := if s.host.relay.linkUp then putPair s { s.pair with ackMark := s.stage.number } else s
    if s.pair.role = .active ∧ !s.host.relay.linkUp ∧ objVal s 0x5050 5 2 ≤ s.stage.number - s.pair.ackMark then
      logEvent (putPair s { s.pair with role := .solo, sending := none, unacked := [], resyncDue := false, resyncAt := none }) 0x0FE4 0 0 0
    else s

/-- At mark 0 the root of two standbys becomes active (R668). -/
def pairMarkZero (s : State) : State :=
  if !licRelay s ∨ !s.host.relay.linkUp ∨ s.host.relay.endpoint then s
  else match s.pair.role, s.pair.sync, s.pair.partner with
    | .standby, .none, some (_, 2, 0) => becomeActive s
    | _, _, _ => s

/-- HEARTBEAT at the end of a toll window in which nothing else was written (R671). -/
def heartbeat (s : State) : State :=
  let busy := s.pair.wrote || s.pair.sending.isSome
  let s := if roleNow s = .active ∧ !busy then relaySend s hdrHeartbeat (toBytes 8 s.stage.number) else s
  putPair s { s.pair with wrote := false }

/-! ### The data of a promoted hub -/

/-- One line of the region image goes back to its place (R672). -/
def restoreLine (s : State) (from1 goal : Nat) : State :=
  match homeBytes s from1 128 with
  | some b => homePut s goal b
  | none => putHbm s (memPoisonLine (hbm s) (goal / 128))

def restoreRegions (s : State) : State :=
  (regionPages s).foldl (fun s p =>
    (span 0 32).foldl (fun s k => restoreLine s (mirrorBase s + regionOff + p.1 + 128 * k) (p.2 + 128 * k)) s) s

/-- A range lies in mirror regions (R672). -/
def inRegions (s : State) (a n : Nat) : Bool :=
  (span (a / 4096) ((a + n + 4095) / 4096 - a / 4096)).all (fun k =>
    (mirrorRegions s).any (fun r => decide (r.2.2.1 ≤ 4096 * k) && decide (4096 * k < r.2.2.1 + r.2.2.2)))

/-- A context of the image: its bale records are scanned, or initialized as FILL bales of 0x00; it is detached (R672). -/
def restoreContext (s : State) (c : Nat) (x : Context) : State :=
  let x := { x with phase := .live, recordsLeft := 0 }
  let s := putContext s c (some x)
  let s := if inRegions s x.tier.recBase (64 * x.tier.bales) then (span 0 x.tier.bales).foldl (fun s i => scanRecord s x i) s
    else (span 0 x.tier.bales).foldl (fun s i => newRecord s x i) s
  modFn s x.fn (fun h => { h with preserved := true, detached := true })

/-- PROMOTION_RESTORE_DONE (R672): regions, contexts, queues and slots are restored; dispatch starts at the next mark. -/
def execPromotionRestoreDone (s : State) : Res :=
  match s.pair.image with
  | none => notDue s
  | some i =>
    if !s.pair.restoring || s.pair.restored || s.flt.halted then notDue s
    else
      let s := restoreRegions s
      let freshQueue (q : Queue) : Queue :=
        { q with manBase := 0, manCount := 0, nextStep := 0, lastStep := none, asked := none, closed := false }
      let qs : SMap (Option Queue) := i.queues.map (fun p => (p.1, p.2.map freshQueue))
      let s := { s with work := { s.work with ctxs := [], steps := [], slots := i.slots, queues := qs } }
      let s := i.ctxs.foldl (fun s p => match p.2 with | some x => restoreContext s p.1 x | none => s) s
      okT (putPair s { s.pair with restored := true, image := none })

end Sys2Proof.Machine
end

