-- ==== Sys2Proof/Machine/Waybill.lean ====
section
/-!
DEFINITION. The Waybill (R529 to R532): its entries, its bytes, its rewriting at a mark.
-/
namespace Sys2Proof.Machine

/-- MODE of 0x2010 (R532). -/
def wayMode (s : State) : Nat := objVal s 0x2010 1 0

/-- FLAGS of an entry (R530): VALID, CHIPLET, APERTURE. -/
def wayFlags (chiplet aperture : Bool) : Nat := 1 + 2 * b2n chiplet + 4 * b2n aperture

/-- The entry of a register block (R509, R531). Its base and size stand outside the manual: constants of Config. -/
def wayBlock (s : State) (b : Block) (k : Nat) : WayEntry :=
  { type := blockType b, inst := k, flags := wayFlags (wayMode s == 1) true, base := mmioBase + blockBaseOf b k,
    size := Config.blockSize (16 * blockType b + k), apOff := 0x50_0000 + blockBaseOf b k, owner := 0xF }

/-- The BAR0 copy of a function (R510); processor chiplets reach those of the partitions of a domain, and under MODE 1 that of PF0. -/
def wayCopy (s : State) (n : Nat) : WayEntry :=
  { type := 0x000D, inst := n, flags := wayFlags ((partDomain s n).isSome || (n == 0 && wayMode s == 1)) false,
    base := 0xF_FF10_0000_0000 + n * 0x0100_0000, size := 0x0100_0000, apOff := 0xFFFF_FFFF, owner := n }

/-- A region of memory. -/
def wayRegion (type inst base size owner : Nat) : WayEntry :=
  { type := type, inst := inst, flags := wayFlags false false, base := base, size := size, apOff := 0xFFFF_FFFF, owner := owner }

/-- The entries, by TYPE and then INSTANCE (R531). -/
def wayEntries (s : State) : List WayEntry :=
  let ps := (span 0 9).filter (partLicensed s)
  apertureBlocks.map (fun p => wayBlock s p.1 p.2) ++ ps.map (wayCopy s) ++
  [wayRegion 0x000E 0 0 (populated s) 0xF] ++ ps.map (fun n => wayRegion 0x000F n (tierBase + n * 2 ^ 42) (2 ^ 42) n) ++
  [wayRegion 0x0010 0 imageBase (imageEnd - imageBase) 0xF] ++
  (if licRelay s then [wayRegion 0x0011 0 (mirrorBase s) (4 * 2 ^ 30) 0] else [])

/-- The hub rewrites the Waybill where its content changed (R532). -/
def rewriteWaybill (s : State) : State :=
  let l := wayEntries s
  if l = s.host.waybill then s
  else { s with host := { s.host with waybill := l, wayGen := (s.host.wayGen + 1) % 2 ^ 32 } }

/-- The 32 bytes of an entry (R530). -/
def WayEntry.bytes (e : WayEntry) : List Byte :=
  toBytes 2 e.type ++ toBytes 1 e.inst ++ toBytes 1 e.flags ++ [1, 0, 0, 0] ++ toBytes 8 e.base ++ toBytes 8 e.size ++
  toBytes 4 e.apOff ++ toBytes 4 e.owner

/-- The 64 KiB of the table (R529): zeros until it is built. -/
def waybillBytes (s : State) : List Byte :=
  let l := s.host.waybill
  if l.isEmpty then zeroBytes 65536
  else
    let body := l.flatMap WayEntry.bytes
    let h : List Byte := toBytes 4 0x4259_4157 ++ [1, 32] ++ toBytes 2 l.length ++ toBytes 4 s.host.wayGen
    fitBytes 65536 (h ++ toBytes 4 (crc32c (h ++ body)) ++ zeroBytes 48 ++ body)

end Sys2Proof.Machine
end

