-- ==== Sys2Proof/Machine/Stage.lean ====
section
/-!
DEFINITION. The stage (R45 to R61, R73 to R76): ARM messages, toll windows, marks. Every unit fires a mark in one command.
-/
namespace Sys2Proof.Machine

/-! ### Time -/

/-- The stage period and the length of a toll window in ns (R45, R46). -/
def stagePeriod (s : State) : Nat := 16000 * 2 ^ regBits s ⟨.stgPeriod, 0, 0⟩ 3 0
def windowLen (s : State) : Nat := 1000 * 2 ^ regBits s ⟨.stgPeriod, 0, 0⟩ 3 0

/-! ### ARM messages -/

/-- ARM_SEND (R48): the message for the next mark leaves the controller at t_M − 4 µs. -/
def execArmSend (s : State) : Res :=
  if s.stage.arm.isSome || s.stage.nextMark == 0 || s.flt.halted then notDue s
  else
    let s := advance s (s.stage.nextMark - 4000)
    ok { s with stage := { s.stage with arm := some { stage := nextMarkNo s, time := s.stage.nextMark }, armed := [] } }

/-- ARM_RECEIVE (R48, R49): a unit receives the ARM message. -/
def execArmReceive (u : HubUnit) (s : State) : Res :=
  if s.stage.arm.isNone || s.stage.armed.contains u.num || s.flt.halted then notDue s
  else ok { s with stage := { s.stage with armed := setAdd s.stage.armed u.num } }

/-! ### Toll windows -/

/-- A request that waits at its admission point is admitted, or waits on (R72, R73). -/
def readmitOne (s : State) (h : HeldReq) : State :=
  let back (s : State) (h : HeldReq) : State := { s with stage := { s.stage with held := s.stage.held ++ [h] } }
  if h.instant then
    let (s, left) := admitPieces (h.bytes / 256 + 1) s h.init h.part h.cls h.bytes
    back s { h with bytes := left }
  else if admissionHeld s h.init h.part || admission s h.init h.part h.cls == .held then back s h
  else forward (charge s h.init h.part h.cls h.bytes) (h.req.admitted (admission s h.init h.part h.cls))

def readmit (s : State) : State :=
  s.stage.held.foldl readmitOne { s with stage := { s.stage with held := [] } }

/-- What ends with a toll window: missed guarantees, the limiter, the heartbeat (R75, R671, R694). -/
def windowEnd (s : State) (est : Nat) : State := heartbeat (limiter (windowMisses s) est)

/-- What begins with a toll window: every count is zero, a carried-over interrupt is raised, held requests are admitted
(R73, R76). -/
def windowBegin (s : State) : State := readmit (newWindowIrq (resetTolls s))

/-- The boundary of two toll windows of one stage (R73). `est` is the on-die estimate of VDD power, in units of 0.5 W. -/
def windowStep (s : State) (est : Nat) : State :=
  let s := windowEnd (advance s (s.stage.markTime + (s.stage.window + 1) * windowLen s)) est
  pumpHost (slotBoundary (windowBegin { s with stage := { s.stage with window := s.stage.window + 1 } }))

/-- TOLL_WINDOW (R73, R166). -/
def execTollWindow (est : Nat) (s : State) : Res :=
  if !s.stage.running || s.flt.halted || decide (15 ≤ s.stage.window) then notDue s else okT (windowStep s est)

/-! ### The mark -/

/-- A step that has not reached its commit point at its span mark is late and is cancelled (R58, R59). -/
def lateSteps (s : State) : State :=
  s.work.steps.foldl (fun s x =>
    if x.spanMark ≠ 0 ∧ x.spanMark ≤ s.stage.number then breakStep (bump s ⟨.stgLateSteps, 0, 0⟩ 1) x .late else s) s

/-- Domains at a mark (R407): one whose reset matched comes up, with the measurements of its chiplets; one that was swept begins its
reset under AUTO_RESET. -/
def domainMark (s : State) : State :=
  (span 0 4).foldl (fun s d =>
    let x := domain s d
    if x.st = .recovering ∧ x.upNext then
      let s := setStatus (putDomain s d { x with st := .up, upNext := false, swept := false }) ⟨.sriDirIntStatus, 0, 0⟩ 1 d 0
      ((span 0 8).filter (inDomain s d)).foldl (fun s k =>
        let fw := fieldOf (site s (chipSite s k)).desc 0x18 8
        if smGet 0 s.cus.measured k = fw then s
        else logEvent { s with cus := { s.cus with measured := smSet 0 s.cus.measured k fw } } 0x0BE6 0 2 5) s
    else if x.st = .down ∧ x.swept ∧ regBits s ⟨.sriDirCtrl, 0, 0⟩ 42 42 = 1 then domainResetBegin s d
    else s) s

/-- A unit fires the mark without its ARM message (R50). -/
def armMisses (s : State) : State :=
  let got (k : Nat) : Bool := s.stage.arm.isSome && s.stage.armed.contains k
  ((span 0 188).filter (fun k => !got k)).foldl (fun s _ => setStatus s ⟨.stgStatus, 0, 0⟩ 6 0 0) s

/-- The stage controller compares the firing times (R51, R660 cause 4). -/
def skewCheck (s : State) (skew : Nat) : State :=
  let s := bumpMax s ⟨.stgSkewMax, 0, 0⟩ skew
  if skew ≤ 20 then { s with flt := { s.flt with skewRun := 0 } }
  else
    let s := setStatus s ⟨.stgStatus, 0, 0⟩ 7 0 0
    { s with flt := { s.flt with skewRun := s.flt.skewRun + 1 } }

/-- The chiplet of a site is the one of the site below (R456): by its modules, or by the site map while no module has answered. -/
def ofSiteBelow (s : State) (k : Nat) : Bool :=
  (site s k).spanUp || (!(site s k).present && decide (0 < k) && spansUp s (k - 1))

/-- A site has a chiplet that it does not refuse: one that has answered, or one that the site map records (R460, R461). -/
def attached (s : State) (k : Nat) : Bool := !(site s k).refused && ((site s k).present || (site s k).ref.isSome)

/-- The mark at a site (R52, R478): a MARK message on a trained module of the chiplet; over the UCIe sideband where none of its modules
has a trained mainband, a site reset among the causes. -/
def sendMark (s : State) (k : Nat) : State :=
  let period := regBits s ⟨.stgPeriod, 0, 0⟩ 3 0
  if !attached s k || ofSiteBelow s k then s
  else if (site s k).inReset || (moduleList s k).isEmpty then emit s (.sideMark k s.stage.number period s.stage.markTime)
  else sendEhp s k 3 1 0 0 0 0 (period + s.stage.number % 2 ^ 64 * 2 ^ 48) (toBytes 8 s.stage.markTime)

/-- MARK to every chiplet. -/
def sendMarks (s : State) : State := (span 0 8).foldl sendMark s

/-- Cores that sleep wake at the mark where they enabled it (R225, R244). -/
def wakeCores (s : State) : State := (smKeys s.prt.cores).foldl wakeCore s

/-- Action 2 of a mark (R54): staged configuration, clock steps and rate caps, domains, the role in a pair. -/
def markConfig (s : State) (period : Nat) : State :=
  pairMark (domainMark (applyCaps (applySteps (applySets s s.stage.number)))) period

/-- Mark M fires in every unit (R49, R54), in the order of R54's actions. -/
def fireMark (s : State) (m skew : Nat) (eyes : List Nat) : State :=
  let period := stagePeriod s
  let s := { s with stage := { s.stage with number := m, running := true, markTime := s.stage.nextMark, window := 0 } }
  let s := armMisses (lateSteps s)
  let s := markConfig s period
  let s := windowBegin s
  let s := mirrorSnapshot s
  let s := sendMarks { s with stage := { s.stage with arm := none, armed := [], nextMark := s.stage.markTime + stagePeriod s } }
  let s := wakeCores s
  let s := if s.age.replanDue then replan s eyes else s
  let s := rewriteWaybill s
  let s := pumpHost (slotBoundary s)
  setHealth (skewCheck s skew) (healthNow s)

/-- Toll windows of the stage that no command has ended. -/
def finishWindows (s : State) (est : Nat) : State :=
  windowEnd ((span 0 (15 - s.stage.window)).foldl (fun s _ => windowStep s est) s) est

/-- STAGE_MARK (R49 to R61): hub time reaches t_M. `skew` is the largest difference of the units' firing times in ns, `eyes` the eye
margins of the modules in percent (R677), `est` the on-die power estimate (R694). -/
def execStageMark (skew : Nat) (eyes : List Nat) (est : Nat) (s : State) : Res :=
  if eyes.length ≠ 32 then illFormed
  else if !s.stage.running || s.flt.halted then notDue s
  else
    let s := finishWindows s est
    let s := fireMark (advance s s.stage.nextMark) (s.stage.number + 1) skew eyes
    if 3 ≤ s.flt.skewRun then ok (hubFault s 4) else okT s

end Sys2Proof.Machine
end

