-- ==== Sys2Proof/Machine/Customs.lean ====
section
/-!
DEFINITION. Customs (R601 to R636): fuses and their burns, tokens, images and licences as they are checked, flash commands, SPDM.
-/
namespace Sys2Proof.Machine

def putCus (s : State) (c : CustomsState) : State := { s with cus := c }

/-- Customs runs only its ROM: SCRAPPED, or a torn life-cycle word (R606). -/
def romOnly (s : State) : Bool := s.cus.lc == 5 || s.cus.lc == 15

/-- A group of LC_WORD (R607). -/
def lcGroup (w g : Nat) : Nat := bitsOf w (16 * g + 15) (16 * g)

/-- The state of a life-cycle word (R607, R608): 15 when it is torn. -/
def lcOf (w : Nat) : Nat :=
  if (span 0 4).any (fun g => lcGroup w g != 0 && lcGroup w g != 0xFFFF) then 15
  else if lcGroup w 3 ≠ 0 then 5 else if lcGroup w 2 ≠ 0 then 4 else if lcGroup w 1 ≠ 0 then 3 else if lcGroup w 0 ≠ 0 then 2 else 1

/-! ### Owner slots and keys -/

/-- The fused hash of a key slot: of Klolith's key for slot 0 (R604). -/
def keyHash (s : State) (k : Nat) : List Byte := if k = 0 then s.cus.rootHash else smGet (zeroBytes 48) s.cus.owners k
/-- An owner slot is enrolled (R616). -/
def ownerFull (s : State) (k : Nat) : Bool := decide (1 ≤ k) && decide (k ≤ 4) && keyHash s k != zeroBytes 48
/-- An owner slot that may sign: enrolled and not revoked; in RETURNED the owner slots count as revoked (R605, R614, R616). -/
def ownerOk (s : State) (k : Nat) : Bool := ownerFull s k && !bitOf s.cus.revoked (k - 1) && s.cus.lc != 4
/-- The lowest owner slot that is empty. -/
def nextOwner (s : State) : Option Nat := (span 1 4).find? (fun k => !ownerFull s k)

/-! ### Tokens -/

/-- The transitions of R609: from the state in effect to `to`, signed by `k`. -/
def transitionOk (s : State) (goal k : Nat) : Bool :=
  let owners := (span 1 4).any (ownerFull s)
  match s.cus.lc, goal with
  | 1, 2 => k == 0
  | 2, 3 => ownerOk s k
  | 2, 4 => k == 0 && (s.cus.consent || !owners)
  | 3, 4 => k == 0 && (s.cus.consent || !owners)
  | 1, 5 => k == 0 || ownerOk s k
  | 2, 5 => k == 0 || ownerOk s k
  | 3, 5 => k == 0 || ownerOk s k
  | 4, 5 => k == 0 || ownerOk s k
  | _, _ => false

/-- Format of a token (R610): length, MAGIC, TYPE, fields that are reserved for its TYPE. -/
def tokenFormat (b : List Byte) : Bool :=
  let t := fieldOf b 4 1
  (b.length == 192 || b.length == 289) && fieldOf b 0 4 == 0x4B4F_544B && decide (1 ≤ t) && decide (t ≤ 4) && fieldOf b 7 1 == 0 &&
  fieldOf b 0x48 24 == 0 && (t == 2 || fieldOf b 0x18 48 == 0) && (t != 4 || fieldOf b 5 1 == 0)

/-- The key presented with a token and the signature under it (R610). -/
def tokenSigned (s : State) (b : List Byte) : Bool :=
  let k := fieldOf b 6 1
  let key := b.drop 192
  decide (k ≤ 4) && key.length == 97 && Config.sha384 key == keyHash s k && Config.ecdsaOk key (b.take 0x60) ((b.drop 0x60).take 96)

/-- What a token asks for is allowed (R609, R616). -/
def tokenAllowed (s : State) (b : List Byte) : Bool :=
  let k := fieldOf b 6 1
  let arg := fieldOf b 5 1
  match fieldOf b 4 1 with
  | 1 => transitionOk s arg k
  | 2 => ownerOk s k && nextOwner s == some arg && decide (2 ≤ arg)
  | 3 => ownerOk s k && ownerFull s arg && k != arg
  | _ => ownerOk s k

/-- The burn that an accepted token starts. -/
def tokenBurn (b : List Byte) : Option Burn :=
  let arg := fieldOf b 5 1
  match fieldOf b 4 1 with
  | 1 => some (.group (arg - 2))
  | 2 => some (.owner arg ((b.drop 0x18).take 48))
  | 3 => some (.revoke arg)
  | _ => none

/-- The outcome of a token's check (R611): the first cause that applies, or none. -/
def tokenRefusal (s : State) (b : List Byte) (vdd18 : Bool) : Option Nat :=
  if !tokenFormat b then some 3
  else if fieldOf b 8 8 ≠ s.cus.serial then some 4
  else if fieldOf b 0x10 8 ≠ s.cus.nonce then some 5
  else if !tokenSigned s b then some 6
  else if !tokenAllowed s b then some 7
  else if !vdd18 && (tokenBurn b).isSome then some 8
  else none

/-- A new nonce (R611). -/
def newNonce (s : State) : State :=
  let (d, s) := draw s
  putCus s { s.cus with nonce := (Config.freeBits64 d).toNat }

def refuseToken (s : State) (r : Nat) : State := logEvent (putCus s { s.cus with result := r }) 0x0BE4 0 2 r

/-- A burn starts, or waits for the one in progress (R608, R611). -/
def burnStart (s : State) (b : Burn) : State :=
  match s.cus.burn with
  | none => putCus s { s.cus with burn := some b }
  | some _ => putCus s { s.cus with burnNext := s.cus.burnNext ++ [b] }

/-- Burns in progress and waiting. -/
def burns (s : State) : List Burn := (match s.cus.burn with | some b => [b] | none => []) ++ s.cus.burnNext

/-- A token is submitted (R611): `vdd18` says whether VDD18 is within its limits. One that comes while an accepted token's burn has
not ended ends with BAD_NONCE. -/
def submitToken (s : State) (b : List Byte) (vdd18 : Bool) : State :=
  if romOnly s || s.cus.recovery || s.flt.halted then s
  else if (burns s).any Burn.byToken then newNonce (refuseToken s 5)
  else match tokenRefusal s b vdd18 with
    | some r => newNonce (refuseToken s r)
    | none =>
      match tokenBurn b with
      | some x => newNonce (burnStart (putCus s { s.cus with result := 1 }) x)
      | none => newNonce (putCus s { s.cus with result := 2, consent := true })

/-- TOKEN (R609 to R611, R616): a write of 0x6002. -/
def execToken (value : List (BitVec 8)) (vdd18 : Bool) (s : State) : Res := ok (submitToken s value vdd18)

/-- The hash of slot 1 without a token (R616). -/
def enrolAllowed (s : State) (hash : List Byte) : Bool :=
  !romOnly s && !s.cus.recovery && !s.flt.halted && hash.length == 48 && s.cus.lc == 2 && !ownerFull s 1 &&
  !(burns s).any (fun b => match b with | .owner 1 _ => true | _ => false)
def enrol (s : State) (hash : List Byte) : State :=
  if enrolAllowed s hash then burnStart s (.owner 1 hash) else s

/-- OWNER_ENROL (R616): a write of 0x6011. -/
def execOwnerEnrol (hash : List (BitVec 8)) (s : State) : Res := ok (enrol s hash)

/-- The minimum SVN of a kind rises to the running one (R622); a write that would not raise it does nothing. -/
def svnAdvance (s : State) (kind : Nat) : State :=
  let c := s.cus
  let (run, low) := if kind = 1 then (c.cfwSvn, c.minCfw) else (c.pplSvn, c.minPpl)
  if romOnly s || c.recovery || s.flt.halted || decide (run ≤ low) || (burns s).contains (.svn kind run) then s
  else burnStart s (.svn kind run)

/-- SVN_ADVANCE (R622): a write of 0x6020:08. -/
def execSvnAdvance (kind : Fin 2) (s : State) : Res := ok (svnAdvance s (kind + 1))

/-- The burn ends with every bit blown. -/
def burnDone (s : State) (b : Burn) : State :=
  let c := s.cus
  match b with
  | .group g => logEvent (putCus s { c with lcWord := setGroup c.lcWord g 0xFFFF }) 0x0BE3 0 1 (g + 2)
  | .owner k h => putCus s { c with owners := smSet (zeroBytes 48) c.owners k h }
  | .revoke k => putCus s { c with revoked := setBitOf c.revoked (k - 1) true }
  | .svn 1 t => putCus s { c with minCfw := t }
  | .svn _ t => putCus s { c with minPpl := t }

/-- FUSE_BURN_DONE (R608, R612, R613): the burn ends; a bit that still fails after its retries leaves the field as a power failure
does. What TOKEN_RESULT then reads is not stated. The next burn that waits starts, or else a hub warm reset that waited follows. -/
def execFuseBurnDone (worked : Bool) (s : State) : Res :=
  match s.cus.burn with
  | none => notDue s
  | some b =>
    let tok := s.cus.result == 1 && b.byToken
    let s := if worked then burnDone s b else cutBurn s
    let (d, s) := draw s
    let s := putCus s { s.cus with burn := s.cus.burnNext.head?, burnNext := s.cus.burnNext.tail,
                                   result := if !tok then s.cus.result else if worked then 2 else Config.freeNat d % 9 }
    ok (if s.cus.resetDue && s.cus.burn.isNone then warmNow (putCus s { s.cus with resetDue := false }) s.bring.lostStack else s)

/-! ### Images -/

/-- Base of a kind's slot in the flash, and its length (R617). -/
def slotBase (kind slot : Nat) : Nat := if kind = 1 then 0x10_0000 + 0x10_0000 * slot else 0x40_0000 + 0x100_0000 * slot
def slotLen (kind : Nat) : Nat := if kind = 1 then 0x10_0000 else 0x100_0000

/-- Format and length of a container header (R619). -/
def headerOk (kind : Nat) (h : List Byte) : Bool :=
  let n := fieldOf h 0x0C 4
  let k := fieldOf h 0x18 1
  fieldOf h 0 4 == 0x474D_494B && fieldOf h 4 2 == kind && fieldOf h 6 2 == 256 && decide (fieldOf h 8 1 ≤ 64) && fieldOf h 9 3 == 0 &&
  (if kind = 1 then decide (1 ≤ n) && decide (n ≤ 0x10_0000 - 256) else decide (64 ≤ n) && decide (n ≤ 0x100_0000 - 256)) &&
  (decide (k ≤ 4) || k == 0xFF) && fieldOf h 0x19 7 == 0 && fieldOf h 0x50 16 == 0 && (k != 0xFF || fieldOf h 0x60 96 == 0) &&
  fieldOf h 0xC0 64 == 0

/-- The key slot of a container is permitted in the state (R605). -/
def slotPermitted (s : State) (kind k : Nat) : Bool :=
  match s.cus.lc, kind with
  | 1, _ => true
  | 2, 1 => k == 0
  | 2, _ => k == 0 || k == 0xFF || ownerOk s k
  | 3, 1 => k == 0
  | 3, _ => k == 0 || ownerOk s k
  | 4, _ => k == 0
  | _, _ => false

/-- The minimum SVN of a kind (R622). -/
def minSvn (s : State) (kind : Nat) : Nat := if kind = 1 then s.cus.minCfw else s.cus.minPpl

/-- The check of R620 that a container fails first, 0 where it passes: `h` its header, `p` its payload. The key of a slot stands for
itself by its fused hash. -/
def imageCheck (s : State) (kind : Nat) (h p : List Byte) : Nat :=
  let k := fieldOf h 0x18 1
  let bind := fieldOf h 0x10 8
  if !headerOk kind h then 1
  else if (bind ≠ 0 ∨ (s.cus.lc = 4 ∧ kind = 1)) ∧ bind ≠ s.cus.serial then 2
  else if fieldOf h 8 1 < minSvn s kind then 3
  else if !slotPermitted s kind k then 4
  else if s.cus.lc ≠ 1 ∧ k ≠ 0xFF ∧ !Config.ecdsaOk (keyHash s k) (h.take 0x60) ((h.drop 0x60).take 96) then 5
  else if Config.sha384 p ≠ (h.drop 0x20).take 48 then 6
  else 0

/-- The container in a slot of the flash: header and payload. -/
def slotImage (s : State) (kind slot : Nat) : List Byte × List Byte :=
  let b := slotBase kind slot
  let h := flashBytes s b 256
  (h, flashBytes s (b + 256) (min (fieldOf h 0x0C 4) (slotLen kind - 256)))

def slotCheck (s : State) (kind slot : Nat) : Nat :=
  let (h, p) := slotImage s kind slot
  imageCheck s kind h p

/-! ### The select record -/

/-- A copy of the select record, if it is valid (R618): SEQ and the slots. -/
def selectCopy (s : State) (n : Nat) : Option (Nat × Nat × Nat) :=
  let b := flashBytes s (4096 * n) 64
  if fieldOf b 0 4 = 0x4C45_534B ∧ crc32c (b.take 60) = fieldOf b 0x3C 4 ∧ fieldOf b 8 1 < 2 ∧ fieldOf b 9 1 < 2 ∧ fieldOf b 10 50 = 0 then
    some (fieldOf b 4 4, fieldOf b 8 1, fieldOf b 9 1)
  else none

/-- The copy in force, with its number: the valid one whose SEQ is later. -/
def selectNow (s : State) : Option (Nat × Nat × Nat × Nat) :=
  match selectCopy s 0, selectCopy s 1 with
  | some a, some b => if tallyGe a.1 b.1 then some (0, a) else some (1, b)
  | some a, none => some (0, a)
  | none, some b => some (1, b)
  | none, none => none

/-- The slot that the select record names for a kind; slot A where no copy is valid. -/
def selected (s : State) (kind : Nat) : Nat :=
  match selectNow s with
  | some (_, _, c, p) => if kind = 1 then c else p
  | none => 0

/-- A new select record names a slot of a kind (R618): it goes into the other copy, erased first. -/
def select (s : State) (kind slot : Nat) : State :=
  let (n, seq) := match selectNow s with | some (n, q, _, _) => (1 - n, (q + 1) % 2 ^ 32) | none => (0, 0)
  let c := if kind = 1 then slot else selected s 1
  let p := if kind = 1 then selected s 2 else slot
  let b : List Byte := toBytes 4 0x4C45_534B ++ toBytes 4 seq ++ toBytes 1 c ++ toBytes 1 p ++ zeroBytes 50
  let erased : List Byte := List.replicate 4096 0xFF
  flashPut (flashPut s (4096 * n) erased) (4096 * n) (b ++ toBytes 4 (crc32c b))

/-! ### Licences -/

/-- The status of a licence record (R623, R624): 0 empty, 1 accepted, 2 bad signature, 3 wrong serial, 4 malformed. -/
def licenceStatus (s : State) (b : List Byte) : Nat :=
  if fieldOf b 0 4 = 0xFFFF_FFFF then 0
  else if fieldOf b 0 4 ≠ 0x4349_4C4B ∨ fieldOf b 4 1 = 0 ∨ 3 < fieldOf b 4 1 ∨ fieldOf b 5 3 ≠ 0 ∨ fieldOf b 0x14 76 ≠ 0 then 4
  else if fieldOf b 8 8 ≠ s.cus.serial then 3
  else if !Config.ecdsaOk (keyHash s 0) (b.take 0x60) ((b.drop 0x60).take 96) then 2
  else 1

def licenceRec (s : State) (k : Nat) : List Byte := flashBytes s (0x1_0000 + 256 * k) 192

/-- The licence check of bring-up (R605, R624): the table, the bundles in effect, the events. MAKER and RETURNED enable every
resource. -/
def checkLicences (s : State) : State :=
  if s.cus.lc = 1 ∨ s.cus.lc = 4 then
    putCus { s with licences := 7 } { s.cus with licTable := [], digLic := Config.sha384 [] }
  else
    let t := (span 0 16).map (fun k =>
      let b := licenceRec s k
      let st := licenceStatus s b
      (if st = 0 then 0 else fieldOf b 4 1, st))
    let good := (span 0 16).filter (fun k => licenceStatus s (licenceRec s k) == 1)
    let mask := good.foldl (fun m k => Nat.lor m (2 ^ (fieldOf (licenceRec s k) 4 1 - 1))) 0
    let s := putCus { s with licences := mask } { s.cus with licTable := t, digLic := Config.sha384 (good.flatMap (licenceRec s)) }
    ((span 0 16).filter (fun k => decide (2 ≤ licenceStatus s (licenceRec s k)))).foldl (fun s k => logEvent s 0x0BE2 0 2 k) s

/-! ### Flash commands -/

/-- A command of 0x6040 starts (R625); none while one runs. -/
def flashStart (s : State) (op : Nat) : Option State :=
  if s.cus.cmd.isSome then none
  else some (putCus s { s.cus with cmd := some { op := op, addr := s.cus.addr, data := s.cus.data }, flashRes := 1 })

def flashRow (s : State) (op : Nat) : Res :=
  if romOnly s || s.flt.halted then ok s else ok ((flashStart s op).getD s)

/-- ERASE_4K, ERASE_64K, PROGRAM, READ and ACTIVATE (R625): writes of 0x6040:01. -/
def execErase4k (s : State) : Res := flashRow s 1
def execErase64k (s : State) : Res := flashRow s 2
def execProgram (s : State) : Res := flashRow s 3
def execFlashRead (s : State) : Res := flashRow s 4
def execActivate (s : State) : Res := flashRow s 5

/-- Bytes that erase and program may not touch (R627). -/
def flashProtected (s : State) (a n : Nat) : Bool :=
  overlap a n 0 0x2000 || overlap a n 0x2_0000 0x2_0000 || overlap a n 0x4_0000 0x1_0000 ||
  overlap a n (slotBase 1 (selected s 1)) (slotLen 1) || overlap a n (slotBase 2 (selected s 2)) (slotLen 2)

/-- A flash command ends with a RESULT. -/
def flashEnd (s : State) (a r : Nat) : State :=
  let s := putCus s { s.cus with cmd := none, flashRes := r }
  match r with
  | 3 => logEvent s 0x0BE5 0 3 a
  | 4 => logEvent s 0x0BE5 0 3 a
  | 5 => logEvent s 0x0BE5 0 3 a
  | 6 => logEvent s 0x0BE7 0 1 a
  | _ => s

/-- The device failed: what it leaves in its target is not stated. -/
def flashFails (s : State) (a n : Nat) : State :=
  let (d, s) := draw s
  flashEnd (flashPut s a ((span a n).map (Config.undefByte d))) a 6

/-- FLASH_COMMAND_DONE (R625 to R628): the command ends; `device` is false where the device failed. -/
def execFlashCommandDone (device : Bool) (s : State) : Res :=
  match s.cus.cmd with
  | none => notDue s
  | some c =>
    let a := c.addr
    let n := c.data.length
    let erased (n : Nat) : List Byte := List.replicate n 0xFF
    ok (match c.op with
      | 1 => if a % 4096 ≠ 0 then flashEnd s a 5
             else if flashProtected s a 4096 then flashEnd s a 4
             else if device then flashEnd (flashPut s a (erased 4096)) a 2 else flashFails s a 4096
      | 2 => if a % 65536 ≠ 0 then flashEnd s a 5
             else if flashProtected s a 65536 then flashEnd s a 4
             else if device then flashEnd (flashPut s a (erased 65536)) a 2 else flashFails s a 65536
      | 3 => if n = 0 ∨ 256 < n ∨ c.addr / 256 ≠ (c.addr + n - 1) / 256 then flashEnd s a 5
             else if flashProtected s a n then flashEnd s a 4
             else if (flashBytes s a n).any (fun b => b != 0xFF) then flashEnd s a 3
             else if device then flashEnd (flashPut s a c.data) a 2 else flashFails s a n
      | 4 =>
        let len := ofBytes c.data
        if 256 < len then flashEnd s a 5
        else if device then flashEnd (putCus s { s.cus with data := flashBytes s a len }) a 2 else flashEnd s a 6
      | _ => if c.addr ≠ 1 ∧ c.addr ≠ 2 then flashEnd s a 5
             else
               let other := 1 - selected s c.addr
               if slotCheck s c.addr other ≠ 0 then flashEnd s a 7
               else if device then flashEnd (select s c.addr other) a 2 else flashEnd s a 6)

/-! ### SPDM -/

/-- The number of a path in an output: 0 to 3 for the links, 4 and 5 for the bindings. -/
def spdmNum : SpdmPath → Nat | .doe l => l | .mctp p => 4 + b2n p

/-- The path exists: the DOE of function 0 of a link that answers configuration requests, or MCTP. -/
def spdmOpen (s : State) (p : SpdmPath) : Bool :=
  match p with | .doe l => decide (l < 4) && (linkState s l).configOk | .mctp _ => true

/-- The value of a measurement block (R630): the digest of what it measures. How block 6 lays out the life-cycle state, which decides the
test port's (R605), and the minimum SVNs, and what the ROM of block 1 holds, the manual does not give: free values. -/
def measure (s : State) (i : Nat) : List Byte :=
  match i with
  | 2 => s.cus.digCfw
  | 3 => s.cus.digPpl
  | 4 => s.cus.digLic
  | 5 => Config.sha384 ((span 0 8).flatMap (siteEntry s))
  | 6 => Config.sha384 (Config.lifeBytes s.cus.lc s.cus.minCfw s.cus.minPpl)
  | _ => fitBytes 48 (Config.spdmBytes i)

/-- SPDM_REQUEST (R606, R629 to R632): Customs answers. What the standard puts into a response is not stated: free bytes. -/
def execSpdmRequest (path : SpdmPath) (req : SpdmReq) (s : State) : Res :=
  if !spdmOpen s path || s.flt.halted then notDue s
  else
    let (d, s) := draw s
    let answer (s : State) : Res := ok (emit s (.spdm (spdmNum path) (Config.spdmBytes (16 + d))))
    match req with
    | .getVersion => answer s
    | r =>
      if romOnly s then ok (emit s (.spdm (spdmNum path) []))
      else match r with
        | .measurement i => if 1 ≤ i ∧ i ≤ 6 then ok (emit s (.spdm (spdmNum path) (measure s i))) else answer s
        | .openSession =>
          if 4 ≤ s.cus.sessions.length then ok (emit s (.spdm (spdmNum path) []))
          else answer (putCus s { s.cus with sessions := s.cus.sessions ++ [path] })
        | .endSession =>
          if s.cus.sessions.contains path then answer (putCus s { s.cus with sessions := listDelFirst (fun q => q == path) s.cus.sessions })
          else answer s
        | _ => answer s

end Sys2Proof.Machine
end

