-- ==== Sys2Proof/Machine/BringUp.lean ====
section
/-!
DEFINITION. Bring-up (R637 to R658): supplies, the stages and their report, the memory test, mark 0.
-/
namespace Sys2Proof.Machine

def putBring (s : State) (b : BringState) : State := { s with bring := b }

/-! ### Supplies -/

/-- SUPPLY_GOOD (R638): the last supply becomes good, and the hold of 10 ms begins. -/
def execSupplyGood (s : State) : Res :=
  if s.bring.supply = .bad then
    ok (putBring s { s.bring with supply := .hold, recs := [(1, { res := .running, start := s.stage.hubTime })] })
  else notDue s

/-- POWER_ON_RESET_RELEASE (R638, R498, R533, R644, R682): the hold ends, the straps are sampled, and a full start begins. -/
def execPowerOnResetRelease (quick endpoint bif0 bif1 : Bool) (s : State) : Res :=
  if s.bring.supply = .hold then
    let t := s.stage.hubTime
    let s := putBring s { s.bring with
      supply := .released, path := 1, boots := 1, start := t, bootQuick := quick
      recs := [(1, { res := .pass, start := t, finish := t }), (2, { res := .running, start := t })] }
    let split (s : State) (p : Nat) (b : Bool) : SMap PortState := smMod {} s.host.ports p (fun x => { x with bifurc := b })
    let s := { s with host := { s.host with ports := split s 0 bif0 } }
    let s := { s with host := { s.host with ports := split s 1 bif1 } }
    ok { s with host := { s.host with relay := { s.host.relay with endpoint := endpoint } } }
  else notDue s

/-- SUPPLY_OUT_OF_BAND (R638, R684): power-on reset at once, whatever the hub does. -/
def execSupplyOutOfBand (s : State) : Res := if s.bring.supply = .bad then notDue s else ok (powerOn s)

/-! ### Stages -/

def modStage (s : State) (id : Nat) (f : StageRec → StageRec) : State :=
  putBring s { s.bring with recs := smMod {} s.bring.recs id f }

/-- The stages that a stage starts after (R640). Stage 8 begins with the core self-test. -/
def stagesBefore (id : Nat) : List Nat :=
  match id with
  | 2 => [1] | 3 => [2] | 4 => [3] | 5 => [4] | 6 => [4] | 7 => [6] | 8 => [3] | 9 => [3] | 10 => [4] | 11 => span 1 10
  | _ => []

def stageEnded (s : State) (id : Nat) : Bool := (stageRec s id).res.ended

/-- Every stage whose predecessors have ended starts (R640). -/
def startNext (s : State) : State :=
  (span 2 10).foldl (fun s i =>
    if (stageRec s i).res = .notStarted ∧ (stagesBefore i).all (stageEnded s) then
      modStage s i (fun r => { r with res := .running, start := s.stage.hubTime })
    else s) s

/-- The stage is running (R640, R641). -/
def stageOpen (s : State) (id : Nat) : Bool :=
  s.bring.supply == .released && !s.bring.stopped && !s.bring.done && !s.flt.halted && (stageRec s id).res == .running

/-- A fatal cause (R641): bring-up stops at the stage. -/
def stageFatal (s : State) (id cause detail : Nat) : State :=
  let s := modStage s id (fun r => { r with res := .fail, cause := cause, detail := detail, finish := s.stage.hubTime })
  let s := modFn (putBring s { s.bring with stopped := true }) 0 (fun h => { h with bringupFail := true })
  logEvent s 0x0EE0 id 0 cause

/-- A stage ends. Of the degrading causes that it met, cause and detail, the first is recorded (R641, R643). -/
def stageEnd (s : State) (id : Nat) (causes : List (Nat × Nat)) : State :=
  let t := s.stage.hubTime
  let s := match causes with
    | [] => modStage s id (fun r => { r with res := .pass, finish := t })
    | (c, d) :: _ => logEvent (modStage s id (fun r => { r with res := .degraded, cause := c, detail := d, finish := t })) 0x0EE1 id 1 c
  startNext s

/-- ROM (R606, R608, R612, R640, R685): stage 0x02 ends. A pending RETURNED or SCRAPPED takes effect only at power-on reset. -/
def execRom (t : Nat) (s : State) : Res :=
  if !stageOpen s 2 then notDue s
  else
    let s := advance s t
    let n := lcOf s.cus.lcWord
    let lc := if s.bring.path = 2 ∧ (n = 4 ∨ n = 5) ∧ n ≠ s.cus.lc then s.cus.lc else n
    let s := putCus s { s.cus with lc := lc }
    if lc = 15 then ok (stageFatal s 2 0x0201 0)
    else if lc = 5 then ok (stageFatal s 2 0x0202 0)
    else
      let s := newNonce s
      let s := if s.bring.path = 1 then emit { s with age := { s.age with target := s.age.vbase } } (.avsTarget s.age.vbase) else s
      ok (stageEnd s 2 [])

/-- CLOCKS (R640, R676, R685): stage 0x03 ends. `pll` is the unit whose PLL failed to lock, `router` one that failed the mesh
self-test; `d` and `slack` are the measurement of the monitor sites. -/
def execClocks (t : Nat) (pll router : Option Nat) (d slack : List Nat) (s : State) : Res :=
  if d.length ≠ 184 ∨ slack.any (fun k => decide (184 ≤ k)) ∨ pll.any (fun u => decide (188 ≤ u)) ∨ router.any (fun r => decide (160 ≤ r)) then
    illFormed
  else if !stageOpen s 3 then notDue s
  else
    let s := advance s t
    match pll, router with
    | some u, _ => ok (stageFatal s 3 0x0301 u)
    | none, some r => ok (stageFatal s 3 0x0302 r)
    | none, none =>
      let s := measureSites s d slack
      let s := if s.bring.path = 1 then sendTarget s (vddTarget s) else s
      ok (stageEnd s 3 [])

/-! ### Images -/

/-- An event of an image check (R635): kind, slot and failed check. -/
def imageEvent (s : State) (code prio kind slot check : Nat) : State := logEvent s code 0 prio (kind + 256 * slot + 65536 * check)

/-- The slot of a kind that runs (R620, R621): the selected one, or the other. None, with the failed check of the selected slot,
where both fail. -/
def chooseImage (s : State) (kind : Nat) : State × Option Nat × Nat :=
  let a := selected s kind
  let c := slotCheck s kind a
  if c = 0 then (s, some a, 0)
  else
    let s := imageEvent s 0x0BE0 0 kind a c
    let b := 1 - a
    let e := slotCheck s kind b
    if e = 0 then (imageEvent (putCus s { s.cus with fallback := true }) 0x0BE1 1 kind b 0, some b, c)
    else (imageEvent s 0x0BE0 0 kind b e, none, c)

/-- The digest of a container's header and payload (R630). -/
def imageDigest (s : State) (kind slot : Nat) : List Byte :=
  let (h, p) := slotImage s kind slot
  Config.sha384 (h ++ p)

/-- SVN of the container in a slot. -/
def imageSvn (s : State) (kind slot : Nat) : Nat := fieldOf (slotImage s kind slot).1 8 1

/-- FIRMWARE (R620, R621, R624, R640, R651): stage 0x04 ends; `flash` says that a flash was found whose SFDP is valid. -/
def execFirmware (t : Nat) (flash : Bool) (s : State) : Res :=
  if !stageOpen s 4 then notDue s
  else
    let s := advance s t
    if !flash then ok (stageFatal s 4 0x0401 0)
    else match chooseImage s 1 with
      | (s, none, c) => ok (stageFatal (putCus s { s.cus with recovery := true }) 4 0x0402 c)
      | (s, some k, _) =>
        let s := putCus s { s.cus with cfwSlot := k, cfwSvn := imageSvn s 1 k, digCfw := imageDigest s 1 k }
        let s := checkLicences s
        let s := (span 0 8).foldl (fun s k => modSite s k (fun x => { x with inReset := false })) s
        ok (stageEnd (rewriteWaybill s) 4 [])

/-! ### Serai and porter payload -/

/-- A row fails the self-test of the Serai (R337, R665): false where ways 15 and 14 of the slice are both unusable. -/
def bringRow (s : State) (tile w : Nat) : State × Bool :=
  let off (v : Nat) : Bool := bitOf (smGet 0 s.mem.wayOff tile) v
  if off w then (s, true)
  else if smGet 0 s.mem.rowsUsed tile < 15 then ((rowFails s tile w).1, true)
  else if (w = 15 ∧ off 14) ∨ (w = 14 ∧ (off 15 ∨ s.mem.customsW14.contains tile)) then (s, false)
  else ((disableWay s tile w).1, true)

/-- Every row that fails, in turn; the slice at which ways 15 and 14 were both lost. -/
def bringRows : List (Nat × Nat) → State → State × Option Nat
  | [], s => (s, none)
  | (t, w) :: l, s => match bringRow s t w with
    | (s, true) => bringRows l s
    | (s, false) => (s, some t)

/-- The payload is copied into the image area (R620, R337): its lines stand in way 15, or in way 14 where that is Customs'. -/
def loadImage (s : State) (p : List Byte) : State :=
  (span 0 ((p.length + 127) / 128)).foldl (fun s n =>
    let line := imageBase / 128 + n
    let w := if s.mem.customsW14.contains (homeTile s line) then 14 else 15
    seraiSetLine s line w (some { line := line, data := lineOfBytes (fitBytes 128 ((p.drop (128 * n)).take 128)), cls := .normal,
                                  dirty := false, locked := false, used := 0 })) s

/-- Waves and interval of the self-fetch that begins (R268). -/
def startFetch (s : State) : State :=
  let w := regBits s ⟨.prtBootCtrl, 0, 0⟩ 10 0
  let i := regBits s ⟨.prtBootCtrl, 0, 0⟩ 23 16
  { s with prt := { s.prt with fetchAt := some s.stage.hubTime, released := [], waves := if w = 0 ∨ 1600 < w then 100 else w,
                               interval := if i = 0 then 2 else i } }

/-- SERAI (R337, R620, R621, R640, R650): stage 0x05 ends; `rows` are the rows that failed the self-test, slice and way. -/
def execSerai (t : Nat) (rows : List (Nat × Nat)) (s : State) : Res :=
  if rows.any (fun r => decide (160 ≤ r.1) || decide (16 ≤ r.2)) then illFormed
  else if !stageOpen s 5 then notDue s
  else
    let s := advance s t
    match bringRows rows s with
    | (s, some k) => ok (stageFatal s 5 0x0502 k)
    | (s, none) =>
      if s.flt.halted then okT s
      else match chooseImage s 2 with
        | (s, none, c) => okT (stageFatal s 5 0x0501 c)
        | (s, some k, _) =>
          let p := (slotImage s 2 k).2
          let s := putCus s { s.cus with pplSlot := k, pplSvn := imageSvn s 2 k, digPpl := imageDigest s 2 k,
                                         payloadId := fieldOf p 0 4, pplReady := true }
          let s := startFetch (loadImage s p)
          let s := { s with mem := { s.mem with customsReady := true } }
          okT (stageEnd s 5 (if waysDisabled s = 0 then [] else [(0x0503, waysDisabled s)]))

/-- PORTER (R260, R640, R650): stage 0x08 ends; waves that no command released are released. -/
def execPorter (t : Nat) (s : State) : Res :=
  if !stageOpen s 8 || !stageEnded s 5 then notDue s
  else
    let s := (span 0 s.prt.waves).foldl (fun s w => match execWaveRelease w s with | .next s => s | _ => s) s
    let s := advance s t
    let n := (s.prt.clusters.filter (fun p => p.2.bootFail || p.2.exhausted)).length
    ok (stageEnd s 8 (if n = 0 then [] else [(0x0801, n)]))

/-! ### HBM -/

/-- GiB of a stack by CAP of HBC_CFG (R373). -/
def capGib (cap : Nat) : Nat := match cap with | 1 => 24 | 2 => 36 | 3 => 48 | 4 => 64 | _ => 0

/-- The stacks in service, one bit each. -/
def serviceMask (s : State) : Nat := maskOf 8 (fun h => (stackOf s h).inService)

/-- A mask of stacks with the other stack of each edge pair (R347). -/
def pairMask (m : Nat) : Nat := maskOf 8 (fun h => bitOf m h || bitOf m (h / 2 * 2 + (1 - h % 2)))

/-- Stacks leave service; the halves count what is left (R347). -/
def stacksOut (s : State) (m : Nat) : State :=
  let s := (span 0 8).foldl (fun s h => if bitOf m h then putStack s h { stackOf s h with inService := false, retained := false } else s) s
  let gib (half : Nat) : Nat := (stacksOfHalf s half).foldl (fun n h => n + capGib (stackOf s h).cap) 0
  { s with mem := { s.mem with westGib := gib 0, eastGib := gib 1 } }

/-- The half that has no stack in service, where the licences enable stacks (R6, R7). -/
def emptyHalf (s : State) : Option Nat :=
  if licensed s then (span 0 2).find? (fun k => (stacksOfHalf s k).isEmpty) else none

/-- Content of every granule is not defined until the test ends. -/
def hbmUndefined (s : State) : State :=
  let (d, s) := draw s
  putHbm s { undef := (span 0 (s.mem.westGib + s.mem.eastGib)).map (fun g => (g, d + 1)) }

/-- The granule map after power-on reset (R353). -/
def firstMap (s : State) : State :=
  let w := s.mem.westGib
  let entry (g : Nat) : GmapEntry :=
    if g < w then { mode := 0, slabA := 2 * g, slabB := 2 * g + 1 } else { mode := 1, slabA := 2 * (g - w), slabB := 2 * (g - w) + 1 }
  { s with mem := { s.mem with gmap := (span 0 (w + s.mem.eastGib)).map (fun g => (g, some (entry g))) } }

/-- A register without the values of its ST fields. -/
def dropSt (k v : Nat) : Option (Nat × Nat) :=
  match regOfKey k with
  | none => none
  | some r =>
    let w := (regSpec r.name).fields.foldl (fun w f => if f.acc = .st then setBitsOf w f.hi f.lo f.rst else w) v
    if w = regReset r then none else some (k, w)

/-- The hub applies the power-on values of the configuration and of the granule map, and no content is retained (R661). -/
def dropConfig (s : State) : State :=
  let s := { s with regs := s.regs.filterMap (fun p => dropSt p.1 p.2)
                    work := { s.work with parts := [], zeroing := [] }
                    dict := { s.dict with vals := [] } }
  let s := (span 0 8).foldl (fun s h => putStack s h { stackOf s h with retained := false }) s
  hbmUndefined (firstMap s)

/-- Hard repair (R368): the repaired rows of the health record are fused. -/
def hardRepair (s : State) (h : Nat) : State :=
  let x := stackOf s h
  putStack s h { x with fused := x.fused + x.unfused.length, unfused := [] }

/-- The level of the memory test (R644, R648, R658): 0 RETAIN, 1 QUICK, 2 FULL; and whether every stack runs it. -/
def testLevel (s : State) : Nat × Bool :=
  if s.bring.path = 1 then (if s.bring.bootQuick then 1 else 2, true)
  else match s.bring.interrupted with
    | some n => (n, true)
    | none =>
      let a := objVal s 0x7010 1 0
      if a ≠ 0 then (a, true)
      else (b2n ((span 0 8).any (fun h => (stackOf s h).inService && !(stackOf s h).retained)), false)

/-- HBM_INIT (R345 to R347, R353, R368, R371, R372, R640, R658, R661): stage 0x06 ends. `caps` are the capacities that the stacks
report, by CAP; `failed` the stacks that fail initialization; `late` those that did not reach self-refresh in time. -/
def execHbmInit (t : Nat) (caps : List Nat) (failed late : BitVec 8) (s : State) : Res :=
  if caps.length ≠ 8 ∨ caps.any (fun c => decide (4 < c)) then illFormed
  else if !stageOpen s 6 then notDue s
  else
    let s0 := s
    let s := advance s t
    let full := s.bring.path == 1
    let on := (span 0 8).filter (stackLicensed s)
    let cap (h : Nat) : Nat := if full then caps[h]?.getD 0 else (stackOf s h).cap
    let bad := failed.toNat
    -- every populated stack reports its capacity at power-on reset, licensed or not (R5, R346)
    let there := (span 0 8).filter (fun h => caps[h]?.getD 0 != 0)
    let first := match there with | h :: _ => cap h | [] => 0
    let differ := maskOf 8 (fun h => there.contains h && cap h != first)
    if full ∧ on.any (fun h => caps[h]?.getD 0 == 0) then notDue s0
    else if full ∧ differ ≠ 0 then ok (stageFatal s 6 0x0601 differ)
    else
      let before := maskOf 8 (fun h => (stackOf s h).selfRefresh)
      let s := if full then there.foldl (fun s h => putStack s h { stackOf s h with cap := cap h }) s else s
      let s := on.foldl (fun s h =>
        let x := stackOf s h
        putStack s h { x with cap := cap h, inService := true, selfRefresh := false,
                              retained := !full && x.selfRefresh && !bitOf late.toNat h && s.bring.interrupted.isNone }) s
      let out := maskOf 8 (fun h => on.contains h && bitOf (pairMask bad) h)
      let s := stacksOut s out
      let s := if full then on.foldl hardRepair s else s
      match emptyHalf s with
      | some k => ok (stageFatal s 6 0x0603 k)
      | none =>
        let s := if full then hbmUndefined (firstMap s)
          else if serviceMask s ≠ before ∨ s.bring.lostStack then dropConfig s
          else s
        let s := putBring s { s.bring with level := (testLevel s).1 }
        ok (stageEnd s 6 (if out ≠ 0 then [(0x0602, out)] else []))

/-! ### The memory test -/

/-- A row that failed a check (R367, R369, R647): repaired where `good`, else retired; false where the health record filled. -/
def testRow (s : State) (h : Nat) (r : HbmRow) (good : Bool) : State × Bool :=
  let s := logEvent s 0x0EE3 h 2 ((placeHa s h r 0).getD 0)
  let x := stackOf s h
  if good then
    let s := putStack s h { x with unfused := x.unfused ++ [r], sparesUsed := smMod 0 x.sparesUsed (16 * r.pc + r.bank) (· + 1) }
    let s := regSetBits s ⟨.hbcRepairStatus, h, 0⟩ 20 10 (satAdd 11 (regBits s ⟨.hbcRepairStatus, h, 0⟩ 20 10) 1)
    (setStatus s ⟨.hbcIntStatus, h, 0⟩ 2 h 0, true)
  else if x.retired.length < 1024 then
    let s := setStatus (putStack s h { x with retired := x.retired ++ [r] }) ⟨.hbcIntStatus, h, 0⟩ 3 h 0
    (s, decide (x.retired.length + 1 < 1024))
  else (setStatus (putStack s h { x with retireFull := true }) ⟨.hbcIntStatus, h, 0⟩ 4 h 0, false)

/-- The rows of a test in order: how many were retired, and the stacks whose record filled. -/
def testRows (s : State) (rows : List (Nat × Nat × Nat × Nat × Bool)) : State × Nat × Nat :=
  rows.foldl (fun (a : State × Nat × Nat) e =>
    let (h, pc, bank, row, good) := e
    let (s, fits) := testRow a.1 h { pc := pc, bank := bank, row := row } good
    (s, a.2.1 + b2n (!good), if fits then a.2.2 else setBitOf a.2.2 h true)) (s, 0, 0)

/-- Zeros stand in every sector of the stacks of a mask, with valid codes (R645 phase D, R647). A granule whose content is not defined
stays so where only some of its stacks are tested. -/
def clearStacks (s : State) (m : Nat) : State :=
  if serviceMask s = Nat.land m (serviceMask s) then putHbm s {}
  else
    let tested (a : Nat) : Bool := match hbmPlace s a with | some (h, _) => bitOf m h | none => false
    let x := hbm s
    putHbm s { x with cells := x.cells.filter (fun c => !tested c.1)
                      poison := x.poison.filter (fun k => !tested (64 * k)) }

/-- Operands of a row of the test keep to R345. -/
def testRowBad (e : Nat × Nat × Nat × Nat × Bool) : Bool := decide (8 ≤ e.1) || decide (64 ≤ e.2.1) || decide (16 ≤ e.2.2.1)

/-- MEMTEST (R643 to R648, R658): stage 0x07 ends. `rows` are the rows in which a sector failed a check, in order: stack,
pseudo-channel, bank, row, and whether a spare row passed in its place. -/
def execMemtest (t : Nat) (rows : List (Nat × Nat × Nat × Nat × Bool)) (s : State) : Res :=
  let (level, all) := testLevel s
  let ran (h : Nat) : Bool := (stackOf s h).inService && level != 0 && (all || !(stackOf s h).retained)
  if rows.any testRowBad then illFormed
  else if !stageOpen s 7 || rows.any (fun e => !ran e.1 || decide (rowsOf (stackOf s e.1).cap ≤ e.2.2.2.1)) then notDue s
  else
    let tested := maskOf 8 ran
    let (s, lost, filled) := testRows (advance s t) rows
    let s := clearStacks s tested
    let out := Nat.land (pairMask filled) (serviceMask s)
    let s := if out = 0 then s else stacksOut s out
    match emptyHalf s with
    | some k => ok (stageFatal s 7 0x0603 k)
    | none =>
      let s := if out = 0 then s else if s.bring.path = 1 then firstMap s else putHbm (dropConfig s) {}
      let s := putBring s { s.bring with lastTest := if level = 0 then s.bring.lastTest else level, level := 0, interrupted := none }
      ok (stageEnd s 7 ((if lost = 0 then [] else [(0x0701, lost)]) ++ (if out = 0 then [] else [(0x0702, out)]) ++
        (if all || tested == 0 then [] else [(0x0703, tested)])))

/-! ### Engines and sites -/

/-- ENGINES (R175, R176, R640): stage 0x09 ends; `cols` are the columns that failed, engine and physical column. -/
def execEngines (t : Nat) (cols : List (Nat × Nat)) (s : State) : Res :=
  if cols.any (fun c => decide (8 ≤ c.1) || decide (512 ≤ c.2)) then illFormed
  else if !stageOpen s 9 then notDue s
  else
    let s := cols.foldl (fun s c => if (engine s c.1).outOfService then s else match remapColumn s c.1 c.2 with
      | some s => s
      | none => engineOut s c.1) (advance s t)
    let out := maskOf 8 (fun e => (engine s e).outOfService)
    okT (stageEnd s 9 (if out = 0 then [] else [(0x0901, out)]))

/-- The site map takes what the sites hold now, and Customs measures it (R461, R630). -/
def recordMap (s : State) : State :=
  (span 0 8).foldl (fun s k =>
    let x := site s k
    let f := fieldOf x.desc
    let m : Option SiteMap := if x.present then some { serial := f 8 8, maker := f 0 2, role := f 3 1, modules := f 4 1 } else none
    let s := modSite s k (fun x => { x with ref := m })
    putCus s { s.cus with measured := smSet 0 s.cus.measured k (if x.present then f 0x18 8 else 0) }) s

/-- SITES (R457, R460, R461, R640, R651): stage 0x0A ends, once no module awaits a descriptor. -/
def execSites (t : Nat) (s : State) : Res :=
  if !stageOpen s 10 || (span 0 8).any (fun k => (span 0 4).any (fun m => (moduleOf s k m).asked)) then notDue s
  else
    let s := advance s t
    let s := if s.bring.path = 2 then putBring s { s.bring with restored := (span 0 8).map (fun k => (site s k).ref) } else s
    let s := recordMap s
    let bad := maskOf 8 (fun k => (site s k).refused || (site s k).identFail)
    ok (stageEnd s 10 (if bad = 0 then [] else [(0x0A01, bad)]))

/-! ### Mark 0 -/

/-- START (R640, R651 to R653): mark 0 is set 100 µs after the last stage ended. No domain has a member before it. -/
def execStart (s : State) : Res :=
  if !stageOpen s 11 || s.stage.nextMark != 0 then notDue s
  else
    ok { s with stage := { s.stage with nextMark := (stageRec s 11).start + 100000 } }

/-- On the fast path, a site whose chiplet differs from the restored site map in serial or modules (R652). -/
def siteDiffers (s : State) (k : Nat) : Bool :=
  match s.bring.restored[k]? with
  | none => false
  | some old => old.map (fun m => (m.serial, m.modules)) != (site s k).ref.map (fun m => (m.serial, m.modules))

/-- The domains at mark 0 (R652). -/
def domainsZero (s : State) : State :=
  let s := layMembers (recordMap s)
  (span 0 4).foldl (fun s d =>
    let x := domain s d
    let plan := objVal s 0x7020 (d + 1) (if d = 0 then 0xFF else 0)
    if (span 0 8).any (fun k => bitOf plan k && siteDiffers s k) then
      setStatus (putDomain s d { x with st := .failed }) ⟨.sriDirIntStatus, 0, 0⟩ 2 d 0
    else putDomain s d { x with st := if x.sites = 0 then .unused else .up }) s

/-- Every function present is ready (R653). -/
def setReady (s : State) : State :=
  ((span 0 13).filter (fnPresent s)).foldl (fun s fn =>
    setStatus (modFn s fn (fun h => { h with ready := true })) ⟨.hpfIntStatus, fn, 0⟩ 0 fn 0) s

/-- Mark 0 (R47, R50, R603, R652, R653, R677), in the order of R54's actions. A unit without the ARM message for mark 0 fires at the
instant of R653 and sets ARM_MISS as at any mark (DEDUCED, log 133). -/
def markZero (s : State) (skew : Nat) (eyes : List Nat) : State :=
  let s := { s with stage := { s.stage with number := 0, running := true, markTime := s.stage.nextMark, window := 0 } }
  let s := pairMarkZero (domainsZero (applySets (armMisses s) 0))
  let s := mirrorSnapshot (windowBegin s)
  let s := sendMarks { s with stage := { s.stage with arm := none, armed := [], nextMark := s.stage.markTime + stagePeriod s } }
  let s := rewriteWaybill (applySteps (replan (wakeCores s) eyes))
  let s := putCus s { s.cus with sealed := s.cus.lc == 3 }
  let s := modStage s 11 (fun r => { r with res := .pass, finish := s.stage.hubTime })
  let s := putBring s { s.bring with done := true, progress := 0, eta := 0, lostStack := false }
  let s := logEvent (setReady s) 0x0EE2 0 3 s.bring.path
  let s := pumpHost (slotBoundary s)
  setHealth (skewCheck s skew) (healthNow s)

/-- MARK_ZERO (R653): mark 0 fires. `skew` and `eyes` are as for STAGE_MARK. -/
def execMarkZero (skew : Nat) (eyes : List Nat) (s : State) : Res :=
  if eyes.length ≠ 32 then illFormed
  else if !stageOpen s 11 || s.stage.nextMark == 0 then notDue s
  else okT (markZero (advance s s.stage.nextMark) skew eyes)

/-- HPF_BRINGUP_UPDATE (R655): the hub reports the progress of the current stage, per mille, and the seconds until mark 0. -/
def execHpfBringupUpdate (progress eta : Nat) (s : State) : Res :=
  if 1000 < progress ∨ 16383 < eta then illFormed
  else if s.bring.supply ≠ .released ∨ s.bring.done ∨ s.flt.halted then notDue s
  else ok (putBring s { s.bring with progress := progress, eta := eta })

end Sys2Proof.Machine
end

