-- ==== Sys2Proof/Machine/Pelxel.lean ====
section
/-!
DEFINITION. Pelxel messages (R576 to R590, R597 to R600, R633): accesses to objects and registers over the management bindings and the
mailbox, and the actions that a write starts.
-/
namespace Sys2Proof.Machine

/-! ### Completions (R585) -/

def cOk : Nat := 0
def cBadRequest : Nat := 1
def cNoObject : Nat := 2
def cDenied : Nat := 3
def cBadLength : Nat := 4
def cBadValue : Nat := 5
def cStageFull : Nat := 6
def cBusy : Nat := 7
def cUnsupported : Nat := 8

/-- The end of a request: the state after it, COMPLETION, the payload of the response. -/
abbrev Reply := State × Nat × List Byte

/-- A request that ends with a code other than OK changes nothing (R585). -/
def refuse (s : State) (c : Nat) : Reply := (s, c, [])

/-- The accessor is a management binding. -/
def isMgmt (a : Accessor) : Bool := a == .mI3c || a == .mPcie

/-! ### What Customs answers -/

/-- Why a request is not served at all: a halted hub (R660), the ROM alone (R606), ROM recovery (R621), stopped bring-up (R641), and the
time before stage 0x04 has ended or before READY (R654). -/
def notServed (s : State) (a : Accessor) (cmd index : Nat) : Option Nat :=
  let read := cmd == 1
  if s.flt.halted then (if read && [0x1000, 0x5001, 0x5012, 0x6000].contains index then none else some cDenied)
  else if romOnly s then (if read && [0x1000, 0x6000].contains index then none else some cDenied)
  else if s.cus.recovery then
    (if (read && [0x1000, 0x6000].contains index) || ((cmd == 1 || cmd == 2 || cmd == 4) && index == 0x6040) then none else some cDenied)
  else if a == .customs then none
  else if !stageEnded s 4 then some cBusy
  else if s.bring.stopped then (if read && [0x1000, 0x6000, 0x7000].contains index then none else some cBusy)
  else match a with
    | .d n => if (hostFn s n).ready || read then none else some cBusy
    | _ => none

/-! ### READ and INFO -/

/-- The accessor holds a right on a subindex of the object. -/
def anyRight (a : Accessor) (index : Nat) : Bool :=
  (span 1 0x40).any (fun k => match objSpec index k with | some o => rightOf a index o != .none | none => false)

/-- READ (R577, R578, R584, R588); `room` is the largest payload of a response. -/
def pxlRead (s : State) (a : Accessor) (p : List Byte) (room : Nat) : Reply :=
  let index := fieldOf p 0 2
  let sub := fieldOf p 2 1
  let flags := fieldOf p 3 1
  let off := fieldOf p 4 4
  let len := fieldOf p 8 2
  let answer (ty : Nat) (v : List Byte) : Reply :=
    if v.length < off then refuse s cBadLength
    else
      let n := min (room - 8) (v.length - off)
      let n := if len = 0 then n else min len n
      (s, cOk, toBytes 1 ty ++ [0, 0, 0] ++ toBytes 4 v.length ++ (v.drop off).take n)
  if p.length < 10 ∨ 2 ≤ flags then refuse s cBadRequest
  else if objHighest index = 0 then refuse s cNoObject
  else if sub = 0 then (if anyRight a index then answer 1 (toBytes 1 (objHighest index)) else refuse s cDenied)
  else match objSpec index sub with
    | none => refuse s cNoObject
    | some o =>
      if rightOf a index o = .none then refuse s cDenied
      else
        let now := objBytes s a.num index sub
        answer o.ty.code (if flags = 1 then (stagedValue s a.num index sub).getD now else now)

/-- INFO (R577, R584). -/
def pxlInfo (s : State) (a : Accessor) (p : List Byte) : Reply :=
  let index := fieldOf p 0 2
  let sub := fieldOf p 2 1
  let answer (ty rights size dflt : Nat) : Reply :=
    (s, cOk, toBytes 1 ty ++ toBytes 1 rights ++ [0, 0] ++ toBytes 4 size ++ toBytes 8 dflt)
  if p.length < 3 then refuse s cBadRequest
  else if objHighest index = 0 then refuse s cNoObject
  else if sub = 0 then
    let r (x : Accessor) : Nat := b2n (anyRight x index)
    if anyRight a index then answer 1 (r (.d 0) + 4 * r (.d (Fin.ofNat 9 ((ownObj index).getD 1))) + 16 * r .mI3c) 1 (objHighest index)
    else refuse s cDenied
  else match objSpec index sub with
    | none => refuse s cNoObject
    | some o =>
      if rightOf a index o = .none then refuse s cDenied
      else answer o.ty.code (o.d0.code + 4 * o.dn.code + 16 * o.m.code) o.max o.dflt

/-! ### Staging -/

/-- COMMIT of an accessor's staged set (R588, R589); none while its check runs. -/
def commitSet (s : State) (a tag : Nat) : Option State :=
  if s.dict.checks.any (fun c => c.acc == a) then none
  else
    let x := accOf s a
    let s := putAcc s a { x with result := { res := .checking, tag := tag } }
    some { s with dict := { s.dict with checks := s.dict.checks ++ [{ acc := a, tag := tag, set := x.staged }] } }

/-- DISCARD (R588, R590). -/
def discardSet (s : State) (a tag : Nat) : State :=
  putAcc s a { accOf s a with staged := [], result := { res := .discarded, tag := tag } }

/-- ACTION_COMMIT and ACTION_DISCARD (R588): writes of 0x2F00:01, under the TAG that the accessor wrote. A COMMIT while the accessor's check
runs ends with BUSY (R585). -/
def execActionCommit (a : Accessor) (s : State) : Res := ok ((commitSet s a.num (accOf s a.num).tag).getD s)
def execActionDiscard (a : Accessor) (s : State) : Res := ok (discardSet s a.num (accOf s a.num).tag)

/-- The response of COMMIT (R584, R590). -/
def commitBytes (r : CommitResult) : List Byte :=
  toBytes 1 r.res.code ++ toBytes 1 r.reason.code ++ toBytes 2 r.failIx ++ toBytes 1 r.failSub ++ [0, 0, 0] ++ toBytes 8 r.stage

def pxlCommit (s : State) (a : Accessor) (p : List Byte) : Reply :=
  let tag := fieldOf p 4 4
  if p.length < 8 ∨ fieldOf p 1 3 ≠ 0 then refuse s cBadRequest
  else match fieldOf p 0 1 with
    | 1 => (match commitSet s a.num tag with
      | none => refuse s cBusy
      | some s => (s, cOk, commitBytes (resultOf s a.num)))
    | 2 =>
      let s := discardSet s a.num tag
      (s, cOk, commitBytes (resultOf s a.num))
    | _ => refuse s cBadValue

/-! ### Writes that take effect at once -/

/-- HOST_ENABLE_WRITE (R598): HOST_ENABLE of 1 sets the ring's next position to HOST_HEAD. -/
def hostEnable (s : State) (on : Bool) : State :=
  let c := coll s
  putColl s { c with hostEnable := on, hostPos := if on then c.hostHead else c.hostPos }
def execHostEnableWrite (on : Bool) (s : State) : Res := ok (hostEnable s on)

/-- LOG_DROPS_CLEAR (R599). -/
def clearDrops (s : State) : State := putColl s { coll s with drops := List.replicate 12 0 }
def execLogDropsClear (s : State) : Res := ok (clearDrops s)

/-- BLACK_BOX_CLEAR (R600): FIRST is emptied. -/
def clearBox (s : State) : State := putColl s { coll s with boxFirst := [] }
def execBlackBoxClear (s : State) : Res := ok (clearBox s)

/-- SCRUB_LOSS_CLEAR (R664). -/
def clearLosses (s : State) : State := { s with flt := { s.flt with lost := 0, rescued := 0, losses := [] } }
def execScrubLossClear (s : State) : Res := ok (clearLosses s)

/-- A write names a resource that the licences do not enable (R9): the RESET of a partition, the pair. It ends with DENIED, since R585 has
no LICENCE_DENIED (DESIGN CHOICE, log 134), and changes nothing. -/
def notLicensed (s : State) (index sub : Nat) : Bool :=
  (decide (0x3100 ≤ index) && decide (index < 0x3109) && sub == 16 && !partLicensed s (index - 0x3100)) || (index == 0x5050 && !licRelay s)

/-- RESET of a partition object (R544, R571). -/
def objReset (s : State) (p : Nat) : State :=
  if !partLicensed s p || (part s p).phase == .resetting then s else partitionReset s p

/-- A write of the log control (R598). -/
def writeLogControl (s : State) (sub v : Nat) : State × Nat :=
  let c := coll s
  match sub with
  | 1 => (hostEnable s (v != 0), cOk)
  | 2 => (putColl s { c with hostPrio := v }, cOk)
  | 3 => if c.hostEnable then (s, cDenied) else (putColl s { c with hostBase := v }, cOk)
  | 4 => if c.hostEnable then (s, cDenied) else (putColl s { c with hostLog2 := v }, cOk)
  | 5 => (putColl s { c with hostHead := v }, cOk)
  | 6 => (putColl s { c with mgmtPrio := v }, cOk)
  | 7 => (putColl s { c with coalesceUs := v }, cOk)
  | _ => (putColl s { c with notifyPrio := v }, cOk)

/-- A value that takes effect when its write completes (R577, R586): `b` the value as built so far. -/
def writeAtOnce (s : State) (a index sub : Nat) (b : List Byte) : State × Nat :=
  let v := ofBytes b
  let act (f : State → State) : State × Nat := (if v = 1 then f s else s, cOk)
  match index, sub with
  | 0x2F00, 1 =>
    if v = 2 then (discardSet s a (accOf s a).tag, cOk)
    else (match commitSet s a (accOf s a).tag with | some s => (s, cOk) | none => (s, cBusy))
  | 0x2F00, 2 => (putAcc s a { accOf s a with tag := v }, cOk)
  | 0x5010, k => writeLogControl s k v
  | 0x5011, 13 => act clearDrops
  | 0x5012, 4 => act clearBox
  | 0x5030, 4 => act clearLosses
  | 0x5041, 5 => act (fun s => { s with age := { s.age with replanDue := true } })
  | 0x5050, 2 => (pairRequest s v, cOk)
  | 0x6002, 1 => (submitToken s b true, cOk)
  | 0x6011, 1 => (enrol s b, cOk)
  | 0x6020, 8 => (svnAdvance s v, cOk)
  | 0x6040, 1 => (match flashStart s v with | some s => (s, cOk) | none => (s, cBusy))
  | 0x6040, 2 => (putCus s { s.cus with addr := v }, cOk)
  | 0x6040, 3 => (putCus s { s.cus with data := b }, cOk)
  | 0x7030, 1 => (warmReset s false, cOk)
  | i, k =>
    if 0x3000 ≤ i ∧ i < 0x3004 then
      let d := i - 0x3000
      if k = 2 then act (fun s => domainDown s d 7 0)
      else act (fun s => match (domain s d).st with
        | .unused => s
        | .recovering => s
        | _ => domainResetBegin s d)
    else if 0x3100 ≤ i ∧ i < 0x3109 ∧ k = 16 then act (fun s => objReset s (i - 0x3100))
    else if [0x5001, 0x5041, 0x5070, 0x7010].contains i then (keepVal s i k b, cOk)
    else (s, cOk)

/-! ### WRITE -/

/-- The value that a BLOB write builds (R586): at OFFSET 0 a new one; later it extends what was built, without a gap. -/
def buildBlob (built : List Byte) (off : Nat) (data : List Byte) : Option (List Byte) :=
  if off = 0 then some data else if built.length < off then none else some (built.take off ++ data)

/-- The BLOB as built so far: the staged value, DATA of 0x6040, or what an action's writes built. -/
def builtSoFar (s : State) (a index sub : Nat) (staged : Bool) : List Byte :=
  if staged then (stagedValue s a index sub).getD []
  else if index = 0x6040 then s.cus.data
  else smGet [] (accOf s a).built index

/-- A fixed layout's size; a shorter BLOB is filled with zeros. -/
def fixedBlob (index sub : Nat) : Bool :=
  (decide (0x3100 ≤ index) && decide (index < 0x3109) && (sub == 6 || sub == 7)) ||
  (decide (0x4100 ≤ index) && decide (index < 0x4109)) || (decide (0x5060 ≤ index) && decide (index < 0x5069))

/-- In FIELDED, M writes 0x6002, 0x6011 and 0x6040:01 only inside a secured session (R633). -/
def needsSession (s : State) (a : Accessor) (index sub : Nat) : Bool :=
  s.cus.lc == 3 && isMgmt a && (index == 0x6002 || index == 0x6011 || (index == 0x6040 && sub == 1))

/-- The value goes where the right says: into the staged set, or into effect. -/
def writeValue (s : State) (a : Accessor) (index sub : Nat) (o : ObjSpec) (b : List Byte) : Reply :=
  if rightOf a index o = .s then
    match stagePut s a.num (.obj index sub) b with
    | some s => (s, cOk, [])
    | none => refuse s cStageFull
  else
    let s' := if o.ty = .blob then putAcc s a.num { accOf s a.num with built := smSet [] (accOf s a.num).built index b } else s
    match writeAtOnce s' a.num index sub b with
    | (w, 0) => (w, cOk, [])
    | (_, c) => refuse s c

/-- WRITE (R577 to R579, R584, R586, R633). -/
def pxlWrite (s : State) (a : Accessor) (p : List Byte) (secured : Bool) : Reply :=
  let index := fieldOf p 0 2
  let sub := fieldOf p 2 1
  let off := fieldOf p 4 4
  let len := fieldOf p 8 2
  let data := (p.drop 12).take len
  if p.length < 12 + len ∨ fieldOf p 3 1 ≠ 0 ∨ fieldOf p 10 2 ≠ 0 then refuse s cBadRequest
  else if objHighest index = 0 then refuse s cNoObject
  else if sub = 0 then refuse s cDenied
  else match objSpec index sub with
    | none => refuse s cNoObject
    | some o =>
      let right := rightOf a index o
      if (right ≠ .w ∧ right ≠ .s) ∨ (needsSession s a index sub ∧ !secured) ∨ notLicensed s index sub then refuse s cDenied
      else if o.ty = .blob then
        match buildBlob (builtSoFar s a.num index sub (right = .s)) off data with
        | none => refuse s cBadLength
        | some b =>
          if o.max < b.length then refuse s cBadLength
          else writeValue s a index sub o (if fixedBlob index sub then fitBytes o.max b else b)
      else if off ≠ 0 ∨ len ≠ o.max then refuse s cBadLength
      else if (o.ty = .bool ∧ 1 < ofBytes data) ∨ valueBad index sub (ofBytes data) then refuse s cBadValue
      else writeValue s a index sub o data

/-! ### EVENT_GET, REG_READ, REG_WRITE -/

/-- EVENT_GET (R584, R597): entries leave the management queue. -/
def pxlEventGet (s : State) (a : Accessor) (p : List Byte) : Reply :=
  let n := fieldOf p 0 1
  if !isMgmt a then refuse s cUnsupported
  else if p.length < 1 then refuse s cBadRequest
  else if n = 0 ∨ 32 < n then refuse s cBadValue
  else
    let l := (coll s).mgmt.take n
    (putColl s { coll s with mgmt := (coll s).mgmt.drop n }, cOk, toBytes 1 l.length ++ zeroBytes 7 ++ entriesBytes l)

/-- The register that starts at an HA, if the width is its own (R584). -/
def regAtHa (ha width : Nat) : Nat ⊕ Reg :=
  if ha < mmioBase then .inl cNoObject
  else match regAtAperture (ha - mmioBase) with
    | none => .inl cNoObject
    | some (r, i) => if i = 0 ∧ width = regWidth r then .inr r else .inl cBadLength

/-- REG_READ (R584), with the rights of the driver of PF0. -/
def pxlRegRead (s : State) (a : Accessor) (p : List Byte) : Reply :=
  if !isMgmt a then refuse s cUnsupported
  else if p.length < 9 then refuse s cBadRequest
  else match regAtHa (fieldOf p 0 8) (fieldOf p 8 1) with
    | .inl c => refuse s c
    | .inr r =>
      let (v, s) := readReg s r
      (s, cOk, toBytes (regWidth r) v)

/-- REG_WRITE (R584, R588). -/
def pxlRegWrite (s : State) (a : Accessor) (p : List Byte) : Reply :=
  if !isMgmt a then refuse s cUnsupported
  else if p.length < 24 ∨ fieldOf p 9 7 ≠ 0 then refuse s cBadRequest
  else match regAtHa (fieldOf p 0 8) (fieldOf p 8 1) with
    | .inl c => refuse s c
    | .inr r => match writeBlockReg s a.num r (fieldOf p 16 (regWidth r)) with
      | some s => (s, cOk, [])
      | none => refuse s cStageFull

/-! ### Requests -/

/-- A request of an accessor: CMD and payload (R584). -/
def pelxel (s : State) (a : Accessor) (cmd : Nat) (p : List Byte) (secured bad : Bool) (room : Nat) : Reply :=
  match notServed s a cmd (fieldOf p 0 2) with
  | some c => refuse s c
  | none =>
    if bad then refuse s cBadRequest
    else match cmd with
      | 1 => pxlRead s a p room
      | 2 => pxlWrite s a p secured
      | 3 => pxlCommit s a p
      | 4 => pxlInfo s a p
      | 5 => pxlEventGet s a p
      | 7 => pxlRegRead s a p
      | 8 => pxlRegWrite s a p
      | _ => refuse s cUnsupported

/-- The largest payload of a message over MCTP, and in the mailbox (R582, R587). -/
def roomOf (a : Accessor) : Nat := if isMgmt a then 1080 else 4088

/-- The response goes out. -/
def pxlAnswer (a : Accessor) (cmd inst : Nat) (r : Reply) : State := emit r.1 (.pelxel a.num inst cmd r.2.1 r.2.2)

/-- The unanswered requests of a binding (R583). -/
def requests (s : State) (a : Accessor) : List PxlReq := if a = .mI3c then s.dict.reqI3c else s.dict.reqPcie
def putRequests (s : State) (a : Accessor) (l : List PxlReq) : State :=
  { s with dict := if a = .mI3c then { s.dict with reqI3c := l } else { s.dict with reqPcie := l } }

/-- CMD has a command of its own (R584). -/
def knownCmd (cmd : Nat) : Bool := [1, 2, 3, 4, 5, 7, 8].contains cmd

/-- Requests at the front of a binding whose CMD is none of a request's are answered (R585). -/
def answerUnknown (s : State) (a : Accessor) : Nat → State
  | 0 => s
  | n + 1 => match requests s a with
    | q :: l =>
      if knownCmd q.cmd then s
      else answerUnknown (pxlAnswer a q.cmd q.inst (pelxel (putRequests s a l) a q.cmd q.payload q.secured q.bad (roomOf a))) a n
    | [] => s

/-- MCTP_MESSAGE (R582, R583): a message over I3C or PCIe. One that is no Pelxel request is discarded; a ninth unanswered request is
answered BUSY. Before power-on reset is released nothing arrives. -/
def execMctpMessage (pcie : Bool) (message : List (BitVec 8)) (secured : Bool) (s : State) : Res :=
  let a : Accessor := if pcie then .mPcie else .mI3c
  let f := fieldOf message
  if 1088 < message.length then illFormed
  else if s.bring.supply ≠ .released ∨ (pcie ∧ !linkTrained s s.host.controlLink) then notDue s
  else if message.length < 8 ∨ f 0 1 ≠ 0x7E ∨ f 1 1 ≠ 0x1F ∨ f 2 1 ≠ 0x7A ∨ f 5 1 < 128 then ok s
  else
    let cmd := f 4 1
    let inst := f 5 1 % 32
    let s := putColl s { coll s with lastBinding := some a }
    if 8 ≤ (requests s a).length then ok (emit s (.pelxel a.num inst cmd cBusy []))
    else
      let bad := f 3 1 != 1 || f 5 1 / 32 % 4 != 0 || f 6 1 != 0 || f 7 1 != 0
      let q : PxlReq := { cmd := cmd, inst := inst, payload := message.drop 8, secured := secured, bad := bad }
      okT (answerUnknown (putRequests s a (requests s a ++ [q])) a 1)

/-- A request runs. One of a management binding is the binding's oldest; the requests of the mailboxes come with MAILBOX_GO, and those of a
function's driver stand here for the same access. -/
def runRequest (a : Accessor) (cmd : Nat) (inst : Fin 32) (payload : List Byte) (secured : Bool) (s : State) : Res :=
  if roomOf a < payload.length then illFormed
  else if s.bring.supply ≠ .released then notDue s
  else if isMgmt a then
    match requests s a with
    | q :: l =>
      if q.cmd = cmd ∧ q.inst = inst ∧ q.payload = payload ∧ q.secured = secured then
        okT (answerUnknown (pxlAnswer a cmd inst (pelxel (putRequests s a l) a cmd payload secured q.bad (roomOf a))) a 8)
      else notDue s
    | [] => notDue s
  else okT (pxlAnswer a cmd inst (pelxel s a cmd payload false false (roomOf a)))

/-- READ, WRITE, COMMIT, INFO, EVENT_GET, REG_READ, REG_WRITE (R584). -/
def execRead (a : Accessor) (inst : Fin 32) (payload : List (BitVec 8)) (secured : Bool) (s : State) : Res := runRequest a 1 inst payload secured s
def execWrite (a : Accessor) (inst : Fin 32) (payload : List (BitVec 8)) (secured : Bool) (s : State) : Res := runRequest a 2 inst payload secured s
def execCommit (a : Accessor) (inst : Fin 32) (payload : List (BitVec 8)) (secured : Bool) (s : State) : Res := runRequest a 3 inst payload secured s
def execInfo (a : Accessor) (inst : Fin 32) (payload : List (BitVec 8)) (secured : Bool) (s : State) : Res := runRequest a 4 inst payload secured s
def execEventGet (a : Accessor) (inst : Fin 32) (payload : List (BitVec 8)) (secured : Bool) (s : State) : Res := runRequest a 5 inst payload secured s
def execRegRead (a : Accessor) (inst : Fin 32) (payload : List (BitVec 8)) (secured : Bool) (s : State) : Res := runRequest a 7 inst payload secured s
def execRegWrite (a : Accessor) (inst : Fin 32) (payload : List (BitVec 8)) (secured : Bool) (s : State) : Res := runRequest a 8 inst payload secured s

/-! ### The mailbox -/

/-- The response stands in HPF_MBX_RSP: DONE sets, and vector 2 is raised (R587). -/
def mailboxEnd (s : State) (fn : Nat) (b : List Byte) : State :=
  let s := modFn s fn (fun h => { h with mbxRsp := ((span 0 b.length).zip b).foldl (fun m p => smSet 0 m p.1 p.2) h.mbxRsp })
  let s := regSetBits s ⟨.hpfMbxLen, fn, 0⟩ 31 16 b.length
  raiseVector (regSetBits s ⟨.hpfMbxStatus, fn, 0⟩ 1 1 1) fn 2

/-- A write of GO (R576, R587, R654). -/
def mailboxGo (s : State) (fn : Nat) : State :=
  let len := regBits s ⟨.hpfMbxLen, fn, 0⟩ 15 0
  let byte (k : Nat) : Byte := smGet 0 (hostFn s fn).mbxReq k
  let cmd := (byte 4).toNat
  let inst := (byte 5).toNat % 32
  let head (c : Nat) : List Byte := [0x7E, 0x1F, 0x7A, 1, byte 4, BitVec.ofNat 8 ((byte 5).toNat % 128), BitVec.ofNat 8 c, 0]
  if len < 8 ∨ 4096 < len ∨ (byte 5).toNat < 128 then mailboxEnd s fn (head cBadRequest)
  else
    let bad := byte 3 != 1 || (byte 5).toNat / 32 % 4 != 0 || byte 6 != 0 || byte 7 != 0
    let a : Accessor := .d (Fin.ofNat 9 fn)
    let r := pelxel s a cmd ((span 8 (len - 8)).map byte) false bad 4088
    mailboxEnd r.1 fn ([0x7E, 0x1F, 0x7A, 1, byte 4, BitVec.ofNat 8 inst, BitVec.ofNat 8 r.2.1, 0] ++ r.2.2)

/-- MAILBOX_GO (R587): 1 is written to GO of a function's mailbox. The request runs within the command, so that BUSY is never seen set. A
function that does not answer memory requests takes no write. -/
def execMailboxGo (fn : Fin 9) (s : State) : Res :=
  if fnPresent s fn && fnOpen s fn then okT (mailboxGo s fn) else ok s

end Sys2Proof.Machine
end

