-- ==== Sys2Proof/Machine/Bar0.lean ====
section
/-!
DEFINITION. BAR0 of the functions and its copies (R475, R500, R502 to R506, R509, R510, R532, R537 to R541, R550, R555, R564, R587, R654):
reads, writes, configuration space, IO_RD and IO_WR.
-/
namespace Sys2Proof.Machine

/-! ### Places in BAR0 (R506) -/

def apertureOff : Nat := 0x50_0000
def inAperture (off : Nat) : Bool := decide (apertureOff ≤ off) && decide (off < 0x80_0000)
def inWaybill (off : Nat) : Bool := decide (0x1_0000 ≤ off) && decide (off < 0x2_0000)
def inMailbox (off : Nat) : Bool := decide (0x2_0000 ≤ off) && decide (off < 0x3_0000)
def inMsix (off : Nat) : Bool := decide (0x4_0000 ≤ off) && decide (off < 0x4_8000)
def inPba (off : Nat) : Bool := decide (0x4_8000 ≤ off) && decide (off < 0x4_8100)
def inSlots (off : Nat) : Bool := decide (0x80_0000 ≤ off) && decide (off < 0x100_0000)

/-- The register of a function at an offset, with the offset of the byte in it. -/
def hpfAt (fn off : Nat) : Option (Reg × Nat) := (regInBlock .hpf fn off).map (fun r => (r, off - regOffset r))

/-- A function that is not READY answers at these offsets (R654): the registers that R654 names, the Waybill, the mailbox, MSI-X. -/
def openEarly (off : Nat) : Bool :=
  inWaybill off || inMailbox off || inMsix off || inPba off || decide (off < 0x0C) || (decide (0x30 ≤ off) && decide (off < 0x38))

/-- A PF0 view has its function control region, the Waybill copy and MSI-X (R500). -/
def openView (off : Nat) : Bool := decide (off < 0x2_0000) || inMsix off || inPba off

/-- The offset holds something that the function answers now. -/
def openAt (s : State) (fn off : Nat) : Bool :=
  (decide (fn < 9) || openView off) && ((hostFn s fn).ready || openEarly off)

/-! ### Reads -/

/-- A slot as the read window shows it (R564). -/
def slotView (s : State) (fn k : Nat) : List Byte :=
  if slotPart s k ≠ some fn then zeroBytes 16
  else match slotAt s k with
    | .free => zeroBytes 16
    | .tally v _ => toBytes 4 v ++ [1] ++ zeroBytes 11
    | .sealObj p st src c _ => toBytes 1 st ++ toBytes 1 src ++ toBytes 2 p ++ [2, 0, 0, 0] ++ toBytes 8 c

/-- The bytes of an MSI-X table entry. -/
def MsixEntry.bytes (e : MsixEntry) : List Byte := toBytes 8 e.addr ++ toBytes 4 e.data ++ toBytes 4 (b2n e.masked)
def msixOf (b : List Byte) : MsixEntry := { addr := fieldOf b 0 8, data := fieldOf b 8 4, masked := fieldOf b 12 1 % 2 == 1 }

/-- A byte of BAR0 outside the register aperture; `copy` for the copy that chiplets reach, where the MSI-X table and PBA read 0 (R510). -/
def bar0Byte (s : State) (way : List Byte) (fn : Nat) (copy : Bool) (off : Nat) : Byte :=
  let h := hostFn s fn
  if !openAt s fn off then 0
  else if inWaybill off then listGet 0 way (off - 0x1_0000)
  else if 0x2_1000 ≤ off ∧ off < 0x2_2000 then smGet 0 h.mbxReq (off - 0x2_1000)
  else if 0x2_2000 ≤ off ∧ off < 0x2_3000 then smGet 0 h.mbxRsp (off - 0x2_2000)
  else if inMsix off then
    (if copy then 0 else listGet 0 (smGet {} h.msixTable ((off - 0x4_0000) / 16)).bytes (off % 16))
  else if inPba off then
    (if copy then 0 else BitVec.ofNat 8 (maskOf 8 (fun b => h.pba.contains (8 * (off - 0x4_8000) + b))))
  else if inSlots off then listGet 0 (slotView s fn ((off - 0x80_0000) / 128)) (off % 128)
  else match hpfAt fn off with
    | some (r, i) => BitVec.ofNat 8 (regValue s r / 256 ^ i)
    | none => 0

/-- The function's registers that a read touches. -/
def hpfRegs (s : State) (fn off n : Nat) : List Reg :=
  ((span off n).filterMap (fun o => if openAt s fn o then (hpfAt fn o).map (fun p => p.1) else none)).eraseDups

/-- A read of BAR0 (R506): counters that it touches clear (R12). A read that begins in the register aperture is one of the aperture
(R509). -/
def bar0Read (s : State) (fn : Nat) (copy : Bool) (off n : Nat) : List Byte × State :=
  if inAperture off then (if openAt s fn off then readAperture s fn (off - apertureOff) n else (zeroBytes n, s))
  else
    let way := if inWaybill off then waybillBytes s else []
    ((span off n).map (bar0Byte s way fn copy), (hpfRegs s fn off n).foldl clearRc s)

/-! ### Writes -/

/-- The state after a command's effect, unchanged where it has none. -/
def after (s : State) (r : Res) : State := match r with | .next s => s | _ => s

/-- A function command (R550 to R552); a reserved OP ends with BAD_COMMAND. -/
def fnCommand (s : State) (fn op : Nat) : State :=
  match op with
  | 1 => after s (execCtxCreate fn s)
  | 2 => after s (execCtxTeardown fn s)
  | 3 => after s (execQueueBind fn s)
  | 4 => after s (execQueueUnbind fn s)
  | 5 => after s (execSlotConfig fn s)
  | 6 => after s (execSlotFree fn s)
  | 7 => after s (execAbort fn s)
  | 8 => after s (execCtxQuery fn s)
  | 9 => after s (execPartQuery fn s)
  | 10 => after s (execPartReset fn s)
  | _ => after s (startCmd s fn op (fun s => cmdEnd s fn 1 0))

/-- A write of a whole register of a function's own (R12, R537 to R541, R550, R555, R587). -/
def writeHpf (s : State) (r : Reg) (v : Nat) : State :=
  let fn := r.inst
  let fields (s : State) : State := (writeFields s fn r v).getD s
  let own (p : PostedOp) : State := post s fn { op := p, ro := false }
  match r.name with
  | .hpfAttach => if v % 4 = 1 then after s (execAdopt fn s) else if v % 4 = 2 then after s (execAttachDiscard fn s) else s
  | .hpfTcInv => if bitOf v 63 then after s (execTcInv fn (bitOf v 61) (v % 2 ^ 20) s) else fields s
  | .hpfFence => own (.fence v)
  | .hpfCmd => if bitOf v 31 then fnCommand s fn (v % 256) else fields s
  | .hpfMbxCtrl => if bitOf v 0 then mailboxGo s fn else s
  | .hpfDbTail => own (.tail r.idx v)
  | .hpfDbEvtHead => own (.evtHead r.idx v)
  | _ => enableWritten (fields s) r v

/-- Bytes written to the MSI-X table; vectors that nothing holds any longer are sent (R512). -/
def writeMsix (s : State) (fn off : Nat) (b : List Byte) : State :=
  let put (h : HostFn) (p : Nat × Byte) : HostFn :=
    let k := (p.1 - 0x4_0000) / 16
    let e := (smGet {} h.msixTable k).bytes
    { h with msixTable := smSet {} h.msixTable k (msixOf (listSet e (p.1 % 16) p.2)) }
  sendPending (modFn s fn (fun h => ((span off b.length).zip b).foldl put h)) fn

/-- Bytes written to HPF_MBX_REQ. -/
def writeMbx (s : State) (fn off : Nat) (b : List Byte) : State :=
  let l := ((span (off - 0x2_1000) b.length).zip b).filter (fun p => decide (p.1 < 4096))
  modFn s fn (fun h => { h with mbxReq := l.foldl (fun m p => smSet 0 m p.1 p.2) h.mbxReq })

/-- A write of BAR0 (R506). Registers that it covers whole are written; one that it covers in part keeps its value. -/
def bar0Write (s : State) (fn : Nat) (copy : Bool) (off : Nat) (b : List Byte) : State :=
  if !openAt s fn off then s
  else if inAperture off then writeAperture s fn (off - apertureOff) b
  else if inMsix off then (if copy then s else writeMsix s fn off b)
  else if 0x2_1000 ≤ off ∧ off < 0x2_2000 then writeMbx s fn off b
  else if inSlots off then
    (if off % 128 = 0 ∧ b.length = 4 then post s fn { op := .tally ((off - 0x80_0000) / 128) (ofBytes b), ro := false } else s)
  else
    let whole (r : Reg) : Bool := decide (off ≤ regOffset r) && decide (regOffset r + regWidth r ≤ off + b.length)
    ((hpfRegs s fn off b.length).filter whole).foldl (fun s r => writeHpf s r (fieldOf b (regOffset r - off) (regWidth r))) s

/-! ### Configuration space -/

/-- IDENT of the DVSEC (R504). -/
def dvsecIdent (s : State) (fn : Nat) : Nat :=
  let v := hpfIdValue s fn
  bitsAt [(0, v % 16), (4, v / 16 % 2), (5, v / 32 % 2), (6, v / 64 % 2), (7, v / 128 % 2)]

/-- Bytes of configuration space that the manual gives (R3, R502 to R505), by place; a BAR reads its base and type. -/
def configRanges (s : State) (fn : Nat) : List (Nat × List Byte) :=
  let h := hostFn s fn
  let base (v log2 ty : Nat) : List Byte := toBytes 8 (v / 2 ^ log2 * 2 ^ log2 + ty)
  let l := fnLinkOf s fn
  let many := (span 1 8).any (fun f => fnPresent s f && fnLinkOf s f == l)
  [(0x00, toBytes 2 0x1F7A), (0x02, toBytes 2 (if fn = 0 ∨ 9 ≤ fn then 0x7700 else 0x7701)),
   (0x04, toBytes 2 (bitsAt [(1, b2n h.mse), (2, b2n h.bme), (8, b2n h.serr), (10, 1)])), (0x06, toBytes 2 0x0010), (0x08, [0x10]),
   (0x09, [0x00, 0x00, 0x12]), (0x0E, [if (fn = 0 ∨ 9 ≤ fn) ∧ many then 0x80 else 0x00]),
   (0x10, base h.bar0 24 4), (0x18, base h.bar2 h.bar2Log2 0xC), (0x20, base h.bar4 h.bar4Log2 0xC),
   (0x2C, toBytes 2 0x1F7A), (0x2E, toBytes 2 s.host.subsystemId), (0x30, zeroBytes 4), (0x34, [0x40]), (0x3D, [0x00]),
   (0x1C4, toBytes 8 s.cus.serial),
   (0x404, toBytes 2 0x1F7A), (0x408, toBytes 2 0x0001), (0x40A, toBytes 2 (dvsecIdent s fn)), (0x40C, toBytes 4 0x1_0000),
   (0x410, toBytes 4 (if 9 ≤ fn then 0 else 0x2_0000)), (0x414, toBytes 4 (hpfStatusValue s fn))]

/-- A byte of configuration space: what the manual gives, else a constant of Config. -/
def configByteOf (s : State) (fn off : Nat) : Byte :=
  match (configRanges s fn).find? (fun p => decide (p.1 ≤ off) && decide (off < p.1 + p.2.length)) with
  | some p => listGet 0 p.2 (off - p.1)
  | none => Config.configByte fn off

/-- What the manual gives of the one function of the relay port in the endpoint role (R534): identity, and BAR0 at the relay bus address
that the root assigns. -/
def relayConfigRanges : List (Nat × List Byte) :=
  [(0x00, toBytes 2 0x1F7A), (0x02, toBytes 2 0x7700), (0x08, [0x10]), (0x09, [0x01, 0x00, 0x12]), (0x10, toBytes 8 (0x200_0000_0000 + 0xC))]

/-- A byte of that function's configuration space: what the manual gives, else a constant of Config, by the number 13. -/
def relayConfigByte (off : Nat) : Byte :=
  match relayConfigRanges.find? (fun p => decide (p.1 ≤ off) && decide (off < p.1 + p.2.length)) with
  | some p => listGet 0 p.2 (off - p.1)
  | none => Config.configByte 13 off

/-! ### The host's commands -/

/-- RC_READ (R12, R502 to R506, R534, R536, R654): the host of a function reads bytes of BAR0 or of its configuration space; a counter
that it reads clears; or the root of the relay reads bytes of the endpoint's configuration space, whichever function the row names. -/
def execRcRead (fn : Fin 13) (p : HostProbe) (s : State) : Res :=
  match p with
  | .relay off len =>
    if len = 0 ∨ 4096 < off + len then illFormed
    else if !s.host.relay.linkUp || !s.host.relay.endpoint || s.flt.halted then notDue s
    else ok (emit s (.relayData ((span off len).map relayConfigByte)))
  | .config off len =>
    if len = 0 ∨ 4096 < off + len then illFormed
    else if !fnUp s fn then notDue s
    else ok (emit s (.hostData fn ((span off len).map (configByteOf s fn))))
  | .bar0 off len =>
    if len = 0 ∨ 64 < len ∨ 0x100_0000 < off + len ∨ 4096 < off % 4096 + len then illFormed
    else if !fnUp s fn then notDue s
    else if !fnOpen s fn then ok (emit s (.hostUnsupported fn))
    else
      let r := bar0Read s fn false off len
      okT (emit r.2 (.hostData fn r.1))

/-- A write that its host can make, in its ranges (R502 to R506). -/
def hostChangeOk : HostChange → Bool
  | .bar0 off b => decide (b.length ≠ 0 ∧ b.length ≤ 64 ∧ off + b.length ≤ 0x100_0000 ∧ off % 4096 + b.length ≤ 4096)
  | .barBase bar _ => bar == 0 || bar == 2 || bar == 4
  | .barSize bar log2 => decide (bar = 2 ∧ 28 ≤ log2 ∧ log2 ≤ 39 ∨ bar = 4 ∧ 30 ≤ log2 ∧ log2 ≤ 42)
  | .command _ _ | .msixControl _ _ | .atsOn | .pasidOn => true

/-- REGISTER_WRITE (R12, R502 to R506, R512, R521, R588, R654): a write of a function's host. -/
def execRegisterWrite (fn : Fin 13) (c : HostChange) (s : State) : Res :=
  if !hostChangeOk c then illFormed
  else if !fnUp s fn then notDue s
  else match c with
    | .bar0 off b => if !fnOpen s fn then ok s else okT (bar0Write s fn false off b)
    | .command mse serr => ok (modFn s fn (fun h => { h with mse := mse, serr := serr }))
    | .barBase bar base =>
      match bar with
      | 0 => ok (modFn s fn (fun h => { h with bar0 := base % 2 ^ 64 }))
      | 2 => ok (modFn s fn (fun h => { h with bar2 := base % 2 ^ 64 }))
      | _ => ok (modFn s fn (fun h => { h with bar4 := base % 2 ^ 64 }))
    | .barSize bar log2 =>
      ok (modFn s fn (fun h => if bar = 2 then { h with bar2Log2 := log2 } else { h with bar4Log2 := log2 }))
    | .msixControl enable mask => ok (sendPending (modFn s fn (fun h => { h with msixEnable := enable, msixMask := mask })) fn)
    | .atsOn => okT (pumpHost (modFn s fn (fun h => { h with atsEnable := true })))
    | .pasidOn => okT (pumpHost (modFn s fn (fun h => { h with pasidEnable := true })))

/-! ### IO_RD and IO_WR -/

/-- Bytes of an access by SZ (R475). -/
def ioBytes (sz : Nat) : Nat := match sz with | 0 => 4 | 1 => 8 | 2 => 16 | _ => 64
/-- Data slots of an access of that size. -/
def ioSlots (sz : Nat) : Nat := if sz = 3 then 4 else 1

/-- What an IO address names (R475, R509, R510, R532). -/
inductive IoPlace where
  | waybill (off : Nat)
  | copy (fn off : Nat)
  | block (k : Nat)
  | fault
  deriving DecidableEq, Repr

/-- The chiplet is the processor chiplet at DRIVER_SITE under MODE 1 (R532). -/
def isDriverSite (s : State) (q : Nat) : Bool :=
  wayMode s == 1 && decide (chipSite s (objVal s 0x2010 2 0) = q) && bitOf (fieldOf (site s q).desc 6 1) 1

/-- The place of an access of `n` bytes of the chiplet at site `q` (R475, R532): only a processor chiplet reaches any. -/
def ioPlace (s : State) (q ha n : Nat) : IoPlace :=
  let copyBase := 0xF_FF10_0000_0000
  if fieldOf (site s q).desc 3 1 ≠ 0 then .fault
  else if waybillBase ≤ ha ∧ ha + n ≤ waybillBase + 0x1_0000 then .waybill (ha - waybillBase)
  else if mmioBase ≤ ha ∧ ha + n ≤ mmioBase + 0x30_0000 ∧ isDriverSite s q then .block (ha - mmioBase)
  else if copyBase ≤ ha ∧ ha + n ≤ copyBase + 9 * 0x0100_0000 then
    let fn := (ha - copyBase) / 0x0100_0000
    let off := (ha - copyBase) % 0x0100_0000
    let mine : Bool := match siteDomain s q with | some d => bitOf (domain s d).parts fn | none => false
    if (fn == 0 && isDriverSite s q) || (mine && !inAperture off) then (if fnPresent s fn then .copy fn off else .fault) else .fault
  else .fault

/-- A request of class 1 (R471, R475): refused, or charged to its toll (R72) and taken; the reply ends it. -/
def ioRequest (k : Fin 8) (m : Fin 4) (h : Header) (op : Nat) (slots : Nat) (go : State → Nat → Nat → Res) (s : State) : Res :=
  let n := ioBytes (hSize h)
  if !isMessage h 1 op then illFormed
  else if !canReceive s k m || !creditsFor s (chipSite s k) slots then notDue s
  else
    let s1 := received s k
    let q := chipSite s k
    if malformedHdr s1 k h slots n then okT (refuseMalformed s1 k h slots)
    else if ioPlace s1 q (hAddr h) n = .fault then okT (refuseAddress s1 k h slots)
    else match gateCls s (.chiplet q (hTag h)) (hAddr h / 128) (hInit h) (initPart s (hInit h)) (hToll h) n with
      | (g, false) => ok g
      | (g, true) => go (takeRequest { s1 with stage := g.stage } h slots) q n

/-- IO_RD (R475). -/
def execIoRd (k : Fin 8) (m : Fin 4) (h : BitVec 128) (s : State) : Res :=
  ioRequest k m h 1 0 (fun s q n =>
    let answer (r : List Byte × State) : Res :=
      okT (sendReply r.2 k 1 0x60 (hTag h) (hInit h) 0 0 0 (fitBytes (16 * ioSlots (hSize h)) r.1))
    match ioPlace s q (hAddr h) n with
    | .waybill off => answer (((waybillBytes s).drop off).take n, s)
    | .copy fn off => answer (bar0Read s fn true off n)
    | .block b => answer (readAperture s 0 b n)
    | .fault => okT (sendReply s k 1 0x61 (hTag h) (hInit h) Status.translationFault.code 0 0 [])) s

/-- IO_WR (R475): the bytes stand at the low end of its data. -/
def execIoWr (k : Fin 8) (m : Fin 4) (h : BitVec 128) (data : List (BitVec 8)) (s : State) : Res :=
  if data.length ≠ 16 * ioSlots (hSize h) then illFormed
  else ioRequest k m h 2 (ioSlots (hSize h)) (fun s q n =>
    let s := returnCredit s (hInit h / 64) (ioSlots (hSize h)) 0 0
    let reply (s : State) (st : Nat) : Res := okT (sendReply s k 1 0x61 (hTag h) (hInit h) st 0 0 [])
    match ioPlace s q (hAddr h) n with
    | .waybill _ => reply s 0
    | .copy fn off => reply (bar0Write s fn true off (data.take n)) 0
    | .block b => reply (writeAperture s 0 b (data.take n)) 0
    | .fault => reply s Status.translationFault.code) s

end Sys2Proof.Machine
end

