-- ==== Sys2Proof/WellFormed.lean ====
section
/-!
DEFINITION. Which commands are well formed: operands within the ranges that the manual gives them, data of the length that the operands
say. A command that is not well formed is none that the hub can be given. What depends on the state stands in the meanings.
-/
namespace Sys2Proof

open Machine (isMessage hSize ioSlots isHbm windowReq roomOf placeOccurs)

/-- The header of an EHP message has the class and opcode of the command's row (R471, R472). -/
def headerOf (h : BitVec 128) (cls op : Nat) : Bool := isMessage h cls op

/-- A write of a function's host (R502 to R505). -/
def HostChange.wellFormed (c : HostChange) : Bool := Machine.hostChangeOk c

/-- A read of a function's host. -/
def HostProbe.wellFormed : HostProbe → Bool
  | .config off len | .relay off len => decide (len ≠ 0 ∧ off + len ≤ 4096)
  | .bar0 off len => decide (len ≠ 0 ∧ len ≤ 64 ∧ off + len ≤ 0x100_0000 ∧ off % 4096 + len ≤ 4096)

/-- What MSI-X unmasks: a vector below 2,048 (R512). -/
def MsixChange.wellFormed : MsixChange → Bool
  | .vector v => decide (v < 2048)
  | .enable | .function => true

/-- The commands whose operands lie within their ranges. A constructor with no condition has operands whose types bound them. -/
def Instr.wellFormed : Instr → Bool
  | .perstAssert port | .perstDeassert port | .hostRefclkLoss port => decide (port < 2)
  | .hotReset l | .hostLinkUp l => decide (l < 4)
  | .flr fn | .flrComplete fn | .d3hotEntry fn | .d0Entry fn | .bmeClear fn | .bmeSet fn | .adopt fn | .attachDiscard fn
  | .pull fn | .fenceRead fn | .tcInvComplete fn => decide (fn < 13)
  | .ctxCreate fn | .ctxTeardown fn | .queueBind fn | .queueUnbind fn | .slotConfig fn | .slotFree fn | .abort fn
  | .ctxQuery fn | .partQuery fn | .partReset fn => decide (fn < 13)
  | .partitionResetDone p => decide (p < 9)
  | .msixUnmask fn c => decide (fn < 13) && c.wellFormed
  | .tcInv fn _ pasid => decide (fn < 13 ∧ pasid < 2 ^ 20)
  | .hostRead fn bar off len => decide (fn < 13) && windowReq bar off len
  | .hostWrite fn bar off b _ => decide (fn < 13) && windowReq bar off b.length && decide (b.length ≤ 512)
  | .fenceWrite fn seq => decide (fn < 13 ∧ seq < 2 ^ 32)
  | .doorbellTailWrite fn page v | .evtHeadWrite fn page v => decide (fn < 13 ∧ page < 1024 ∧ v < 2 ^ 32)
  | .tallyWindowAdd fn slot v => decide (fn < 13 ∧ slot < 65536 ∧ v < 2 ^ 32)
  | .apertureAccess fn k n data =>
    let len := match data with | some b => b.length | none => n
    decide (fn < 13 ∧ len ≠ 0 ∧ len ≤ 64 ∧ k + len ≤ 0x300000)
  | .atsInvalidationRequest fn itag _ pasid _ log2 => decide (fn < 9 ∧ itag < 32 ∧ pasid < 2 ^ 20 ∧ 12 ≤ log2 ∧ log2 ≤ 64)
  | .atsInvalidationCompletion fn itag => decide (fn < 9 ∧ itag < 32)
  | .atsEnableClear fn _ => decide (fn < 9)
  | .translationCompletion fn pasid _ ans =>
    decide (fn < 9 ∧ pasid < 2 ^ 20) && (match ans with | some a => decide (12 ≤ a.log2 ∧ a.log2 ≤ 64) | none => true)
  | .hostReadCompletion port tag _ | .hostCompletionTimeout port tag => decide (port < 2 ∧ tag < 4096)
  | .relayWrite off data posted =>
    match data with | none => true | some b => decide (b.length ≠ 0 ∧ b.length ≤ 4096 ∧ off + b.length ≤ 2 ^ 32) && posted
  | .stageMark _ eyes _ | .markZero _ eyes => decide (eyes.length = 32)
  | .ageingMeasure d slack => decide (d.length = 184) && slack.all (fun k => decide (k < 184))
  | .clocks _ pll router d slack =>
    decide (d.length = 184) && slack.all (fun k => decide (k < 184)) && pll.all (fun u => decide (u < 188)) &&
      router.all (fun r => decide (r < 160))
  | .tempSample tiles hot => decide (tiles.length = 160 ∧ hot.length = 8)
  | .avsCurrentRead amps => decide (amps < 2 ^ 16)
  | .serai _ rows => rows.all (fun r => decide (r.1 < 160 ∧ r.2 < 16))
  | .hbmInit _ caps _ _ => decide (caps.length = 8) && caps.all (fun c => decide (c ≤ 4))
  | .memtest _ rows => rows.all (fun r => decide (r.1 < 8 ∧ r.2.1 < 64 ∧ r.2.2.1 < 16))
  | .engines _ cols => cols.all (fun c => decide (c.1 < 8 ∧ c.2 < 512))
  | .hpfBringupUpdate progress eta => decide (progress ≤ 1000 ∧ eta ≤ 16383)
  | .hbmRequest x _ => isHbm (128 * x.line)
  | .guardCheckDone _ fl => fl.all Machine.flawOk
  | .ladderRerunDone _ fl feed => fl.all Machine.flawOk && feed.all Machine.feedFlawOk
  | .packetError _ x _ => placeOccurs x
  | .rdCur _ _ h => headerOf h 0 1
  | .rdShared _ _ h => headerOf h 0 2
  | .rdOwn _ _ h => headerOf h 0 3
  | .upgrade _ _ h => headerOf h 0 4
  | .wbDirty _ _ h _ => headerOf h 0 5
  | .evict _ _ h => headerOf h 0 6
  | .wrFull _ _ h _ => headerOf h 0 7
  | .wrPart _ _ h _ _ => headerOf h 0 8
  | .ioRd _ _ h => headerOf h 1 1
  | .ioWr _ _ h data => headerOf h 1 2 && decide (data.length = 16 * ioSlots (hSize h))
  | .baleRd _ _ h => headerOf h 2 1
  | .baleWr _ _ h => headerOf h 2 2
  | .ehpTally _ _ h => headerOf h 3 6
  | .descriptor _ _ b => decide (b.length = 64)
  | .trCpl _ _ _ _ es => decide (es.length ≠ 0 ∧ es.length ≤ 8) && es.all (fun e => decide (e.length = 16))
  | .invReq _ _ _ _ pasid _ log2 => decide (pasid < 2 ^ 20 ∧ 12 ≤ log2 ∧ log2 ≤ 52)
  | .mctpMessage _ m _ => decide (m.length ≤ 1088)
  | .read a _ b _ | .write a _ b _ | .commit a _ b _ | .info a _ b _ | .eventGet a _ b _ | .regRead a _ b _ | .regWrite a _ b _ =>
    decide (b.length ≤ roomOf a)
  | .rcRead _ p => p.wellFormed
  | .registerWrite _ c => c.wellFormed
  | .supplyGood .. | .powerOnResetRelease .. | .supplyOutOfBand .. | .armSend .. | .armReceive .. | .stepCancelDone ..
  | .granuleZeroingDone .. | .waySweepDone .. | .tollWindow .. | .deadlineExpiry .. | .descriptorFetch .. | .planeLoadDone ..
  | .descriptorEnd .. | .engineStepCommit .. | .mecDrain .. | .mecEnable .. | .add ..
  | .sub .. | .andC .. | .orC .. | .xorC .. | .sll .. | .srl .. | .sra .. | .slt .. | .sltu .. | .mul .. | .mulhs .. | .mulhu ..
  | .divs .. | .divu .. | .rems .. | .remu .. | .clz .. | .popc .. | .min .. | .max .. | .addi .. | .andi .. | .ori .. | .xori ..
  | .shi .. | .slti .. | .ldhi .. | .pcadd .. | .ld8u .. | .ld16u .. | .ld32u .. | .ld64 .. | .ld8s .. | .ld16s .. | .ld32s ..
  | .st8 .. | .st16 .. | .st32 .. | .st64 .. | .vld .. | .vst .. | .beq .. | .bne .. | .blt .. | .bge .. | .bltu .. | .bgeu ..
  | .jlk .. | .jlkr .. | .rcall .. | .tret .. | .sleep .. | .stepDone .. | .iclr .. | .dbgstop .. | .ccrr .. | .ccrw ..
  | .vadd32 .. | .vsub32 .. | .vmul32 .. | .fadd .. | .fsub .. | .fmul .. | .fma .. | .fmin .. | .fmax .. | .vand .. | .vor ..
  | .vxor .. | .vins .. | .vext .. | .vsplat .. | .cvtI2f .. | .cvtF2i .. | .ndot .. | .ncvt .. | .nexp .. | .bmove ..
  | .tallyRead .. | .tallyAdd .. | .tallyWaitGe .. | .tallyWaitRelease .. | .flush .. | .acq .. | .cmaIssue .. | .cmaWait ..
  | .cmaWaitRelease .. | .cmaPoll .. | .cmaCommandDone .. | .takeInterrupt .. | .timerExpiry .. | .l0FillReturn ..
  | .writeAccepted .. | .softRaise .. | .coreFault .. | .waveRelease .. | .homeRead .. | .homeWrite .. | .lineUnbusy ..
  | .missFillReturn .. | .writebackBufferFree .. | .baleFillDone .. | .baleWritebackDone .. | .baleMoveDone .. | .prefetch ..
  | .writeback .. | .tierEvict .. | .tierDiscard .. | .moveC .. | .initC .. | .advise .. | .donate .. | .tierStepCommit ..
  | .clean .. | .inv .. | .cleanInv .. | .preloadLock .. | .unlock .. | .maintDone .. | .seraiRowFail .. | .hbmReadIssue ..
  | .hbmModeSwitch .. | .hbmReadData .. | .hbmRefresh .. | .patrolScrubRead .. | .rowRepair .. | .rowRepairDone .. | .rspI ..
  | .rspS .. | .rspIData .. | .rspSData .. | .rspFwd .. | .rspFwdData .. | .rspFwdMiss .. | .fwdAck .. | .holdExpiry ..
  | .snoopTimeout .. | .linkGraceExpiry .. | .domainDownCommand .. | .domainSweepDone .. | .domainReset ..
  | .domainResetCompare .. | .responseTimeout .. | .nocHistSelWrite .. | .siteReset .. | .moduleTrainingDone ..
  | .identifyTimeout .. | .moduleRetrain .. | .moduleLinkDown .. | .baleData .. | .baleTimeout .. | .fatal .. | .credit ..
  | .trReqTimeout .. | .invCpl .. | .relayLinkUp .. | .resyncDone .. | .deltaSent .. | .deltaApply .. | .promotionRestoreDone ..
  | .requestActive .. | .requestStandby .. | .ctxCreateDone .. | .ctxTeardownDone .. | .abortDone .. | .queueStepRead ..
  | .stepDispatch .. | .copyStepCommit .. | .mailboxGo .. | .actionCommit .. | .actionDiscard .. | .commitCheck ..
  | .eventOccurrence .. | .coalesceWindowEnd .. | .notifyRepeat .. | .hostEnableWrite .. | .logDropsClear .. | .blackBoxClear ..
  | .scrubLossClear .. | .token .. | .fuseBurnDone .. | .ownerEnrol .. | .svnAdvance .. | .erase4k .. | .erase64k .. | .program ..
  | .flashRead .. | .activate .. | .flashCommandDone .. | .spdmRequest .. | .rom .. | .firmware .. | .porter .. | .sites ..
  | .start .. | .warmReset .. | .hubFault .. | .replanNow .. | .replanInterval .. | .avsTimeout .. | .relayLinkDown ..
  | .ucieLowPowerRequest ..  => true

end Sys2Proof
end

