-- ==== Sys2Proof/Decode.lean ====
section
/-!
DEFINITION. The words of commands. The command table gives no row any bits: a command reaches the hub as a register access, a message or
an event, and not as a word.
-/
namespace Sys2Proof

/-- The command that a word of `nbits` bits spells: no row of the table has bits, so no word spells one. -/
def decodeTableWord (nbits w : Nat) : Option Instr :=
  match nbits, w with
  | _, _ => none

end Sys2Proof
end

