-- ==== Sys2Proof/Machine/Dispatch.lean ====
section
/-!
DEFINITION. One arm for each command: the call of its meaning.
-/
namespace Sys2Proof.Machine

def exec (i : Instr) (s : State) : Host.Outcome State Fault Refusal :=
  match i with
  | .supplyGood => Sys2Proof.Machine.execSupplyGood s
  | .powerOnResetRelease quick endpoint bif0 bif1 => Sys2Proof.Machine.execPowerOnResetRelease quick endpoint bif0 bif1 s
  | .supplyOutOfBand => Sys2Proof.Machine.execSupplyOutOfBand s
  | .perstAssert port => Sys2Proof.Machine.execPerstAssert port s
  | .perstDeassert port => Sys2Proof.Machine.execPerstDeassert port s
  | .hotReset l => Sys2Proof.Machine.execHotReset l s
  | .flr fn => Sys2Proof.Machine.execFlr fn s
  | .flrComplete fn => Sys2Proof.Machine.execFlrComplete fn s
  | .d3hotEntry fn => Sys2Proof.Machine.execD3hotEntry fn s
  | .armSend => Sys2Proof.Machine.execArmSend s
  | .armReceive u => Sys2Proof.Machine.execArmReceive u s
  | .stageMark skew eyes est => Sys2Proof.Machine.execStageMark skew eyes est s
  | .stepCancelDone u => Sys2Proof.Machine.execStepCancelDone u s
  | .granuleZeroingDone g => Sys2Proof.Machine.execGranuleZeroingDone g s
  | .waySweepDone => Sys2Proof.Machine.execWaySweepDone s
  | .tollWindow est => Sys2Proof.Machine.execTollWindow est s
  | .deadlineExpiry who line => Sys2Proof.Machine.execDeadlineExpiry who line s
  | .descriptorFetch e => Sys2Proof.Machine.execDescriptorFetch e s
  | .planeLoadDone e t => Sys2Proof.Machine.execPlaneLoadDone e t s
  | .descriptorEnd e t => Sys2Proof.Machine.execDescriptorEnd e t s
  | .guardCheckDone e flaws => Sys2Proof.Machine.execGuardCheckDone e flaws s
  | .ladderRerunDone e flaws feed => Sys2Proof.Machine.execLadderRerunDone e flaws feed s
  | .engineStepCommit e part => Sys2Proof.Machine.execEngineStepCommit e part s
  | .mecDrain e v => Sys2Proof.Machine.execMecDrain e v s
  | .mecEnable e v => Sys2Proof.Machine.execMecEnable e v s
  | .add c d a b => Sys2Proof.Machine.execAdd c d a b s
  | .sub c d a b => Sys2Proof.Machine.execSub c d a b s
  | .andC c d a b => Sys2Proof.Machine.execAndC c d a b s
  | .orC c d a b => Sys2Proof.Machine.execOrC c d a b s
  | .xorC c d a b => Sys2Proof.Machine.execXorC c d a b s
  | .sll c d a b => Sys2Proof.Machine.execSll c d a b s
  | .srl c d a b => Sys2Proof.Machine.execSrl c d a b s
  | .sra c d a b => Sys2Proof.Machine.execSra c d a b s
  | .slt c d a b => Sys2Proof.Machine.execSlt c d a b s
  | .sltu c d a b => Sys2Proof.Machine.execSltu c d a b s
  | .mul c d a b => Sys2Proof.Machine.execMul c d a b s
  | .mulhs c d a b => Sys2Proof.Machine.execMulhs c d a b s
  | .mulhu c d a b => Sys2Proof.Machine.execMulhu c d a b s
  | .divs c d a b => Sys2Proof.Machine.execDivs c d a b s
  | .divu c d a b => Sys2Proof.Machine.execDivu c d a b s
  | .rems c d a b => Sys2Proof.Machine.execRems c d a b s
  | .remu c d a b => Sys2Proof.Machine.execRemu c d a b s
  | .clz c d a b => Sys2Proof.Machine.execClz c d a b s
  | .popc c d a b => Sys2Proof.Machine.execPopc c d a b s
  | .min c d a b => Sys2Proof.Machine.execMin c d a b s
  | .max c d a b => Sys2Proof.Machine.execMax c d a b s
  | .addi c d a imm => Sys2Proof.Machine.execAddi c d a imm s
  | .andi c d a imm => Sys2Proof.Machine.execAndi c d a imm s
  | .ori c d a imm => Sys2Proof.Machine.execOri c d a imm s
  | .xori c d a imm => Sys2Proof.Machine.execXori c d a imm s
  | .shi c d a imm => Sys2Proof.Machine.execShi c d a imm s
  | .slti c d a imm => Sys2Proof.Machine.execSlti c d a imm s
  | .ldhi c d imm => Sys2Proof.Machine.execLdhi c d imm s
  | .pcadd c d imm => Sys2Proof.Machine.execPcadd c d imm s
  | .ld8u c d a imm => Sys2Proof.Machine.execLd8u c d a imm s
  | .ld16u c d a imm => Sys2Proof.Machine.execLd16u c d a imm s
  | .ld32u c d a imm => Sys2Proof.Machine.execLd32u c d a imm s
  | .ld64 c d a imm => Sys2Proof.Machine.execLd64 c d a imm s
  | .ld8s c d a imm => Sys2Proof.Machine.execLd8s c d a imm s
  | .ld16s c d a imm => Sys2Proof.Machine.execLd16s c d a imm s
  | .ld32s c d a imm => Sys2Proof.Machine.execLd32s c d a imm s
  | .st8 c d a imm => Sys2Proof.Machine.execSt8 c d a imm s
  | .st16 c d a imm => Sys2Proof.Machine.execSt16 c d a imm s
  | .st32 c d a imm => Sys2Proof.Machine.execSt32 c d a imm s
  | .st64 c d a imm => Sys2Proof.Machine.execSt64 c d a imm s
  | .vld c d a imm => Sys2Proof.Machine.execVld c d a imm s
  | .vst c d a imm => Sys2Proof.Machine.execVst c d a imm s
  | .beq c a b off => Sys2Proof.Machine.execBeq c a b off s
  | .bne c a b off => Sys2Proof.Machine.execBne c a b off s
  | .blt c a b off => Sys2Proof.Machine.execBlt c a b off s
  | .bge c a b off => Sys2Proof.Machine.execBge c a b off s
  | .bltu c a b off => Sys2Proof.Machine.execBltu c a b off s
  | .bgeu c a b off => Sys2Proof.Machine.execBgeu c a b off s
  | .jlk c d off => Sys2Proof.Machine.execJlk c d off s
  | .jlkr c d a imm => Sys2Proof.Machine.execJlkr c d a imm s
  | .rcall c => Sys2Proof.Machine.execRcall c s
  | .tret c => Sys2Proof.Machine.execTret c s
  | .sleep c => Sys2Proof.Machine.execSleep c s
  | .stepDone c a => Sys2Proof.Machine.execStepDone c a s
  | .iclr c => Sys2Proof.Machine.execIclr c s
  | .dbgstop c => Sys2Proof.Machine.execDbgstop c s
  | .ccrr c d imm => Sys2Proof.Machine.execCcrr c d imm s
  | .ccrw c d a imm => Sys2Proof.Machine.execCcrw c d a imm s
  | .vadd32 c vd va vb => Sys2Proof.Machine.execVadd32 c vd va vb s
  | .vsub32 c vd va vb => Sys2Proof.Machine.execVsub32 c vd va vb s
  | .vmul32 c vd va vb => Sys2Proof.Machine.execVmul32 c vd va vb s
  | .fadd c vd va vb => Sys2Proof.Machine.execFadd c vd va vb s
  | .fsub c vd va vb => Sys2Proof.Machine.execFsub c vd va vb s
  | .fmul c vd va vb => Sys2Proof.Machine.execFmul c vd va vb s
  | .fma c vd va vb => Sys2Proof.Machine.execFma c vd va vb s
  | .fmin c vd va vb => Sys2Proof.Machine.execFmin c vd va vb s
  | .fmax c vd va vb => Sys2Proof.Machine.execFmax c vd va vb s
  | .vand c vd va vb => Sys2Proof.Machine.execVand c vd va vb s
  | .vor c vd va vb => Sys2Proof.Machine.execVor c vd va vb s
  | .vxor c vd va vb => Sys2Proof.Machine.execVxor c vd va vb s
  | .vins c vd va g => Sys2Proof.Machine.execVins c vd va g s
  | .vext c va vb g => Sys2Proof.Machine.execVext c va vb g s
  | .vsplat c vd g => Sys2Proof.Machine.execVsplat c vd g s
  | .cvtI2f c vd va => Sys2Proof.Machine.execCvtI2f c vd va s
  | .cvtF2i c vd va => Sys2Proof.Machine.execCvtF2i c vd va s
  | .ndot c vd va vb g => Sys2Proof.Machine.execNdot c vd va vb g s
  | .ncvt c vd va g => Sys2Proof.Machine.execNcvt c vd va g s
  | .nexp c vd va g => Sys2Proof.Machine.execNexp c vd va g s
  | .bmove c d a b fn => Sys2Proof.Machine.execBmove c d a b fn s
  | .tallyRead c d a b fl => Sys2Proof.Machine.execTallyRead c d a b fl s
  | .tallyAdd c d a b fl => Sys2Proof.Machine.execTallyAdd c d a b fl s
  | .tallyWaitGe c d a b fl => Sys2Proof.Machine.execTallyWaitGe c d a b fl s
  | .tallyWaitRelease c => Sys2Proof.Machine.execTallyWaitRelease c s
  | .flush c d a b fn => Sys2Proof.Machine.execFlush c d a b fn s
  | .acq c d a b fn => Sys2Proof.Machine.execAcq c d a b fn s
  | .cmaIssue c d a => Sys2Proof.Machine.execCmaIssue c d a s
  | .cmaWait c d a => Sys2Proof.Machine.execCmaWait c d a s
  | .cmaWaitRelease c => Sys2Proof.Machine.execCmaWaitRelease c s
  | .cmaPoll c d a => Sys2Proof.Machine.execCmaPoll c d a s
  | .cmaCommandDone k => Sys2Proof.Machine.execCmaCommandDone k s
  | .takeInterrupt c => Sys2Proof.Machine.execTakeInterrupt c s
  | .timerExpiry c => Sys2Proof.Machine.execTimerExpiry c s
  | .l0FillReturn c => Sys2Proof.Machine.execL0FillReturn c s
  | .writeAccepted c => Sys2Proof.Machine.execWriteAccepted c s
  | .softRaise k mask => Sys2Proof.Machine.execSoftRaise k mask s
  | .coreFault c t => Sys2Proof.Machine.execCoreFault c t s
  | .waveRelease w => Sys2Proof.Machine.execWaveRelease w s
  | .homeRead c => Sys2Proof.Machine.execHomeRead c s
  | .homeWrite c line => Sys2Proof.Machine.execHomeWrite c line s
  | .lineUnbusy line => Sys2Proof.Machine.execLineUnbusy line s
  | .missFillReturn line => Sys2Proof.Machine.execMissFillReturn line s
  | .writebackBufferFree line => Sys2Proof.Machine.execWritebackBufferFree line s
  | .baleFillDone fn bale => Sys2Proof.Machine.execBaleFillDone fn bale s
  | .baleWritebackDone fn bale nib byt => Sys2Proof.Machine.execBaleWritebackDone fn bale nib byt s
  | .baleMoveDone fn bale nib byt => Sys2Proof.Machine.execBaleMoveDone fn bale nib byt s
  | .prefetch q => Sys2Proof.Machine.execPrefetch q s
  | .writeback q => Sys2Proof.Machine.execWriteback q s
  | .tierEvict q => Sys2Proof.Machine.execTierEvict q s
  | .tierDiscard q => Sys2Proof.Machine.execTierDiscard q s
  | .moveC q => Sys2Proof.Machine.execMoveC q s
  | .initC q => Sys2Proof.Machine.execInitC q s
  | .advise q => Sys2Proof.Machine.execAdvise q s
  | .donate q => Sys2Proof.Machine.execDonate q s
  | .tierStepCommit q => Sys2Proof.Machine.execTierStepCommit q s
  | .clean fn setWay => Sys2Proof.Machine.execClean fn setWay s
  | .inv fn setWay => Sys2Proof.Machine.execInv fn setWay s
  | .cleanInv fn setWay => Sys2Proof.Machine.execCleanInv fn setWay s
  | .preloadLock fn setWay => Sys2Proof.Machine.execPreloadLock fn setWay s
  | .unlock fn setWay => Sys2Proof.Machine.execUnlock fn setWay s
  | .maintDone fn => Sys2Proof.Machine.execMaintDone fn s
  | .seraiRowFail tile w => Sys2Proof.Machine.execSeraiRowFail tile w s
  | .hbmRequest x write => Sys2Proof.Machine.execHbmRequest x write s
  | .hbmReadIssue h pc => Sys2Proof.Machine.execHbmReadIssue h pc s
  | .hbmModeSwitch h pc => Sys2Proof.Machine.execHbmModeSwitch h pc s
  | .hbmReadData line a b ondie => Sys2Proof.Machine.execHbmReadData line a b ondie s
  | .hbmRefresh h pc bank => Sys2Proof.Machine.execHbmRefresh h pc bank s
  | .patrolScrubRead h o => Sys2Proof.Machine.execPatrolScrubRead h o s
  | .rowRepair h spare => Sys2Proof.Machine.execRowRepair h spare s
  | .rowRepairDone h => Sys2Proof.Machine.execRowRepairDone h s
  | .rdCur k m h => Sys2Proof.Machine.execRdCur k m h s
  | .rdShared k m h => Sys2Proof.Machine.execRdShared k m h s
  | .rdOwn k m h => Sys2Proof.Machine.execRdOwn k m h s
  | .upgrade k m h => Sys2Proof.Machine.execUpgrade k m h s
  | .wbDirty k m h data => Sys2Proof.Machine.execWbDirty k m h data s
  | .evict k m h => Sys2Proof.Machine.execEvict k m h s
  | .wrFull k m h data => Sys2Proof.Machine.execWrFull k m h data s
  | .wrPart k m h data mask => Sys2Proof.Machine.execWrPart k m h data mask s
  | .rspI k line => Sys2Proof.Machine.execRspI k line s
  | .rspS k line => Sys2Proof.Machine.execRspS k line s
  | .rspIData k line data poison => Sys2Proof.Machine.execRspIData k line data poison s
  | .rspSData k line data poison => Sys2Proof.Machine.execRspSData k line data poison s
  | .rspFwd k line state data poison => Sys2Proof.Machine.execRspFwd k line state data poison s
  | .rspFwdData k line state data poison => Sys2Proof.Machine.execRspFwdData k line state data poison s
  | .rspFwdMiss k line => Sys2Proof.Machine.execRspFwdMiss k line s
  | .fwdAck k line => Sys2Proof.Machine.execFwdAck k line s
  | .holdExpiry k line => Sys2Proof.Machine.execHoldExpiry k line s
  | .snoopTimeout k line => Sys2Proof.Machine.execSnoopTimeout k line s
  | .linkGraceExpiry k => Sys2Proof.Machine.execLinkGraceExpiry k s
  | .domainDownCommand d => Sys2Proof.Machine.execDomainDownCommand d s
  | .domainSweepDone d => Sys2Proof.Machine.execDomainSweepDone d s
  | .domainReset d => Sys2Proof.Machine.execDomainReset d s
  | .domainResetCompare d => Sys2Proof.Machine.execDomainResetCompare d s
  | .pull fn => Sys2Proof.Machine.execPull fn s
  | .packetError crc site what => Sys2Proof.Machine.execPacketError crc site what s
  | .responseTimeout who line => Sys2Proof.Machine.execResponseTimeout who line s
  | .nocHistSelWrite n v => Sys2Proof.Machine.execNocHistSelWrite n v s
  | .siteReset k => Sys2Proof.Machine.execSiteReset k s
  | .moduleTrainingDone k m width rate repaired half => Sys2Proof.Machine.execModuleTrainingDone k m width rate repaired half s
  | .descriptor k m bytes => Sys2Proof.Machine.execDescriptor k m bytes s
  | .identifyTimeout k m => Sys2Proof.Machine.execIdentifyTimeout k m s
  | .moduleRetrain k m retries lanes half => Sys2Proof.Machine.execModuleRetrain k m retries lanes half s
  | .moduleLinkDown k m part => Sys2Proof.Machine.execModuleLinkDown k m part s
  | .ioRd k m h => Sys2Proof.Machine.execIoRd k m h s
  | .ioWr k m h data => Sys2Proof.Machine.execIoWr k m h data s
  | .baleRd k m h => Sys2Proof.Machine.execBaleRd k m h s
  | .baleWr k m h => Sys2Proof.Machine.execBaleWr k m h s
  | .baleData k m tag init line data poison => Sys2Proof.Machine.execBaleData k m tag init line data poison s
  | .baleTimeout k tag => Sys2Proof.Machine.execBaleTimeout k tag s
  | .ehpTally k m h => Sys2Proof.Machine.execEhpTally k m h s
  | .fatal k m reason => Sys2Proof.Machine.execFatal k m reason s
  | .credit k m snoop msg => Sys2Proof.Machine.execCredit k m snoop msg s
  | .trCpl k m tag status entries => Sys2Proof.Machine.execTrCpl k m tag status entries s
  | .trReqTimeout k tag => Sys2Proof.Machine.execTrReqTimeout k tag s
  | .invReq k m tag all pasid va log2 => Sys2Proof.Machine.execInvReq k m tag all pasid va log2 s
  | .invCpl k tag => Sys2Proof.Machine.execInvCpl k tag s
  | .hostRead fn bar off len => Sys2Proof.Machine.execHostRead fn bar off len s
  | .hostWrite fn bar off bytes ro => Sys2Proof.Machine.execHostWrite fn bar off bytes ro s
  | .hostReadCompletion port tag d => Sys2Proof.Machine.execHostReadCompletion port tag d s
  | .fenceWrite fn seq => Sys2Proof.Machine.execFenceWrite fn seq s
  | .fenceRead fn => Sys2Proof.Machine.execFenceRead fn s
  | .doorbellTailWrite fn page value => Sys2Proof.Machine.execDoorbellTailWrite fn page value s
  | .evtHeadWrite fn page value => Sys2Proof.Machine.execEvtHeadWrite fn page value s
  | .tallyWindowAdd fn slot value => Sys2Proof.Machine.execTallyWindowAdd fn slot value s
  | .apertureAccess fn k n data => Sys2Proof.Machine.execApertureAccess fn k n data s
  | .bmeClear fn => Sys2Proof.Machine.execBmeClear fn s
  | .bmeSet fn => Sys2Proof.Machine.execBmeSet fn s
  | .msixUnmask fn c => Sys2Proof.Machine.execMsixUnmask fn c s
  | .atsInvalidationRequest fn itag all pasid va log2 => Sys2Proof.Machine.execAtsInvalidationRequest fn itag all pasid va log2 s
  | .atsInvalidationCompletion fn itag => Sys2Proof.Machine.execAtsInvalidationCompletion fn itag s
  | .atsEnableClear fn pasid => Sys2Proof.Machine.execAtsEnableClear fn pasid s
  | .translationCompletion fn pasid va ans => Sys2Proof.Machine.execTranslationCompletion fn pasid va ans s
  | .adopt fn => Sys2Proof.Machine.execAdopt fn s
  | .attachDiscard fn => Sys2Proof.Machine.execAttachDiscard fn s
  | .tcInv fn all pasid => Sys2Proof.Machine.execTcInv fn all pasid s
  | .tcInvComplete fn => Sys2Proof.Machine.execTcInvComplete fn s
  | .relayWrite off data posted => Sys2Proof.Machine.execRelayWrite off data posted s
  | .relayLinkUp width rate epoch role sync => Sys2Proof.Machine.execRelayLinkUp width rate epoch role sync s
  | .resyncDone => Sys2Proof.Machine.execResyncDone s
  | .deltaSent => Sys2Proof.Machine.execDeltaSent s
  | .deltaApply off image => Sys2Proof.Machine.execDeltaApply off image s
  | .promotionRestoreDone => Sys2Proof.Machine.execPromotionRestoreDone s
  | .requestActive => Sys2Proof.Machine.execRequestActive s
  | .requestStandby => Sys2Proof.Machine.execRequestStandby s
  | .ctxCreate fn => Sys2Proof.Machine.execCtxCreate fn s
  | .ctxCreateDone fn => Sys2Proof.Machine.execCtxCreateDone fn s
  | .ctxTeardown fn => Sys2Proof.Machine.execCtxTeardown fn s
  | .ctxTeardownDone fn => Sys2Proof.Machine.execCtxTeardownDone fn s
  | .queueBind fn => Sys2Proof.Machine.execQueueBind fn s
  | .queueUnbind fn => Sys2Proof.Machine.execQueueUnbind fn s
  | .slotConfig fn => Sys2Proof.Machine.execSlotConfig fn s
  | .slotFree fn => Sys2Proof.Machine.execSlotFree fn s
  | .abort fn => Sys2Proof.Machine.execAbort fn s
  | .abortDone fn => Sys2Proof.Machine.execAbortDone fn s
  | .ctxQuery fn => Sys2Proof.Machine.execCtxQuery fn s
  | .partQuery fn => Sys2Proof.Machine.execPartQuery fn s
  | .partReset fn => Sys2Proof.Machine.execPartReset fn s
  | .partitionResetDone p => Sys2Proof.Machine.execPartitionResetDone p s
  | .queueStepRead q entry rec => Sys2Proof.Machine.execQueueStepRead q entry rec s
  | .stepDispatch q => Sys2Proof.Machine.execStepDispatch q s
  | .copyStepCommit q => Sys2Proof.Machine.execCopyStepCommit q s
  | .mctpMessage pcie message secured => Sys2Proof.Machine.execMctpMessage pcie message secured s
  | .mailboxGo fn => Sys2Proof.Machine.execMailboxGo fn s
  | .read a inst payload secured => Sys2Proof.Machine.execRead a inst payload secured s
  | .write a inst payload secured => Sys2Proof.Machine.execWrite a inst payload secured s
  | .commit a inst payload secured => Sys2Proof.Machine.execCommit a inst payload secured s
  | .info a inst payload secured => Sys2Proof.Machine.execInfo a inst payload secured s
  | .eventGet a inst payload secured => Sys2Proof.Machine.execEventGet a inst payload secured s
  | .regRead a inst payload secured => Sys2Proof.Machine.execRegRead a inst payload secured s
  | .regWrite a inst payload secured => Sys2Proof.Machine.execRegWrite a inst payload secured s
  | .actionCommit a => Sys2Proof.Machine.execActionCommit a s
  | .actionDiscard a => Sys2Proof.Machine.execActionDiscard a s
  | .commitCheck => Sys2Proof.Machine.execCommitCheck s
  | .eventOccurrence => Sys2Proof.Machine.execEventOccurrence s
  | .coalesceWindowEnd code inst => Sys2Proof.Machine.execCoalesceWindowEnd code inst s
  | .notifyRepeat => Sys2Proof.Machine.execNotifyRepeat s
  | .hostEnableWrite on => Sys2Proof.Machine.execHostEnableWrite on s
  | .logDropsClear => Sys2Proof.Machine.execLogDropsClear s
  | .blackBoxClear => Sys2Proof.Machine.execBlackBoxClear s
  | .scrubLossClear => Sys2Proof.Machine.execScrubLossClear s
  | .token value vdd18 => Sys2Proof.Machine.execToken value vdd18 s
  | .fuseBurnDone worked => Sys2Proof.Machine.execFuseBurnDone worked s
  | .ownerEnrol hash => Sys2Proof.Machine.execOwnerEnrol hash s
  | .svnAdvance kind => Sys2Proof.Machine.execSvnAdvance kind s
  | .erase4k => Sys2Proof.Machine.execErase4k s
  | .erase64k => Sys2Proof.Machine.execErase64k s
  | .program => Sys2Proof.Machine.execProgram s
  | .flashRead => Sys2Proof.Machine.execFlashRead s
  | .activate => Sys2Proof.Machine.execActivate s
  | .flashCommandDone device => Sys2Proof.Machine.execFlashCommandDone device s
  | .spdmRequest path req => Sys2Proof.Machine.execSpdmRequest path req s
  | .rom t => Sys2Proof.Machine.execRom t s
  | .clocks t pll router d slack => Sys2Proof.Machine.execClocks t pll router d slack s
  | .firmware t flash => Sys2Proof.Machine.execFirmware t flash s
  | .serai t rows => Sys2Proof.Machine.execSerai t rows s
  | .hbmInit t caps failed late => Sys2Proof.Machine.execHbmInit t caps failed late s
  | .memtest t rows => Sys2Proof.Machine.execMemtest t rows s
  | .porter t => Sys2Proof.Machine.execPorter t s
  | .engines t cols => Sys2Proof.Machine.execEngines t cols s
  | .sites t => Sys2Proof.Machine.execSites t s
  | .start => Sys2Proof.Machine.execStart s
  | .markZero skew eyes => Sys2Proof.Machine.execMarkZero skew eyes s
  | .hpfBringupUpdate progress eta => Sys2Proof.Machine.execHpfBringupUpdate progress eta s
  | .warmReset => Sys2Proof.Machine.execWarmReset s
  | .hubFault cause => Sys2Proof.Machine.execHubFault cause s
  | .replanNow => Sys2Proof.Machine.execReplanNow s
  | .replanInterval => Sys2Proof.Machine.execReplanInterval s
  | .ageingMeasure d slack => Sys2Proof.Machine.execAgeingMeasure d slack s
  | .tempSample tiles hot => Sys2Proof.Machine.execTempSample tiles hot s
  | .avsCurrentRead amps => Sys2Proof.Machine.execAvsCurrentRead amps s
  | .avsTimeout => Sys2Proof.Machine.execAvsTimeout s
  | .rcRead fn p => Sys2Proof.Machine.execRcRead fn p s
  | .registerWrite fn c => Sys2Proof.Machine.execRegisterWrite fn c s
  | .relayLinkDown => Sys2Proof.Machine.execRelayLinkDown s
  | .hostRefclkLoss port => Sys2Proof.Machine.execHostRefclkLoss port s
  | .hostLinkUp l => Sys2Proof.Machine.execHostLinkUp l s
  | .hostCompletionTimeout port tag => Sys2Proof.Machine.execHostCompletionTimeout port tag s
  | .d0Entry fn => Sys2Proof.Machine.execD0Entry fn s
  | .ucieLowPowerRequest k m => Sys2Proof.Machine.execUcieLowPowerRequest k m s

end Sys2Proof.Machine
end

