-- ==== Sys2Proof/Safety.lean ====
section
/-!
DEFINITION. What the statements call a safe run: a step that completes, a queue of well-formed commands, memory in canonical form.
-/
namespace Sys2Proof.Machine

/-- The command at the front takes effect: no fault, no refusal. -/
def State.completes (s : State) : Prop := ∃ t, step s = .next t

/-- Every waiting command is well formed. -/
def State.queueOk (s : State) : Bool := s.pending.all Instr.wellFormed

/-- HBM is held in its canonical form. -/
def State.memOk (s : State) : Bool := Memory.wf s.mem.hbm

/-- The cores are held in the canonical form of a sparse map. -/
def State.coresOk (s : State) : Bool := smWf {} s.prt.cores

end Sys2Proof.Machine
end

