-- ==== Sys2Proof/Claims.lean ====
section
/-!
DEFINITION. The conditions and the next states that the statements speak of.
-/
namespace Sys2Proof.Machine.Claims


/-! ### Porter cores -/

/-- Core `c` carries out the instruction presented to it: it is active, waits for nothing, takes no interrupt, and may fetch at
its PC (R214, R218 to R220, R244). -/
def Runs (s : State) (c : Fin 25600) : Prop :=
  coreActive s c.val = true ∧ (core s c.val).wait = .none ∧ coreTakes s (core s c.val) = false ∧ fetchOk s (core s c.val) = true

/-- The core with its instruction fetched: only its L0 instruction cache may have changed. -/
def begun (s : State) (c : Fin 25600) : Core := fetched (core s c.val)

/-- The hub while core `c` carries out an instruction. -/
def during (s : State) (c : Fin 25600) : State := putCore s c.val (begun s c)

/-- The hub once core `c` has become `x`: nothing else has changed. -/
def became (s : State) (c : Fin 25600) (x : Core) : State := putCore (during s c) c.val x

/-- The core with the PC past the instruction. -/
def past (x : Core) : Core := { x with pc := x.pc + 4 }

/-- The hub once core `c` has retired an instruction that wrote G[d]. -/
def wroteG (s : State) (c : Fin 25600) (d : Fin 32) (v : BitVec 64) : State := became s c (past (gSet (begun s c) d v))

/-- The hub once core `c` has retired an instruction that wrote V[d]. -/
def wroteV (s : State) (c : Fin 25600) (d : Fin 16) (v : BitVec 128) : State := became s c (past (vSet (begun s c) d v))

/-- G[r] and V[r] as the instruction finds them. -/
def gNow (s : State) (c : Fin 25600) (r : Fin 32) : BitVec 64 := gGet (core s c.val) r
def vNow (s : State) (c : Fin 25600) (r : Fin 16) : BitVec 128 := vGet (core s c.val) r
def pcNow (s : State) (c : Fin 25600) : BitVec 64 := (core s c.val).pc

/-- The hub once core `c` has taken an exception of the instruction at its PC (R240 to R242). -/
def trapped (s : State) (c : Fin 25600) (code : Nat) (info : BitVec 64) : State :=
  became s c (trap (begun s c) false 0 code info (pcNow s c) 0)

/-! ### Loads, stores and waits of the cores -/

/-- The loads and stores with the access that each makes (R224): VLD and VST with the V register that the d field names. -/
def memTable (s : State) (c : Fin 25600) (d a : Fin 32) (imm : BitVec 14) : List (Instr × MemOp) :=
  let ea := (gNow s c a + imm.signExtend 64).toNat
  let ld (n : Nat) (sg : Bool) : MemOp := { reg := d, addr := ea, size := n, signed := sg, vec := false, store := none }
  let st (n : Nat) : MemOp := { reg := d, addr := ea, size := n, signed := false, vec := false, store := some (toBytes n (gNow s c d).toNat) }
  let v : MemOp := { reg := d, addr := ea, size := 16, signed := false, vec := true, store := none }
  [(.ld8u c d a imm, ld 1 false), (.ld16u c d a imm, ld 2 false), (.ld32u c d a imm, ld 4 false), (.ld64 c d a imm, ld 8 false),
   (.ld8s c d a imm, ld 1 true), (.ld16s c d a imm, ld 2 true), (.ld32s c d a imm, ld 4 true),
   (.st8 c d a imm, st 1), (.st16 c d a imm, st 2), (.st32 c d a imm, st 4), (.st64 c d a imm, st 8),
   (.vld c d a imm, v), (.vst c d a imm, { v with store := some (toBytes 16 (vGet (Machine.core s c.val) d).toNat) })]

/-- The core once a load has taken the bytes: zero-extended or sign-extended into G[d], or whole into V[d] (R224). -/
def took (x : Core) (op : MemOp) (b : List Byte) : Core :=
  if op.vec then vSet x op.reg (BitVec.ofNat 128 (ofBytes b))
  else
    let v := BitVec.ofNat (8 * op.size) (ofBytes b)
    gSet x op.reg (if op.signed then v.signExtend 64 else v.zeroExtend 64)

/-- The core waits, with its PC at the instruction. -/
def waits (s : State) (c : Fin 25600) (w : CoreWait) : State := became s c { begun s c with wait := w }

/-- The hub while core `c`, with nothing to write back, has begun an instruction that drains (R231). -/
def draining (s : State) (c : Fin 25600) (g : AfterDrain) : State :=
  let w : Core := { begun s c with wait := .drain [] g }
  putCore (became s c w) c.val w

/-- No dirty line of the L0 data cache lies in a range, or none at all. -/
def clean (s : State) (c : Fin 25600) (lo len : Nat) (all : Bool) : Prop :=
  (l0In (begun s c) lo len all).all (fun l => l.dirty == 0) = true

/-- The instructions of a core that only compute registers, with the core and the numbers of the G and of the V register that each
writes (R217, R224 to R226): every other command is none of them. -/
def computes : Instr → Option (Fin 25600 × Option Nat × Option Nat)
  | .add c d _ _ => some (c, some d.val, none)
  | .sub c d _ _ => some (c, some d.val, none)
  | .andC c d _ _ => some (c, some d.val, none)
  | .orC c d _ _ => some (c, some d.val, none)
  | .xorC c d _ _ => some (c, some d.val, none)
  | .sll c d _ _ => some (c, some d.val, none)
  | .srl c d _ _ => some (c, some d.val, none)
  | .sra c d _ _ => some (c, some d.val, none)
  | .slt c d _ _ => some (c, some d.val, none)
  | .sltu c d _ _ => some (c, some d.val, none)
  | .mul c d _ _ => some (c, some d.val, none)
  | .mulhs c d _ _ => some (c, some d.val, none)
  | .mulhu c d _ _ => some (c, some d.val, none)
  | .divs c d _ _ => some (c, some d.val, none)
  | .divu c d _ _ => some (c, some d.val, none)
  | .rems c d _ _ => some (c, some d.val, none)
  | .remu c d _ _ => some (c, some d.val, none)
  | .clz c d _ _ => some (c, some d.val, none)
  | .popc c d _ _ => some (c, some d.val, none)
  | .min c d _ _ => some (c, some d.val, none)
  | .max c d _ _ => some (c, some d.val, none)
  | .addi c d _ _ => some (c, some d.val, none)
  | .andi c d _ _ => some (c, some d.val, none)
  | .ori c d _ _ => some (c, some d.val, none)
  | .xori c d _ _ => some (c, some d.val, none)
  | .slti c d _ _ => some (c, some d.val, none)
  | .shi c d _ _ => some (c, some d.val, none)
  | .ldhi c d _ => some (c, some d.val, none)
  | .pcadd c d _ => some (c, some d.val, none)
  | .beq c _ _ _ => some (c, none, none)
  | .bne c _ _ _ => some (c, none, none)
  | .blt c _ _ _ => some (c, none, none)
  | .bge c _ _ _ => some (c, none, none)
  | .bltu c _ _ _ => some (c, none, none)
  | .bgeu c _ _ _ => some (c, none, none)
  | .jlk c d _ => some (c, some d.val, none)
  | .jlkr c d _ _ => some (c, some d.val, none)
  | .vadd32 c vd _ _ => some (c, none, some vd.val)
  | .vsub32 c vd _ _ => some (c, none, some vd.val)
  | .vmul32 c vd _ _ => some (c, none, some vd.val)
  | .fadd c vd _ _ => some (c, none, some vd.val)
  | .fsub c vd _ _ => some (c, none, some vd.val)
  | .fmul c vd _ _ => some (c, none, some vd.val)
  | .fma c vd _ _ => some (c, none, some vd.val)
  | .vand c vd _ _ => some (c, none, some vd.val)
  | .vor c vd _ _ => some (c, none, some vd.val)
  | .vxor c vd _ _ => some (c, none, some vd.val)
  | .vins c vd _ _ => some (c, none, some vd.val)
  | .vext c _ _ d => some (c, some d.val, none)
  | .vsplat c vd _ => some (c, none, some vd.val)
  | .cvtI2f c vd _ => some (c, none, some vd.val)
  | .cvtF2i c vd _ => some (c, none, some vd.val)
  | .ndot c vd _ _ _ => some (c, none, some vd.val)
  | .nexp c vd _ _ => some (c, none, some vd.val)
  | _ => none

end Sys2Proof.Machine.Claims
end

