-- ==== Sys2Proof/Machine/CoreWord.lean ====
section
/-!
DEFINITION. The instruction words of the porter cores (R223 to R228, R233, R237 to R239, R254): the fields of each format, the instruction a
word stands for, and the word of an instruction. The table of commands gives no row bits, so commands carry decoded instructions; a word that
stands for none is a reserved opcode, a reserved FN value or a nonzero reserved field (R227). A field that a row of R224 to R254 does not
name is reserved (DEDUCED, log 136).
-/
namespace Sys2Proof

/-! ### Fields (R223) -/

abbrev CoreWord := BitVec 32

def cwOp (w : CoreWord) : Nat := (w.extractLsb' 24 8).toNat
/-- Bits 23:19, 18:14 and 13:9: G registers. -/
def cwD (w : CoreWord) : Fin 32 := (w.extractLsb' 19 5).toFin
def cwA (w : CoreWord) : Fin 32 := (w.extractLsb' 14 5).toFin
def cwB (w : CoreWord) : Fin 32 := (w.extractLsb' 9 5).toFin
/-- FN of RR and HX. -/
def cwFn (w : CoreWord) : BitVec 9 := w.extractLsb' 0 9
def cwImm14 (w : CoreWord) : BitVec 14 := w.extractLsb' 0 14
def cwImm19 (w : CoreWord) : BitVec 19 := w.extractLsb' 0 19
/-- VR: V registers in bits 23:20, 19:16 and 15:12, a G register in 11:7, FN in 6:0. -/
def cwVd (w : CoreWord) : Fin 16 := (w.extractLsb' 20 4).toFin
def cwVa (w : CoreWord) : Fin 16 := (w.extractLsb' 16 4).toFin
def cwVb (w : CoreWord) : Fin 16 := (w.extractLsb' 12 4).toFin
def cwG (w : CoreWord) : Fin 32 := (w.extractLsb' 7 5).toFin
def cwVfn (w : CoreWord) : Nat := (w.extractLsb' 0 7).toNat

/-! ### Opcodes and FN values -/

/-- ALU, opcode 0x01, by FN (R225). -/
def aluOps : List (Nat × (Fin 25600 → Fin 32 → Fin 32 → Fin 32 → Instr)) :=
  [(0x00, .add), (0x01, .sub), (0x02, .andC), (0x03, .orC), (0x04, .xorC), (0x05, .sll), (0x06, .srl), (0x07, .sra),
   (0x08, .slt), (0x09, .sltu), (0x10, .mul), (0x11, .mulhs), (0x12, .mulhu), (0x13, .divs), (0x14, .divu), (0x15, .rems),
   (0x16, .remu), (0x20, .clz), (0x21, .popc), (0x22, .min), (0x23, .max)]

/-- Opcodes of format RI that use each of its fields whole (R224). -/
def riOps : List (Nat × (Fin 25600 → Fin 32 → Fin 32 → BitVec 14 → Instr)) :=
  [(0x02, .addi), (0x03, .andi), (0x04, .ori), (0x05, .xori), (0x07, .slti), (0x10, .ld8u), (0x11, .ld16u), (0x12, .ld32u),
   (0x13, .ld64), (0x14, .ld8s), (0x15, .ld16s), (0x16, .ld32s), (0x18, .st8), (0x19, .st16), (0x1A, .st32), (0x1B, .st64),
   (0x1C, .vld), (0x1D, .vst), (0x27, .jlkr), (0x2A, .ccrw)]

/-- Branches, format B: a in bits 23:19, b in 18:14 (R224). -/
def branchOps : List (Nat × (Fin 25600 → Fin 32 → Fin 32 → BitVec 14 → Instr)) :=
  [(0x20, .beq), (0x21, .bne), (0x22, .blt), (0x23, .bge), (0x24, .bltu), (0x25, .bgeu)]

/-- Formats U and J (R224). -/
def wideOps : List (Nat × (Fin 25600 → Fin 32 → BitVec 19 → Instr)) :=
  [(0x08, .ldhi), (0x09, .pcadd), (0x26, .jlk)]

/-- SYS, opcode 0x28, of no operand, by FN (R225). -/
def sysOps : List (Nat × (Fin 25600 → Instr)) :=
  [(0x00, .rcall), (0x01, .tret), (0x02, .sleep), (0x04, .iclr), (0x05, .dbgstop)]

/-- VOP, opcode 0x30, of three V registers, by FN (R226). -/
def vopOps : List (Nat × (Fin 25600 → Fin 16 → Fin 16 → Fin 16 → Instr)) :=
  [(0x00, .vadd32), (0x01, .vsub32), (0x02, .vmul32), (0x08, .fadd), (0x09, .fsub), (0x0A, .fmul), (0x0B, .fma), (0x0C, .fmin),
   (0x0D, .fmax), (0x10, .vand), (0x11, .vor), (0x12, .vxor)]

/-! ### The instruction of a word -/

/-- VOP (R226): the fields that an operation does not name are reserved. -/
def vopOf (c : Fin 25600) (w : CoreWord) : Option Instr :=
  match cwVfn w with
  | 0x18 => if cwVb w = 0 then some (.vins c (cwVd w) (cwVa w) (cwG w)) else none
  | 0x19 => if cwVd w = 0 then some (.vext c (cwVa w) (cwVb w) (cwG w)) else none
  | 0x1A => if cwVa w = 0 ∧ cwVb w = 0 then some (.vsplat c (cwVd w) (cwG w)) else none
  | 0x20 => if cwVb w = 0 ∧ cwG w = 0 then some (.cvtI2f c (cwVd w) (cwVa w)) else none
  | 0x21 => if cwVb w = 0 ∧ cwG w = 0 then some (.cvtF2i c (cwVd w) (cwVa w)) else none
  | n => if cwG w = 0 then (vopOps.lookup n).map (fun f => f c (cwVd w) (cwVa w) (cwVb w)) else none

/-- NSIMD (R233). -/
def nsimdOf (c : Fin 25600) (w : CoreWord) : Option Instr :=
  match cwVfn w with
  | 1 => some (.ndot c (cwVd w) (cwVa w) (cwVb w) (cwG w))
  | 2 => if cwVb w = 0 then some (.ncvt c (cwVd w) (cwVa w) (cwG w)) else none
  | 3 => if cwVb w = 0 then some (.nexp c (cwVd w) (cwVa w) (cwG w)) else none
  | _ => none

/-- SYS (R225): STEP_DONE names G[a], the others no operand. -/
def sysOf (c : Fin 25600) (w : CoreWord) : Option Instr :=
  if cwD w = 0 ∧ cwB w = 0 then
    if cwFn w = 3 then some (.stepDone c (cwA w))
    else if cwA w = 0 then (sysOps.lookup (cwFn w).toNat).map (fun f => f c)
    else none
  else none

/-- TALLY (R237): OP in FN bits 1:0, the flags above them. -/
def tallyOf (c : Fin 25600) (w : CoreWord) : Option Instr :=
  let fl := (cwFn w).extractLsb' 2 7
  match ((cwFn w).extractLsb' 0 2).toNat with
  | 0 => some (.tallyRead c (cwD w) (cwA w) (cwB w) fl)
  | 1 => some (.tallyAdd c (cwD w) (cwA w) (cwB w) fl)
  | 2 => some (.tallyWaitGe c (cwD w) (cwA w) (cwB w) fl)
  | _ => none

/-- CMA (R254). -/
def cmaOpOf (c : Fin 25600) (w : CoreWord) : Option Instr :=
  if cwB w = 0 then match (cwFn w).toNat with
    | 0 => some (.cmaIssue c (cwD w) (cwA w))
    | 1 => some (.cmaWait c (cwD w) (cwA w))
    | 2 => some (.cmaPoll c (cwD w) (cwA w))
    | _ => none
  else none

/-- The instruction that a word stands for on core `c` (R223, R224); none for a reserved word. -/
def coreInstrOf (c : Fin 25600) (w : CoreWord) : Option Instr :=
  match cwOp w with
  | 0x01 => (aluOps.lookup (cwFn w).toNat).map (fun f => f c (cwD w) (cwA w) (cwB w))
  | 0x06 => if w.extractLsb' 8 6 = 0 then some (.shi c (cwD w) (cwA w) (w.extractLsb' 0 8)) else none
  | 0x28 => sysOf c w
  | 0x29 => if cwA w = 0 then some (.ccrr c (cwD w) (cwImm14 w)) else none
  | 0x30 => vopOf c w
  | 0x31 => nsimdOf c w
  | 0x38 => some (.bmove c (cwD w) (cwA w) (cwB w) (cwFn w))
  | 0x39 => tallyOf c w
  | 0x3A => some (.flush c (cwD w) (cwA w) (cwB w) (cwFn w))
  | 0x3B => some (.acq c (cwD w) (cwA w) (cwB w) (cwFn w))
  | 0x3C => cmaOpOf c w
  | n => match riOps.lookup n with
    | some f => some (f c (cwD w) (cwA w) (cwImm14 w))
    | none => match branchOps.lookup n with
      | some f => some (f c (cwD w) (cwA w) (cwImm14 w))
      | none => (wideOps.lookup n).map (fun f => f c (cwD w) (cwImm19 w))

/-! ### The word of an instruction -/

def encRR (op : BitVec 8) (d a b : Fin 32) (fn : BitVec 9) : CoreWord :=
  op ++ (BitVec.ofFin d : BitVec 5) ++ (BitVec.ofFin a : BitVec 5) ++ (BitVec.ofFin b : BitVec 5) ++ fn
def encRI (op : BitVec 8) (d a : Fin 32) (imm : BitVec 14) : CoreWord :=
  op ++ (BitVec.ofFin d : BitVec 5) ++ (BitVec.ofFin a : BitVec 5) ++ imm
def encU (op : BitVec 8) (d : Fin 32) (imm : BitVec 19) : CoreWord := op ++ (BitVec.ofFin d : BitVec 5) ++ imm
def encVR (op : BitVec 8) (vd va vb : Fin 16) (g : Fin 32) (fn : BitVec 7) : CoreWord :=
  op ++ (BitVec.ofFin vd : BitVec 4) ++ (BitVec.ofFin va : BitVec 4) ++ (BitVec.ofFin vb : BitVec 4) ++ (BitVec.ofFin g : BitVec 5) ++ fn

/-- The word of an instruction of a core, with the core; none for a command that is no instruction. -/
def coreWordOf : Instr → Option (Fin 25600 × CoreWord)
  | .add c d a b => some (c, encRR 0x01 d a b 0x000)
  | .sub c d a b => some (c, encRR 0x01 d a b 0x001)
  | .andC c d a b => some (c, encRR 0x01 d a b 0x002)
  | .orC c d a b => some (c, encRR 0x01 d a b 0x003)
  | .xorC c d a b => some (c, encRR 0x01 d a b 0x004)
  | .sll c d a b => some (c, encRR 0x01 d a b 0x005)
  | .srl c d a b => some (c, encRR 0x01 d a b 0x006)
  | .sra c d a b => some (c, encRR 0x01 d a b 0x007)
  | .slt c d a b => some (c, encRR 0x01 d a b 0x008)
  | .sltu c d a b => some (c, encRR 0x01 d a b 0x009)
  | .mul c d a b => some (c, encRR 0x01 d a b 0x010)
  | .mulhs c d a b => some (c, encRR 0x01 d a b 0x011)
  | .mulhu c d a b => some (c, encRR 0x01 d a b 0x012)
  | .divs c d a b => some (c, encRR 0x01 d a b 0x013)
  | .divu c d a b => some (c, encRR 0x01 d a b 0x014)
  | .rems c d a b => some (c, encRR 0x01 d a b 0x015)
  | .remu c d a b => some (c, encRR 0x01 d a b 0x016)
  | .clz c d a b => some (c, encRR 0x01 d a b 0x020)
  | .popc c d a b => some (c, encRR 0x01 d a b 0x021)
  | .min c d a b => some (c, encRR 0x01 d a b 0x022)
  | .max c d a b => some (c, encRR 0x01 d a b 0x023)
  | .shi c d a imm => some (c, encRI 0x06 d a (imm.zeroExtend 14))
  | .addi c d a imm => some (c, encRI 0x02 d a imm)
  | .andi c d a imm => some (c, encRI 0x03 d a imm)
  | .ori c d a imm => some (c, encRI 0x04 d a imm)
  | .xori c d a imm => some (c, encRI 0x05 d a imm)
  | .slti c d a imm => some (c, encRI 0x07 d a imm)
  | .ld8u c d a imm => some (c, encRI 0x10 d a imm)
  | .ld16u c d a imm => some (c, encRI 0x11 d a imm)
  | .ld32u c d a imm => some (c, encRI 0x12 d a imm)
  | .ld64 c d a imm => some (c, encRI 0x13 d a imm)
  | .ld8s c d a imm => some (c, encRI 0x14 d a imm)
  | .ld16s c d a imm => some (c, encRI 0x15 d a imm)
  | .ld32s c d a imm => some (c, encRI 0x16 d a imm)
  | .st8 c d a imm => some (c, encRI 0x18 d a imm)
  | .st16 c d a imm => some (c, encRI 0x19 d a imm)
  | .st32 c d a imm => some (c, encRI 0x1A d a imm)
  | .st64 c d a imm => some (c, encRI 0x1B d a imm)
  | .vld c d a imm => some (c, encRI 0x1C d a imm)
  | .vst c d a imm => some (c, encRI 0x1D d a imm)
  | .jlkr c d a imm => some (c, encRI 0x27 d a imm)
  | .ccrw c d a imm => some (c, encRI 0x2A d a imm)
  | .beq c a b off => some (c, encRI 0x20 a b off)
  | .bne c a b off => some (c, encRI 0x21 a b off)
  | .blt c a b off => some (c, encRI 0x22 a b off)
  | .bge c a b off => some (c, encRI 0x23 a b off)
  | .bltu c a b off => some (c, encRI 0x24 a b off)
  | .bgeu c a b off => some (c, encRI 0x25 a b off)
  | .ldhi c d imm => some (c, encU 0x08 d imm)
  | .pcadd c d imm => some (c, encU 0x09 d imm)
  | .jlk c d imm => some (c, encU 0x26 d imm)
  | .rcall c => some (c, encRR 0x28 0 0 0 0x000)
  | .tret c => some (c, encRR 0x28 0 0 0 0x001)
  | .sleep c => some (c, encRR 0x28 0 0 0 0x002)
  | .iclr c => some (c, encRR 0x28 0 0 0 0x004)
  | .dbgstop c => some (c, encRR 0x28 0 0 0 0x005)
  | .stepDone c a => some (c, encRR 0x28 0 a 0 0x003)
  | .ccrr c d imm => some (c, encRI 0x29 d 0 imm)
  | .vadd32 c vd va vb => some (c, encVR 0x30 vd va vb 0 0x00)
  | .vsub32 c vd va vb => some (c, encVR 0x30 vd va vb 0 0x01)
  | .vmul32 c vd va vb => some (c, encVR 0x30 vd va vb 0 0x02)
  | .fadd c vd va vb => some (c, encVR 0x30 vd va vb 0 0x08)
  | .fsub c vd va vb => some (c, encVR 0x30 vd va vb 0 0x09)
  | .fmul c vd va vb => some (c, encVR 0x30 vd va vb 0 0x0A)
  | .fma c vd va vb => some (c, encVR 0x30 vd va vb 0 0x0B)
  | .fmin c vd va vb => some (c, encVR 0x30 vd va vb 0 0x0C)
  | .fmax c vd va vb => some (c, encVR 0x30 vd va vb 0 0x0D)
  | .vand c vd va vb => some (c, encVR 0x30 vd va vb 0 0x10)
  | .vor c vd va vb => some (c, encVR 0x30 vd va vb 0 0x11)
  | .vxor c vd va vb => some (c, encVR 0x30 vd va vb 0 0x12)
  | .vins c vd va g => some (c, encVR 0x30 vd va 0 g 0x18)
  | .vext c va vb g => some (c, encVR 0x30 0 va vb g 0x19)
  | .vsplat c vd g => some (c, encVR 0x30 vd 0 0 g 0x1A)
  | .cvtI2f c vd va => some (c, encVR 0x30 vd va 0 0 0x20)
  | .cvtF2i c vd va => some (c, encVR 0x30 vd va 0 0 0x21)
  | .ndot c vd va vb g => some (c, encVR 0x31 vd va vb g 1)
  | .ncvt c vd va g => some (c, encVR 0x31 vd va 0 g 2)
  | .nexp c vd va g => some (c, encVR 0x31 vd va 0 g 3)
  | .bmove c d a b fn => some (c, encRR 0x38 d a b fn)
  | .tallyRead c d a b fl => some (c, encRR 0x39 d a b (fl ++ 0#2))
  | .tallyAdd c d a b fl => some (c, encRR 0x39 d a b (fl ++ 1#2))
  | .tallyWaitGe c d a b fl => some (c, encRR 0x39 d a b (fl ++ 2#2))
  | .flush c d a b fn => some (c, encRR 0x3A d a b fn)
  | .acq c d a b fn => some (c, encRR 0x3B d a b fn)
  | .cmaIssue c d a => some (c, encRR 0x3C d a 0 0)
  | .cmaWait c d a => some (c, encRR 0x3C d a 0 1)
  | .cmaPoll c d a => some (c, encRR 0x3C d a 0 2)
  | _ => none

end Sys2Proof
end

