-- ==== Sys2Proof/Machine/CoreFetch.lean ====
section
/-!
DEFINITION. What a porter core does with an instruction word (R223 to R227): the meaning of the instruction it stands for, or ILLEGAL.
-/
namespace Sys2Proof.Machine

/-- A core runs a word: a reserved word raises ILLEGAL with the word in PRT_C_INFO (R227, R240). -/
def coreRun (c : Fin 25600) (w : CoreWord) (s : State) : Res :=
  match coreInstrOf c w with
  | some i => exec i s
  | none => coreDo c s (fun _ s => illegal s c w.toNat)

end Sys2Proof.Machine
end

