-- ==== Sys2Proof/Certificates/Slice0/Obligations.lean ====
section
/-!
DEFINITION. The statements for the provers, from the numbered rules of the manual.
-/
open Sys2Proof Sys2Proof.Machine Sys2Proof.Machine.Claims

/-! ### The queue of commands -/

/-- The command at the front of the queue takes effect, with the rest of the queue left waiting. -/
def Obligations.FrontCommandRuns : Prop :=
  ∀ (s : State) (c : Instr) (rest : List Instr), s.pending = c :: rest →
    step s = exec c { s with pending := rest } ∧ (∀ t, exec c { s with pending := rest } = .next t → s.completes)

/-- With no command waiting the hub idles (log entry 1, the model's choice). -/
def Obligations.EmptyQueueIdles : Prop :=
  ∀ s : State, s.pending = [] → step s = .next s

/-! ### Porter cores: registers, branches, vectors -/

/-- Every ALU function writes its result to G[d] and goes to the next instruction; nothing else changes (R224, R225). No division raises an
exception: by zero the quotient is 0 and the remainder the dividend, and the most negative value by -1 gives itself and the remainder 0. -/
def Obligations.AluResults : Prop :=
  ∀ (s : State) (c : Fin 25600) (d a b : Fin 32), Runs s c →
    let p := gNow s c a
    let q := gNow s c b
    let sh := (q &&& 63#64).toNat
    exec (.add c d a b) s = .next (wroteG s c d (p + q)) ∧
    exec (.sub c d a b) s = .next (wroteG s c d (p - q)) ∧
    exec (.andC c d a b) s = .next (wroteG s c d (p &&& q)) ∧
    exec (.orC c d a b) s = .next (wroteG s c d (p ||| q)) ∧
    exec (.xorC c d a b) s = .next (wroteG s c d (p ^^^ q)) ∧
    exec (.sll c d a b) s = .next (wroteG s c d (p <<< sh)) ∧
    exec (.srl c d a b) s = .next (wroteG s c d (p >>> sh)) ∧
    exec (.sra c d a b) s = .next (wroteG s c d (p.sshiftRight sh)) ∧
    exec (.slt c d a b) s = .next (wroteG s c d (if p.toInt < q.toInt then 1 else 0)) ∧
    exec (.sltu c d a b) s = .next (wroteG s c d (if p.toNat < q.toNat then 1 else 0)) ∧
    exec (.mul c d a b) s = .next (wroteG s c d (p * q)) ∧
    exec (.mulhs c d a b) s = .next (wroteG s c d ((p.signExtend 128 * q.signExtend 128).extractLsb' 64 64)) ∧
    exec (.mulhu c d a b) s = .next (wroteG s c d ((p.zeroExtend 128 * q.zeroExtend 128).extractLsb' 64 64)) ∧
    exec (.divs c d a b) s = .next (wroteG s c d (p.sdiv q)) ∧
    exec (.divu c d a b) s = .next (wroteG s c d (p / q)) ∧
    exec (.rems c d a b) s = .next (wroteG s c d (p.srem q)) ∧
    exec (.remu c d a b) s = .next (wroteG s c d (p % q)) ∧
    exec (.clz c d a b) s = .next (wroteG s c d p.clz) ∧
    exec (.popc c d a b) s = .next (wroteG s c d p.cpop) ∧
    exec (.min c d a b) s = .next (wroteG s c d (if p.toInt ≤ q.toInt then p else q)) ∧
    exec (.max c d a b) s = .next (wroteG s c d (if p.toInt ≤ q.toInt then q else p)) ∧
    (q = 0 →
      exec (.divs c d a b) s = .next (wroteG s c d 0) ∧ exec (.divu c d a b) s = .next (wroteG s c d 0) ∧
      exec (.rems c d a b) s = .next (wroteG s c d p) ∧ exec (.remu c d a b) s = .next (wroteG s c d p)) ∧
    (p = BitVec.intMin 64 → q = BitVec.allOnes 64 →
      exec (.divs c d a b) s = .next (wroteG s c d p) ∧ exec (.rems c d a b) s = .next (wroteG s c d 0))

/-- The instructions with an immediate (R224). SHI with immediate bits 7:6 of 3 is illegal. -/
def Obligations.ImmediateResults : Prop :=
  ∀ (s : State) (c : Fin 25600) (d a : Fin 32) (imm : BitVec 14) (sh : BitVec 8) (up : BitVec 19), Runs s c →
    let p := gNow s c a
    let n := (sh.extractLsb' 0 6).toNat
    exec (.addi c d a imm) s = .next (wroteG s c d (p + imm.signExtend 64)) ∧
    exec (.andi c d a imm) s = .next (wroteG s c d (p &&& imm.zeroExtend 64)) ∧
    exec (.ori c d a imm) s = .next (wroteG s c d (p ||| imm.zeroExtend 64)) ∧
    exec (.xori c d a imm) s = .next (wroteG s c d (p ^^^ imm.zeroExtend 64)) ∧
    exec (.slti c d a imm) s = .next (wroteG s c d (if p.toInt < imm.toInt then 1 else 0)) ∧
    exec (.ldhi c d up) s = .next (wroteG s c d (up.signExtend 64 <<< 13)) ∧
    exec (.pcadd c d up) s = .next (wroteG s c d (pcNow s c + (up.signExtend 64 <<< 13))) ∧
    (sh.extractLsb' 6 2 = 0#2 → exec (.shi c d a sh) s = .next (wroteG s c d (p <<< n))) ∧
    (sh.extractLsb' 6 2 = 1#2 → exec (.shi c d a sh) s = .next (wroteG s c d (p >>> n))) ∧
    (sh.extractLsb' 6 2 = 2#2 → exec (.shi c d a sh) s = .next (wroteG s c d (p.sshiftRight n))) ∧
    (sh.extractLsb' 6 2 = 3#2 → exec (.shi c d a sh) s =
      .next (trapped s c 1 (BitVec.ofNat 64 (0x06 * 2 ^ 24 + d.val * 2 ^ 19 + a.val * 2 ^ 14 + sh.toNat))))

/-- Branches and jumps (R223, R224): the target is PC + 4 × offset; JLKR clears bits 1:0 of its target. -/
def Obligations.BranchTargets : Prop :=
  ∀ (s : State) (c : Fin 25600) (d a b : Fin 32) (off imm : BitVec 14) (far : BitVec 19), Runs s c →
    let p := gNow s c a
    let q := gNow s c b
    let pc := pcNow s c
    let goto (dest : BitVec 64) := became s c { begun s c with pc := dest }
    let choose (taken : Bool) := goto (if taken then pc + 4 * off.signExtend 64 else pc + 4)
    exec (.beq c a b off) s = .next (choose (decide (p = q))) ∧
    exec (.bne c a b off) s = .next (choose (decide (p ≠ q))) ∧
    exec (.blt c a b off) s = .next (choose (decide (p.toInt < q.toInt))) ∧
    exec (.bge c a b off) s = .next (choose (decide (q.toInt ≤ p.toInt))) ∧
    exec (.bltu c a b off) s = .next (choose (decide (p.toNat < q.toNat))) ∧
    exec (.bgeu c a b off) s = .next (choose (decide (q.toNat ≤ p.toNat))) ∧
    exec (.jlk c d far) s = .next (became s c { gSet (begun s c) d (pc + 4) with pc := pc + 4 * far.signExtend 64 }) ∧
    exec (.jlkr c d a imm) s =
      .next (became s c { gSet (begun s c) d (pc + 4) with pc := (p + imm.signExtend 64) &&& ~~~ 3#64 })

/-- G0 reads as 0 and discards writes, whatever the state (R217): an instruction with d = 0 changes no register but the PC. -/
def Obligations.GZeroStaysZero : Prop :=
  (∀ (x : Core) (v : BitVec 64), gGet x 0 = 0 ∧ gSet x 0 v = x ∧ gGet (gSet x 0 v) 0 = 0) ∧
  (∀ (s : State) (c : Fin 25600) (a b : Fin 32) (imm : BitVec 14), Runs s c →
    exec (.add c 0 a b) s = .next (became s c (past (begun s c))) ∧
    exec (.addi c 0 a imm) s = .next (became s c (past (begun s c))))

/-- VOP (R217, R226): integer, logical and FP32 lanes, lane moves and conversions, on the four 32-bit lanes of which a V register
consists. -/
def Obligations.VectorResults : Prop :=
  (∀ (f : Nat → Nat) (j : Nat), j < 4 → lane (ofLanes f) j = f j % 2 ^ 32) ∧
  (∀ v : BitVec 128, ofLanes (lane v) = v) ∧
  ∀ (s : State) (c : Fin 25600) (vd va vb : Fin 16) (g : Fin 32), Runs s c →
    let p := lane (vNow s c va)
    let q := lane (vNow s c vb)
    let acc := lane (vNow s c vd)
    let lanes (f : Nat → Nat) := Host.Outcome.next (wroteV s c vd (ofLanes f))
    exec (.vadd32 c vd va vb) s = lanes (fun j => (p j + q j) % 2 ^ 32) ∧
    exec (.vsub32 c vd va vb) s = lanes (fun j => (p j + 2 ^ 32 - q j) % 2 ^ 32) ∧
    exec (.vmul32 c vd va vb) s = lanes (fun j => p j * q j % 2 ^ 32) ∧
    exec (.fadd c vd va vb) s = lanes (fun j => f32add (p j) (q j)) ∧
    exec (.fsub c vd va vb) s = lanes (fun j => f32sub (p j) (q j)) ∧
    exec (.fmul c vd va vb) s = lanes (fun j => f32mul (p j) (q j)) ∧
    exec (.fma c vd va vb) s = lanes (fun j => f32fma (acc j) (p j) (q j)) ∧
    exec (.vand c vd va vb) s = .next (wroteV s c vd (vNow s c va &&& vNow s c vb)) ∧
    exec (.vor c vd va vb) s = .next (wroteV s c vd (vNow s c va ||| vNow s c vb)) ∧
    exec (.vxor c vd va vb) s = .next (wroteV s c vd (vNow s c va ^^^ vNow s c vb)) ∧
    exec (.vins c vd va g) s = lanes (fun j => if j = va.val % 4 then (gNow s c g).toNat % 2 ^ 32 else acc j) ∧
    exec (.vext c va vb g) s = .next (wroteG s c g (BitVec.ofNat 64 (p (vb.val % 4)))) ∧
    exec (.vsplat c vd g) s = lanes (fun _ => (gNow s c g).toNat % 2 ^ 32) ∧
    exec (.cvtI2f c vd va) s = lanes (fun j => rne32 (Fv.ofInt (BitVec.ofNat 32 (p j)).toInt)) ∧
    exec (.cvtF2i c vd va) s = lanes (fun j => (BitVec.ofInt 32 (fpToInt32 (p j))).toNat)

/-- FMIN and FMAX (R226): the lesser and the greater lane. A lane with a NaN operand, or with zeros of both signs, is a free value:
the statement names the draw and nothing of its value.
Its clauses rest in places on the model's own choices: log entry 67. -/
def Obligations.VectorMinMax : Prop :=
  ∀ (s : State) (c : Fin 25600) (vd va vb : Fin 16), Runs s c →
    let p := lane (vNow s c va)
    let q := lane (vNow s c vb)
    let s1 := { during s c with free := s.free + 1 }
    let done (v : BitVec 128) : State := putCore s1 c.val (past (vSet (begun s c) vd v))
    (∃ f : Nat → Nat, exec (.fmin c vd va vb) s = .next (done (ofLanes f)) ∧
      ∀ j, j < 4 → minOpen (p j) (q j) = false → f j = if (fpVal (p j)).lt (fpVal (q j)) then p j else q j) ∧
    (∃ f : Nat → Nat, exec (.fmax c vd va vb) s = .next (done (ofLanes f)) ∧
      ∀ j, j < 4 → minOpen (p j) (q j) = false → f j = if (fpVal (p j)).lt (fpVal (q j)) then q j else p j)

/-- NDOT (R234): each lane adds four products of integer images, in 32-bit two's complement. A format word that is malformed, a first format
that is no weight's, a second that is no activation's, and a group of elements that does not lie wholly in a V register are ILLEGAL (R233).
An N8F4 NaN code, for which the manual gives no image, stands for 0: the model's choice (log entry 132). -/
def Obligations.NarrowDot : Prop :=
  ∀ (s : State) (c : Fin 25600) (vd va vb : Fin 16) (g : Fin 32), Runs s c →
    let w := (gNow s c g).toNat
    let wg := bitsOf w 35 32
    let ag := bitsOf w 39 36
    let bad := Host.Outcome.next (trapped s c 1 (BitVec.ofNat 64 (0x31 * 2 ^ 24 + vd.val * 2 ^ 20 + va.val * 2 ^ 16 + vb.val * 2 ^ 12 + g.val * 2 ^ 7 + 1)))
    (fmtOf (bitsOf w 15 0) = none ∨ fmtOf (bitsOf w 31 16) = none → exec (.ndot c vd va vb g) s = bad) ∧
    (∀ f h : Fmt, fmtOf (bitsOf w 15 0) = some f → fmtOf (bitsOf w 31 16) = some h →
      let fits := f.elem.isWeight = true ∧ h.elem.isAct = true ∧ 16 * wg + 16 ≤ vElems f.elem ∧ 16 * ag + 16 ≤ vElems h.elem
      let wi (i : Nat) : Int := elemImage f.elem (elemCode f.elem (vByte (vNow s c va)) (16 * wg + i))
      let ai (i : Nat) : Int := elemImage h.elem (elemCode h.elem (vByte (vNow s c vb)) (16 * ag + i))
      (¬ fits → exec (.ndot c vd va vb g) s = bad) ∧
      (fits → exec (.ndot c vd va vb g) s = .next (wroteV s c vd (ofLanes (fun j =>
        (BitVec.ofInt 32 ((lane (vNow s c vd) j : Int) + wi (4 * j) * ai (4 * j) + wi (4 * j + 1) * ai (4 * j + 1) +
          wi (4 * j + 2) * ai (4 * j + 2) + wi (4 * j + 3) * ai (4 * j + 3))).toNat)))))

/-- NCVT and NEXP (R235, R236): conversions between FP32 lanes and a group of narrow elements. Under stochastic rounding each conversion lane of
the core advances by 16 steps, else the lanes keep their state; PRT_CL_CONV_EXC counts the lanes' results that are no plain conversion. A
malformed format word and a group that does not lie in a V register are ILLEGAL, and for NCVT a format with scales or with MX. -/
def Obligations.NarrowConvert : Prop :=
  ∀ (s : State) (c : Fin 25600) (vd va : Fin 16) (g : Fin 32), Runs s c →
    let w := (gNow s c g).toNat
    let p := bitsOf w 23 16
    let bad (fn : Nat) := Host.Outcome.next (trapped s c 1 (BitVec.ofNat 64 (0x31 * 2 ^ 24 + vd.val * 2 ^ 20 + va.val * 2 ^ 16 + g.val * 2 ^ 7 + fn)))
    (fmtOf (bitsOf w 15 0) = none → exec (.ncvt c vd va g) s = bad 2 ∧ exec (.nexp c vd va g) s = bad 3) ∧
    (∀ f : Fmt, fmtOf (bitsOf w 15 0) = some f →
      (vElems f.elem < 4 * p + 4 → exec (.ncvt c vd va g) s = bad 2 ∧ exec (.nexp c vd va g) s = bad 3) ∧
      (f.scale ≠ 0 ∨ f.mx = true → exec (.ncvt c vd va g) s = bad 2) ∧
      (4 * p + 4 ≤ vElems f.elem → f.scale = 0 → f.mx = false →
        let x := begun s c
        let lanes := if f.round = 2 then x.lanes.map (lfsrSteps 16) else x.lanes
        let outs := (span 0 4).map (fun j => convert f.elem f.round f.sat false (listGet 1 lanes j % 65536) (lane (vNow s c va) j))
        let exc := (outs.filter (fun o => o.2 != .none)).length
        exec (.ncvt c vd va g) s = .next (putCore (bump (during s c) ⟨.prtClConvExc, 0, c.val / 16⟩ exc) c.val
          { past (vSet x vd (putGroup f.elem (vNow s c vd) p (outs.map (fun o => o.1)))) with lanes := lanes })) ∧
      (4 * p + 4 ≤ vElems f.elem → exec (.nexp c vd va g) s = .next (wroteV s c vd (ofLanes (fun j =>
        let v := elemVal f.elem (elemCode f.elem (vByte (vNow s c va)) (4 * p + j))
        rne32 (if f.mxInt then v.mul (.fin false 1 64) else v))))))

/-- A format word (R95 to R97): it is malformed on the values that R97 lists, and with a reserved bit set; else its fields are those of
R95, with the element format that ELEM names. -/
def Obligations.FormatWords : Prop :=
  ∀ w, w < 65536 →
    let elem := bitsOf w 3 0
    let scale := bitsOf w 5 4
    let block := bitsOf w 7 6
    let mx := bitsOf w 8 8
    let round := bitsOf w 11 10
    let malformed := 12 ≤ elem ∨ scale = 3 ∨ block = 3 ∨ round = 3 ∨
      (mx = 1 ∧ (scale ≠ 1 ∨ block ≠ 1 ∨ elem ∉ [2, 7, 8, 9, 10])) ∨ (elem = 11 ∧ scale ≠ 0)
    (malformed → fmtOf w = none) ∧
    (bitsOf w 9 9 ≠ 0 ∨ bitsOf w 15 14 ≠ 0 → fmtOf w = none) ∧
    (¬ malformed → bitsOf w 9 9 = 0 → bitsOf w 15 14 = 0 → ∃ f, fmtOf w = some f ∧ elemOf elem = some f.elem ∧ f.scale = scale ∧
      f.block = 16 * 2 ^ block ∧ f.mx = decide (mx = 1) ∧ f.round = round ∧ f.sat = decide (bitsOf w 12 12 = 1) ∧
      f.noClip = decide (bitsOf w 13 13 = 1))

/-- Narrow values (R102, R110, R111): a trit is its digit less one; S8E is a power of two or NaN; S8F has the values of the codes of
N8F4 up to 448, and NaN. -/
def Obligations.NarrowValues : Prop :=
  (∀ d, d < 3 → elemImage .nt d = (d : Int) - 1 ∧ elemVal .nt d = .fin (decide (d = 0)) (if d = 1 then 0 else 1) 1) ∧
  (∀ e, e < 255 → ∃ p q, scaleVal 1 e = .fin false p q ∧ q ≠ 0 ∧ p * 2 ^ 127 = q * 2 ^ e) ∧
  scaleVal 1 255 = .nan ∧
  (∀ b, b < 127 → scaleVal 2 b = elemVal .n8f4 b) ∧
  scaleVal 2 0 = .fin false 0 (2 ^ 9) ∧ scaleVal 2 126 = .fin false (448 * 2 ^ 9) (2 ^ 9) ∧
  (∀ b, 127 ≤ b → b < 256 → scaleVal 2 b = .nan)

/-- The conversion lanes (R129, R130): a step of the LFSR on 32 bits, its first three states from 1, and the state in which a seed
starts a lane; a write of PRT_C_SEED seeds the four lanes of its core (R236). -/
def Obligations.ConversionLanes : Prop :=
  (∀ st, st < 2 ^ 32 → lfsrStep st < 2 ^ 32 ∧
    let b := BitVec.ofNat 32 st
    BitVec.ofNat 32 (lfsrStep st) = if b.getLsbD 0 then (b >>> 1) ^^^ 0x80200003#32 else b >>> 1) ∧
  lfsrStep 1 = 0x80200003 ∧ lfsrStep 0x80200003 = 0xC0300002 ∧ lfsrStep 0xC0300002 = 0x60180001 ∧
  (∀ (seed n : Nat), seed < 2 ^ 32 →
    let start := BitVec.ofNat 32 seed ^^^ (BitVec.ofNat 32 n * 0x9E3779B9#32)
    laneStart seed n < 2 ^ 32 ∧ BitVec.ofNat 32 (laneStart seed n) = if start = 0 then 1 else start) ∧
  (∀ (s : State) (n : Nat) (x : Core) (v : BitVec 64) (j : Nat), j < 4 →
    (ccSet s n x 0x00F v).lanes[j]? = some (laneStart (v.toNat % 2 ^ 32) (4 * n + j)))

/-! ### Porter cores: loads and stores -/

/-- Every load and store, in every region of the core address map (R219 to R222, R231, R240, R245): misaligned, no target, the cluster
store, the cluster's registers, the boot ROM, and HA space with a tracked range, a hit and a miss of the L0 data cache. VLD and VST with
a d field of 16 or more are ILLEGAL, with the instruction's word (R223, R227). -/
def Obligations.LoadStoreForms : Prop :=
  ∀ (s : State) (c : Fin 25600) (d a : Fin 32) (imm : BitVec 14), Runs s c →
    (16 ≤ d.val →
      let word (op : Nat) : BitVec 64 := BitVec.ofNat 64 (op * 2 ^ 24 + d.val * 2 ^ 19 + a.val * 2 ^ 14 + imm.toNat)
      exec (.vld c d a imm) s = .next (trapped s c 1 (word 0x1C)) ∧ exec (.vst c d a imm) s = .next (trapped s c 1 (word 0x1D))) ∧
    (∀ e ∈ memTable s c d a imm, (e.2.vec = true → d.val < 16) →
      let op := e.2
      let x := begun s c
      let u := during s c
      let ea := gNow s c a + imm.signExtend 64
      let fault := if op.store.isSome then 7 else 5
      (op.addr % op.size ≠ 0 → exec e.1 s = .next (trapped s c (if op.store.isSome then 6 else 4) ea)) ∧
      (op.addr % op.size = 0 →
        (placeOf ea = .nothing → exec e.1 s = .next (trapped s c fault ea)) ∧
        (∀ o, placeOf ea = .store o →
          (storeOk x o op.size = false → exec e.1 s = .next (trapped s c fault ea)) ∧
          (storeOk x o op.size = true → op.store = none →
            exec e.1 s = .next (became s c (past (took x op (storeBytes u (c.val / 16) o op.size))))) ∧
          (storeOk x o op.size = true → ∀ b, op.store = some b →
            exec e.1 s = .next (putCore (storePut u (c.val / 16) o b) c.val (past x)))) ∧
        (∀ o, placeOf ea = .regs o →
          (x.user = true → exec e.1 s = .next (trapped s c fault ea)) ∧
          (x.user = false → op.store = none → exec e.1 s =
            .next (putCore (clRead u (c.val / 16) o op.size).2 c.val (past (took x op (clRead u (c.val / 16) o op.size).1)))) ∧
          (x.user = false → op.store.isSome = true → ¬(o = 0x38 ∧ op.size = 4) → exec e.1 s = .next (became s c (past x))) ∧
          (x.user = false → ∀ b, op.store = some b → o = 0x38 → op.size = 4 → exec e.1 s =
            .next (softRaise (became s c (past x)) (c.val / 16) (ofBytes b % 65536) (c.val % 16)))) ∧
        (∀ o, placeOf ea = .rom o →
          (x.user = true ∨ op.store.isSome = true → exec e.1 s = .next (trapped s c fault ea)) ∧
          (x.user = false → op.store = none →
            exec e.1 s = .next (became s c (past (took x op ((span o op.size).map Config.romByte)))))) ∧
        (∀ h, placeOf ea = .ha h →
          let may := if op.store.isSome then windowOk u x h op.size else readOk u x h op.size
          (may = false → exec e.1 s = .next (raise (haFault u c.val h) c.val fault ea)) ∧
          (may = true → trackedAt x h op.size = true → exec e.1 s = .next (waits s c (.tracked h op.size))) ∧
          (may = true → trackedAt x h op.size = false → l0Find x (h / 64) = none →
            exec e.1 s = .next (became s c { x with wait := .fill op, sent := false })) ∧
          (may = true → trackedAt x h op.size = false → ∀ k l, l0Find x (h / 64) = some (k, l) →
            exec e.1 s = .next (became s c (match op.store with
              | none => { past (took x op (l0Bytes l (h % 64) op.size)) with wait := .none, sent := false }
              | some b => { past (l0Put x k (some (l0Store l (h % 64) b x.user))) with wait := .none, sent := false }))))))

/-- The instruction words of the porter cores (R223 to R227, R233, R237 to R239, R254): the word of each instruction stands for that instruction
with every one of its operands, and no other word stands for it; a core that runs the word of an instruction carries out that
instruction, and one that runs a word that stands for none takes ILLEGAL with the word in PRT_C_INFO. That a field which a row does not
name is reserved is the model's reading (log entry 136). -/
def Obligations.InstructionWords : Prop :=
  (∀ (i : Instr) (c : Fin 25600) (w : CoreWord), coreWordOf i = some (c, w) ↔ coreInstrOf c w = some i) ∧
  (∀ (s : State) (c : Fin 25600) (w : CoreWord),
    (∀ i, coreInstrOf c w = some i → coreRun c w s = exec i s) ∧
    (coreInstrOf c w = none → Runs s c → coreRun c w s = .next (trapped s c 1 (w.zeroExtend 64)))) ∧
  (∀ c : Fin 25600,
    coreInstrOf c 0b0000_0001_00011_00001_00010_000000000#32 = some (.add c 3 1 2) ∧
    coreInstrOf c 0b0000_0010_00101_00110_11111111111111#32 = some (.addi c 5 6 (BitVec.allOnes 14)) ∧
    coreInstrOf c 0b0010_0001_00001_00010_00000000000100#32 = some (.bne c 1 2 4) ∧
    coreInstrOf c 0b0000_1000_01001_0000000000000000001#32 = some (.ldhi c 9 1) ∧
    coreInstrOf c 0b0011_0000_0001_0010_0011_00000_0001011#32 = some (.fma c 1 2 3) ∧
    coreInstrOf c 0b0010_1000_00000_00111_00000_000000011#32 = some (.stepDone c 7) ∧
    coreInstrOf c 0b0000_0001_00011_00001_00010_000001010#32 = none ∧ coreInstrOf c 0#32 = none)

/-- A store to the cluster store is read back by a load of the same bytes, and leaves every other byte of the store alone (R222); the maps
are in their canonical form, which every operation on them keeps. -/
def Obligations.StoreThenLoad : Prop :=
  ∀ (s : State) (k off : Nat) (b : List Byte) (o : Nat), smWf {} s.prt.clusters = true → smWf 0 (Machine.cluster s k).store = true →
    smGet 0 (Machine.cluster (storePut s k off b) k).store o =
      (if off ≤ o ∧ o < off + b.length then listGet 0 b (o - off) else smGet 0 (Machine.cluster s k).store o)

/-! ### Porter cores: system instructions -/

/-- Taking an exception or an interrupt, and TRET (R242). A trap saves the PC and the status, writes the cause and its information, and enters
runtime mode with interrupts off at the vector, or at the vector + 0x80 for CANCEL. An instruction's exception is taken so, at the instruction's
own address: FETCH_FAULT of any instruction whose fetch may not be made (R219, R220, R240), and DBGSTOP and RCALL, which are taken before every
interrupt but CANCEL (R244). An interrupt is taken so by TAKE_INTERRUPT, the first of those pending in the order of their codes (R244), in
every wait that it may break; a BMOVE that it breaks ends where it stands (R232). TRET goes back. -/
def Obligations.TrapEntry : Prop :=
  (∀ (x : Core) (int : Bool) (st code : Nat) (info ret off : BitVec 64),
    let y := trap x int st code info ret off
    y.retpc = ret ∧ y.causeInt = int ∧ y.causeStatus = st ∧ y.causeCode = code ∧ y.info = info ∧ y.priorUser = x.user ∧ y.priorIe = x.ie ∧
    y.user = false ∧ y.ie = false ∧ y.pc = x.vector + off ∧ y.g = x.g ∧ y.v = x.v ∧ y.vector = x.vector ∧ y.ctx = x.ctx ∧
    y.ctxPart = x.ctxPart ∧ y.l0d = x.l0d ∧ y.tracker = x.tracker ∧ y.tags = x.tags ∧ y.wait = .none) ∧
  (∀ (s : State) (n code : Nat) (info : BitVec 64), code ≠ 0 →
    Machine.core (raise s n code info) n = trap (Machine.core s n) false 0 code info (Machine.core s n).pc 0) ∧
  (∀ (s : State) (i : Instr) (c : Fin 25600) (w : CoreWord), coreWordOf i = some (c, w) →
    coreActive s c.val = true → (Machine.core s c.val).wait = .none → cancelDue s (Machine.core s c.val) = false →
    fetchOk s (Machine.core s c.val) = false →
    exec i s = .next (raise (match placeOf (pcNow s c) with | .ha h => haFault s c.val h | _ => s) c.val 3 (pcNow s c))) ∧
  (∀ (s : State) (c : Fin 25600), coreActive s c.val = true → (Machine.core s c.val).wait = .none →
    cancelDue s (Machine.core s c.val) = false → fetchOk s (Machine.core s c.val) = true →
    exec (.dbgstop c) s = .next (trapped s c 10 0) ∧ exec (.rcall c) s = .next (trapped s c (if (begun s c).user then 8 else 9) 0)) ∧
  (∀ (s : State) (c : Fin 25600), Runs s c →
    let x := begun s c
    let back : Core := { x with user := x.priorUser, ie := x.priorIe }
    x.user = false →
      (x.retpc.toNat % 4 = 0 → exec (.tret c) s = .next (became s c { back with pc := x.retpc })) ∧
      (x.retpc.toNat % 4 ≠ 0 → exec (.tret c) s = .next (became s c (trap back false 0 2 x.retpc x.retpc 0)))) ∧
  (∀ (s : State) (x : Core) (j : Nat), j < 5 → (coreReady s x).getLsbD j = true → (∀ i, i < j → (coreReady s x).getLsbD i = false) →
    (firstIrq s x).1 = j) ∧
  (∀ (s : State) (c : Fin 25600), coreActive s c.val = true → coreTakes s (Machine.core s c.val) = true →
    (Machine.core s c.val).wait.breaks (Machine.core s c.val).sent = true →
    let x := match (Machine.core s c.val).wait with | .move m => moveStop (Machine.core s c.val) m | _ => Machine.core s c.val
    let code := (firstIrq s (Machine.core s c.val)).1
    let info := BitVec.ofNat 64 (firstIrq s (Machine.core s c.val)).2
    exec (.takeInterrupt c) s = .next (putCore s c.val (if code = 0
      then trap { x with pending := x.pending &&& 0b11110#5 } true 0 0 info x.pc 0x80
      else trap x true 0 code info x.pc 0)))

/-- The SYS functions (R225, R242): the calls of the runtime, the return from a trap, SLEEP, ICLR, DBGSTOP; in user mode TRET and SLEEP
are illegal (R218, R227). -/
def Obligations.SystemFunctions : Prop :=
  ∀ (s : State) (c : Fin 25600), Runs s c →
    let x := begun s c
    let word (fn : Nat) : BitVec 64 := BitVec.ofNat 64 (0x28 * 2 ^ 24 + fn)
    exec (.rcall c) s = .next (trapped s c (if x.user then 8 else 9) 0) ∧
    exec (.dbgstop c) s = .next (trapped s c 10 0) ∧
    exec (.iclr c) s = .next (became s c (past { x with l0i := [] })) ∧
    (x.user = true → exec (.tret c) s = .next (trapped s c 1 (word 1)) ∧ exec (.sleep c) s = .next (trapped s c 1 (word 2))) ∧
    (x.user = false → x.retpc.toNat % 4 = 0 →
      exec (.tret c) s = .next (became s c { x with user := x.priorUser, ie := x.priorIe, pc := x.retpc })) ∧
    (x.user = false → x.retpc.toNat % 4 ≠ 0 →
      exec (.tret c) s = .next (became s c (trap { x with user := x.priorUser, ie := x.priorIe } false 0 2 x.retpc x.retpc 0))) ∧
    (x.user = false → coreReady (during s c) x = 0#5 → exec (.sleep c) s = .next (waits s c .sleep)) ∧
    (x.user = false → coreReady (during s c) x ≠ 0#5 → exec (.sleep c) s = .next (became s c (past x)))

/-- CCRR and CCRW (R218, R224, R265 to R267): a read gives the register's value; a write gives the old value to G[d] and then the
register takes G[a]. No such register, or no right to it in user mode, is ILLEGAL. -/
def Obligations.ControlRegisters : Prop :=
  ∀ (s : State) (c : Fin 25600) (d a : Fin 32) (imm : BitVec 14), Runs s c →
    let x := begun s c
    let u := during s c
    let r := imm.toNat
    let wordR := BitVec.ofNat 64 (0x29 * 2 ^ 24 + d.val * 2 ^ 19 + r)
    let wordW := BitVec.ofNat 64 (0x2A * 2 ^ 24 + d.val * 2 ^ 19 + a.val * 2 ^ 14 + r)
    (∀ v, ccVal u c.val x r = some v →
      (ccAllowed x r false = true → exec (.ccrr c d imm) s = .next (wroteG s c d v)) ∧
      (ccAllowed x r false = false → exec (.ccrr c d imm) s = .next (trapped s c 1 wordR)) ∧
      (ccAllowed x r true = true → exec (.ccrw c d a imm) s = .next (became s c (past (ccSet u c.val (gSet x d v) r (gNow s c a))))) ∧
      (ccAllowed x r true = false → exec (.ccrw c d a imm) s = .next (trapped s c 1 wordW))) ∧
    (ccVal u c.val x r = none →
      exec (.ccrr c d imm) s = .next (trapped s c 1 wordR) ∧ exec (.ccrw c d a imm) s = .next (trapped s c 1 wordW)) ∧
    (ccVal u c.val x 0x001 = some x.retpc ∧ ccVal u c.val x 0x004 = some x.vector ∧ ccVal u c.val x 0x010 = some x.scratch ∧
      ccVal u c.val x 0x009 = some (BitVec.ofNat 64 u.stage.hubTime) ∧ ccVal u c.val x 0x007 = none) ∧
    (∀ v, ccSet u c.val x 0x001 v = { x with retpc := v } ∧ ccSet u c.val x 0x004 v = { x with vector := v &&& ~~~ 0x7F#64 } ∧
      ccSet u c.val x 0x010 v = { x with scratch := v } ∧ ccSet u c.val x 0x00A v = { x with timecmp := v } ∧
      ccSet u c.val x 0x008 v = x ∧ ccSet u c.val x 0x009 v = x) ∧
    (ccAllowed x 0x00F true = true ∧ (x.user = true → ccAllowed x 0x008 false = true ∧ ccAllowed x 0x009 false = true ∧
      ccAllowed x 0x001 false = false ∧ ccAllowed x 0x009 true = false))

/-- FLUSH, ACQ and STEP_DONE (R238, R239, R247): each first writes back the dirty lines of the L0 data cache that lie in its range, or all, and
then ends once nothing of what it awaits is left: FLUSH keeps the lines unless INV, ACQ drops them, STEP_DONE reports. Where no line is dirty and
nothing is awaited, it ends at once. Reserved FN values and a d field that is not 0 are ILLEGAL, and so is STEP_DONE in user mode.
Its clauses rest in places on the model's own choices: log entry 33. -/
def Obligations.FlushAcqStepDone : Prop :=
  ∀ (s : State) (c : Fin 25600) (d a b : Fin 32) (fn : BitVec 9), Runs s c →
    let x := begun s c
    let u := during s c
    let lo := (gNow s c a).toNat
    let len := (gNow s c b).toNat
    let word (op : Nat) : BitVec 64 := BitVec.ofNat 64 (op * 2 ^ 24 + d.val * 2 ^ 19 + a.val * 2 ^ 14 + b.val * 2 ^ 9 + fn.toNat)
    (∀ all inv : Bool, fn = BitVec.ofNat 9 (2 * b2n all + b2n inv) →
      let g := AfterDrain.flush lo len all inv
      exec (.flush c 0 a b fn) s = .next (drainStart u c.val lo len all g) ∧
      (clean s c lo len all → (if all then x.tracker.isEmpty else !trackedAt x lo len) = true →
        exec (.flush c 0 a b fn) s = .next (putCore (draining s c g) c.val
          (let y : Core := { x with wait := .drain [] g }
           { (if inv then l0Invalidate y lo len all else y) with pc := x.pc + 4, wait := .none })))) ∧
    (∀ all : Bool, fn = BitVec.ofNat 9 (2 * b2n all) →
      let g := AfterDrain.flush lo len all true
      exec (.acq c 0 a b fn) s = .next (drainStart u c.val lo len all g) ∧
      (clean s c lo len all → (if all then x.tracker.isEmpty else !trackedAt x lo len) = true →
        exec (.acq c 0 a b fn) s = .next (putCore (draining s c g) c.val
          { l0Invalidate { x with wait := .drain [] g } lo len all with pc := x.pc + 4, wait := .none }))) ∧
    (d ≠ 0 ∨ 4 ≤ fn.toNat → exec (.flush c d a b fn) s = .next (trapped s c 1 (word 0x3A))) ∧
    (d ≠ 0 ∨ (fn ≠ 0 ∧ fn ≠ 2) → exec (.acq c d a b fn) s = .next (trapped s c 1 (word 0x3B))) ∧
    (x.user = true → exec (.stepDone c a) s = .next (trapped s c 1 (BitVec.ofNat 64 (0x28 * 2 ^ 24 + a.val * 2 ^ 14 + 3)))) ∧
    (x.user = false →
      let g := AfterDrain.stepDone ((gNow s c a).toNat % 256 != 0)
      exec (.stepDone c a) s = .next (drainStart u c.val 0 0 true g) ∧
      (clean s c 0 0 true → x.tracker = [] → x.tags.contains .pending = false →
        exec (.stepDone c a) s = .next (coreReport (draining s c g) c.val ((gNow s c a).toNat % 256 != 0))))

/-- TALLY (R237): READ and ADD give the old value to G[d] and retire; WAIT_GE retires once the signed difference is not negative, and waits
otherwise; TALLY_WAIT_RELEASE ends the wait. With REL or ACQ the core first writes back every dirty line, and with REL it waits until its
writes are accepted; with ACQ the L0 data cache is invalid after it. Reserved FN bits are ILLEGAL, and a slot that is no tally of the
step's partition is TALLY_FAULT. -/
def Obligations.TallyOperations : Prop :=
  (∀ (s : State) (c : Fin 25600) (d a b : Fin 32) (fl : BitVec 7), Runs s c →
    let x := begun s c
    let u := during s c
    let slot := (gNow s c a).toNat
    let v := (gNow s c b).toNat % 2 ^ 32
    let old := tallyValue u slot
    let got (y : Core) : Core := { past (gSet y d (BitVec.ofNat 64 old)) with wait := .none }
    let ge := (BitVec.ofNat 32 old - BitVec.ofNat 32 v).toInt ≥ 0
    let isOne := slot < 65536 ∧ x.ctxPart ≠ 0xF ∧ isTally u x.ctxPart slot = true
    (∀ e ∈ [(Instr.tallyRead c d a b fl, TallyOp.read, 0), (.tallyAdd c d a b fl, .add, 1), (.tallyWaitGe c d a b fl, .waitGe, 2)],
      (4 ≤ fl.toNat → exec e.1 s = .next (trapped s c 1 (BitVec.ofNat 64
        (0x39 * 2 ^ 24 + d.val * 2 ^ 19 + a.val * 2 ^ 14 + b.val * 2 ^ 9 + 4 * fl.toNat + e.2.2)))) ∧
      (fl.toNat < 4 → ¬ isOne → exec e.1 s = .next (trapped s c 11 (gNow s c a))) ∧
      (isOne → ∀ rel acq : Bool, fl = BitVec.ofNat 7 (2 * b2n acq + b2n rel) → (rel || acq) = true →
        let g := AfterDrain.tally e.2.1 slot d.val v acq rel
        exec e.1 s = .next (drainStart u c.val 0 0 true g) ∧
        (clean s c 0 0 true → (rel = true → x.tracker = []) → exec e.1 s = .next (tallyDo (draining s c g) c.val e.2.1 slot d.val v acq)))) ∧
    (isOne → fl = 0 →
      exec (.tallyRead c d a b fl) s = .next (became s c (got x)) ∧
      exec (.tallyAdd c d a b fl) s = .next (putCore (tallyAdd u slot v) c.val (got x)) ∧
      (ge → exec (.tallyWaitGe c d a b fl) s = .next (became s c (got x))) ∧
      (¬ ge → exec (.tallyWaitGe c d a b fl) s = .next (waits s c (.tally slot d v false))))) ∧
  (∀ (s : State) (n slot rd v : Nat) (acq : Bool),
    let x := Machine.core s n
    let got : Core := { past (gSet (if acq then l0Invalidate x 0 0 true else x) rd (BitVec.ofNat 64 (tallyValue s slot))) with wait := .none }
    tallyDo s n .read slot rd v acq = putCore s n got ∧ tallyDo s n .add slot rd v acq = putCore (tallyAdd s slot v) n got ∧
    tallyDo s n .waitGe slot rd v acq =
      putCore s n (if tallyGe (tallyValue s slot) v then got else { x with wait := .tally slot rd v acq })) ∧
  (∀ (s : State) (c : Fin 25600) (slot rd v : Nat) (acq : Bool), (Machine.core s c.val).wait = .tally slot rd v acq →
    tallyGe (tallyValue s slot) v = true →
    let x := Machine.core s c.val
    exec (.tallyWaitRelease c) s = .next (putCore s c.val
      { past (gSet (if acq then l0Invalidate x 0 0 true else x) rd (BitVec.ofNat 64 (tallyValue s slot))) with wait := .none }))

/-- BMOVE (R228 to R232): of length 0 it retires. A length or an address that is no multiple of 256, ranges that overlap and a range that the core
may not reach are BMOVE_FAULT, and reserved FN bits are ILLEGAL. It waits for writes that overlap its ranges, for dirty lines of its source and,
where it writes HA space, for a free entry of the range tracker; then it drops the L0 lines of its destination and takes that entry. From the
cluster store it moves its bytes at once, from HA space it waits for them piece by piece (L0_FILL_RETURN). -/
def Obligations.BaleMoves : Prop :=
  ∀ (s : State) (c : Fin 25600) (d a b : Fin 32) (fn : BitVec 9), Runs s c →
    let x := begun s c
    let u := during s c
    let src := gNow s c a
    let dst := gNow s c d
    let len := (gNow s c b).toNat
    let m : Move := { d := d, a := a, b := b, src := src.toNat, dst := dst.toNat, len := len, moved := 0, srcHint := fn.toNat % 4,
                      dstHint := fn.toNat / 4, piece := [] }
    let shape := src.toNat % 256 = 0 ∧ dst.toNat % 256 = 0 ∧ len % 256 = 0 ∧ rangesMeet src.toNat len dst.toNat len = false
    let reach := moveReach u x src len false = true ∧ moveReach u x dst len true = true
    let dirty := (l0In x src.toNat len false).any (fun l => l.dirty != 0)
    let far := dst.toNat < 2 ^ 52
    let y := l0Invalidate x dst.toNat len false
    let z : Core := { y with wait := .move m, sent := false }
    let w : Core := { z with tracker := y.tracker ++ [{ lo := dst.toNat, len := len, writes := [], more := true }] }
    (16 ≤ fn.toNat → exec (.bmove c d a b fn) s = .next (trapped s c 1 (BitVec.ofNat 64
      (0x38 * 2 ^ 24 + d.val * 2 ^ 19 + a.val * 2 ^ 14 + b.val * 2 ^ 9 + fn.toNat)))) ∧
    (fn.toNat < 16 → len = 0 → exec (.bmove c d a b fn) s = .next (became s c (past x))) ∧
    (fn.toNat < 16 → len ≠ 0 → ¬ shape → exec (.bmove c d a b fn) s = .next (trapped s c 12 src)) ∧
    (fn.toNat < 16 → len ≠ 0 → shape → ¬ reach → exec (.bmove c d a b fn) s =
      .next (raise (moveFault (moveFault u x c.val src len false) x c.val dst len true) c.val 12 src)) ∧
    (fn.toNat < 16 → len ≠ 0 → shape → reach →
      (trackedAt x src.toNat len = true → exec (.bmove c d a b fn) s = .next (waits s c (.tracked src.toNat len))) ∧
      (trackedAt x src.toNat len = false → trackedAt x dst.toNat len = true →
        exec (.bmove c d a b fn) s = .next (waits s c (.tracked dst.toNat len))) ∧
      (trackedAt x src.toNat len = false → trackedAt x dst.toNat len = false →
        (dirty = true → exec (.bmove c d a b fn) s = .next (drainStart u c.val src.toNat len false .again)) ∧
        (dirty = false → far → 8 ≤ x.tracker.length → exec (.bmove c d a b fn) s = .next (waits s c .trackRoom)) ∧
        (dirty = false → ¬ far →
          (∀ o, placeOf src = .store o →
            exec (.bmove c d a b fn) s = .next (movePiece (became s c z) c.val m (storeBytes (became s c z) (c.val / 16) o len))) ∧
          (∀ h, placeOf src = .ha h → exec (.bmove c d a b fn) s = .next (became s c z))) ∧
        (dirty = false → far → x.tracker.length < 8 →
          (∀ o, placeOf src = .store o →
            exec (.bmove c d a b fn) s = .next (movePiece (became s c w) c.val m (storeBytes (became s c w) (c.val / 16) o len))) ∧
          (∀ h, placeOf src = .ha h → exec (.bmove c d a b fn) s = .next (became s c w)))))

/-- The CMA instructions (R254, R255): ISSUE takes the lower free buffer and queues the command; WAIT and POLL give a tag's status, WAIT once it is
no longer PENDING; an offset that is no multiple of 64 or lies beyond the cluster store is CMA_FAULT; with both buffers held ISSUE waits. -/
def Obligations.CmaInstructions : Prop :=
  ∀ (s : State) (c : Fin 25600) (d a : Fin 32), Runs s c →
    let x := begun s c
    let off := (gNow s c a).toNat
    let st := tagStatus x (c.val % 16) off
    (off % 64 ≠ 0 ∨ 0x20000 ≤ off → exec (.cmaIssue c d a) s = .next (trapped s c 13 (gNow s c a))) ∧
    (off % 64 = 0 → off < 0x20000 → freeBuffer x = none → exec (.cmaIssue c d a) s = .next (waits s c .cmaRoom)) ∧
    (off % 64 = 0 → off < 0x20000 → ∀ n, freeBuffer x = some n → exec (.cmaIssue c d a) s =
      .next (putCore (modCluster (during s c) (c.val / 16) (fun k => { k with cma := k.cma ++ [{ tag := 2 * (c.val % 16) + n, off := off }] })) c.val
        (past (gSet { x with tags := listSet x.tags n .pending } d (BitVec.ofNat 64 (2 * (c.val % 16) + n)))))) ∧
    (st ≠ .pending → exec (.cmaWait c d a) s = .next (wroteG s c d (BitVec.ofNat 64 st.code))) ∧
    (st = .pending → exec (.cmaWait c d a) s = .next (waits s c (.cma d off))) ∧
    exec (.cmaPoll c d a) s = .next (wroteG s c d (BitVec.ofNat 64 st.code))

/-! ### Events of the porter clusters -/

/-- The ends of a cluster's CMA commands and waits (R254 to R258): the oldest command ends DONE, with its results left in the buffer of its tag and
from there written to the cluster store, or MALFORMED with nothing written; a core that waits for a tag gets its status.
Its clauses rest in places on the model's own choices: log entry 132. -/
def Obligations.CmaEnds : Prop :=
  (∀ (s : State) (k : Fin 1600) (q : CmaCmd) (rest : List CmaCmd), (Machine.cluster s k.val).cma = q :: rest →
    let x := Machine.cluster s k.val
    let u := putCluster s k { x with cma := rest }
    let n := 16 * k.val + q.tag / 2
    let desc := cmaOf ((span q.off 64).map (smGet 0 x.store))
    (desc = none → exec (.cmaCommandDone k) s = .next (tagSettled (bump u ⟨.prtClCmaMalformed, 0, k⟩ 1) n (q.tag % 2) .malformed)) ∧
    (∀ m, desc = some m → exec (.cmaCommandDone k) s =
      .next (tagSettled (bump (cmaWriteOut (cmaFinish u k q.tag m) k q.tag m) ⟨.prtClCmaBusy, 0, k⟩
        ((if m.a.elem.is8 then 2 * m.k else m.k) + 40)) n (q.tag % 2) .done))) ∧
  (∀ (s : State) (c : Fin 25600) (rd tag : Nat), (Machine.core s c.val).wait = .cma rd tag →
    tagStatus (Machine.core s c.val) (c.val % 16) tag ≠ .pending →
    let x := Machine.core s c.val
    exec (.cmaWaitRelease c) s = .next (putCore s c.val
      { past (gSet x rd (BitVec.ofNat 64 (tagStatus x (c.val % 16) tag).code)) with wait := .none }))

/-- The timer and the soft interrupts (R244, R266, R271): TIMER_EXPIRY brings hub time to PRT_C_TIMECMP of a core and pends TIMER there; a write of
PRT_CL_SOFT from outside the cluster pends SOFT on the cores that its mask names.
Its clauses rest in places on the model's own choices: log entry 69. -/
def Obligations.TimerAndSoft : Prop :=
  (∀ (s : State) (c : Fin 25600), coreActive s c.val = true → (Machine.core s c.val).pending.getLsbD 3 = false →
    exec (.timerExpiry c) s = .next (pendCore (advance s (Machine.core s c.val).timecmp.toNat) c.val 0b01000#5)) ∧
  (∀ (s : State) (k : Fin 1600) (mask : BitVec 16),
    exec (.softRaise k mask) s = .next (softRaise { s with free := s.free + 1 } k mask.toNat (Config.freeNat s.free)))

/-- A line comes back to a core that waits for it, and a tracked write is accepted (R228 to R232, R245, R246, R252). The line of a load or a store is
placed in the L0 data cache and the access takes place; a piece of a BMOVE grows by the line and is written once it has 256 bytes; a read that
was answered LATE raises READ_LATE, and one that failed raises READ_ERROR and its status is latched by the cluster; a delivery after the
deadline is counted (R67). An accepted write leaves the tracker, an error status of it is latched, and what waited for the tracker goes on.
Its clauses rest in places on the model's own choices: log entry 68. -/
def Obligations.FillsAndAcceptances : Prop :=
  (∀ (s : State) (c : Fin 25600) (line dl hint : Nat) (a : Answer), awaitedRead (Machine.core s c.val) = some (line, dl, hint) →
    answerOf s c.val line false = some a →
    let x := Machine.core s c.val
    let u := dropAnswer s a
    let v := if passed u a.deadline && a.status == .complete then bump u ⟨.tolLateDelivered, 0, initPart u a.init⟩ 1 else u
    (∀ op, x.wait = .fill op →
      (a.status ≠ .complete → exec (.l0FillReturn c) s = .next (readFails v c.val a.status op.addr)) ∧
      (a.status = .complete →
        let half := BitVec.ofNat 512 (a.data.toNat / 2 ^ (512 * (op.addr / 64 % 2)))
        let l : L0Line := { line := op.addr / 64, data := half }
        ∀ t y k, l0Install v x l = some (t, y, k) → exec (.l0FillReturn c) s = .next (putCore t c.val (lineAccess y op k l)))) ∧
    (∀ m, x.wait = .move m →
      (a.status ≠ .complete → exec (.l0FillReturn c) s =
        .next (readFails (putCore v c.val (moveStop x m)) c.val a.status (m.src + m.moved))) ∧
      (a.status = .complete →
        let piece := m.piece ++ lineBytes a.data
        (piece.length < 256 → exec (.l0FillReturn c) s = .next (putCore v c.val { x with wait := .move { m with piece := piece }, sent := false })) ∧
        (256 ≤ piece.length → exec (.l0FillReturn c) s = .next (movePiece v c.val m piece))))) ∧
  (∀ (s : State) (n a : Nat) (st : Status), readFails s n .late a = raise s n 14 (BitVec.ofNat 64 a) ∧
    (st ≠ .late → readFails s n st a = modCore (clusterLatch s n st) n (fun x => trap x false st.code 15 (BitVec.ofNat 64 a) x.pc 0))) ∧
  (∀ (s : State) (c : Fin 25600) (a : Answer), s.mem.answers.find? (fun a => a.who == .core c.val && a.write) = some a →
    let u := dropAnswer s a
    let u := if a.status = .complete then u else clusterLatch u c.val a.status
    exec (.writeAccepted c) s =
      .next (trackerFreed (modCore u c.val (fun x => trackTidy { x with tracker := writeGone a.line x.tracker })) c.val))

/-- Faults of a core (R243, R244, R261 to R263) and the release of a wave (R260). A parity error of a register, a failed self-test before the cluster
is loaded and a dirty line's parity error are a core fault; a parity error of a clean line of either L0 cache drops the line and is counted.
A machine check that the core may take is a trap with the structure's name, which ends a BMOVE where it stands; while CANCEL is due, or in
runtime mode with interrupts off, it is a core fault. The clusters of a wave begin their boot at the wave's time.
Its clauses rest in places on the model's own choices: log entry 132. -/
def Obligations.CoreFaultsAndWaves : Prop :=
  (∀ (s : State) (c : Fin 25600), (Machine.core s c.val).halted = false →
    let x := Machine.core s c.val
    let failed := Host.Outcome.next (Machine.coreFault s c.val)
    exec (.coreFault c .register) s = failed ∧
    ((Machine.cluster s (c.val / 16)).loaded = false → exec (.coreFault c .selfTest) s = failed) ∧
    (∀ l k y, l0Find x l = some (k, y) →
      (y.dirty = 0 → exec (.coreFault c (.line l)) s = .next (bump (putCore s c.val (l0Put x k none)) ⟨.prtClL0Parity, 0, c.val / 16⟩ 1)) ∧
      (y.dirty ≠ 0 → exec (.coreFault c (.line l)) s = failed)) ∧
    (∀ l, x.l0i.contains l = true → exec (.coreFault c (.codeLine l)) s =
      .next (bump (putCore s c.val { x with l0i := x.l0i.filter (fun k => k != l) }) ⟨.prtClL0Parity, 0, c.val / 16⟩ 1)) ∧
    (∀ w, ((x.user || x.ie) = false ∨ cancelDue s x = true → exec (.coreFault c (.machineCheck w)) s = failed) ∧
      ((x.user || x.ie) = true → cancelDue s x = false →
        let y := match x.wait with | .move m => moveStop x m | _ => x
        exec (.coreFault c (.machineCheck w)) s = .next (putCore (dropReads s c.val) c.val (trap y false 0 16 w y.pc 0))))) ∧
  (∀ (s : State) (w t : Nat), s.prt.fetchAt = some t → w < s.prt.waves → s.prt.released.contains w = false →
    let u := { advance s (t + w * s.prt.interval * 1000) with prt := { s.prt with released := setAdd s.prt.released w } }
    exec (.waveRelease w) s = .next (((span 0 1600).filter (fun k => k % s.prt.waves == w && tileLicensed u (k / 10) &&
      !(Machine.cluster u k).loaded && !(Machine.cluster u k).out)).foldl bootCluster u))

/-! ### The home of a line, HBM and the tier engines -/

/-- The requests of the cores at their home (R62, R72, R231, R325): the read that a core waits for leaves its cluster once, with its deadline;
a write of the range tracker goes as WR_FULL where its mask is whole, else as WR_PART, and what a step has written is remembered while it runs
(R60). Each passes its initiator's admission point at once, with its priority, where its toll and an earlier request let it, else it joins the
requests held there.
Its clauses rest in places on the model's own choices: log entries 26, 27. -/
def Obligations.CoreRequests : Prop :=
  (∀ (s : State) (c : Fin 25600) (line dl hint : Nat), awaitedRead (Machine.core s c.val) = some (line, dl, hint) → (Machine.core s c.val).sent = false →
    exec (.homeRead c) s = .next (settle (presentReq (putCore s c.val { Machine.core s c.val with sent := true })
      { who := .core c.val, op := .rdCur, line := line, hint := hint, deadline := deadlineAt s dl, init := initCluster (c.val / 16) }
      0 (match (Machine.core s c.val).wait with | .fill _ => 64 | _ => 128)))) ∧
  (∀ (s : State) (c : Fin 25600) (line : Nat) (w : LineWrite), nextWrite (Machine.core s c.val) line = some w →
    let noted := if w.step then modCluster s (c.val / 16) (fun k => if k.running.isSome then { k with written := k.written ++ [(line, w.mask)] } else k)
      else s
    exec (.homeWrite c line) s = .next (settle (presentReq
      (putCore noted c.val { Machine.core s c.val with tracker := markSent line (Machine.core s c.val).tracker })
      { who := .core c.val, op := if w.mask = BitVec.allOnes 128 then .wrFull else .wrPart, line := line, data := w.data, mask := w.mask,
        hint := w.hint, init := initCluster (c.val / 16) } 0 (maskCount w.mask)))) ∧
  (∀ (s : State) (r : Req) (cls bytes : Nat),
    let p := initPart s r.init
    (admissionHeld s r.init p = false → admission s r.init p cls ≠ .held →
      presentReq s r cls bytes = forward (charge s r.init p cls bytes) { r with guar := admission s r.init p cls == .guaranteed }) ∧
    (admissionHeld s r.init p = true ∨ admission s r.init p cls = .held →
      presentReq s r cls bytes = { s with stage := { s.stage with held :=
        s.stage.held ++ [{ init := r.init, part := p, cls := cls, bytes := bytes, req := r }] } }))

/-- Events at a home (R39, R64, R65, R326, R327, R330, R336, R363, R395, R444, R452, R547): the next held request of a line is taken up; the data of a
miss is placed and serves its requests, or serves them from HBM where the partition's lines find no way, or asks a bale to leave first, or ends
them all with the status; a held read whose deadline has passed is dropped, wherever it waits; lost read data ends the read UNCORRECTABLE, lost
write data poisons the line too, a lost control message is counted, and its request ends ABORTED at the response timeout, a write then being
applied or not; a histogram's selector clears its bins; the sweep of ways and the zeroing of a granule end.
Its clauses rest in places on the model's own choices: log entries 26, 71, 83, 123. -/
def Obligations.HomeEvents : Prop :=
  (∀ (s u : State) (line : Nat), nextHeld s line = some u → exec (.lineUnbusy line) s = .next (settle (serveHeld 16 u line))) ∧
  (∀ (s : State) (line : Nat) (t : Txn), txnFind s line = some t → t.missing = true → isHbm (lineHa line) = true →
    (∀ st, t.hbmDone = some st → st ≠ .complete → exec (.missFillReturn line) s = .next (settle (failTxn s t st))) ∧
    (t.hbmDone = some .complete → (lowerLine s line).2 = true → exec (.missFillReturn line) s = .next (settle (failTxn s t .uncorrectable))) ∧
    (t.hbmDone = some .complete → (lowerLine s line).2 = false →
      let found := seraiAlloc s line ((t.req.map Req.hint).getD 0) (lowerLine s line).1 false false
      (∀ w u, found = .way w u → exec (.missFillReturn line) s = .next (settle (serveMiss u line))) ∧
      (∀ b, found = .bale b → exec (.missFillReturn line) s = .next (settle (askLeave s b))) ∧
      (found = .noWay → bypasses s line = true →
        exec (.missFillReturn line) s = .next (settle (serveUnplaced s t (lowerLine s line).1))))) ∧
  (∀ (s : State) (who : Issuer) (line : Nat) (h : HeldReq), s.stage.held.find? (fun h => !h.instant && h.req.isLate who line) = some h →
    let u := advance s h.req.deadline
    exec (.deadlineExpiry who line) s =
      .next (dropLate { u with stage := { u.stage with held := listDelFirst (fun q => q == h) u.stage.held } } h.req)) ∧
  (∀ (s : State) (who : Issuer) (line : Nat), s.stage.held.find? (fun h => !h.instant && h.req.isLate who line) = none →
    (∀ r, s.mem.heldIn.find? (fun r => r.isLate who line) = some r →
      let u := advance s r.deadline
      exec (.deadlineExpiry who line) s = .next (dropLate { u with mem := { u.mem with heldIn := listDelFirst (fun q => q == r) u.mem.heldIn } } r)) ∧
    (s.mem.heldIn.find? (fun r => r.isLate who line) = none → ∀ t, txnFind s line = some t →
      (∀ r, t.merged.find? (fun r => r.isLate who line) = some r → exec (.deadlineExpiry who line) s = .next (dropLate (txnPut (advance s r.deadline)
        { t with merged := listModFirst (fun q => q == r) (fun q => { q with dropped := true }) t.merged }) r)) ∧
      (t.merged.find? (fun r => r.isLate who line) = none → ∀ r, t.req = some r → t.missing = true → r.isLate who line = true →
        exec (.deadlineExpiry who line) s = .next (dropLate (txnPut (advance s r.deadline) { t with req := some { r with dropped := true } }) r)))) ∧
  (∀ (s : State) (crc : Bool) (site : LostAt) (c line : Nat), placeOccurs site = true →
    let log (u : State) : State :=
      let v := nocLastErr u (if crc then 2 else 1) site.net site.plane site.channel site.tile site.port
      if crc then setStatus (bump v ⟨.nocErrCrc, 0, 0⟩ 1) ⟨.nocIntStatus, 0, 0⟩ 1 0 0
      else setStatus (bump v ⟨.nocErrUe, 0, 0⟩ 1) ⟨.nocIntStatus, 0, 0⟩ 0 0 0
    (∀ u, replaceAnswer s c line false .uncorrectable = some u → exec (.packetError crc site (.readData c line)) s = .next (log u)) ∧
    (∀ u, replaceAnswer s c line true .uncorrectable = some u →
      exec (.packetError crc site (.writeData c line)) s = .next (log (poisonHome u line))) ∧
    exec (.packetError crc site .control) s = .next (log s)) ∧
  (∀ (s u : State) (who : Issuer) (line : Nat) (r : Req), lostRequest s who line = some (r, u) →
    let v := (draw (setStatus (bump (nocLastErr u 3 0 0 3 0 0) ⟨.nocRspTimeout, 0, 0⟩ 1) ⟨.nocIntStatus, 0, 0⟩ 2 0 0)).2
    (r.isWrite = false → exec (.responseTimeout who line) s = .next (settle (answerCmp v r .aborted 0))) ∧
    (r.isWrite = true → exec (.responseTimeout who line) s = .next (settle (answerCmp v r .aborted 0)) ∨
      ∃ w, applyWrite v r = .done w ∧ exec (.responseTimeout who line) s = .next (settle (answerCmp w r .aborted 0)))) ∧
  (∀ (s : State) (n : Fin 8) (v : BitVec 32), exec (.nocHistSelWrite n v) s = .next ((span 0 32).foldl (fun s k => regPut s ⟨.nocHistBin, 0, 32 * n.val + k⟩ 0)
    (regPut s ⟨.nocHistSel, 0, n⟩ (v.toNat % 2 ^ 14 + bitsOf v.toNat 31 31 * 2 ^ 31)))) ∧
  (∀ s : State, s.mem.sweep ≠ [] →
    let one (u : State) (e : Nat × SeraiLine) : State := if isTier (lineHa e.2.line) then (if wayAllows u e.1 e.2.line then u else askLeave u e.2.line)
      else if isImage (lineHa e.2.line) then u
      else if wayAllows (seraiClean u e.2.line) e.1 e.2.line then seraiClean u e.2.line else seraiDrop (seraiClean u e.2.line) e.2.line
    let u := (seraiWhere s (fun _ _ w _ => s.mem.sweep.contains w)).foldl one s
    exec .waySweepDone s = .next (settle { u with mem := { u.mem with sweep := [] } })) ∧
  (∀ (s : State) (g n : Nat), smGet none s.work.zeroing g = some n → exec (.granuleZeroingDone g) s =
    .next { putHbm s (zeroGranule (hbm s) g) with work := { s.work with zeroing := smSet none s.work.zeroing g none } })

/-- HBM's controller (R30, R39, R345 to R352, R357, R358, R360 to R363): a read or a write-back of a line takes one of its pseudo-channel's 32 places,
or waits for one behind the requests that wait already; a read is issued, or freed where every request of it has been dropped; the direction
turns; read data ends the read with the outcome of its two sectors; a write-back stores the line and frees its buffer; a refresh closes
the bank's row. Its clauses rest in places on the model's own choices: log entries 81, 122. -/
def Obligations.HbmController : Prop :=
  (∀ (s : State) (line h : Nat) (port : Fin 4) (p : HbmPlace), isHbm (lineHa line) = true → hbmPlace s (lineHa line) = some (h, p) →
    (stackOf s h).inService = true → (stackOf s h).selfRefresh = false →
    let e (w : Bool) : HbmEntry :=
      { stack := h, pc := p.pc, bank := p.bank, row := p.row, line := line, isWrite := w, port := port, arrived := s.stage.hubTime }
    let room := (pcEntries s h p.pc).length < 32 ∧ s.mem.hbmHeld.any (fun x => x.stack == h && x.pc == p.pc) = false
    (∀ t, txnFind s line = some t → t.missing = true → t.hbmSent = false →
      let u := txnPut s { t with hbmSent := true }
      (room → exec (.hbmRequest ⟨line, port⟩ false) s = .next { u with mem := { u.mem with entries := s.mem.entries ++ [e false] } }) ∧
      (¬ room → exec (.hbmRequest ⟨line, port⟩ false) s = .next { u with mem := { u.mem with hbmHeld := s.mem.hbmHeld ++ [e false] } })) ∧
    (((s.mem.entries ++ s.mem.hbmHeld).filter (fun e => e.line == line && e.isWrite)).length < (s.mem.wbBufs.filter (fun b => b.line == line)).length →
      (room → exec (.hbmRequest ⟨line, port⟩ true) s = .next { s with mem := { s.mem with entries := s.mem.entries ++ [e true] } }) ∧
      (¬ room → exec (.hbmRequest ⟨line, port⟩ true) s = .next { s with mem := { s.mem with hbmHeld := s.mem.hbmHeld ++ [e true] } }))) ∧
  (∀ (s : State) (h : Fin 8) (pc : Fin 64) (e : HbmEntry), smGet 0 (stackOf s h).writing pc = 0 →
    nextEntry s ((pcEntries s h pc).filter (fun e => !e.isWrite && !e.issued && !bankHeld s e)) = some e →
    let v := dropPassed s e.line
    ((entryReqs v e).all (fun r => r.dropped) = true → exec (.hbmReadIssue h pc) s = .next (settle (txnDel (dropEntry v e) e.line))) ∧
    ((entryReqs v e).all (fun r => r.dropped) = false →
      let u := openRow v e.stack e.place
      exec (.hbmReadIssue h pc) s = .next { u with mem := { u.mem with
        entries := listModFirst (fun x => x == e) (fun x => { x with issued := true }) u.mem.entries } })) ∧
  (∀ (s : State) (h : Fin 8) (pc : Fin 64),
    let writes := ((pcEntries s h pc).filter (fun e => e.isWrite)).length
    let reads := (pcEntries s h pc).filter (fun e => !e.isWrite && !e.issued)
    let n := smGet 0 (stackOf s h).writing pc
    let go (v : Nat) := bump (putStack s h { stackOf s h with writing := smSet 0 (stackOf s h).writing pc v }) ⟨.hbcTurn, h, 0⟩ 1
    (n = 0 → 12 ≤ writes ∨ (reads = [] ∧ writes ≠ 0) → exec (.hbmModeSwitch h pc) s = .next (go 1)) ∧
    (n ≠ 0 → 13 ≤ n ∨ writes = 0 ∨ reads.any (fun e => entryDeadline s e != 0) = true → exec (.hbmModeSwitch h pc) s = .next (go 0))) ∧
  (∀ (s : State) (line : Nat) (a b : SectorRead) (n : Nat) (e : HbmEntry) (t : Txn),
    s.mem.entries.find? (fun e => e.line == line && !e.isWrite && e.issued) = some e → txnFind s line = some t →
    let x := sectorEnd s (lineHa line) a
    let y := sectorEnd s (lineHa line + 64) b
    let st : Status := if x = .bad ∨ y = .bad then .uncorrectable else .complete
    let col := match hbmPlace s (lineHa line) with | some (_, p) => p.col | none => 0
    let sector (u : State) (o : SectorRead) : State := clientSector u e.stack e.place col (lineHa line) o
    exec (.hbmReadData line a b n) s = .next (bump (bump (sector (sector (txnPut (dropEntry s e) { t with hbmDone := some st, hbmPort := e.port }) x) y)
      ⟨.hbcOdeccCount, e.stack, 0⟩ n) ⟨.hbcRdBytes, e.stack, 0⟩ 128) ∧
    (∀ u, sector u .good = u)) ∧
  (∀ (s : State) (line : Nat) (e : HbmEntry) (b : WbBuf), s.mem.entries.find? (fun e => e.line == line && e.isWrite) = some e →
    s.mem.wbBufs.find? (fun b => b.line == line) = some b →
    let n := smGet 0 (stackOf s e.stack).writing e.pc
    n ≠ 0 → n < 13 → bankHeld s e = false →
    let v := lowerPut (dropEntry (openRow (putStack s e.stack { stackOf s e.stack with writing := smSet 0 (stackOf s e.stack).writing e.pc (n + 1) })
      e.stack e.place) e) line b.data b.poison
    exec (.writebackBufferFree line) s = .next (settle (bump { v with mem := { v.mem with
      wbBufs := listDelFirst (fun y => y.line == line) v.mem.wbBufs } } ⟨.hbcWrBytes, e.stack, 0⟩ 128))) ∧
  (∀ (s : State) (h : Fin 8) (pc : Fin 64) (b : Fin 16), (stackOf s h).inService = true → (stackOf s h).selfRefresh = false →
    exec (.hbmRefresh h pc b) s = .next (putStack s h { stackOf s h with openRows := smSet 0 (stackOf s h).openRows (16 * pc.val + b.val) 0 }))

/-- Scrubbing and the repair of rows (R364 to R371, R663): the patrol scrub reads the sector at its place and passes on: a good one changes nothing
else, a corrected one is counted for its row, an uncorrectable one is poisoned, its row falls due and a copy of its data is sought. A row that
is due is repaired by a spare, or retired while the table of 1,024 has room, or finds it full; the end of a repair counts and is reported.
Its clauses rest in places on the model's own choices: log entry 80. -/
def Obligations.HbmRepair : Prop :=
  (∀ (s : State) (h : Fin 8) (o : SectorRead), (stackOf s h).inService = true → (stackOf s h).selfRefresh = false →
    regBits s ⟨.hbcScrubCtrl, h, 0⟩ 31 31 = 1 → rowsOf (stackOf s h).cap ≠ 0 →
    ∀ r col k, scrubPlace (stackOf s h).cap (stackOf s h).scrubPos = (r, col, k) →
    (∀ q, (stackOf s h).repairing = some q → ¬(q.pc = r.pc ∧ q.bank = r.bank)) →
    let ha := (placeHa s h r col).map (fun a => a + 64 * k)
    let u := scrubNext s h
    let got := match ha with | some a => sectorEnd u a o | none => o
    (got = .good → exec (.patrolScrubRead h o) s = .next u) ∧
    (got = .corrected → exec (.patrolScrubRead h o) s = .next (rowCorrected (hbcLastErr (bump (bump u ⟨.hbcCeCount, h, 0⟩ 1)
      ⟨.hbcScrubCe, h, 0⟩ 1) h 1 r col) h r 1)) ∧
    (got = .bad →
      let v := hbcLastErr (bump u ⟨.hbcScrubUe, h, 0⟩ 1) h 3 r col
      (ha = none → exec (.patrolScrubRead h o) s = .next (rowDue (setStatus v ⟨.hbcIntStatus, h, 0⟩ 1 h 0) h r)) ∧
      (∀ a, ha = some a → exec (.patrolScrubRead h o) s = .next (recoverSector (rowDue (setStatus
        (putHbm v { hbm v with poison := setAdd (hbm v).poison (a / 64) }) ⟨.hbcIntStatus, h, 0⟩ 1 h a) h r) a)))) ∧
  (∀ (s : State) (h : Fin 8) (r : HbmRow) (rest : List HbmRow), (stackOf s h).due = r :: rest → (stackOf s h).inService = true →
    (stackOf s h).selfRefresh = false → (stackOf s h).repairing = none → regBits s ⟨.hbcRepairCtrl, h, 0⟩ 8 8 ≠ 0 →
    let x := { stackOf s h with due := rest, rowCount := (stackOf s h).rowCount.filter (fun p => p.1 != r) }
    exec (.rowRepair h true) s = .next (putStack s h { x with repairing := some r, sparesUsed := smMod 0 x.sparesUsed (16 * r.pc + r.bank) (· + 1) }) ∧
    (x.retired.length < 1024 → exec (.rowRepair h false) s =
      .next (setStatus (hbcLastErr (putStack s h { x with retired := x.retired ++ [r] }) h 5 r 0) ⟨.hbcIntStatus, h, 0⟩ 3 h 0)) ∧
    (1024 ≤ x.retired.length → exec (.rowRepair h false) s = .next (setStatus (putStack s h { x with retireFull := true }) ⟨.hbcIntStatus, h, 0⟩ 4 h 0))) ∧
  (∀ (s : State) (h : Fin 8) (r : HbmRow), (stackOf s h).repairing = some r →
    let u := putStack s h { stackOf s h with repairing := none, unfused := (stackOf s h).unfused ++ [r] }
    exec (.rowRepairDone h) s = .next (setStatus (hbcLastErr (regSetBits u ⟨.hbcRepairStatus, h, 0⟩ 20 10
      (satAdd 11 (regBits u ⟨.hbcRepairStatus, h, 0⟩ 20 10) 1)) h 4 r 0) ⟨.hbcIntStatus, h, 0⟩ 2 h 0))

/-- The tier commands of a TIER step (R296 to R301): the next command of the oldest such step is read once its toll admits it, and queues its
operation for each of its bales; ADVISE replaces the advice entry whole, and DONATE the park table once the commands before it have ended.
A malformed command stops the step with ABORTED, one outside the step's windows with TRANSLATION_FAULT, one that cannot be read with the
status of the read. Its clauses rest in places on the model's own choices: log entry 130. -/
def Obligations.TierCommands : Prop :=
  ∀ (s : State) (q cmds n : Nat) (x : Step) (c : Context), tierStepOf s q = some x → x.body = .tier cmds n → context s x.ctx = some c →
    let a := cmds + 32 * x.progress
    let all := [Instr.prefetch q, .writeback q, .tierEvict q, .tierDiscard q, .moveC q, .initC q, .advise q, .donate q]
    (inWindows s x.part x.ctx a 32 = false → ∀ i ∈ all,
      exec i s = .next (stopTierStep (if mapped s a then s else logUnmapped s (initTier 0) a) x .translationFault)) ∧
    (inWindows s x.part x.ctx a 32 = true → ∀ g, gate s (.tier 0) (listKey x.id) (initTier 0) 0 32 = (g, true) →
      (∀ u st, readNow g a 32 0 = .bad u st → ∀ i ∈ all, exec i s = .next (stopTierStep u x st)) ∧
      (∀ u b, readNow g a 32 0 = .done u b →
        let k := tierCmdOf b
        let v := modStep u x.id (fun x => { x with progress := x.progress + 1 })
        let queued (kind : Nat → TierKind) : Host.Outcome State Fault Refusal := .next (settle (queueAll c x k kind v))
        (k.malformed u c = true → ∀ i ∈ all, exec i s = .next (stopTierStep u x .aborted)) ∧
        (k.malformed u c = false →
          (k.op = 1 → exec (.prefetch q) s = .next (settle (k.bales.foldl (fun s b =>
            queueOp s x.ctx c.fn b.1 (.fill (fillHint s c.fn b.1 k.hint)) (some x.id)) v))) ∧
          (k.op = 2 → exec (.writeback q) s = queued (fun _ => .writeback)) ∧
          (k.op = 3 → exec (.tierEvict q) s = queued (fun _ => .evict)) ∧
          (k.op = 4 → exec (.tierDiscard q) s = queued (fun _ => .discard)) ∧
          (k.op = 5 → exec (.moveC q) s = queued (fun slot => .move slot k.tier)) ∧
          (k.op = 6 → exec (.initC q) s = queued (fun slot => .initBale slot k.tier k.fill k.fmt)) ∧
          (k.op = 7 →
            let e : Advice := if k.count = 0 then {} else { fn := c.fn, lo := baleNum k.ha, hi := baleNum k.ha + k.count - 1, hint := k.hint }
            exec (.advise q) s = .next (settle { v with tier := { v.tier with advice := smSet {} v.tier.advice (16 * x.part + k.entry) e } })) ∧
          (k.op = 8 → v.tier.ops.any (fun o => o.step == some x.id) = false → exec (.donate q) s =
            .next (settle (modContext { v with tier := { v.tier with failed := [] } } x.ctx
              (fun c => { c with parkRevoked := false, tier := { c.tier with parkTable := k.table, parkSlots := k.count } })))))))

/-- The ends of tier operations (R285, R289, R293, R294, R298, R303 to R307): BALE_FILL_DONE ends a running fill with the data that its home or parking
memory gave, or with the status of its record; BALE_WRITEBACK_DONE stores a bale in its slot and leaves its record IDLE, and an eviction, once no
access of a chiplet holds the bale, drops it; BALE_MOVE_DONE stores it in the new slot; a TIER step ends with its first error once each of its
commands has ended for every bale. Its clauses rest in places on the model's own choices: log entries 61 to 63, 125, 126. -/
def Obligations.TierEnds : Prop :=
  (∀ (s : State) (fn bale : Nat) (nib byt : List Nat) (o : TierOp) (x : Context), runningOp s fn bale = some o → context s o.ctx = some x →
    (∀ h p, o.kind = .fill h → parkResult s o = some p → exec (.baleFillDone fn bale) s = .next (settle (finishFill s x o h p))) ∧
    (o.kind = .writeback → exec (.baleWritebackDone fn bale nib byt) s = .next (settle (finishWriteback s x o nib byt false false))) ∧
    (o.kind = .evict ∨ o.kind = .replace → baleBusy s fn bale = false → exec (.baleWritebackDone fn bale nib byt) s =
      .next (settle (finishWriteback (recallBale s fn bale true) x o nib byt true (o.kind = .replace)))) ∧
    (∀ slot tier p, o.kind = .move slot tier → parkResult s o = some p →
      exec (.baleMoveDone fn bale nib byt) s = .next (settle (finishMove s x o slot tier p nib byt)))) ∧
  (∀ (s : State) (x : Context) (o : TierOp) (h : Nat) (p : Fetched),
    (readRec s x o.bale = .badCrc → finishFill s x o h p = fillFails (tierError s o.fn 3 o.bale) o .tierError) ∧
    (∀ r, readRec s x o.bale = .badField r → finishFill s x o h p = fillTierError s x o r) ∧
    (∀ r, readRec s x o.bale = .good r →
      (r.poison = true → finishFill s x o h p = fillFails s o (poisonStatus r)) ∧
      (r.poison = false → r.tier = 1 → r.units = 0 → finishFill s x o h p = fillExpand s s x o h r []) ∧
      (r.poison = false → r.tier = 1 → r.units ≠ 0 → ∀ u b, slotBytes s x r.slot r.units = (u, some b) →
        finishFill s x o h p = fillExpand s u x o h r b) ∧
      (r.poison = false → r.tier = 2 → (x.parkRevoked = true ∨ (r.units ≠ 0 ∧ parkOpen s x = false)) →
        finishFill s x o h p = fillFails (tierError s o.fn 2 o.bale) o .tierError))) ∧
  (∀ (s u : State) (x : Context) (o : TierOp) (nib byt : List Nat) (leave lose : Bool) (r : Rec), readRec s x o.bale = .good r →
    (r.tier = 2 → parkOpen s x = true) →
    let bs := baleBytes s o.fn o.bale
    let k := choosePacking s x nib byt bs
    slotWrites s x o r.tier r.slot (2048 * k.units) = (u, true) →
    let v := writeRec (putSlotBytes u x r.tier r.slot k.payload) x o.bale (packedRec r r.tier r.slot k bs)
    let w := bump (cleanBale v o.fn o.bale) ⟨.tirWritebacks, 0, o.fn⟩ 1
    finishWriteback s x o nib byt leave lose = opEnd (if leave then dropBale w o.fn o.bale else w) o .complete) ∧
  (∀ (s : State) (q : Nat) (x : Step), s.work.steps.find? (fun x => x.queue == q && x.begun && match x.body with
      | .tier _ n => decide (n ≤ x.progress) && !s.tier.ops.any (fun o => o.step == some x.id) | _ => false) = some x →
    exec (.tierStepCommit q) s = .next (settle (commitStep s x x.err)))

/-- The maintenance interface (R331 to R335, R337, R665): a write of GO runs its operation over the function's scope, or RESULT says why not; the
end of a command, once it waits for nothing in scope, leaves counts and a result, and raises the function's vector 7; a row that fails is
replaced by a spare row of its slice, or puts its way of the slice out.
Its clauses rest in places on the model's own choices: log entries 42, 82, 84. -/
def Obligations.Maintenance : Prop :=
  (∀ (s : State) (fn : Fin 9) (w : Bool),
    exec (.clean fn w) s = .next (settle (maintGo s fn 1 w)) ∧ exec (.inv fn w) s = .next (settle (maintGo s fn 2 w)) ∧
    exec (.cleanInv fn w) s = .next (settle (maintGo s fn 3 w)) ∧ exec (.preloadLock fn w) s = .next (settle (maintGo s fn 4 w)) ∧
    exec (.unlock fn w) s = .next (settle (maintGo s fn 5 w)) ∧
    (∀ op < 8,
      let u := regSetBits (regSetBits s ⟨.sriMaintCmd, 0, fn⟩ 4 4 (b2n w)) ⟨.sriMaintCmd, 0, fn⟩ 2 0 op
      (∀ m, smGet none s.mem.maint fn.val = some m → maintGo s fn op w = maintResult u fn 3) ∧
      (smGet none s.mem.maint fn.val = none → ∀ r, maintRefusal u fn op w = some r → maintGo s fn op w = maintResult u fn r) ∧
      (smGet none s.mem.maint fn.val = none → maintRefusal u fn op w = none → (op = 1 ∨ op = 2 ∨ op = 3 → maintBales u (maintScope u fn op w) = []) →
        let v := regPut (regSetBits u ⟨.sriMaintStatus, 0, fn⟩ 0 0 1) ⟨.sriMaintCount, 0, fn⟩ 0
        maintGo s fn op w = { v with mem := { v.mem with maint := smSet none v.mem.maint fn.val (some (maintScope u fn op w)) } }))) ∧
  (∀ (s : State) (fn : Fin 9) (m : Maint), smGet none s.mem.maint fn.val = some m → maintWaits s fn m = false →
    ∀ u done missed, maintRun s fn m = (u, done, missed) →
    let v := { u with mem := { u.mem with maint := smSet none u.mem.maint fn.val none } }
    let v := regPut v ⟨.sriMaintCount, 0, fn⟩ (min missed (2 ^ 32 - 1) * 2 ^ 32 + min done (2 ^ 32 - 1))
    let v := maintResult (regSetBits v ⟨.sriMaintStatus, 0, fn⟩ 0 0 0) fn (if m.error then 6 else if missed ≠ 0 then 4 else 0)
    exec (.maintDone fn) s = .next (settle (raiseVector (if missed ≠ 0 then setStatus v ⟨.sriIntStatus, 0, 0⟩ 0 fn 0 else v) fn 7))) ∧
  (∀ (s : State) (t : Fin 160) (w : Fin 16), s.flt.halted = false → bitOf (smGet 0 s.mem.wayOff t) w = false →
    (smGet 0 s.mem.rowsUsed t.val < 15 → exec (.seraiRowFail t w) s = .next (settle (setStatus { s with mem := { s.mem with
      rowsUsed := smMod 0 s.mem.rowsUsed t.val (· + 1) } } ⟨.sriIntStatus, 0, 0⟩ 1 t 0))) ∧
    (15 ≤ smGet 0 s.mem.rowsUsed t.val → exec (.seraiRowFail t w) s = .next (settle (disableWay s t w).1)))

/-! ### Chiplets: coherence, domains, links and the seam -/

/-- The requests of the coherent class (R385, R390, R470 to R473): a message that arrives with the credits that it needs is answered ABORTED
where its header is malformed, TRANSLATION_FAULT where the chiplet is in no domain, may not reach the address or the address is
unmapped (which is logged too), DOMAIN_DOWN where the domain is not UP; else it is taken and presented at the home of its line with
its data, byte mask, hint, deadline and toll class. A header of another class or opcode is no such command.
Its clauses rest in places on the model's own choices: log entries 26, 39, 122. -/
def Obligations.ChipletRequests : Prop :=
  ∀ (s : State) (k : Fin 8) (m : Fin 4) (h : BitVec 128) (data : BitVec 1024) (mask : BitVec 128),
    ∀ e ∈ [(Instr.rdCur k m h, ReqOp.rdCur, 1, 0, 0, 128), (.rdShared k m h, .rdShared, 2, 0, 0, 128), (.rdOwn k m h, .rdOwn, 3, 0, 0, 128),
        (.upgrade k m h, .upgrade, 4, 0, 0, 0), (.wbDirty k m h data, .wbDirty, 5, data, 0, 128), (.evict k m h, .evict, 6, 0, 0, 0),
        (.wrFull k m h data, .wrFull, 7, data, BitVec.allOnes 128, 128), (.wrPart k m h data mask, .wrPart, 8, data, mask, maskCount mask)],
      let (i, op, code, d, b, bytes) := e
      let n := dataSlots op
      let u := received s k
      (isMessage h 0 code = false → exec i s = .refused .illFormed) ∧
      (isMessage h 0 code = true → canReceive s k m = true → creditsFor s (chipSite s k) n = true →
        (malformedHdr u k h n 128 = true → exec i s = .next (settle (refuseMalformed u k h n))) ∧
        (malformedHdr u k h n 128 = false →
          (siteDomain u k = none → exec i s = .next (settle (refuseAddress u k h n))) ∧
          (∀ q, siteDomain u k = some q →
            ((domain u q).st ≠ .up → exec i s = .next (settle (refuseRequest u k h n .domainDown))) ∧
            ((domain u q).st = .up →
              (domainHolds u q (hAddr h) = false ∨ mapped u (hAddr h) = false → exec i s = .next (settle (refuseAddress u k h n))) ∧
              (domainHolds u q (hAddr h) = true → mapped u (hAddr h) = true →
                let v := takeRequest u h n
                let r : Req := { who := .chiplet (chipSite v k) (hTag h), op := op, line := hAddr h / 128, data := d, mask := b,
                                 hint := hHint h, deadline := deadlineAt v (hDeadline h), init := hInit h, via := k }
                exec i s = .next (settle (presentReq v r (hToll h) bytes)))))))

/-- Snoop responses and FWD_ACK (R386, R387, R389, R391, R398, R402): a response that its open snoop admits changes the holder's entry, returns
the data it carries and lets the transaction go on; FWD_MISS takes the request up again; the requester's acknowledgement starts its
hold, and a delivery past the deadline counts; a response that no snoop awaits, or that the snoop does not admit, and an acknowledgement that
nothing awaits are violations, which take the sender's domain down with cause 3.
Its clauses rest in places on the model's own choices: log entries 42, 79. -/
def Obligations.SnoopResponses : Prop :=
  ∀ (s : State) (k : Fin 8) (line : Nat) (st : Fin 4) (data : BitVec 1024) (p : Bool), (site s k).present = true → (site s k).inReset = false →
    let q := chipSite s k
    let u := received s k
    let bad : Host.Outcome State Fault Refusal := .next (settle (chipletDead u k 3))
    (∀ t o, txnFind u line = some t → t.snoopTo q = some o →
      let t' : Txn := { t with snoops := listDelFirst (fun x => x == o) t.snoops }
      let v := txnPut u t'
      (plainSnoop o.kind = true →
        exec (.rspI k line) s = .next (settle (txnGoOn (holderNow v line q false) line)) ∧
        exec (.rspIData k line data p) s = .next (settle (txnGoOn (returnData (holderNow v line q false) line data p) line))) ∧
      (plainSnoop o.kind = false → exec (.rspI k line) s = bad ∧ exec (.rspIData k line data p) s = bad) ∧
      (o.kind = .share →
        exec (.rspS k line) s = .next (settle (txnGoOn (holderNow v line q true) line)) ∧
        exec (.rspSData k line data p) s = .next (settle (txnGoOn (returnData (holderNow v line q true) line data p) line))) ∧
      (o.kind ≠ .share → exec (.rspS k line) s = bad ∧ exec (.rspSData k line data p) s = bad) ∧
      (stateFits st o.kind = true →
        exec (.rspFwd k line st data p) s = .next (settle (forwarded line (st == 1) data p v t' q o.kind)) ∧
        exec (.rspFwdData k line st data p) s = .next (settle (forwarded line (st == 1) data p (returnData v line data p) t' q o.kind))) ∧
      (stateFits st o.kind = false → exec (.rspFwd k line st data p) s = bad ∧ exec (.rspFwdData k line st data p) s = bad) ∧
      (forwardSnoop o.kind = true → exec (.rspFwdMiss k line) s =
        .next (settle (retake (bumpSiteDom (dirRemove v line q) .sriDirFwdMiss q) { t' with fwdAck := none, fwd := false }))) ∧
      (forwardSnoop o.kind = false → exec (.rspFwdMiss k line) s = bad)) ∧
    (∀ t r, txnFind u line = some t → t.fwdAck = some q → t.req = some r →
      let v := startHold u line q
      let v := if passed v r.deadline then bump v ⟨.tolLateDelivered, 0, initPart v r.init⟩ 1 else v
      exec (.fwdAck k line) s = .next (settle (txnGoOn (txnPut v { t with fwdAck := none }) line))) ∧
    (∀ t, txnFind u line = some t → t.fwdAck ≠ some q → exec (.fwdAck k line) s = bad) ∧
    ((txnFind u line = none ∨ ∃ t, txnFind u line = some t ∧ t.snoopTo q = none) → ∀ i ∈ [Instr.rspI k line, .rspS k line, .rspIData k line data p,
      .rspSData k line data p, .rspFwd k line st data p, .rspFwdData k line st data p, .rspFwdMiss k line], exec i s = bad) ∧
    (txnFind u line = none → exec (.fwdAck k line) s = bad)

/-- A dead chiplet and its domain (R398, R399, R402 to R408, R467): a hold that ends issues its snoop, or drops the read whose deadline has passed; a
snoop timeout, the end of link grace and FATAL take the domain of the chiplet down with causes 1, 2 and 4, DOMAIN_DOWN_COMMAND with cause
7, the reset of a site with cause 6; the sweep ends; a reset of a domain leads to the comparison of its chiplets with those known.
Its clauses rest in places on the model's own choices: log entries 43 to 45, 48. -/
def Obligations.DomainsGoDown : Prop :=
  (∀ (s : State) (k : Fin 8) (line : Nat) (t : Txn) (o : OpenSnoop), txnFind s line = some t →
    t.snoops.find? (fun o => o.site == k.val && !o.issued) = some o →
    let u := advance s o.time
    let issue (r : Option Req) : Host.Outcome State Fault Refusal :=
      .next (txnPut (mkSnoop u line k o.kind r).1 { t with snoops := listModFirst (fun x => x == o) (fun _ => (mkSnoop u line k o.kind r).2) t.snoops })
    (t.req = none → exec (.holdExpiry k line) s = issue none) ∧
    (∀ r, t.req = some r →
      (r.isRead = true → r.dropped = false → passed u r.deadline = true → exec (.holdExpiry k line) s = .next (settle (dropOnHold u t r))) ∧
      (r.isRead = false ∨ r.dropped = true ∨ passed u r.deadline = false → exec (.holdExpiry k line) s = issue (some r)))) ∧
  (∀ (s : State) (k : Fin 8) (line : Nat) (t : Txn) (o : OpenSnoop), txnFind s line = some t → t.snoopTo k = some o → chipTrained s k = true →
    exec (.snoopTimeout k line) s = .next (settle (chipletDead (advance s (o.time + 1000 * regBits s ⟨.sriDirCtrl, 0, 0⟩ 26 16)) k 1))) ∧
  (∀ (s : State) (k : Fin 8) (t : Nat), (site s k).graceFrom = some t → exec (.linkGraceExpiry k) s =
    .next (settle (chipletDead (modSite (advance s (t + 1000 * regBits s ⟨.sriDirCtrl, 0, 0⟩ 41 32)) k (fun x => { x with graceFrom := none })) k 2))) ∧
  (∀ (s : State) (k : Fin 8) (m : Fin 4) (c : BitVec 8), canReceive s k m = true → (site s k).msgCr ≠ 0 → exec (.fatal k m c) s =
    .next (settle (chipletDead (returnCredit (received (modSite s k (fun x => { x with msgCr := x.msgCr - 1 })) k) k 0 0 1) k 4))) ∧
  (∀ (s : State) (d : Fin 4), exec (.domainDownCommand d) s = .next (settle (domainDown s d 7 0)) ∧
    ((domain s d).st ≠ .up → ∀ c k, domainDown s d c k = s)) ∧
  (∀ (s : State) (k : Fin 8), exec (.siteReset k) s = .next (settle (match siteDomain s k with
    | some d => domainDown (siteReset s k) d 6 (chipSite s k) | none => siteReset s k))) ∧
  (∀ (s : State) (d : Fin 4), (domain s d).st = .down → (domain s d).swept = false → exec (.domainSweepDone d) s = .next (settle (sweepDomain s d))) ∧
  (∀ (s : State) (d : Fin 4), (domain s d).st ≠ .unused → (domain s d).st ≠ .recovering →
    exec (.domainReset d) s = .next (settle (domainResetBegin s d))) ∧
  (∀ (s : State) (d : Fin 4), (domain s d).st = .recovering → (domain s d).upNext = false → exec (.domainResetCompare d) s =
    .next (if ((span 0 8).filter (inDomain s d)).all (matchesMap s) then putDomain s d { domain s d with upNext := true }
      else setStatus (putDomain s d { domain s d with st := .failed }) ⟨.sriDirIntStatus, 0, 0⟩ 2 d 0))

/-- The modules of a site (R453 to R468, R482, R489): training ends with a width and asks a new chiplet who it is, the first module with the
initial credits; its descriptor or the end of the wait is the answer; a module retrains with lanes repaired, at half width or not at all; a
link that goes down discards the message that it was carrying, a request with ABORTED; credits return and held messages follow; a low-power
request is turned away with no effect.
Its clauses rest in places on the model's own choices: log entries 46, 47, 51, 98. -/
def Obligations.SiteModules : Prop :=
  ∀ (s : State) (k : Fin 8) (m : Fin 4),
    let x := moduleOf s k m
    (∀ (w : Fin 3) (rate : Fin 4) (rep : Fin 8) (half : Fin 2), regBits s ⟨.ucsCtrl, k, 0⟩ 0 0 ≠ 0 → x.width = 0 → rate.val ≤ maxRate s k m →
      let u := modSite s k (fun t => { t with inReset := false })
      (w = 0 ∨ (w = 2 ∧ regBits u ⟨.ucsCtrl, k, 0⟩ 1 1 = 0) → exec (.moduleTrainingDone k m w rate rep half) s = .next (settle (identifyAll (moduleOut u k m) k))) ∧
      (w = 1 ∨ (w = 2 ∧ regBits u ⟨.ucsCtrl, k, 0⟩ 1 1 ≠ 0) →
        let v := putModule u k m { width := w, rate := rate, repaired := rep, half := half, asked := !(site u k).present }
        let v := if rep.val ≠ 0 then siteStatus v k 0 else v
        let v := if w.val = 2 then siteStatus v k 1 else v
        ((site v k).present = true → exec (.moduleTrainingDone k m w rate rep half) s = .next (settle (graceCheck v k))) ∧
        ((site v k).present = false → exec (.moduleTrainingDone k m w rate rep half) s =
          .next (settle (sendEhp (if siteTrained s k = false ∧ (site s k).present = false then grantCredits v k else v) k 3 2 0 0 0 0 (m.val + 16 * k.val) []))))) ∧
    (∀ bytes : List (BitVec 8), bytes.length = 64 → x.trained = true → (site s k).inReset = false → (site s k).msgCr ≠ 0 → 4 ≤ (site s k).dataCr →
      let u := returnCredit (received (modSite s k (fun t => { t with msgCr := t.msgCr - 1, dataCr := t.dataCr - 4 })) k) k 4 0 1
      (x.asked = true → exec (.descriptor k m bytes) s =
        .next (settle (identifyAll (modSite (putModule u k m { x with asked := false }) k (fun t => { t with answers := t.answers ++ [(m.val, bytes)] })) k))) ∧
      (x.asked = false → exec (.descriptor k m bytes) s = .next u)) ∧
    (x.asked = true → exec (.identifyTimeout k m) s = .next (settle (identifyAll
      (siteStatus (modSite (putModule s k m { x with asked := false, width := 3 }) k (fun t => { t with identFail := true })) k 3) k))) ∧
    (∀ (n lanes : Nat) (half : Fin 2), x.trained = true → (site s k).inReset = false →
      let u := bump (bump s ⟨.ucsRetry, k, 0⟩ n) ⟨.ucsRetrain, k, 0⟩ 1
      (lanes ≠ 0 → exec (.moduleRetrain k m n lanes half) s =
        .next (siteStatus (putModule u k m { x with repaired := min 7 (x.repaired + lanes), rate := min x.rate (maxRate u k m) }) k 0)) ∧
      (lanes = 0 → x.width = 1 → regBits u ⟨.ucsCtrl, k, 0⟩ 1 1 = 1 →
        exec (.moduleRetrain k m n lanes half) s = .next (siteStatus (putModule u k m { x with width := 2, half := half }) k 1)) ∧
      (lanes = 0 → x.width ≠ 1 ∨ regBits u ⟨.ucsCtrl, k, 0⟩ 1 1 ≠ 1 → exec (.moduleRetrain k m n lanes half) s = .next (settle (moduleOut u k m)))) ∧
    (∀ part : Option (BitVec 128), x.trained = true →
      let u := match part with
        | none => s
        | some h =>
          let s := bump (ucsLastErr s k 3 m (hClass h) (hOp h) (hTag h)) ⟨.ucsDiscard, k, 0⟩ 1
          if (hClass h = 0 ∧ hOp h < 0x20) ∨ hClass h = 1 ∨ (hClass h = 2 ∧ hOp h ≤ 2) ∨ (hClass h = 3 ∧ hOp h = 6) then
            sendEhp s k (hClass h) 0x61 (hTag h) (hInit h) Status.aborted.code 0 0 []
          else s
      exec (.moduleLinkDown k m part) s = .next (settle (graceCheck (putModule u k m { x with width := 0, asked := false }) k))) ∧
    (∀ (a : Fin 8192) (b : Fin 256), x.trained = true → (site s k).inReset = false → exec (.credit k m a b) s =
      .next (sendHeld (modSite (received s k) (chipSite s k) (fun y => { y with snpCr := y.snpCr + a.val, outCr := y.outCr + b.val })) (chipSite s k))) ∧
    (x.trained = true → exec (.ucieLowPowerRequest k m) s = .next s)

/-- Bales over the seam, tallies and the blocks that a processor chiplet reaches (R381, R471 to R479, R490): a bale is read line by line into its 512 data
messages; a bale write opens, takes its lines and ends with the last of them, with a line that fails or with its time; a tally message gives
the old value, and ABORTED where the slot is not one of the chiplet's; IO reads and writes act on the Waybill, a partition's copy of its
registers or the blocks, and else are answered TRANSLATION_FAULT; what its toll does not yet admit waits; a malformed message is answered
ABORTED.
Its clauses rest in places on the model's own choices: log entries 103 and 104. -/
def Obligations.SeamTransfers : Prop :=
  (∀ (s : State) (k : Fin 8) (m : Fin 4) (h : BitVec 128), canReceive s k m = true → creditsFor s (chipSite s k) 0 = true →
    (isMessage h 2 1 = true →
      (∀ u, takeIn s k h 0 65536 = .refused u → exec (.baleRd k m h) s = .next (settle u)) ∧
      (∀ u n g done, takeIn s k h 0 65536 = .taken u n →
        gateCls s (.chiplet (chipSite s k) (hTag h)) (hAddr h / 128) (hInit h) (initPart s (hInit h)) (hToll h) 65536 = (g, done) →
        exec (.baleRd k m h) s = .next (if done = false then g else settle (match sendBale k h (hAddr h / 128) (span 0 512) { u with stage := g.stage } none with
          | .done v none => freeTag v (hInit h) (hTag h)
          | .done v (some st) => sendReply v k 2 0x61 (hTag h) (hInit h) st.code 0 0 []
          | .bad v _ => v
          | .wait v => waitFor s v)))) ∧
    (isMessage h 2 2 = true →
      (∀ u, takeIn s k h 0 65536 = .refused u → exec (.baleWr k m h) s = .next (settle u)) ∧
      (∀ u n, takeIn s k h 0 65536 = .taken u n → exec (.baleWr k m h) s =
        .next (modSite u (hInit h / 64) (fun x => { x with bales := x.bales ++
          [{ tag := hTag h, init := hInit h, ha := hAddr h, got := [], endAt := u.stage.hubTime + 1000 * baleTo u k, hint := hHint h, cls := hToll h }] })))) ∧
    (isMessage h 3 6 = true →
      let u := received s k
      let op := hBits h 17 16
      let slot := hBits h 56 41
      let wrong : Prop := 2 ≤ op ∨ hSlots h ≠ 0 ∨ hBits h 19 18 ≠ 0 ∨ hBits h 79 57 ≠ 0 ∨ hBits h 127 112 ≠ 0 ∨ tagOpen u (hInit h) (hTag h) = true ∨
        initFits u k h = false
      (wrong → exec (.ehpTally k m h) s = .next (settle (refuseMalformed u k h 0))) ∧
      (¬ wrong →
        let v := takeRequest u h 0
        let reply (v : State) (st : Status) (x : Nat) : Host.Outcome State Fault Refusal := .next (settle (sendReply v k 3 0x61 (hTag h) (hInit h) st.code 0 x []))
        (siteDomain v k = none → exec (.ehpTally k m h) s = reply v .aborted 0) ∧
        (∀ d, siteDomain v k = some d →
          ((domain v d).st ≠ .up → exec (.ehpTally k m h) s = reply v .domainDown 0) ∧
          ((domain v d).st = .up →
            (slotPart v slot = none → exec (.ehpTally k m h) s = reply v .aborted 0) ∧
            (∀ p, slotPart v slot = some p →
              (bitOf (domain v d).parts p = true → isTally v p slot = true → exec (.ehpTally k m h) s =
                reply (if op = 1 then tallyAdd v slot (hBits h 111 80) else v) .complete (tallyValue v slot)) ∧
              (bitOf (domain v d).parts p = false ∨ isTally v p slot = false → exec (.ehpTally k m h) s = reply v .aborted 0))))))) ∧
  (∀ (s : State) (k : Fin 8) (m : Fin 4) (tag : Fin 4096) (init line : Fin 512) (data : BitVec 1024) (p : Bool), canReceive s k m = true →
    let n := init.val / 64
    8 ≤ (site s n).dataCr →
    let u := received (modSite s n (fun x => { x with dataCr := x.dataCr - 8 })) k
    ((site s n).bales.find? (fun b => b.tag == tag.val && b.init == init.val) = none →
      exec (.baleData k m tag init line data p) s = .next (discardBaleData (bump (ucsLastErr u k 3 m 2 3 tag) ⟨.ucsDiscard, k, 0⟩ 1) n)) ∧
    (∀ b, (site s n).bales.find? (fun b => b.tag == tag.val && b.init == init.val) = some b →
      (b.got.contains line.val = true → exec (.baleData k m tag init line data p) s = .next (discardBaleData (protoErr u k 2 3 tag) n)) ∧
      (b.got.contains line.val = false →
        let l := b.ha / 128 + line.val
        let ends (v : State) : State := modSite (discardBaleData v n) n (fun x => { x with bales := listDelFirst (fun y => y == b) x.bales })
        let wrote (v : State) : State := if p then poisonLine v l else v
        (∀ g, gateCls s (.chiplet (chipSite s k) tag) l init (initPart s init) b.cls 128 = (g, false) →
          exec (.baleData k m tag init line data p) s = .next g) ∧
        (∀ g, gateCls s (.chiplet (chipSite s k) tag) l init (initPart s init) b.cls 128 = (g, true) →
          (∀ v, lineWriteNow { u with stage := g.stage } l b.hint data (BitVec.allOnes 128) = .done v () →
            ((setAdd b.got line.val).length ≠ 512 → exec (.baleData k m tag init line data p) s = .next (settle (modSite (discardBaleData (wrote v) n) n
              (fun x => { x with bales := listModFirst (fun y => y == b) (fun _ => { b with got := setAdd b.got line.val }) x.bales })))) ∧
            ((setAdd b.got line.val).length = 512 → exec (.baleData k m tag init line data p) s =
              .next (settle (sendReply (ends (wrote v)) k 2 0x61 tag init 0 0 0 [])))) ∧
          (∀ v st, lineWriteNow { u with stage := g.stage } l b.hint data (BitVec.allOnes 128) = .bad v st →
            exec (.baleData k m tag init line data p) s = .next (settle (sendReply (discardBaleData (modSite v n (fun x =>
              { x with bales := listDelFirst (fun y => y == b) x.bales })) n) k 2 0x61 tag init st.code 0 0 []))) ∧
          (∀ v, lineWriteNow { u with stage := g.stage } l b.hint data (BitVec.allOnes 128) = .wait v →
            exec (.baleData k m tag init line data p) s = .next (settle (waitFor s v))))))) ∧
  (∀ (s : State) (k : Fin 8) (tag : Fin 4096) (b : BaleWrite), (site s k).bales.find? (fun b => b.tag == tag.val) = some b →
    let u := modSite (advance s b.endAt) k (fun x => { x with bales := listDelFirst (fun y => y == b) x.bales })
    exec (.baleTimeout k tag) s = .next (siteStatus (bump (ucsLastErr (sendReply u k 2 0x61 b.tag b.init Status.aborted.code 0 0 [])
      k 2 0 2 2 b.tag) ⟨.ucsBaleTimeout, k, 0⟩ 1) k 5)) ∧
  (∀ (s : State) (k : Fin 8) (m : Fin 4) (h : BitVec 128) (b : List (BitVec 8)) (wr : Bool), canReceive s k m = true →
    let n := ioBytes (hSize h)
    let z := ioSlots (hSize h)
    let dz := if wr then z else 0
    let u := received s k
    let q := chipSite s k
    let i : Instr := if wr then .ioWr k m h b else .ioRd k m h
    isMessage h 1 (if wr then 2 else 1) = true → (wr = true → b.length = 16 * z) → creditsFor s q dz = true →
    (malformedHdr u k h dz n = true → exec i s = .next (settle (refuseMalformed u k h dz))) ∧
    (malformedHdr u k h dz n = false →
      (ioPlace u q (hAddr h) n = .fault → exec i s = .next (settle (refuseAddress u k h dz))) ∧
      (ioPlace u q (hAddr h) n ≠ .fault →
        (∀ g, gateCls s (.chiplet q (hTag h)) (hAddr h / 128) (hInit h) (initPart s (hInit h)) (hToll h) n = (g, false) → exec i s = .next g) ∧
        (∀ g, gateCls s (.chiplet q (hTag h)) (hAddr h / 128) (hInit h) (initPart s (hInit h)) (hToll h) n = (g, true) →
          let v := takeRequest { u with stage := g.stage } h dz
          let w := returnCredit v (hInit h / 64) z 0 0
          let data (r : List Byte × State) : Host.Outcome State Fault Refusal := .next (settle (sendReply r.2 k 1 0x60 (hTag h) (hInit h) 0 0 0 (fitBytes (16 * z) r.1)))
          let done (r : State) : Host.Outcome State Fault Refusal := .next (settle (sendReply r k 1 0x61 (hTag h) (hInit h) 0 0 0 []))
          (wr = false → ∀ o, ioPlace v q (hAddr h) n = .waybill o → exec i s = data (((waybillBytes v).drop o).take n, v)) ∧
          (wr = false → ∀ fn o, ioPlace v q (hAddr h) n = .copy fn o → exec i s = data (bar0Read v fn true o n)) ∧
          (wr = false → ∀ o, ioPlace v q (hAddr h) n = .block o → exec i s = data (readAperture v 0 o n)) ∧
          (wr = true → ∀ o, ioPlace w q (hAddr h) n = .waybill o → exec i s = done w) ∧
          (wr = true → ∀ fn o, ioPlace w q (hAddr h) n = .copy fn o → exec i s = done (bar0Write w fn true o (b.take n))) ∧
          (wr = true → ∀ o, ioPlace w q (hAddr h) n = .block o → exec i s = done (writeAperture w 0 o (b.take n)))))))

/-- Translation over the seam (R480, R481, R517, R518): an agent's answer ends its request, no answer after its time denies it; an
invalidation of an agent drops the entries that it names and is answered once the requests that used them have ended. -/
def Obligations.SeamTranslation : Prop :=
  (∀ (s : State) (k : Fin 8) (m : Fin 4) (tag : Fin 4096) (st : Nat) (es : List (List (BitVec 8))), es ≠ [] → es.length ≤ 8 →
    es.all (fun e => e.length == 16) = true → canReceive s k m = true →
    let u := received s k
    (u.host.trans.find? (fun r => r.agent == some (chipSite u k) && r.tag == tag.val) = none →
      exec (.trCpl k m tag st es) s = .next (protoErr u k 4 2 tag)) ∧
    (∀ r, u.host.trans.find? (fun r => r.agent == some (chipSite u k) && r.tag == tag.val) = some r →
      exec (.trCpl k m tag st es) s = .next (settle (translationCame { u with host := { u.host with trans := listDelFirst (fun x => x == r) u.host.trans } }
        r.fn r.pasid r.va (if st = 0 then coveringEntry r.va es else none) true)))) ∧
  (∀ (s : State) (k : Fin 8) (tag : Fin 4096) (r : TransReq), s.host.trans.find? (fun r => r.agent == some k.val && r.tag == tag.val) = some r →
    let u := advance s (r.sent + 64000)
    exec (.trReqTimeout k tag) s = .next (settle (denyTranslation (protoErr { u with host := { u.host with
      trans := listDelFirst (fun x => x == r) u.host.trans } } k 4 1 tag) r.fn r.pasid r.va))) ∧
  (∀ (s : State) (k : Fin 8) (m : Fin 4) (tag : Fin 4096) (all : Bool) (pasid va log2 : Nat), pasid < 2 ^ 20 → 12 ≤ log2 → log2 ≤ 52 →
    canReceive s k m = true → (site s k).msgCr ≠ 0 →
    let u := returnCredit (received (modSite s k (fun x => { x with msgCr := x.msgCr - 1 })) k) k 0 0 1
    let q := chipSite s k
    exec (.invReq k m tag all pasid va log2) s = .next (if (agentFns s q).isEmpty then sendEhp u k 4 4 tag 0 0 0 0 []
      else (agentFns s q).foldl (fun v fn => beginInval v fn (.agent q tag) (fun e => (all || e.pasid == pasid) && e.meets va log2)) u)) ∧
  (∀ (s u : State) (k : Fin 8) (tag : Fin 4096) (fns : List Nat),
    fns = (span 0 9).filter (fun fn => (hostFn s fn).invals.any (fun v => v.by_ == .agent k tag)) → fns ≠ [] →
    fns.foldl (fun (o : Option State) fn => o.bind (fun s => endInval s fn (.agent k tag))) (some s) = some u →
    exec (.invCpl k tag) s = .next (sendEhp u k 4 4 tag 0 0 0 0 []))

/-! ### Host ports, queues and the relay -/

/-- The windows and blocks that a function's host reaches (R12, R429 to R432, R437, R506, R513 to R515, R555, R564): a write is posted, ignored by a
function that is not open, dropped and counted while the function is not ready; one with Relaxed Ordering may be held at first; a read
that may go brings memory, or all ones, Unsupported Request or poisoned data; a read behind posted writes performs them first and waits
for what is left; a fence, a tail, an event head and a tally go the same way as a write.
Its clauses rest in places on the model's own choices: log entries 64, 65. -/
def Obligations.HostAccesses : Prop :=
  ∀ (s : State) (fn : Fin 13),
    (fnUp s fn = true →
    (∀ (bar off : Nat) (b : List Byte) (ro : Bool), windowReq bar off b.length = true → b.length ≤ 512 →
      postedBytes s (fnPort s fn) + b.length ≤ 2 ^ 21 →
      let p : Posted := { op := .window bar off b, ro := ro }
      (fnOpen s fn = false ∨ 9 ≤ fn.val → exec (.hostWrite fn bar off b ro) s = .next s) ∧
      (fnOpen s fn = true → fn.val < 9 → (hostFn s fn).ready = false → exec (.hostWrite fn bar off b ro) s = .next (bump s ⟨.hpfWrDrop, fn, 0⟩ 1)) ∧
      (fnOpen s fn = true → fn.val < 9 → (hostFn s fn).ready = true →
        (ro = false → exec (.hostWrite fn bar off b ro) s = .next (settle (post s fn p))) ∧
        (ro = true → exec (.hostWrite fn bar off b ro) s = .next (if Config.freeNat (draw s).1 % 2 = 1 then
          modFn (draw s).2 fn (fun h => { h with posted := h.posted ++ [p] }) else settle (post (draw s).2 fn p))))) ∧
    (∀ bar off len : Nat, windowReq bar off len = true →
      (fnOpen s fn = false ∨ 9 ≤ fn.val → exec (.hostRead fn bar off len) s = .next (emit s (.hostUnsupported fn))) ∧
      (fnOpen s fn = true → fn.val < 9 → (hostFn s fn).ready = false →
        exec (.hostRead fn bar off len) s = .next (emit s (.hostData fn (List.replicate len 0xFF)))) ∧
      (fnOpen s fn = true → fn.val < 9 → (hostFn s fn).ready = true →
        let u := runPosted s fn
        let init := initHost (fnPort u fn) fn
        ((hostFn u fn).posted.any (fun p => !p.ro) = true → exec (.hostRead fn bar off len) s = .next (settle u)) ∧
        ((hostFn u fn).posted.any (fun p => !p.ro) = false →
          (barHa u fn bar off = none → exec (.hostRead fn bar off len) s = .next (emit (logUnmapped u init off) (.hostUnsupported fn))) ∧
          (∀ ha, barHa u fn bar off = some ha →
            (mapped u ha = false → exec (.hostRead fn bar off len) s = .next (emit (logUnmapped u init ha) (.hostUnsupported fn))) ∧
            (mapped u ha = true → ∀ v go, gate u (.host fn) (2 ^ 50 + 2 * off + bar / 4) init fn len = (v, go) →
              (go = false → exec (.hostRead fn bar off len) s = .next (settle v)) ∧
              (go = true →
                (∀ w d, readNow v ha len 0 = .done w d → exec (.hostRead fn bar off len) s = .next (settle (emit w (.hostData fn d)))) ∧
                (∀ w st, readNow v ha len 0 = .bad w st → exec (.hostRead fn bar off len) s =
                  .next (settle (emit (logEvent (bump w ⟨.hpfRdPoisoned, fn, 0⟩ 1) 0x0AE0 fn 1 ha) (.hostPoisoned fn)))) ∧
                (∀ w, readNow v ha len 0 = .wait w → exec (.hostRead fn bar off len) s = .next (settle (waitFor u w))))))))) ∧
    (∀ n m v : Nat, n < 1024 → m < 65536 → v < 2 ^ 32 →
      ∀ e ∈ [(Instr.fenceWrite fn v, PostedOp.fence v), (.doorbellTailWrite fn n v, .tail n v), (.evtHeadWrite fn n v, .evtHead n v),
        (.tallyWindowAdd fn m v, .tally m v)],
      (fnOpen s fn = false ∨ (hostFn s fn).ready = false → exec e.1 s = .next s) ∧
      (fnOpen s fn = true → (hostFn s fn).ready = true → exec e.1 s = .next (settle (post s fn { op := e.2, ro := false })))) ∧
    (fnOpen s fn = false → exec (.fenceRead fn) s = .next (emit s (.hostUnsupported fn))) ∧
    (fnOpen s fn = true →
      let u := runPosted s fn
      exec (.fenceRead fn) s = .next (settle (if (hostFn u fn).posted.isEmpty then emit u (.regData (regRaw u ⟨.hpfFence, fn, 0⟩)) else u)))) ∧
    ((hostFn s fn).posted ≠ [] → exec (.pull fn) s = .next (settle (runPosted s fn)))

/-- Registers and configuration space through the host (R12, R500, R502 to R506, R509, R512, R521, R588, R654): what a read brings, to the
root of the relay too (R534, R536), what a write changes, BAR bases and sizes, command bits, MSI-X control, ATS and PASID; the aperture of the hub's blocks answers once the function is
ready, as zeros before and to a view of function 0; a function that is not open answers Unsupported Request and ignores writes.
Its clauses rest in places on the model's own choices: log entries 12, 13, 102. -/
def Obligations.HostRegisters : Prop :=
  ∀ (s : State) (fn : Fin 13),
    (s.host.relay.linkUp = true → s.host.relay.endpoint = true → s.flt.halted = false → ∀ off len, len ≠ 0 → off + len ≤ 4096 →
      exec (.rcRead fn (.relay off len)) s = .next (emit s (.relayData ((span off len).map relayConfigByte)))) ∧
    (fnUp s fn = true →
    (∀ off len, len ≠ 0 → off + len ≤ 4096 →
      exec (.rcRead fn (.config off len)) s = .next (emit s (.hostData fn ((span off len).map (configByteOf s fn))))) ∧
    (∀ off len, len ≠ 0 → len ≤ 64 → off + len ≤ 0x1000000 → off % 4096 + len ≤ 4096 →
      (fnOpen s fn = false → exec (.rcRead fn (.bar0 off len)) s = .next (emit s (.hostUnsupported fn))) ∧
      (fnOpen s fn = true → exec (.rcRead fn (.bar0 off len)) s =
        .next (settle (emit (bar0Read s fn false off len).2 (.hostData fn (bar0Read s fn false off len).1))))) ∧
    (∀ off (b : List (BitVec 8)), b.length ≠ 0 → b.length ≤ 64 → off + b.length ≤ 0x1000000 → off % 4096 + b.length ≤ 4096 →
      (fnOpen s fn = false → exec (.registerWrite fn (.bar0 off b)) s = .next s) ∧
      (fnOpen s fn = true → exec (.registerWrite fn (.bar0 off b)) s = .next (settle (bar0Write s fn false off b)))) ∧
    (∀ a b : Bool, exec (.registerWrite fn (.command a b)) s = .next (modFn s fn (fun h => { h with mse := a, serr := b })) ∧
      exec (.registerWrite fn (.msixControl a b)) s = .next (sendPending (modFn s fn (fun h => { h with msixEnable := a, msixMask := b })) fn)) ∧
    (∀ n : Nat,
      exec (.registerWrite fn (.barBase 0 n)) s = .next (modFn s fn (fun h => { h with bar0 := n % 2 ^ 64 })) ∧
      exec (.registerWrite fn (.barBase 2 n)) s = .next (modFn s fn (fun h => { h with bar2 := n % 2 ^ 64 })) ∧
      exec (.registerWrite fn (.barBase 4 n)) s = .next (modFn s fn (fun h => { h with bar4 := n % 2 ^ 64 })) ∧
      (28 ≤ n → n ≤ 39 → exec (.registerWrite fn (.barSize 2 n)) s = .next (modFn s fn (fun h => { h with bar2Log2 := n }))) ∧
      (30 ≤ n → n ≤ 42 → exec (.registerWrite fn (.barSize 4 n)) s = .next (modFn s fn (fun h => { h with bar4Log2 := n })))) ∧
    exec (.registerWrite fn .atsOn) s = .next (settle (pumpHost (modFn s fn (fun h => { h with atsEnable := true })))) ∧
    exec (.registerWrite fn .pasidOn) s = .next (settle (pumpHost (modFn s fn (fun h => { h with pasidEnable := true }))))) ∧
    (∀ k n (d : List (BitVec 8)), k + n ≤ 0x300000 → n ≠ 0 → n ≤ 64 → d.length = n →
      (fnOpen s fn = false → exec (.apertureAccess fn k n none) s = .next (emit s (.hostUnsupported fn)) ∧
        exec (.apertureAccess fn k n (some d)) s = .next s) ∧
      (fnOpen s fn = true → (hostFn s fn).ready = false ∨ 9 ≤ fn.val → exec (.apertureAccess fn k n (some d)) s = .next s ∧
        exec (.apertureAccess fn k n none) s = .next (emit s (.hostData fn (zeroBytes n)))) ∧
      (fnOpen s fn = true → (hostFn s fn).ready = true → fn.val < 9 →
        exec (.apertureAccess fn k n (some d)) s = .next (settle (writeAperture s fn k d)) ∧
        exec (.apertureAccess fn k n none) s = .next (emit (readAperture s fn k n).2 (.hostData fn (readAperture s fn k n).1))))

/-- Links and functions of the host ports (R501, R512, R523 to R528, R539, R687): resets of ports, links and functions, power states, bus mastering
and MSI-X masks act at once; what was pending is sent where nothing masks it any more; a function-level reset ends once the partition
reset that it began has; an attachment is adopted, or discarded with a partition reset.
Its clauses rest in places on the model's own choices: log entry 52. -/
def Obligations.HostFunctions : Prop :=
  (∀ (s : State) (p : Fin 2),
    ((hostPort s p).perst = false → exec (.perstAssert p) s =
      .next (settle ((linksOf (putPort s p { hostPort s p with perst := true }) p).foldl resetLink (putPort s p { hostPort s p with perst := true })))) ∧
    ((hostPort s p).perst = true → exec (.perstDeassert p) s = .next (putPort s p { hostPort s p with perst := false })) ∧
    ((hostPort s p).refclk = true → exec (.hostRefclkLoss p) s =
      .next (settle ((linksOf s p).foldl resetLink (putPort s p { hostPort s p with refclk := false }))))) ∧
  (∀ (s : State) (l : Fin 4), linkUsed s l = true →
    (linkTrained s l = true → exec (.hotReset l) s = .next (settle (resetLink s l))) ∧
    (linkTrained s l = false → (hostPort s (l.val % 2)).perst = false → exec (.hostLinkUp l) s =
      .next (putLink (putPort s (l.val % 2) { hostPort s (l.val % 2) with refclk := true }) l { trained := true, configOk := true }))) ∧
  (∀ (s : State) (fn : Fin 13), fnUp s fn = true →
    exec (.bmeClear fn) s = .next (settle (pumpHost (modFn s fn (fun h => { h with bme := false })))) ∧
    exec (.bmeSet fn) s = .next (settle (resumeFn (modFn s fn (fun h => { h with bme := true })) fn)) ∧
    ((hostFn s fn).d3hot = false → exec (.d3hotEntry fn) s = .next (settle (pumpHost (modFn s fn (fun h => { h with d3hot := true }))))) ∧
    ((hostFn s fn).d3hot = true → exec (.d0Entry fn) s = .next (settle (resumeFn (modFn s fn (fun h => { h with d3hot := false })) fn))) ∧
    exec (.msixUnmask fn .enable) s = .next (sendPending (modFn s fn (fun h => { h with msixEnable := true })) fn) ∧
    exec (.msixUnmask fn .function) s = .next (sendPending (modFn s fn (fun h => { h with msixMask := false })) fn) ∧
    (∀ v < 2048, exec (.msixUnmask fn (.vector v)) s = .next (sendPending (modFn s fn (fun h =>
      { h with msixTable := smSet {} h.msixTable v { smGet {} h.msixTable v with masked := false } })) fn)) ∧
    ((hostFn s fn).inFlr = false → 9 ≤ fn.val → exec (.flr fn) s = .next (modFn s fn (fun h => { h with inFlr := true }))) ∧
    ((hostFn s fn).inFlr = false → fn.val < 9 →
      let u := modFn (if fn.val = 0 then endSessions s s.host.controlLink else s) fn (fun h => { h with inFlr := true })
      exec (.flr fn) s = .next (settle (if (part u fn).phase = .resetting then u else partitionReset u fn)))) ∧
  (∀ (s : State) (fn : Fin 13), (hostFn s fn).inFlr = true →
    (9 ≤ fn.val → exec (.flrComplete fn) s = .next (resetConfig s fn)) ∧
    (fn.val < 9 → (part s fn).phase ≠ .resetting → exec (.flrComplete fn) s = .next (settle (modFn (tcDrop (resetConfig s fn) (fun e => e.fn == fn.val)) fn
      (fun h => { h with backlog := [], detached := false, preserved := false }))))) ∧
  (∀ (s : State) (fn : Fin 13),
    let held : Prop := (hostFn s fn).detached = true ∨ (hostFn s fn).preserved = true
    (¬ held → exec (.adopt fn) s = .next s ∧ exec (.attachDiscard fn) s = .next s) ∧
    (held → exec (.adopt fn) s = .next (settle (pumpHost (deliverBacklog (putFn s fn { hostFn s fn with detached := false, preserved := false }) fn)))) ∧
    (held → fn.val < 9 → (part s fn).phase ≠ .resetting → exec (.attachDiscard fn) s = .next (settle (partitionReset s fn))) ∧
    (9 ≤ fn.val ∨ (part s fn).phase = .resetting → exec (.attachDiscard fn) s = .next s))

/-- Address translation for the host (R517, R518, R520, R521, R541): an invalidation drops the entries that it names and ends once the requests that used
them have ended; without ATS or PASID the translations of a function go; a completion ends its request, with a translation or without;
HPF_TC_INV drops entries by PASID, and a second write does nothing while the first is busy. -/
def Obligations.HostTranslation : Prop :=
  (∀ (s : State) (fn : Fin 9),
    (∀ (itag : Fin 32) (all : Bool) (pasid va log2 : Nat), pasid < 2 ^ 20 → 12 ≤ log2 → log2 ≤ 64 → fnUp s fn = true →
      (hostFn s fn).invals.any (fun v => v.by_ == .ats itag) = false →
      exec (.atsInvalidationRequest fn itag all pasid va log2) s =
        .next (beginInval s fn (.ats itag) (fun e => (all || e.pasid == pasid) && e.meets va log2))) ∧
    (∀ (itag : Fin 32) (u : State), endInval s fn (.ats itag) = some u →
      exec (.atsInvalidationCompletion fn itag) s = .next (emit u (.atsInvalComplete fn itag))) ∧
    (∀ p : Bool, fnUp s fn = true →
      let u := tcDrop (modFn s fn (fun h => if p then { h with pasidEnable := false } else { h with atsEnable := false })) (fun e => e.fn == fn.val)
      exec (.atsEnableClear fn p) s = .next (settle (pumpHost { u with host := { u.host with
        trans := u.host.trans.filter (fun r => !(r.fn == fn.val && r.agent.isNone)) } }))) ∧
    (∀ (pasid va : Nat) (ans : Option TransAnswer), pasid < 2 ^ 20 → (∀ a, ans = some a → 12 ≤ a.log2 ∧ a.log2 ≤ 64) →
      let mine (r : TransReq) : Bool := r.fn == fn.val && r.pasid == pasid && r.va == va / 4096 * 4096 && r.agent.isNone
      s.host.trans.any mine = true →
      exec (.translationCompletion fn pasid va ans) s = .next (settle (translationCame { s with host := { s.host with
        trans := s.host.trans.filter (fun r => !mine r) } } fn pasid (va / 4096 * 4096) ans false)))) ∧
  (∀ (s : State) (fn : Fin 13),
    (∀ (all : Bool) (pasid : Nat), pasid < 2 ^ 20 →
      ((hostFn s fn).invals.any (fun v => v.by_ == .own) = true → exec (.tcInv fn all pasid) s = .next s) ∧
      ((hostFn s fn).invals.any (fun v => v.by_ == .own) = false → exec (.tcInv fn all pasid) s =
        .next (beginInval (regSetBits (regSetBits s ⟨.hpfTcInv, fn, 0⟩ 61 61 (b2n all)) ⟨.hpfTcInv, fn, 0⟩ 19 0 pasid) fn .own
          (fun e => all || e.pasid == pasid)))) ∧
    (∀ u, endInval s fn .own = some u → exec (.tcInvComplete fn) s = .next u))

/-- Queues (R497, R522, R554 to R564): the step of a queue in hand is read into the step list, after the ring entry where none is in hand, or the queue
halts with the fault's code; a step that breaks a rule ends ABORTED and one that a licence denies LICENCE_DENIED, without waiting; else a step
whose tally lets it go is sent to its unit, and SIGNAL ends at once; a COPY step goes on, and ends once all its bytes have moved; what the host
returns is used, an error or no answer counts against the step or the fill that asked.
Its clauses rest in places on the model's own choices: log entries 61 to 63. -/
def Obligations.QueueSteps : Prop :=
  (∀ (s : State) (q : Nat) (y : Queue) (entry rec : Fetched), queueOf s q = some y → y.halted = false → y.closed = false → y.head ≠ y.tail →
    aheadOf s q < 16 → roleNow s ≠ .fenced → s.flt.halted = false →
    let answers (u : State) : Prop := exec (.queueStepRead q entry rec) s = .next (settle u)
    let inHand (u : State) (y : Queue) : Prop :=
      let a := y.manBase + 64 * y.nextStep
      (∀ v c, readQueue u q y a 64 rec = .halt v c → answers (haltQueue v q c)) ∧
      (∀ v, readQueue u q y a 64 rec = .wait v → answers v) ∧
      (∀ v b, readQueue u q y a 64 rec = .got v b →
        let x := stepOf v q y a b
        (x.sealEn = false → answers (joinStep v q y x)) ∧
        (x.sealEn = true → (isSeal v y.fn x.sealSlot = false → answers (haltQueue v q 2)) ∧
          (isSeal v y.fn x.sealSlot = true → sealFull v x.sealSlot = false → answers (joinStep v q y x))))
    (y.manCount ≠ 0 → inHand s y) ∧
    (y.manCount = 0 →
      let a := y.ringBase + 16 * (y.head % 2 ^ y.ringLog2)
      (∀ u c, readQueue s q y a 16 entry = .halt u c → answers (haltQueue u q c)) ∧
      (∀ u, readQueue s q y a 16 entry = .wait u → answers u) ∧
      (∀ u b, readQueue s q y a 16 entry = .got u b →
        (fieldOf b 0 8 % 64 ≠ 0 ∨ fieldOf b 8 2 = 0 ∨ fieldOf b 0xA 6 ≠ 0 → answers (haltQueue u q 1)) ∧
        (fieldOf b 0 8 % 64 = 0 → fieldOf b 8 2 ≠ 0 → fieldOf b 0xA 6 = 0 →
          let y' : Queue := { y with manBase := fieldOf b 0 8, manCount := fieldOf b 8 2, nextStep := 0 }
          inHand (putQueue u q (some y')) y')))) ∧
  (∀ (s : State) (q : Nat) (y : Queue) (x : Step), queueOf s q = some y →
    s.work.steps.find? (fun x => x.queue == q && x.phase == .waiting) = some x → y.halted = false → prevDone s x = true →
    let answers (u : State) : Prop := exec (.stepDispatch q) s = .next (settle u)
    (x.body = .malformed → answers (breakStep s x .aborted)) ∧
    (x.body ≠ .malformed → licensed s = false ∨ maskDenied s x = true → answers (breakStep s x .licenceDenied)) ∧
    (x.body ≠ .malformed → licensed s = true → maskDenied s x = false → domainUp s x.part = true → dispatchOpen s = true →
      x.waitEn = false ∨ tallyGe (tallyValue s x.wait) x.waitValue = true →
      (∀ a n, x.body = .tier a n → answers (beginStep s x.id x.queue)) ∧
      (∀ a b n d, x.body = .copy a b n d → answers (copyGo (beginStep s x.id (fnPort s x.part)) x)) ∧
      (∀ e n m, x.body = .engine e n m →
        (∀ st, engineFor s x.part m = .ends st → answers (breakStep s x st)) ∧
        (∀ k, engineFor s x.part m = .to k → answers (modEngine (modStep s x.id (fun x => { x with phase := .sent, unit := k })) k
          (fun y => { y with intake := y.intake ++ [{ step := x.id, part := x.part }] })))) ∧
      (∀ c a b n, x.body = .porter c a b n →
        (∀ st, clusterFor s x.part c = .ends st → answers (breakStep s x st)) ∧
        (∀ k, clusterFor s x.part c = .to k → answers (clusterNext (modCluster (modStep s x.id (fun x => { x with phase := .sent, unit := k })) k
          (fun y => { y with intake := y.intake ++ [x.id] })) k))) ∧
      (x.body = .signal → ∀ y, stepFind (beginStep s x.id 0) x.id = some y → answers (commitStep (beginStep s x.id 0) y .complete)))) ∧
  (∀ (s : State) (q : Nat) (x : Step), s.work.steps.find? (fun x => x.copying q) = some x →
    let u := copyGo s x
    (stepFind u x.id = none → exec (.copyStepCommit q) s = .next (settle u)) ∧
    (∀ y a b len c, stepFind u x.id = some y → y.body = .copy a b len c → exec (.copyStepCommit q) s =
      .next (settle (if len ≤ y.progress ∧ copyOut u y.id = 0 then commitStep u y y.err else u)))) ∧
  (∀ (s : State) (p : Fin 2) (tag : Nat), tag < 4096 →
    let failed (i : Instr) (u : State) (st : Status) : Prop :=
      (∀ fn bale off len, smGet none (hostPort u p).tags tag = some (.parkRead fn bale off len) →
        exec i s = .next (settle (pumpHost (modOp (dropTag u p tag) fn bale (fun o => { o with parkErr := true }))))) ∧
      (∀ fn id dst len, smGet none (hostPort u p).tags tag = some (.stepRead fn id dst len) →
        let v := dropTag u p tag
        (stepFind v id = none → exec i s = .next (settle (pumpHost v))) ∧
        (∀ x, stepFind v id = some x → (x.phase ≠ .begun → exec i s = .next (settle (pumpHost v))) ∧
          (x.phase = .begun → exec i s = .next (settle (pumpHost (copySettle (stepErr (countFault v fn st) id st) id))))))
    (∀ st, failed (.hostReadCompletion p tag (.error st)) s st) ∧
    ((smGet none (hostPort s p).tags tag).isSome = true →
      let st := Config.freeStatus (draw s).1
      failed (.hostCompletionTimeout p tag) (draw s).2 (if st = .complete then .aborted else st)) ∧
    (∀ (b : List Byte) fn bale off, smGet none (hostPort s p).tags tag = some (.parkRead fn bale off b.length) →
      exec (.hostReadCompletion p tag (.data b)) s =
        .next (settle (pumpHost (modOp (dropTag s p tag) fn bale (fun o => { o with got := smInsert o.got off b }))))) ∧
    (∀ (b : List Byte) fn id dst, smGet none (hostPort s p).tags tag = some (.stepRead fn id dst b.length) →
      let v := dropTag s p tag
      (stepFind v id = none → exec (.hostReadCompletion p tag (.data b)) s = .next (settle (pumpHost v))) ∧
      (∀ x, stepFind v id = some x → (x.phase ≠ .begun → exec (.hostReadCompletion p tag (.data b)) s = .next (settle (pumpHost v))) ∧
        (x.phase = .begun →
          (∀ w, copyIn v x dst b = (w, true) → exec (.hostReadCompletion p tag (.data b)) s =
            .next (settle (pumpHost (copySettle (copyMoved w x.ctx b.length) id)))) ∧
          (∀ w, copyIn v x dst b = (w, false) → exec (.hostReadCompletion p tag (.data b)) s = .next (settle (waitFor s w)))))))

/-- The relay and the pair (R533, R536, R543, R667 to R674): the partner's posted writes go into the mirror area, those of its header take their
effect, and any other request is dropped and counted; links come and go; a delta is sent, as its toll admits it, and waits for its
acknowledgement, or is applied in order, else a new copy is asked for; requests for a role stand until the next mark, and change nothing
without the licence; the data of a promoted hub is restored.
Its clauses rest in places on the model's own choices: log entries 72 to 75, 108, 134. -/
def Obligations.RelayAndPair : Prop :=
  (∀ (s : State),
    (licRelay s = true → exec .requestActive s = .next (putPair s { s.pair with request := 1 }) ∧
      exec .requestStandby s = .next (putPair s { s.pair with request := 2 })) ∧
    (licRelay s = false → exec .requestActive s = .next s ∧ exec .requestStandby s = .next s) ∧
    (s.host.relay.linkUp = true → exec .relayLinkDown s = .next (relayDown s)) ∧
    (roleNow s = .standby → s.pair.sync = .resyncing → s.pair.lastSeq ≠ none →
      exec .resyncDone s = .next (sendRole (logEvent (putPair s { s.pair with sync := .synced }) 0x0FE6 0 2 0)))) ∧
  (∀ (s : State) (off : Nat) (p : Bool), s.host.relay.linkUp = true → s.flt.halted = false →
    exec (.relayWrite off none p) s = .next (if p then bump s ⟨.hpfRelayDrop, 0, 0⟩ 1 else emit (bump s ⟨.hpfRelayDrop, 0, 0⟩ 1) .relayUnsupported)) ∧
  (∀ (s g : State) (off : Nat) (b : List (BitVec 8)) (go : Bool), s.host.relay.linkUp = true → s.flt.halted = false → b ≠ [] → b.length ≤ 4096 →
    off + b.length ≤ 2 ^ 32 → gate s .relay (2 ^ 32 + off) 0x85A 0 b.length = (g, go) →
    (go = false → exec (.relayWrite off (some b) true) s = .next g) ∧
    (go = true →
      let covers (at' n : Nat) : Prop := off ≤ at' ∧ at' + n ≤ off + b.length
      let u := bump (homePut g (mirrorBase g + off) b) ⟨.hpfRelayRxBytes, 0, 0⟩ b.length
      let u := putPair u { u.pair with lastWrite := u.stage.hubTime }
      let u := if covers hdrEpoch 4 then putPair u { u.pair with partner := u.pair.partner.map (fun p => (fieldOf b (hdrEpoch - off) 4, p.2)) } else u
      let u := if covers hdrAckSeq 4 ∧ roleNow u = .active then ackArrives u (fieldOf b (hdrAckSeq - off) 4) else u
      exec (.relayWrite off (some b) true) s =
        .next (if covers hdrRole 4 then roleArrives u (fieldOf b (hdrRole - off) 1) (fieldOf b (hdrRole - off + 1) 1) else u))) ∧
  (∀ (s : State) (w : Fin 9) (r : Fin 4) (e : Nat) (role : Fin 5) (sy : Fin 3), licRelay s = true → s.flt.halted = false → s.host.relay.linkUp = false →
    w ≠ 0 → r ≠ 0 → e < 2 ^ 32 →
    let u := { s with host := { s.host with relay := { s.host.relay with linkUp := true, width := w, rate := r } } }
    let u := putPair u { u.pair with partner := some (e, role.val, sy.val) }
    let yields : Prop := (u.pair.role = .active ∨ u.pair.role = .solo) ∧ (role = 1 ∨ role = 3) ∧
      (u.pair.epoch < e ∨ (u.pair.epoch = e ∧ u.host.relay.endpoint = true))
    (yields → exec (.relayLinkUp w r e role sy) s = .next (settle (becomeFenced u))) ∧
    (u.pair.role = .solo → role = 2 → exec (.relayLinkUp w r e role sy) s = .next (settle (resyncStart (becomeActive u)))) ∧
    (¬ yields → u.pair.role ≠ .solo ∨ role ≠ 2 → exec (.relayLinkUp w r e role sy) s = .next (settle
      (if (sendRole u).pair.role = .active ∧ role = 2 ∧ sy = 0 then resyncStart (sendRole u) else resyncGo (sendRole u))))) ∧
  (∀ (s g : State) (d : DeltaOut) (go : Bool), s.pair.sending = some d → s.host.relay.linkUp = true → s.flt.halted = false →
    gate s .relay d.seq 0x85A 0 d.len = (g, go) →
    (go = false → exec .deltaSent s = .next g) ∧
    (go = true →
      let u := bump g ⟨.hpfRelayTxBytes, 0, 0⟩ d.len
      let u := putPair u { u.pair with sending := none, unacked := u.pair.unacked ++ [d] }
      exec .deltaSent s = .next (resyncGo (relaySend u hdrDoneSeq (toBytes 4 d.seq))))) ∧
  (∀ (s : State) (off : Nat) (i : Snapshot), roleNow s = .standby → s.flt.halted = false → off % 64 = 0 → off + 64 ≤ ringSize →
    (deltaAt s off = none → exec (.deltaApply off i) s = .next (askResync s)) ∧
    (∀ b, deltaAt s off = some b → (homeBytes s (mirrorBase s + hdrDoneSeq) 4).map ofBytes = some (fieldOf b 0x0C 4) →
      let seq := fieldOf b 0x0C 4
      let follows : Prop := (s.pair.lastSeq = none ∧ fieldOf b 4 1 = 1) ∨ ∃ n, s.pair.lastSeq = some n ∧ seq = (n + 1) % 2 ^ 32
      (¬ follows ∨ s.pair.lossSeen < mirrorLosses s →
        exec (.deltaApply off i) s = .next (askResync (putPair s { s.pair with lossSeen := mirrorLosses s }))) ∧
      (follows → mirrorLosses s ≤ s.pair.lossSeen →
        let u := applyRecords (b.length / 64) s (b.drop 64)
        let x : PairState := { u.pair with lastSeq := some seq, image := some i, lastApplied := fieldOf b 0x10 8, lossSeen := mirrorLosses u,
                                           sync := if fieldOf b 4 1 = 1 then .resyncing else u.pair.sync }
        exec (.deltaApply off i) s = .next (relaySend (putPair u x) hdrAckSeq (toBytes 4 (seq % 2 ^ 31)))))) ∧
  (∀ (s : State) (i : Snapshot), s.pair.image = some i → s.pair.restoring = true → s.pair.restored = false → s.flt.halted = false →
    let fresh (q : Queue) : Queue := { q with manBase := 0, manCount := 0, nextStep := 0, lastStep := none, asked := none, closed := false }
    let u := restoreRegions s
    let u := { u with work := { u.work with ctxs := [], steps := [], slots := i.slots, queues := i.queues.map (fun p => (p.1, p.2.map fresh)) } }
    let u := i.ctxs.foldl (fun u p => match p.2 with | some x => restoreContext u p.1 x | none => u) u
    exec .promotionRestoreDone s = .next (settle (putPair u { u.pair with restored := true, image := none })))

/-! ### Objects of the partitions -/

/-- The commands of a driver (R273, R309, R310, R549 to R556, R562, R565 to R574, R654, R668): each without effect before READY and while another runs;
refused where the function, a licence, a reset of the partition or the pair says so, and on a bad operand; else its own effect, and the end of
those that run on.
Its clauses rest in places on the model's own choices: log entries 54, 61. -/
def Obligations.ObjectCommands : Prop :=
  (∀ (s : State) (fn : Fin 13), ∀ e ∈ [(Instr.ctxCreate fn, 1), (.ctxTeardown fn, 2), (.queueBind fn, 3), (.queueUnbind fn, 4), (.slotConfig fn, 5),
      (.slotFree fn, 6), (.abort fn, 7), (.ctxQuery fn, 8), (.partQuery fn, 9), (.partReset fn, 10)],
    let u := regPut s ⟨.hpfCmd, fn, 0⟩ e.2
    ((hostFn s fn).ready = false ∨ (fnCmd s fn).isSome = true → exec e.1 s = .next s) ∧
    ((hostFn s fn).ready = true → fnCmd s fn = none →
      (9 ≤ fn.val → exec e.1 s = .next (cmdEnd u fn 2 0)) ∧
      (fn.val < 9 → licensed u = false → e.2 < 8 ∨ e.2 = 10 → exec e.1 s = .next (cmdEnd u fn 7 0)) ∧
      (fn.val < 9 → licensed u = true → (part u fn).phase = .resetting → exec e.1 s = .next (cmdEnd u fn 6 0)) ∧
      (fn.val < 9 → licensed u = true → (part u fn).phase ≠ .resetting → e.2 = 1 ∨ e.2 = 3 → roleNow u = .standby →
        exec e.1 s = .next (cmdEnd u fn 6 0)))) ∧
  (∀ (s : State) (fn : Fin 9), (hostFn s fn).ready = true → fnCmd s fn = none → licensed s = true → (part s fn).phase ≠ .resetting → roleNow s ≠ .standby →
    let u (op : Nat) := regPut s ⟨.hpfCmd, fn, 0⟩ op
    let ends (i : Instr) (op result value : Nat) : Prop := exec i s = .next (settle (cmdEnd (u op) fn result value))
    (let b := cmdBuf (u 1) fn
     let fits : Prop := fieldOf b 0 4 < 2 ^ 20 ∧ fieldOf b 4 4 + fieldOf b 0x10 48 = 0
     (¬ fits → ends (.ctxCreate fn) 1 1 0) ∧
     (fits →
      ((span 0 4096).find? (fun c => (context (u 1) c).isNone) = none ∨ (part (u 1) fn).contextMax ≤ ctxCount (u 1) fn → ends (.ctxCreate fn) 1 3 0) ∧
      (∀ c, (span 0 4096).find? (fun c => (context (u 1) c).isNone) = some c → ctxCount (u 1) fn < (part (u 1) fn).contextMax →
        let twice := pasidTaken (u 1) fn (fieldOf b 0 4)
        (twice = true → ends (.ctxCreate fn) 1 5 0) ∧
        (twice = false → tierRefused (u 1) fn (tierDescOf b) (fieldOf b 0x70 16) = true → ends (.ctxCreate fn) 1 4 0) ∧
        (twice = false → tierRefused (u 1) fn (tierDescOf b) (fieldOf b 0x70 16) = false →
          let x : Context := { fn := fn, pasid := fieldOf b 0 4, ownerTag := fieldOf b 8 8, tier := tierDescOf b, phase := .creating }
          exec (.ctxCreate fn) s = .next (settle (cmdBusy (regSetBits (putContext (u 1) c (some x)) ⟨.tirStatus, 0, 0⟩ 0 0 1) fn 1 c 0)))))) ∧
    (let w := cmdWord (u 2) fn 0
     (bitsOf w 15 12 ≠ 0 ∨ bitsOf w 31 17 ≠ 0 → ends (.ctxTeardown fn) 2 1 0) ∧
     (bitsOf w 15 12 = 0 → bitsOf w 31 17 = 0 →
      (ownContext (u 2) fn (w % 4096) = none → ends (.ctxTeardown fn) 2 2 0) ∧
      (∀ x, ownContext (u 2) fn (w % 4096) = some x →
        exec (.ctxTeardown fn) s = .next (settle (cmdBusy (tearStart (u 2) (w % 4096) .ownerGone (bitOf w 16)) fn 2 (w % 4096) 0))))) ∧
    (let b := cmdBuf (u 3) fn
     let f := fieldOf b
     let fl := f 6 2
     let host := bitOf fl 1 = true
     let chip := bitOf fl 2 = true
     let fits : Prop := f 0x16 2 + f 0x1C 4 + f 0x30 80 = 0 ∧ fl < 8 ∧ ¬ (host ∧ chip) ∧ (¬ host → ¬ chip → f 0x12 2 = 0 ∧ f 0x14 2 = 0) ∧
       (host → 16 ≤ f 0x12 2 ∧ f 0x12 2 < 2048 ∧ f 0x14 2 = 0) ∧ (chip → f 0x14 2 < 512) ∧ f 0 2 < 4096 ∧ f 2 2 < 1024 ∧ f 8 8 % 4096 = 0 ∧
       4 ≤ f 0x10 1 ∧ f 0x10 1 ≤ 16 ∧ (f 0x11 1 ≠ 0 → 6 ≤ f 0x11 1 ∧ f 0x11 1 ≤ 16) ∧ f 0x20 8 % 4096 = 0 ∧ f 0x28 8 % 8 = 0
     let own : Prop := queuePart (u 3) (f 0 2) = some fn.val ∧ ownContext (u 3) fn (f 4 2) ≠ none
     let inUse : Prop := (queueOf (u 3) (f 0 2)).isSome = true ∨ pageTaken (u 3) fn (f 2 2) = true
     let y : Queue := { page := f 2 2, ctx := f 4 2, fn := fn, flags := fl, ringBase := f 8 8, ringLog2 := f 0x10 1, evtLog2 := f 0x11 1,
                        vector := f 0x12 2, intrInit := f 0x14 2, evtBase := f 0x20 8, evtTail := f 0x28 8, head := f 0x18 4, tail := f 0x18 4 }
     (¬ fits → ends (.queueBind fn) 3 1 0) ∧ (fits → ¬ own → ends (.queueBind fn) 3 2 0) ∧ (fits → own → inUse → ends (.queueBind fn) 3 6 0) ∧
     (fits → own → ¬ inUse → exec (.queueBind fn) s = .next (settle (cmdEnd (putQueue (u 3) (f 0 2) (some y)) fn 0 0)))) ∧
    (let w := cmdWord (u 4) fn 0
     (4096 ≤ w → ends (.queueUnbind fn) 4 1 0) ∧
     (w < 4096 → queueOf (u 4) w = none → ends (.queueUnbind fn) 4 (if queuePart (u 4) w = some fn.val then 0 else 2) 0) ∧
     (w < 4096 → ∀ y, queueOf (u 4) w = some y →
      (y.fn ≠ fn.val → ends (.queueUnbind fn) 4 2 0) ∧
      (y.fn = fn.val → (u 4).work.steps.any (fun x => x.queue == w) = true → ends (.queueUnbind fn) 4 6 0) ∧
      (y.fn = fn.val → (u 4).work.steps.any (fun x => x.queue == w) = false → exec (.queueUnbind fn) s = .next (settle (cmdEnd
        (putQueue (modFn (u 4) fn (fun h => { h with backlog := h.backlog.filter (fun e => e.queue != w) })) w none) fn 0 0))))) ∧
    (let w := cmdWord (u 5) fn 0
     let o := cmdWord (u 5) fn 2
     let k := w % 65536
     let fits : Prop := bitsOf w 31 18 = 0 ∧ bitsOf o 30 12 = 0 ∧ bitsOf w 17 16 ≠ 0 ∧ bitsOf w 17 16 ≠ 3
     let own : Prop := slotPart (u 5) k = some fn.val ∧ (bitOf o 31 = false → ownContext (u 5) fn (o % 4096) ≠ none)
     let owner := if bitOf o 31 then none else some (o % 4096)
     (¬ fits → ends (.slotConfig fn) 5 1 0) ∧ (fits → ¬ own → ends (.slotConfig fn) 5 2 0) ∧
     (fits → own → slotAt (u 5) k ≠ .free → ends (.slotConfig fn) 5 6 0) ∧
     (fits → own → slotAt (u 5) k = .free → exec (.slotConfig fn) s = .next (settle (cmdEnd (putSlot (u 5) k
      (if bitsOf w 17 16 = 1 then .tally (cmdWord (u 5) fn 1) owner else .sealObj 0 0 0 0 owner)) fn 0 0)))) ∧
    (let k := cmdWord (u 6) fn 0
     let used := (u 6).work.steps.any (fun x => (x.sealEn && x.sealSlot == k) || (x.waitEn && x.wait == k && !x.begun))
     (65536 ≤ k → ends (.slotFree fn) 6 1 0) ∧ (k < 65536 → slotPart (u 6) k ≠ some fn.val → ends (.slotFree fn) 6 2 0) ∧
     (k < 65536 → slotPart (u 6) k = some fn.val → used = true → ends (.slotFree fn) 6 6 0) ∧
     (k < 65536 → slotPart (u 6) k = some fn.val → used = false → exec (.slotFree fn) s = .next (settle (cmdEnd (putSlot (u 6) k .free) fn 0 0)))) ∧
    (let w := cmdWord (u 7) fn 0
     let own : Prop := abortOwned (u 7) fn w = true
     let mine (x : Step) : Bool := x.part == fn.val && abortScope w x
     (w % 4 = 3 ∨ bitsOf w 15 2 ≠ 0 → ends (.abort fn) 7 1 0) ∧
     (w % 4 ≠ 3 → bitsOf w 15 2 = 0 → (¬ own → ends (.abort fn) 7 2 0) ∧
      (own → exec (.abort fn) s = .next (settle (cmdBusy (abortSteps (u 7) mine .aborted) fn 7 w
        ((u 7).work.steps.filter (fun x => mine x && !x.begun)).length))))) ∧
    (let c := cmdWord (u 8) fn 0
     (4096 ≤ c → ends (.ctxQuery fn) 8 1 0) ∧ (c < 4096 → ownContext (u 8) fn c = none → ends (.ctxQuery fn) 8 2 0) ∧
     (c < 4096 → ∀ x, ownContext (u 8) fn c = some x →
      ∃ b : List Byte, exec (.ctxQuery fn) s = .next (settle (cmdEnd (putBuf (u 8) fn b) fn 0 0)) ∧
        b.take 32 = toBytes 8 x.engineNs ++ toBytes 8 x.porterNs ++ toBytes 8 x.copyBytes ++ toBytes 8 x.fillBytes)) ∧
    (∃ b : List Byte, exec (.partQuery fn) s = .next (settle (cmdEnd (putBuf (u 9) fn b) fn 0 0))) ∧
    (let w := cmdWord (u 10) fn 0
     let p := if fn.val = 0 then w % 16 else fn.val
     let fits : Prop := fn.val = 0 → w < 16 ∧ p < 9
     (¬ fits → ends (.partReset fn) 10 1 0) ∧ (fits → partLicensed (u 10) p = false → ends (.partReset fn) 10 7 0) ∧
     (fits → partLicensed (u 10) p = true → (part (u 10) p).phase = .resetting → ends (.partReset fn) 10 6 0) ∧
     (fits → partLicensed (u 10) p = true → (part (u 10) p).phase ≠ .resetting →
      exec (.partReset fn) s = .next (settle (partitionReset (cmdBusy (u 10) fn 10 p 0) p))))) ∧
  (∀ (s : State) (fn : Fin 9) (k : FnCmd), fnCmd s fn = some k →
    (∀ x, k.op = 1 → context s k.arg = some x →
      let u := (span 0 x.tier.bales).foldl (fun s i => if bitOf x.tier.flags 0 then scanRecord s x i else newRecord s x i) s
      exec (.ctxCreateDone fn) s = .next (cmdEnd (scanStatus (modContext u k.arg (fun x => { x with phase := .live }))) fn 0 k.arg)) ∧
    (k.op = 2 → tearReady s k.arg = true → exec (.ctxTeardownDone fn) s = .next (settle (cmdEnd (tearFinish s k.arg) fn 0 0))) ∧
    (k.op = 7 → s.work.steps.any (fun x => x.part == fn.val && abortScope k.arg x && x.cancelling) = false →
      exec (.abortDone fn) s = .next (cmdEnd s fn 0 k.count))) ∧
  (∀ (s : State) (p : Fin 9), (part s p).phase = .resetting → s.work.ctxs = [] → smWf {} s.work.parts = true →
    ∃ u, exec (.partitionResetDone p) s = .next (settle u) ∧ u.work.ctxs = [] ∧ (part u p).phase = .steady)

/-! ### The object dictionary and events -/

/-- Requests of Pelxel (R576, R582 to R588): a message that is none is discarded, a ninth unanswered request of a binding is answered BUSY, else it waits
its turn; the oldest of a binding runs and is answered, and those behind it whose CMD is none are answered; a function's mailbox runs at once,
and takes no write while its function answers no memory requests. Every reply carries the request's command and number.
Its clauses rest in places on the model's own choices: log entries 57 to 60, 99, 100. -/
def Obligations.PelxelRequests : Prop :=
  (∀ (s : State) (m : List (BitVec 8)) (pcie sec : Bool), m.length ≤ 1088 → s.bring.supply = .released →
    (pcie = true → linkTrained s s.host.controlLink = true) →
    let a : Accessor := if pcie then .mPcie else .mI3c
    let ours : Prop := 8 ≤ m.length ∧ fieldOf m 0 1 = 0x7E ∧ fieldOf m 1 1 = 0x1F ∧ fieldOf m 2 1 = 0x7A ∧ 128 ≤ fieldOf m 5 1
    (¬ ours → exec (.mctpMessage pcie m sec) s = .next s) ∧
    (ours →
      let u := putColl s { coll s with lastBinding := some a }
      (8 ≤ (requests u a).length → exec (.mctpMessage pcie m sec) s =
        .next (emit u (.pelxel a.num (fieldOf m 5 1 % 32) (fieldOf m 4 1) cBusy []))) ∧
      ((requests u a).length < 8 → exec (.mctpMessage pcie m sec) s = .next (settle (answerUnknown (putRequests u a (requests u a ++
        [{ cmd := fieldOf m 4 1, inst := fieldOf m 5 1 % 32, payload := m.drop 8, secured := sec,
           bad := fieldOf m 3 1 != 1 || fieldOf m 5 1 / 32 % 4 != 0 || fieldOf m 6 1 != 0 || fieldOf m 7 1 != 0 }])) a 1))))) ∧
  (∀ (s : State) (a : Accessor) (n : Fin 32) (p : List (BitVec 8)) (sec : Bool), s.bring.supply = .released → p.length ≤ roomOf a →
    ∀ e ∈ [(Instr.read a n p sec, 1), (.write a n p sec, 2), (.commit a n p sec, 3), (.info a n p sec, 4), (.eventGet a n p sec, 5),
        (.regRead a n p sec, 7), (.regWrite a n p sec, 8)],
      (isMgmt a = false → exec e.1 s = .next (settle (pxlAnswer a e.2 n (pelxel s a e.2 p false false (roomOf a))))) ∧
      (isMgmt a = true → ∀ l bad, requests s a = { cmd := e.2, inst := n, payload := p, secured := sec, bad := bad } :: l →
        exec e.1 s = .next (settle (answerUnknown (pxlAnswer a e.2 n (pelxel (putRequests s a l) a e.2 p sec bad (roomOf a))) a 8)))) ∧
  (∀ (s : State) (fn : Fin 9),
    (fnPresent s fn = true → fnOpen s fn = true → exec (.mailboxGo fn) s = .next (settle (mailboxGo s fn))) ∧
    (fnPresent s fn = false ∨ fnOpen s fn = false → exec (.mailboxGo fn) s = .next s))

/-- Staged sets and events (R55, R589 to R600, R664): COMMIT and DISCARD of an accessor's set, the check of the oldest set, which fails with the place
and reason or is accepted for the mark at which it takes effect; an occurrence is collected, a coalescing window ends, the notice repeats; writes
that clear or enable act at once.
Its clauses rest in places on the model's own choices: log entries 24, 101. -/
def Obligations.DictionaryEvents : Prop :=
  (∀ (s : State) (a : Accessor) (on : Bool),
    (s.dict.checks.any (fun c => c.acc == a.num) = true → exec (.actionCommit a) s = .next s) ∧
    (s.dict.checks.any (fun c => c.acc == a.num) = false →
      let x := accOf s a.num
      let u := putAcc s a.num { x with result := { res := .checking, tag := x.tag } }
      exec (.actionCommit a) s = .next { u with dict := { u.dict with checks := u.dict.checks ++ [{ acc := a.num, tag := x.tag, set := x.staged }] } }) ∧
    exec (.actionDiscard a) s = .next (putAcc s a.num { accOf s a.num with staged := [], result := { res := .discarded, tag := (accOf s a.num).tag } }) ∧
    exec (.hostEnableWrite on) s = .next (putColl s { coll s with hostEnable := on, hostPos := if on then (coll s).hostHead else (coll s).hostPos }) ∧
    exec .logDropsClear s = .next (putColl s { coll s with drops := List.replicate 12 0 }) ∧
    exec .blackBoxClear s = .next (putColl s { coll s with boxFirst := [] }) ∧
    exec .scrubLossClear s = .next { s with flt := { s.flt with lost := 0, rescued := 0, losses := [] } }) ∧
  (∀ (s : State) (c : Check) (rest : List Check), s.dict.checks = c :: rest → s.flt.halted = false →
    let u := { s with dict := { s.dict with checks := rest } }
    let x := accOf s c.acc
    let named (r : CommitResult) : CommitResult := if x.result.res = .checking ∧ x.result.tag = c.tag then r else x.result
    let found := worst (checkSet u (layMembers (s.dict.accepted.foldl (fun b a => laySet b a.set) s)) c.set)
    (∀ f, found = some f → exec .commitCheck s = .next (logEvent (putAcc u c.acc
      { x with result := named { res := .failed, tag := c.tag, failIx := f.ix, failSub := f.sub, reason := f.why } }) 0x0DE2 c.acc 3 f.why.code)) ∧
    (found = none →
      let m := markOfEffect u
      let v := putAcc u c.acc { x with staged := x.staged.filter (fun v => !c.set.contains v), result := named { res := .accepted, tag := c.tag, stage := m } }
      exec .commitCheck s = .next { v with dict := { v.dict with accepted := v.dict.accepted ++ [{ acc := c.acc, tag := c.tag, set := c.set, mark := m }] } })) ∧
  (∀ (s : State) (o : Occ) (rest : List Occ), (coll s).intake = o :: rest →
    exec .eventOccurrence s = .next (reportLost (takeOcc (putColl s { coll s with intake := rest }) o))) ∧
  (∀ (s : State) (code n : Nat) (r : CollRec), (coll s).recs.find? (fun r => r.isFor code n) = some r →
    let u := advance s r.endAt
    (r.first = none → exec (.coalesceWindowEnd code n) s = .next (putColl u ((coll u).delRec code n))) ∧
    (∀ f, r.first = some f →
      let v := emitEntry u f true r.count
      exec (.coalesceWindowEnd code n) s = .next (putColl v (if (coll v).coalesceUs = 0 then (coll v).delRec code n
        else (coll v).modRec code n (fun r => { r with count := 0, first := none, endAt := r.endAt + 1000 * (coll v).coalesceUs }))))) ∧
  (∀ (s : State) (a : Accessor), (coll s).lastBinding = some a → (coll s).mgmt ≠ [] →
    exec .notifyRepeat s = .next (sendNotice (advance s ((coll s).lastNotice + 10000000))))

/-! ### Customs and the life cycle -/

/-- Fuses, tokens, flash and SPDM (R606, R608 to R632): a token is refused with its reason or starts its burn; enrolment and SVN start a burn where the
rules allow it, and do nothing elsewhere; a burn waits for the one before it; one that worked takes effect, one that failed leaves what a power
failure leaves, and a warm reset that waited follows the last; a flash command starts, and ends with its result; a request over SPDM is
answered, and refused while only the ROM runs or beyond four sessions.
Its clauses rest in places on the model's own choices: log entries 11, 14, 85 to 89. -/
def Obligations.CustomsCommands : Prop :=
  (∀ (s : State) (b : Burn),
    (s.cus.burn = none → burnStart s b = putCus s { s.cus with burn := some b }) ∧
    (∀ x, s.cus.burn = some x → burnStart s b = putCus s { s.cus with burnNext := s.cus.burnNext ++ [b] })) ∧
  (∀ (s : State),
    let shut : Prop := romOnly s = true ∨ s.cus.recovery = true ∨ s.flt.halted = true
    (∀ (v : List (BitVec 8)) (ok : Bool),
      (shut → exec (.token v ok) s = .next s) ∧
      (¬ shut →
        ((burns s).any Burn.byToken = true → exec (.token v ok) s = .next (newNonce (refuseToken s 5))) ∧
        ((burns s).any Burn.byToken = false →
          (∀ r, tokenRefusal s v ok = some r → exec (.token v ok) s = .next (newNonce (refuseToken s r))) ∧
          (∀ x, tokenRefusal s v ok = none → tokenBurn v = some x →
            exec (.token v ok) s = .next (newNonce (burnStart (putCus s { s.cus with result := 1 }) x))) ∧
          (tokenRefusal s v ok = none → tokenBurn v = none →
            exec (.token v ok) s = .next (newNonce (putCus s { s.cus with result := 2, consent := true })))))) ∧
    (∀ h : List (BitVec 8),
      (enrolAllowed s h = true → exec (.ownerEnrol h) s = .next (burnStart s (.owner 1 h))) ∧ (enrolAllowed s h = false → exec (.ownerEnrol h) s = .next s) ∧
      (shut ∨ h.length ≠ 48 ∨ s.cus.lc ≠ 2 ∨ ownerFull s 1 = true → enrolAllowed s h = false)) ∧
    (∀ k : Fin 2,
      let run := if k = 0 then s.cus.cfwSvn else s.cus.pplSvn
      let low := if k = 0 then s.cus.minCfw else s.cus.minPpl
      (shut ∨ run ≤ low ∨ (burns s).contains (.svn (k + 1) run) = true → exec (.svnAdvance k) s = .next s) ∧
      (¬ shut → low < run → (burns s).contains (.svn (k + 1) run) = false → exec (.svnAdvance k) s = .next (burnStart s (.svn (k + 1) run))))) ∧
  (∀ (s : State) (b : Burn) (worked : Bool), s.cus.burn = some b →
    let tok : Prop := s.cus.result = 1 ∧ b.byToken = true
    let x := draw (if worked then burnDone s b else cutBurn s)
    let u := x.2
    let v := putCus u { u.cus with burn := u.cus.burnNext.head?, burnNext := u.cus.burnNext.tail,
                                   result := if ¬ tok then u.cus.result else if worked then 2 else Config.freeNat x.1 % 9 }
    exec (.fuseBurnDone worked) s = .next (if v.cus.resetDue = true ∧ v.cus.burn = none then
      warmNow (putCus v { v.cus with resetDue := false }) v.bring.lostStack else v)) ∧
  (∀ (s : State), ∀ e ∈ [(Instr.erase4k, 1), (.erase64k, 2), (.program, 3), (.flashRead, 4), (.activate, 5)],
    (romOnly s = true ∨ s.flt.halted = true ∨ s.cus.cmd.isSome = true → exec e.1 s = .next s) ∧
    (romOnly s = false → s.flt.halted = false → s.cus.cmd = none → exec e.1 s =
      .next (putCus s { s.cus with cmd := some { op := e.2, addr := s.cus.addr, data := s.cus.data }, flashRes := 1 }))) ∧
  (∀ (s : State) (c : FlashCmd) (device : Bool), s.cus.cmd = some c →
    let ends (u : State) : Prop := exec (.flashCommandDone device) s = .next u
    (∀ n, (c.op = 1 ∧ n = 4096) ∨ (c.op = 2 ∧ n = 65536) →
      (c.addr % n ≠ 0 → ends (flashEnd s c.addr 5)) ∧
      (c.addr % n = 0 → flashProtected s c.addr n = true → ends (flashEnd s c.addr 4)) ∧
      (c.addr % n = 0 → flashProtected s c.addr n = false →
        ends (if device then flashEnd (flashPut s c.addr (List.replicate n 0xFF)) c.addr 2 else flashFails s c.addr n))) ∧
    (c.op = 3 →
      let n := c.data.length
      let fits : Prop := n ≠ 0 ∧ n ≤ 256 ∧ c.addr / 256 = (c.addr + n - 1) / 256
      let blank := (flashBytes s c.addr n).all (fun b => b == 0xFF)
      (¬ fits → ends (flashEnd s c.addr 5)) ∧ (fits → flashProtected s c.addr n = true → ends (flashEnd s c.addr 4)) ∧
      (fits → flashProtected s c.addr n = false → blank = false → ends (flashEnd s c.addr 3)) ∧
      (fits → flashProtected s c.addr n = false → blank = true →
        ends (if device then flashEnd (flashPut s c.addr c.data) c.addr 2 else flashFails s c.addr n))) ∧
    (c.op = 4 → ends (if 256 < ofBytes c.data then flashEnd s c.addr 5
      else if device then flashEnd (putCus s { s.cus with data := flashBytes s c.addr (ofBytes c.data) }) c.addr 2 else flashEnd s c.addr 6)) ∧
    (c.op = 5 →
      let other := 1 - selected s c.addr
      (c.addr ≠ 1 → c.addr ≠ 2 → ends (flashEnd s c.addr 5)) ∧
      (c.addr = 1 ∨ c.addr = 2 → slotCheck s c.addr other ≠ 0 → ends (flashEnd s c.addr 7)) ∧
      (c.addr = 1 ∨ c.addr = 2 → slotCheck s c.addr other = 0 → ends (if device then flashEnd (select s c.addr other) c.addr 2 else flashEnd s c.addr 6)))) ∧
  (∀ (s : State) (p : SpdmPath), spdmOpen s p = true → s.flt.halted = false →
    let u := (draw s).2
    let answered (r : SpdmReq) (u : State) (b : List Byte) : Prop := exec (.spdmRequest p r) s = .next (emit u (.spdm (spdmNum p) b))
    let bytes := Config.spdmBytes (16 + (draw s).1)
    answered .getVersion u bytes ∧
    (∀ r, r ≠ .getVersion → romOnly u = true → answered r u []) ∧
    (romOnly u = false →
      (∀ i, 1 ≤ i → i ≤ 6 → answered (.measurement i) u (measure u i)) ∧
      (4 ≤ u.cus.sessions.length → answered .openSession u []) ∧
      (u.cus.sessions.length < 4 → answered .openSession (putCus u { u.cus with sessions := u.cus.sessions ++ [p] }) bytes) ∧
      (u.cus.sessions.contains p = true →
        answered .endSession (putCus u { u.cus with sessions := listDelFirst (fun q => q == p) u.cus.sessions }) bytes)))

/-! ### Bring-up, resets, ageing and the stage -/

/-- The stages of bring-up (R5 to R7, R337, R344 to R347, R353, R367 to R372, R457, R608, R620, R624, R633 to R658, R661): power, the release of reset, and each stage
while it runs, with its end in pass, in degraded or at a fatal cause, which stops bring-up.
Its clauses rest in places on the model's own choices: log entries 16, 90 to 95, 116. -/
def Obligations.BringUpStages : Prop :=
  (∀ s : State, (s.bring.supply = .bad → exec .supplyGood s = .next (putBring s { s.bring with supply := .hold, recs := [(1, { res := .running, start := s.stage.hubTime })] })) ∧
    (s.bring.supply ≠ .bad → exec .supplyOutOfBand s = .next (powerOn s))) ∧
  (∀ (s : State) (q e a b : Bool), s.bring.supply = .hold →
    let n := s.stage.hubTime
    let l : SMap StageRec := [(1, { res := .pass, start := n, finish := n }), (2, { res := .running, start := n })]
    ∃ t, exec (.powerOnResetRelease q e a b) s = .next t ∧
    t.bring = { s.bring with supply := .released, path := 1, boots := 1, start := n, bootQuick := q, recs := l } ∧
    t.host.relay = { s.host.relay with endpoint := e }) ∧
  (∀ (s : State) (n : Nat), stageOpen s 2 = true →
    let w := lcOf s.cus.lcWord
    let lc := if s.bring.path = 2 ∧ (w = 4 ∨ w = 5) ∧ w ≠ s.cus.lc then s.cus.lc else w
    let u := putCus (advance s n) { s.cus with lc := lc }
    (lc = 15 → exec (.rom n) s = .next (stageFatal u 2 0x0201 0)) ∧
    (lc = 5 → exec (.rom n) s = .next (stageFatal u 2 0x0202 0)) ∧
    (lc ≠ 15 → lc ≠ 5 →
      let v := newNonce u
      exec (.rom n) s = .next (stageEnd (if v.bring.path = 1 then emit { v with age := { v.age with target := v.age.vbase } } (.avsTarget v.age.vbase) else v) 2 []))) ∧
  (∀ (s : State) (n : Nat) (pll router : Option Nat) (d sl : List Nat), d.length = 184 → sl.any (fun k => decide (184 ≤ k)) = false →
    pll.any (fun u => decide (188 ≤ u)) = false → router.any (fun r => decide (160 ≤ r)) = false → stageOpen s 3 = true →
    (∀ u, pll = some u → exec (.clocks n pll router d sl) s = .next (stageFatal (advance s n) 3 0x0301 u)) ∧
    (∀ r, pll = none → router = some r → exec (.clocks n pll router d sl) s = .next (stageFatal (advance s n) 3 0x0302 r)) ∧
    (pll = none → router = none →
      let u := measureSites (advance s n) d sl
      exec (.clocks n pll router d sl) s = .next (stageEnd (if u.bring.path = 1 then sendTarget u (vddTarget u) else u) 3 []))) ∧
  (∀ (s : State) (n : Nat), stageOpen s 4 = true → exec (.firmware n false) s = .next (stageFatal (advance s n) 4 0x0401 0) ∧
    exec (.firmware n true) s = .next (match chooseImage (advance s n) 1 with
      | (u, none, c) => stageFatal (putCus u { u.cus with recovery := true }) 4 0x0402 c
      | (u, some k, _) =>
        let w := checkLicences (putCus u { u.cus with cfwSlot := k, cfwSvn := imageSvn u 1 k, digCfw := imageDigest u 1 k })
        stageEnd (rewriteWaybill ((span 0 8).foldl (fun s k => modSite s k (fun x => { x with inReset := false })) w)) 4 [])) ∧
  (∀ (s u : State) (n : Nat) (rows : List (Nat × Nat)), rows.any (fun r => decide (160 ≤ r.1) || decide (16 ≤ r.2)) = false → stageOpen s 5 = true →
    (∀ k, bringRows rows (advance s n) = (u, some k) → exec (.serai n rows) s = .next (stageFatal u 5 0x0502 k)) ∧
    (bringRows rows (advance s n) = (u, none) → u.flt.halted = true → exec (.serai n rows) s = .next (settle u)) ∧
    (bringRows rows (advance s n) = (u, none) → u.flt.halted = false → exec (.serai n rows) s = .next (settle (match chooseImage u 2 with
      | (v, none, c) => stageFatal v 5 0x0501 c
      | (v, some k, _) =>
        let p := (slotImage v 2 k).2
        let x : CustomsState := { v.cus with pplSlot := k, pplSvn := imageSvn v 2 k, digPpl := imageDigest v 2 k, payloadId := fieldOf p 0 4, pplReady := true }
        let w := startFetch (loadImage (putCus v x) p)
        let w := { w with mem := { w.mem with customsReady := true } }
        stageEnd w 5 (if waysDisabled w = 0 then [] else [(0x0503, waysDisabled w)]))))) ∧
  (∀ (s : State) (n : Nat) (caps : List Nat) (failed late : BitVec 8), caps.length = 8 → caps.any (fun c => decide (4 < c)) = false → stageOpen s 6 = true →
    let u := advance s n
    let full := u.bring.path == 1
    let told (h : Nat) : Nat := caps[h]?.getD 0
    let on := (span 0 8).filter (stackLicensed u)
    let there := (span 0 8).filter (fun h => told h != 0)
    let cap (h : Nat) : Nat := if full then told h else (stackOf u h).cap
    let first := match there with | h :: _ => cap h | [] => 0
    let differ := maskOf 8 (fun h => there.contains h && cap h != first)
    let silent := on.any (fun h => told h == 0)
    (full = true → silent = false → differ ≠ 0 → exec (.hbmInit n caps failed late) s = .next (stageFatal u 6 0x0601 differ)) ∧
    (full = false ∨ (silent = false ∧ differ = 0) →
      let before := maskOf 8 (fun h => (stackOf u h).selfRefresh)
      let v := if full then there.foldl (fun s h => putStack s h { stackOf s h with cap := cap h }) u else u
      let v := on.foldl (fun s h => putStack s h { stackOf s h with
        cap := cap h, inService := true, selfRefresh := false,
        retained := !full && (stackOf s h).selfRefresh && !bitOf late.toNat h && s.bring.interrupted.isNone }) v
      let out := maskOf 8 (fun h => on.contains h && bitOf (pairMask failed.toNat) h)
      let v := stacksOut v out
      let v := if full then on.foldl hardRepair v else v
      (∀ k, emptyHalf v = some k → exec (.hbmInit n caps failed late) s = .next (stageFatal v 6 0x0603 k)) ∧
      (emptyHalf v = none →
        let w := if full then hbmUndefined (firstMap v) else if serviceMask v ≠ before ∨ v.bring.lostStack = true then dropConfig v else v
        exec (.hbmInit n caps failed late) s =
          .next (stageEnd (putBring w { w.bring with level := (testLevel w).1 }) 6 (if out ≠ 0 then [(0x0602, out)] else []))))) ∧
  (∀ (s : State) (n : Nat) (rows : List (Nat × Nat × Nat × Nat × Bool)), rows.any testRowBad = false → stageOpen s 7 = true →
    let level := (testLevel s).1
    let all := (testLevel s).2
    let ran (h : Nat) : Bool := (stackOf s h).inService && level != 0 && (all || !(stackOf s h).retained)
    rows.all (fun e => ran e.1 && decide (e.2.2.2.1 < rowsOf (stackOf s e.1).cap)) = true →
    let tested := maskOf 8 ran
    let r := testRows (advance s n) rows
    let u := clearStacks r.1 tested
    let out := Nat.land (pairMask r.2.2) (serviceMask u)
    let u := if out = 0 then u else stacksOut u out
    (∀ k, emptyHalf u = some k → exec (.memtest n rows) s = .next (stageFatal u 7 0x0603 k)) ∧
    (emptyHalf u = none →
      let v := if out = 0 then u else if u.bring.path = 1 then firstMap u else putHbm (dropConfig u) {}
      exec (.memtest n rows) s = .next (stageEnd (putBring v { v.bring with
        lastTest := if level = 0 then v.bring.lastTest else level, level := 0, interrupted := none }) 7
        ((if r.2.1 = 0 then [] else [(0x0701, r.2.1)]) ++ (if out = 0 then [] else [(0x0702, out)]) ++
          (if all || tested == 0 then [] else [(0x0703, tested)]))))) ∧
  (∀ (s : State) (n : Nat), stageOpen s 8 = true → stageEnded s 5 = true →
    let u := advance ((span 0 s.prt.waves).foldl (fun s w => match exec (.waveRelease w) s with | .next v => v | _ => s) s) n
    let failed := (u.prt.clusters.filter (fun p => p.2.bootFail || p.2.exhausted)).length
    exec (.porter n) s = .next (stageEnd u 8 (if failed = 0 then [] else [(0x0801, failed)]))) ∧
  (∀ (s : State) (n : Nat) (cols : List (Nat × Nat)), cols.any (fun c => decide (8 ≤ c.1) || decide (512 ≤ c.2)) = false → stageOpen s 9 = true →
    let u := cols.foldl (fun s c => if (engine s c.1).outOfService then s else (remapColumn s c.1 c.2).getD (engineOut s c.1)) (advance s n)
    let out := maskOf 8 (fun e => (engine u e).outOfService)
    exec (.engines n cols) s = .next (settle (stageEnd u 9 (if out = 0 then [] else [(0x0901, out)])))) ∧
  (∀ (s : State) (n : Nat), stageOpen s 10 = true → (span 0 8).any (fun k => (span 0 4).any (fun m => (moduleOf s k m).asked)) = false →
    let u := advance s n
    let u := recordMap (if u.bring.path = 2 then putBring u { u.bring with restored := (span 0 8).map (fun k => (site u k).ref) } else u)
    let bad := maskOf 8 (fun k => (site u k).refused || (site u k).identFail)
    exec (.sites n) s = .next (stageEnd u 10 (if bad = 0 then [] else [(0x0A01, bad)]))) ∧
  (∀ (s : State), stageOpen s 11 = true →
    (s.stage.nextMark = 0 → exec .start s = .next { s with stage := { s.stage with nextMark := (stageRec s 11).start + 100000 } }) ∧
    (∀ (k : Nat) (eyes : List Nat), s.stage.nextMark ≠ 0 → eyes.length = 32 → exec (.markZero k eyes) s = .next (settle (markZero (advance s s.stage.nextMark) k eyes)))) ∧
  (∀ (s : State) (p e : Nat), p ≤ 1000 → e < 16384 → s.bring.supply = .released → s.bring.done = false → s.flt.halted = false →
    exec (.hpfBringupUpdate p e) s = .next (putBring s { s.bring with progress := p, eta := e }))

/-- Resets, faults and ageing (R613, R648, R656, R660, R676 to R685, R691, R692): a hub warm reset, which waits for a burn; a fault halts or resets the hub;
measurements, temperatures and currents are taken, and a second trip in a row is hub fault 7; a re-plan falls due by command or by its
interval; a silent regulator is reported once.
Its clauses rest in places on the model's own choices: log entries 75, 98, 105, 116. -/
def Obligations.ResetsAndAgeing : Prop :=
  (∀ s : State,
    (s.flt.halted = true → exec .warmReset s = .next s) ∧
    (s.flt.halted = false → s.cus.burn = none → exec .warmReset s = .next (warmNow s false)) ∧
    (s.flt.halted = false → ∀ b, s.cus.burn = some b → exec .warmReset s =
      .next { s with cus := { s.cus with resetDue := true }, bring := { s.bring with lostStack := s.bring.lostStack || false } })) ∧
  (∀ (s : State) (c : Fin 8), s.flt.halted = false → 1 ≤ c.val → c.val < 4 → exec (.hubFault c) s = .next (Machine.hubFault s c)) ∧
  (∀ s : State, exec .replanNow s = .next { s with age := { s.age with replanDue := true } }) ∧
  (∀ s : State, s.flt.halted = false →
    (s.stage.running = true → s.age.lastReplan + objVal s 0x5041 1 24 * 3600000000000 ≤ s.stage.nextMark →
      exec .replanInterval s = .next (advance { s with age := { s.age with replanDue := true } } (s.age.lastReplan + objVal s 0x5041 1 24 * 3600000000000))) ∧
    (∀ d sl : List Nat, d.length = 184 → sl.any (fun k => decide (184 ≤ k)) = false → exec (.ageingMeasure d sl) s = .next (measureSites s d sl)) ∧
    (∀ a < 2 ^ 16, exec (.avsCurrentRead a) s = .next { s with age := { s.age with current := a, avsSilent := false } }) ∧
    (s.age.avsSilent = false → exec .avsTimeout s = .next (logEvent { s with age := { s.age with avsSilent := true } } 0x0FEF 0 1 0)) ∧
    (∀ d h : List Nat, d.length = 160 → h.length = 8 →
      let trips := (span 0 160).filter (fun t => decide (110 ≤ d[t]?.getD 0))
      let fill (l : List Nat) : SMap Nat := ((span 0 l.length).zip l).foldl (fun m p => smSet 0 m p.1 p.2) []
      let u := (span 0 8).foldl (fun s k => if (stackOf s k).inService then putStack s k { stackOf s k with hot := decide (85 < h[k]?.getD 0) } else s)
        { s with age := { s.age with tileTemp := fill d, stackTemp := fill h, tripping := trips } }
      exec (.tempSample d h) s = .next (if trips.any (fun t => s.age.tripping.contains t) then Machine.hubFault u 7 else u)))

/-- The stage (R41 to R57, R73, R166, R660): the arm message of the next mark goes out 4 µs before it and is received by each unit once; a toll window ends; at
the mark the stage takes the next number, and a third mark in a row out of skew is hub fault 4.
Its clauses rest in places on the model's own choices: log entries 24, 25, 96. -/
def Obligations.StageCommands : Prop :=
  ∀ s : State, s.flt.halted = false →
    (s.stage.arm = none → s.stage.nextMark ≠ 0 → let u := advance s (s.stage.nextMark - 4000)
      exec .armSend s = .next { u with stage := { u.stage with arm := some { stage := nextMarkNo u, time := s.stage.nextMark }, armed := [] } }) ∧
    (∀ (x : HubUnit) a, s.stage.arm = some a → s.stage.armed.contains x.num = false →
      exec (.armReceive x) s = .next { s with stage := { s.stage with armed := setAdd s.stage.armed x.num } }) ∧
    (∀ est, s.stage.running = true → s.stage.window < 15 → exec (.tollWindow est) s = .next (settle (windowStep s est))) ∧
    (∀ (k est : Nat) (eyes : List Nat), s.stage.running = true → eyes.length = 32 →
      let v := finishWindows s est
      let u := fireMark (advance v v.stage.nextMark) (v.stage.number + 1) k eyes
      (u.flt.skewRun < 3 → exec (.stageMark k eyes est) s = .next (settle u)) ∧
      (3 ≤ u.flt.skewRun → exec (.stageMark k eyes est) s = .next (Machine.hubFault u 4)))

/-! ### Matrix engines -/

/-- An engine's work (R61, R134 to R213, R305, R568): it fetches its next descriptor, which starts or ends its step; a plane is loaded; a tile runs under the flaws
that it meets and its checks compare it: one without a trip is written, a trip climbs the ladder: the rerun of rung 1, the localizing rerun
of rung 2, which names a column to remap or leaves the tile unresolved, the rerun of rung 3 on the remapped column; a descriptor ends no
earlier than its clocks; the step commits with its first error; drain and enable are set; a unit that has cancelled its steps ends them.
Its clauses rest in places on the model's own choices: log entries 29, 30, 32, 34, 112, 114, 115, 127, 128, 131. -/
def Obligations.EngineCommands : Prop :=
  (∀ (s : State) (e : Fin 8) (v : Bool),
    exec (.mecDrain e v) s = .next (settle (engStart (regSetBits s ⟨.mecCtrl, e, 0⟩ 1 1 (b2n v)) e true)) ∧
    exec (.mecEnable e v) s = .next (settle (engStart (regSetBits s ⟨.mecCtrl, e, 0⟩ 0 0 (b2n v)) e true))) ∧
  (∀ (s : State) (e : Fin 8) (w : EngStep) (ix d n m : Nat) (y : Step), (engine s e).next = none → engineOpen s e = true → fetchNext s e = some (w, ix) →
    stepFind s w.step = some y → y.body = .engine d n m →
    let ha := d + 128 * ix
    let r : EngRun := { step := w.step, part := w.part, ctx := y.ctx, index := ix, ha := ha, bytes := [] }
    let ends (u : State) : Prop := exec (.descriptorFetch e) s = .next (settle u)
    (inWindows s w.part y.ctx ha 128 = false → ends (fetchFails (logOutside s w.part y.ctx (initEngine e) [(ha, 128)]) e r .translationFault)) ∧
    (inWindows s w.part y.ctx ha 128 = true →
      (∀ g, gate s (.engine e) 0 (initEngine e) w.part 128 = (g, false) → ends g) ∧
      (∀ g, gate s (.engine e) 0 (initEngine e) w.part 128 = (g, true) →
        (∀ u, readNow g ha 128 0 = .wait u → ends (waitFor s u)) ∧
        (∀ u st, readNow g ha 128 0 = .bad u st → ends (fetchFails u e r st)) ∧
        (∀ u b, readNow g ha 128 0 = .done u b →
          let st := checkDesc u w.part y.ctx e ha b
          (engDescOf b = none → ends (fetchFails u e { r with bytes := b } (if st = .complete then .aborted else st))) ∧
          (∀ x, engDescOf b = some x →
            (st = .complete → ends (engStart (wantPlane (modEngine u e (fun z => { z with next := some { r with bytes := b } })) e (x.tag w.part y.ctx)) e true)) ∧
            (st ≠ .complete → ends (fetchFails (logOutside u w.part y.ctx (initEngine e) x.ranges) e { r with bytes := b } st))))))) ∧
  (∀ (s : State) (e : Fin 8) (t : Nat) (r : EngRun) (d : EngDesc), (engine s e).next = some r → (engine s e).loading.isSome = true → r.desc = some d →
    (∀ g, gate s (.engine e) 1 (initEngine e) r.part (rangeBytes (planeRanges d)) = (g, false) → exec (.planeLoadDone e t) s = .next (settle g)) ∧
    (∀ g, gate s (.engine e) 1 (initEngine e) r.part (rangeBytes (planeRanges d)) = (g, true) →
      exec (.planeLoadDone e t) s = .next (settle (match planeLoad (advance g t) e r d with
        | .done u p =>
          let v := if (engine s e).run.isSome then u else bump u ⟨.mecLoadStallClk, e, 0⟩ ((u.stage.hubTime - (engine s e).idleAt) * 3 / 2)
          engStart (modEngine v e (fun x => { x with shadow := p, loading := none })) e true
        | .bad u st => fetchFails (modEngine u e (fun x => { x with loading := none })) e r st
        | .wait u => waitFor s u)))) ∧
  (∀ (s : State) (e : Fin 8) (r : EngRun) (d : EngDesc) (flaws : List Flaw), (engine s e).run = some r → r.desc = some d → r.ladder = none → r.tile < d.tiles →
    flaws.all flawOk = true →
    let ends (u : State) : Prop := exec (.guardCheckDone e flaws) s = .next (settle u)
    (∀ g, gate s (.engine e) (2 + r.tile) (initEngine e) r.part (tileBytes (engine s e).active d r.tile) = (g, false) → ends g) ∧
    (∀ g, gate s (.engine e) (2 + r.tile) (initEngine e) r.part (tileBytes (engine s e).active d r.tile) = (g, true) →
      (∀ u, tileInputs g e d r.tile = .wait u → ends (waitFor s u)) ∧
      (∀ u st, tileInputs g e d r.tile = .bad u st → ends (runFails u e r st)) ∧
      (∀ u i, tileInputs g e d r.tile = .done u i →
        let t := tileRun u e d flaws i
        let chk := checksRun s e d
        let w := tileRan u e r d t (i.2.length * vectorClocks d (d.narrow && !t.escalated)) chk
        let w := if !d.narrow then w else bump w ⟨if t.escalated then .mecWbEscalated else .mecWbNarrowTiles, e, 0⟩ 1
        ((chk && t.tripped) = true → ends (setLadder w e { rung := 1, column := none })) ∧
        ((chk && t.tripped) = false →
          (∀ v x, releaseTile w e r d t = .done v x → ends v) ∧ (∀ v st, releaseTile w e r d t = .bad v st → ends v) ∧
          (∀ v, releaseTile w e r d t = .wait v → ends (waitFor s v)))))) ∧
  (∀ (s : State) (e : Fin 8) (r : EngRun) (d : EngDesc) (l : Ladder) (flaws : List Flaw) (feed : List FeedFlaw), (engine s e).run = some r → r.desc = some d →
    r.ladder = some l → flaws.all flawOk = true → feed.all feedFlawOk = true →
    let ends (u : State) : Prop := exec (.ladderRerunDone e flaws feed) s = .next (settle u)
    let reload : Bool := l.rung != 2
    let pl0 : Plane := if reload then {} else (engine s e).active
    let bytes := if reload then rangeBytes (planeRanges d) + tileBytes { pl0 with scales := List.replicate d.wScales 0 } d r.tile else tileBytes pl0 d r.tile
    (∀ g, gate s (.engine e) (2 + r.tile) (initEngine e) r.part bytes = (g, false) → ends g) ∧
    (∀ g, gate s (.engine e) (2 + r.tile) (initEngine e) r.part bytes = (g, true) →
      let plane : Now Plane := if reload then planeLoad g e r d else .done g pl0
      (∀ u, plane = .wait u → ends (waitFor s u)) ∧ (∀ u st, plane = .bad u st → ends (runFails u e r st)) ∧
      (∀ u p, plane = .done u p →
        let u := modEngine u e (fun x => { x with active := p })
        (∀ v, tileInputs u e d r.tile = .wait v → ends (waitFor s v)) ∧ (∀ v st, tileInputs u e d r.tile = .bad v st → ends (runFails v e r st)) ∧
        (∀ v i, tileInputs u e d r.tile = .done v i →
          let t := tileRun v e d flaws i
          let load := if reload then planeClocks d else 0
          let w := tileRan (bump v ⟨.mecLoadStallClk, e, 0⟩ load) e r d t (i.2.length * vectorClocks d false + load + (if l.rung = 2 then 12 else 0)) true
          (l.rung = 1 → t.tripped = true → ends (if t.rowTrips.isEmpty then setLadder w e { rung := 2, column := none } else rung3 w e r d t.rowTrips)) ∧
          (l.rung = 2 → ends (rung3 w e r d (namedColumns d (engine w e).active flaws feed i.2))) ∧
          (l.rung = 3 → t.tripped = true → ends (unresolved w e r l.column)) ∧
          (l.rung = 1 ∨ l.rung = 3 → t.tripped = false →
            (∀ z x, releaseTile w e r d t = .done z x → ends (setStatus (bump z ⟨if l.rung = 1 then .mecWbTransient else .mecWbRemap, e, 0⟩ 1)
              ⟨.mecWbIntStatus, e, 0⟩ (if l.rung = 1 then 0 else 1) e r.ha)) ∧
            (∀ z st, releaseTile w e r d t = .bad z st → ends z) ∧ (∀ z, releaseTile w e r d t = .wait z → ends (waitFor s z))))))) ∧
  (∀ (s : State) (e : Fin 8) (r : EngRun) (d : EngDesc) (columns : List Nat),
    let on := (columns.map (engine s e).active.phys).eraseDups
    ((∀ p, on ≠ [p]) → rung3 s e r d columns = unresolved s e r none) ∧
    (∀ p c l, on = [p] → columns = c :: l →
      (d.noRemap = true → rung3 s e r d columns = unresolved s e r (some c)) ∧
      (d.noRemap = false → freeSpare s e = none → rung3 s e r d columns = engineOut (bump s ⟨.mecWbUnresolved, e, 0⟩ 1) e) ∧
      (d.noRemap = false → ∀ u, remapColumn s e (c % 512) = some u → rung3 s e r d columns = setLadder u e { rung := 3, column := some c }))) ∧
  (∀ (s : State) (e : Fin 8) (t : Nat) (r : EngRun) (d : EngDesc), (engine s e).run = some r → r.desc = some d → r.ladder = none → d.tiles ≤ r.tile →
    3 * r.start + 2 * r.clocks ≤ 3 * t →
    let v := endRun (bump (advance s t) ⟨.mecDescDone, e, 0⟩ 1) e
    ((engine v e).next = none → exec (.descriptorEnd e t) s = .next (settle v)) ∧
    (∀ n, (engine v e).next = some n →
      (n.bad = .complete → exec (.descriptorEnd e t) s = .next (settle (engStart v e false))) ∧
      (n.bad ≠ .complete → exec (.descriptorEnd e t) s = .next (settle (if n.step = r.step then engineBreak v e n.step n.bad else v))))) ∧
  (∀ (s : State) (e : Fin 8) (p : Fin 9) (w : EngStep) (y : Step), (engine s e).intake.find? (fun w => w.part == p.val) = some w → w.begun = true →
    (∀ r, (engine s e).run = some r → r.step ≠ w.step) → descCount s w.step ≤ w.next → stepFind s w.step = some y →
    exec (.engineStepCommit e p) s = .next (settle (engStart (commitStep (putEngine s e { engine s e with
      intake := listDelFirst (fun v => v.step == w.step) (engine s e).intake }) y
      (if y.err ≠ .complete then y.err else if w.strict then .guardUnresolved else .complete)) e true))) ∧
  (∀ (s : State) (u : CancelUnit),
    let due := s.work.steps.filter (fun x => x.ofUnit u && x.cancelling)
    let v := due.foldl (fun s x => match x.phase with | .cancelling st => breakStep s x st | _ => s) s
    (∀ e, u = .engine e → due ≠ [] ∨ (engine s e).cancelling = true →
      exec (.stepCancelDone u) s = .next (settle (engStart (modEngine v e (fun x => { x with cancelling := false })) e true))) ∧
    (∀ k, u = .cluster k → due ≠ [] ∨ (cluster s k).cancelling = true →
      exec (.stepCancelDone u) s = .next (settle (clusterNext (modCluster v k (fun c => { c with cancelling := false })) k))) ∧
    (∀ q, u = .queue q → due ≠ [] → exec (.stepCancelDone u) s = .next (settle v)))

/-! ### The hub as a whole -/

/-- A command whose operands lie beyond their ranges is refused, and every command whose operands keep them has a next state, in every state (the ranges
are those of WellFormed; an event whose cause the state does not hold changes nothing).
It rests on the model's own choices: log entries 4 and 5. -/
def Obligations.IllFormedStops : Prop :=
  ∀ (c : Instr) (s : State),
    (c.wellFormed = false → exec c s = .refused .illFormed) ∧
    (c.wellFormed = true → ∃ t, exec c s = .next t)

/-- What reset leaves: every core control register with a reset value in R265 to R267 reads as it there, every other register of the
hub holds the reset value of its field table, and the pair state is that of R667. That G and V registers hold 0, and that the fused
fields hold 0, is the model's choice (log entries 2 and 18), and so is that the run starts before SUPPLY_GOOD (log entry 3). -/
def Obligations.ResetValues : Prop :=
  (∀ c : Fin 25600,
    let x := core State.reset c.val
    let reads (r : Nat) := ccVal State.reset c.val x r
    (∀ r ∈ [0x000, 0x001, 0x002, 0x003, 0x006, 0x009, 0x00C, 0x00D, 0x00E, 0x00F, 0x010], reads r = some 0) ∧
    reads 0x004 = some 0x8000_0000_0003_0000#64 ∧ reads 0x005 = some 1 ∧ reads 0x00A = some (BitVec.allOnes 64) ∧
    reads 0x00B = some 0xF0000#64 ∧ (∀ r, gGet x r = 0) ∧ (∀ r, vGet x r = 0)) ∧
  (∀ r : Reg, regRaw State.reset r = regReset r) ∧
  regReset ⟨.stgPeriod, 0, 0⟩ = 6 ∧ regReset ⟨.stgStatus, 0, 0⟩ = 0 ∧ State.reset.prt.waves = 100 ∧ State.reset.prt.interval = 2 ∧
  (roleNow State.reset = .unpaired ∧ State.reset.pair.role = .standby ∧ State.reset.pair.epoch = 0 ∧ State.reset.pair.sync = .none) ∧
  State.reset.bring.supply = .bad ∧ State.reset.stage.running = false

/-- Nothing waits at reset, and memory and the cores are held in their canonical forms. -/
def Obligations.ResetCanonical : Prop :=
  State.reset.pending = [] ∧ State.reset.queueOk = true ∧ State.reset.memOk = true ∧ State.reset.coresOk = true

/-- What an instruction of a core that only computes registers leaves unchanged, from every state with its cores in canonical form, a fault of its
fetch and an ILLEGAL of its own included (R217, R224 to R226): every register but its destination, what the core holds beside its
trap registers, every other core and cluster, and everything else of the hub but the collector, where a faulting fetch may log. -/
def Obligations.CoreFrame : Prop :=
  ∀ (s t : State) (i : Instr) (c : Fin 25600) (gd vdest : Option Nat), s.coresOk = true → computes i = some (c, gd, vdest) →
    exec i s = .next t →
    let x := core s c.val
    let y := core t c.val
    (∀ r, some r ≠ gd → gGet y r = gGet x r) ∧ (∀ r, some r ≠ vdest → vGet y r = vGet x r) ∧
    (y.vector = x.vector ∧ y.enables = x.enables ∧ y.timecmp = x.timecmp ∧ y.seed = x.seed ∧ y.scratch = x.scratch ∧ y.lanes = x.lanes ∧
      y.l0d = x.l0d ∧ y.tracker = x.tracker ∧ y.tags = x.tags ∧ y.ctx = x.ctx ∧ y.ctxPart = x.ctxPart) ∧
    (∀ n, n ≠ c.val → core t n = core s n) ∧ (∀ k, k ≠ c.val / 16 → cluster t k = cluster s k) ∧
    t = { s with prt := t.prt, dict := { s.dict with coll := t.dict.coll } }

/-- Every step takes one command from the queue and puts none there, so that the commands that wait stay well formed. -/
def Obligations.QueueKept : Prop :=
  ∀ s t : State, step s = .next t → t.pending = s.pending.tail ∧ (s.queueOk = true → t.queueOk = true)

/-- Every step keeps HBM in its canonical form, addresses rising and no byte listed that equals what an unlisted one reads as, and the
cores in theirs. -/
def Obligations.CanonicalKept : Prop :=
  ∀ s t : State, step s = .next t → (s.memOk = true → t.memOk = true) ∧ (s.coresOk = true → t.coresOk = true)
end

