-- ==== Sys2Proof/Laws/Maps.lean ====
section
/-!
SUPPORT. Laws of sparse maps: a write keeps the canonical form, a read after a write of the same key gives the value written, a write
leaves every other key alone.
-/
namespace Sys2Proof.Machine

variable {α : Type}

theorem smAbove_trans {m : SMap α} {a b : Nat} (h : smAbove m b = true) (hab : a ≤ b) : smAbove m a = true := by
  cases m with
  | nil => rfl
  | cons p m => simp only [smAbove, decide_eq_true_eq] at h ⊢; omega

theorem smFind_above [DecidableEq α] {d : α} {m : SMap α} {a : Nat} (hw : smWf d m = true) (h : smAbove m a = true) : smFind m a = none := by
  induction m generalizing a with
  | nil => rfl
  | cons p m ih =>
    obtain ⟨k, v⟩ := p
    simp only [smWf, Bool.and_eq_true] at hw
    simp only [smAbove, decide_eq_true_eq] at h
    have hk : k ≠ a := by omega
    simp only [smFind, hk, if_false]
    exact ih hw.2 (smAbove_trans hw.1.2 (by omega))

theorem smFind_smInsert_self (m : SMap α) (a : Nat) (v : α) : smFind (smInsert m a v) a = some v := by
  induction m with
  | nil => simp [smInsert, smFind]
  | cons p m ih =>
    obtain ⟨k, w⟩ := p
    unfold smInsert
    split
    · simp [smFind]
    · split
      · simp [smFind]
      · next h1 h2 => simp [smFind, Ne.symm h2, ih]

theorem smFind_smInsert_ne (m : SMap α) {a b : Nat} (v : α) (h : b ≠ a) : smFind (smInsert m a v) b = smFind m b := by
  induction m with
  | nil => simp [smInsert, smFind, Ne.symm h]
  | cons p m ih =>
    obtain ⟨k, w⟩ := p
    unfold smInsert
    split
    · simp [smFind, Ne.symm h]
    · split
      · next h1 h2 => simp [smFind, ← h2, Ne.symm h]
      · simp [smFind, ih]

theorem smFind_smErase_ne (m : SMap α) {a b : Nat} (h : b ≠ a) : smFind (smErase m a) b = smFind m b := by
  induction m with
  | nil => rfl
  | cons p m ih =>
    obtain ⟨k, w⟩ := p
    unfold smErase
    split
    · next hk => simp [smFind, hk, Ne.symm h]
    · simp [smFind, ih]

theorem smFind_smErase_self [DecidableEq α] {d : α} {m : SMap α} (hw : smWf d m = true) (a : Nat) : smFind (smErase m a) a = none := by
  induction m with
  | nil => rfl
  | cons p m ih =>
    obtain ⟨k, w⟩ := p
    simp only [smWf, Bool.and_eq_true] at hw
    unfold smErase
    split
    · next hk => subst hk; exact smFind_above hw.2 hw.1.2
    · next hk => simp [smFind, hk, ih hw.2]

theorem smAbove_smInsert {m : SMap α} {a b : Nat} {v : α} (h : smAbove m b = true) (hab : b < a) : smAbove (smInsert m a v) b = true := by
  cases m with
  | nil => simpa [smInsert, smAbove] using hab
  | cons p m =>
    obtain ⟨k, w⟩ := p
    unfold smInsert
    simp only [smAbove, decide_eq_true_eq] at h
    split
    · simpa [smAbove] using hab
    · split <;> simp [smAbove] <;> omega

theorem smAbove_smErase [DecidableEq α] {d : α} {m : SMap α} (hw : smWf d m = true) {a b : Nat} (h : smAbove m b = true) :
    smAbove (smErase m a) b = true := by
  cases m with
  | nil => rfl
  | cons p m =>
    obtain ⟨k, w⟩ := p
    simp only [smWf, Bool.and_eq_true] at hw
    simp only [smAbove, decide_eq_true_eq] at h
    unfold smErase
    split
    · exact smAbove_trans hw.1.2 (by omega)
    · simpa [smAbove] using h

theorem smWf_smInsert [DecidableEq α] {d : α} {m : SMap α} (hw : smWf d m = true) (a : Nat) {v : α} (hv : v ≠ d) :
    smWf d (smInsert m a v) = true := by
  induction m with
  | nil => simp [smInsert, smWf, smAbove, hv]
  | cons p m ih =>
    obtain ⟨k, w⟩ := p
    have hw' := hw
    simp only [smWf, Bool.and_eq_true] at hw
    unfold smInsert
    split
    · next h => rw [smWf, hw']; simp [smAbove, hv, h]
    · split
      · next h1 h2 => subst h2; simp [smWf, hv, hw.1.2, hw.2]
      · next h1 h2 => simp only [smWf, hw.1.1, ih hw.2, smAbove_smInsert hw.1.2 (show k < a by omega), Bool.and_true]

theorem smWf_smErase [DecidableEq α] {d : α} {m : SMap α} (hw : smWf d m = true) (a : Nat) : smWf d (smErase m a) = true := by
  induction m with
  | nil => rfl
  | cons p m ih =>
    obtain ⟨k, w⟩ := p
    simp only [smWf, Bool.and_eq_true] at hw
    unfold smErase
    split
    · exact hw.2
    · simp only [smWf, hw.1.1, ih hw.2, smAbove_smErase hw.2 hw.1.2, Bool.and_true]

/-- A write keeps the canonical form. -/
theorem smWf_smSet [DecidableEq α] {d : α} {m : SMap α} (hw : smWf d m = true) (a : Nat) (v : α) : smWf d (smSet d m a v) = true := by
  unfold smSet
  split
  · exact smWf_smErase hw a
  · next hv => exact smWf_smInsert hw a hv

/-- A write leaves every other key alone. -/
theorem smGet_smSet_ne [DecidableEq α] (d : α) (m : SMap α) {a b : Nat} (v : α) (h : b ≠ a) : smGet d (smSet d m a v) b = smGet d m b := by
  unfold smGet smSet
  split
  · rw [smFind_smErase_ne m h]
  · rw [smFind_smInsert_ne m v h]

/-- A value other than the default is read back, whatever the form of the map. -/
theorem smGet_smSet_self [DecidableEq α] (d : α) (m : SMap α) (a : Nat) (v : α) (h : v ≠ d) : smGet d (smSet d m a v) a = v := by
  unfold smGet smSet; rw [if_neg h, smFind_smInsert_self]; rfl

/-- In a canonical map every value is read back. -/
theorem smGet_smSet [DecidableEq α] {d : α} {m : SMap α} (hw : smWf d m = true) (a b : Nat) (v : α) :
    smGet d (smSet d m a v) b = if b = a then v else smGet d m b := by
  split
  · next h =>
    subst h
    by_cases hv : v = d
    · unfold smGet smSet; rw [if_pos hv, smFind_smErase_self hw]; exact hv.symm
    · exact smGet_smSet_self d m b v hv
  · next h => exact smGet_smSet_ne d m v h

end Sys2Proof.Machine
end

