-- ==== Sys2Proof/Laws/Cores.lean ====
section
/-!
SUPPORT. What an instruction of a porter core does once it runs, and the arithmetic of the cores as Lean's library names it.
-/
namespace Sys2Proof.Machine.Claims

theorem fetched_eq (x : Core) : fetched x = { x with l0i := (fetched x).l0i } := by
  unfold fetched; dsimp only; split <;> rfl
theorem coreDo_runs {s c} (f : Core → State → Res) (h : Runs s c) : coreDo c s f = f (begun s c) (during s c) := by
  obtain ⟨h1, h2, h3, h4⟩ := h
  unfold coreDo fetchDo cancelDue; simp [h1, h2, h3, h4, begun, during]
theorem coreRegs_runs {s c} (f : Core → Core) (h : Runs s c) : coreRegs c s f = .next (became s c (past (f (begun s c)))) := by
  unfold coreRegs; rw [coreDo_runs _ h]; rfl
theorem gGet_begun (s c) (r : Fin 32) : gGet (begun s c) r.val = gNow s c r := by
  unfold begun gNow; rw [fetched_eq]; rfl
theorem vGet_begun (s c) (r : Fin 16) : vGet (begun s c) r.val = vNow s c r := by
  unfold begun vNow; rw [fetched_eq]; rfl
theorem pc_begun (s c) : (begun s c).pc = pcNow s c := by
  unfold begun pcNow; rw [fetched_eq]

theorem alu_runs {s c} (d a b : Fin 32) (f) (h : Runs s c) : alu c d a b s f = .next (wroteG s c d (f (gNow s c a) (gNow s c b))) := by
  unfold alu; rw [coreRegs_runs _ h, gGet_begun, gGet_begun, wroteG]
theorem aluImm_runs {s c} (d a : Fin 32) (f) (h : Runs s c) : aluImm c d a s f = .next (wroteG s c d (f (gNow s c a))) := by
  unfold aluImm; rw [coreRegs_runs _ h, gGet_begun, wroteG]

theorem sh_eq (q : BitVec 64) : shAmt q = (q &&& 63#64).toNat := by
  unfold shAmt; rw [BitVec.toNat_and]; exact (Nat.and_two_pow_sub_one_eq_mod (q.toNat) 6).symm
theorem slt_eq (p q : BitVec 64) : boolWord (p.slt q) = if p.toInt < q.toInt then 1 else 0 := by
  unfold boolWord; simp [BitVec.slt]
theorem sltu_eq (p q : BitVec 64) : boolWord (p.ult q) = if p.toNat < q.toNat then 1 else 0 := by
  unfold boolWord; simp [BitVec.ult]
theorem mulhu_eq (p q : BitVec 64) : mulhu p q = (p.zeroExtend 128 * q.zeroExtend 128).extractLsb' 64 64 := by
  apply BitVec.eq_of_toNat_eq
  have h1 : p.toNat * q.toNat < 2^128 := by
    have := p.isLt; have := q.isLt
    calc p.toNat * q.toNat < 2^64 * 2^64 := Nat.mul_lt_mul'' p.isLt q.isLt
      _ = 2^128 := by norm_num
  have hp : p.toNat < 2^128 := lt_trans p.isLt (by norm_num)
  have hq : q.toNat < 2^128 := lt_trans q.isLt (by norm_num)
  simp only [mulhu, BitVec.extractLsb'_toNat, BitVec.toNat_mul, BitVec.truncate_eq_setWidth, BitVec.toNat_setWidth, BitVec.toNat_ofNat, Nat.shiftRight_eq_div_pow]
  rw [Nat.mod_eq_of_lt hp, Nat.mod_eq_of_lt hq, Nat.mod_eq_of_lt h1]
theorem mulhs_eq (p q : BitVec 64) : mulhs p q = (p.signExtend 128 * q.signExtend 128).extractLsb' 64 64 := by
  have key : (p.signExtend 128 * q.signExtend 128) = BitVec.ofInt 128 (p.toInt * q.toInt) := by
    apply BitVec.eq_of_toInt_eq
    rw [BitVec.toInt_mul, BitVec.toInt_signExtend_of_le (by norm_num), BitVec.toInt_signExtend_of_le (by norm_num), BitVec.toInt_ofInt]
  rw [key]
  apply BitVec.eq_of_toNat_eq
  simp only [mulhs, BitVec.extractLsb'_toNat, BitVec.toNat_ofInt, Nat.shiftRight_eq_div_pow]
  omega
theorem divs_eq (p q : BitVec 64) : divs p q = p.sdiv q := by
  unfold divs; split
  · next h => subst h; simp
  · next h => apply BitVec.eq_of_toInt_eq; rw [BitVec.toInt_sdiv, BitVec.toInt_ofInt]
theorem rems_eq (p q : BitVec 64) : rems p q = p.srem q := by
  unfold rems; split
  · next h => subst h; simp
  · next h => apply BitVec.eq_of_toInt_eq; rw [BitVec.toInt_ofInt, BitVec.toInt_srem, ← BitVec.toInt_srem]; rw [BitVec.toInt_bmod_cancel]
theorem divu_eq (p q : BitVec 64) : divu p q = p / q := by
  unfold divu; split
  · next h => subst h; simp
  · next h => apply BitVec.eq_of_toNat_eq; simp [BitVec.toNat_udiv]; exact lt_of_le_of_lt (Nat.div_le_self _ _) p.isLt
theorem remu_eq (p q : BitVec 64) : remu p q = p % q := by
  unfold remu; split
  · next h => subst h; simp
  · next h => apply BitVec.eq_of_toNat_eq; simp [BitVec.toNat_umod]; exact lt_of_le_of_lt (Nat.mod_le _ _) p.isLt
theorem clz_eq (p : BitVec 64) : BitVec.ofNat 64 (clz64 p) = p.clz := by
  unfold clz64; split
  · next h => subst h; decide
  · next h =>
    have h1 := @BitVec.toNat_lt_two_pow_sub_clz 64 p
    have h2 := BitVec.two_pow_sub_clz_le_toNat_of_ne_zero (by norm_num) h
    have h3 := BitVec.clz_lt_iff_ne_zero.mpr h
    have h4 : p.clz.toNat < 64 := by simpa [BitVec.lt_def] using h3
    have hl : Nat.log2 p.toNat = 63 - p.clz.toNat := by
      have hp : p.toNat ≠ 0 := by intro h0; exact h (BitVec.eq_of_toNat_eq (by simpa using h0))
      rw [Nat.log2_eq_iff hp]
      constructor
      · simpa [show 64 - p.clz.toNat - 1 = 63 - p.clz.toNat by omega] using h2
      · rw [show 63 - p.clz.toNat + 1 = 64 - p.clz.toNat by omega]; exact h1
    apply BitVec.eq_of_toNat_eq
    rw [hl, BitVec.toNat_ofNat]; omega
theorem span_filter (p : BitVec 64) (n a : Nat) : ((span a n).filter (fun i => p.getLsbD i)).length = ((List.range' a n).filter (fun i => p.getLsbD i)).length := by
  congr 2
  induction n generalizing a with
  | zero => rfl
  | succ n ih => simp [span, List.range', ih]
theorem range_filter (p : BitVec 64) (n : Nat) (acc : Nat) : p.cpopNatRec n acc = acc + ((List.range n).filter (fun i => p.getLsbD i)).length := by
  induction n generalizing acc with
  | zero => simp
  | succ n ih => rw [BitVec.cpopNatRec_succ, ih, List.range_succ, List.filter_append]; cases h : p.getLsbD n <;> simp [h]; omega
theorem popc_eq (p : BitVec 64) : BitVec.ofNat 64 (popc64 p) = p.cpop := by
  apply BitVec.eq_of_toNat_eq
  rw [BitVec.toNat_cpop, range_filter, BitVec.toNat_ofNat, popc64, span_filter, ← List.range_eq_range']
  have : ((List.range 64).filter (fun i => p.getLsbD i)).length ≤ 64 := by
    simpa using List.length_filter_le (fun i => p.getLsbD i) (List.range 64)
  omega
theorem min_eq (p q : BitVec 64) : (if p.slt q then p else q) = if p.toInt ≤ q.toInt then p else q := by
  simp only [BitVec.slt, decide_eq_true_eq]
  by_cases h : p.toInt < q.toInt
  · simp [h, le_of_lt h]
  · by_cases h2 : p.toInt ≤ q.toInt
    · have : p = q := BitVec.eq_of_toInt_eq (by omega)
      simp [this]
    · simp [h, h2]
theorem max_eq (p q : BitVec 64) : (if p.slt q then q else p) = if p.toInt ≤ q.toInt then q else p := by
  simp only [BitVec.slt, decide_eq_true_eq]
  by_cases h : p.toInt < q.toInt
  · simp [h, le_of_lt h]
  · by_cases h2 : p.toInt ≤ q.toInt
    · have : p = q := BitVec.eq_of_toInt_eq (by omega)
      simp [this]
    · simp [h, h2]

theorem fetched_ne (x : Core) : fetched x ≠ {} := by
  intro h
  have h2 : (fetched x).l0i = [] := by rw [h]
  unfold fetched at h2; dsimp only at h2
  split at h2
  · next hc => rw [h2] at hc; simp at hc
  · simp at h2
theorem core_during (s c) : Machine.core (during s c) c.val = begun s c := by
  unfold during Machine.core putCore; exact smGet_smSet_self _ _ _ _ (fetched_ne _)
theorem raise_runs (s c) (code : Nat) (info) : raise (during s c) c.val code info = trapped s c code info := by
  unfold raise modCore trapped became; rw [core_during]; dsimp only; rw [pc_begun]

theorem ofLanes_bit (f : Nat → Nat) (k : Nat) : (ofLanes f).getLsbD k = (if k < 32 then (BitVec.ofNat 32 (f 0)).getLsbD k else if k < 64 then (BitVec.ofNat 32 (f 1)).getLsbD (k-32) else if k < 96 then (BitVec.ofNat 32 (f 2)).getLsbD (k-64) else  (BitVec.ofNat 32 (f 3)).getLsbD (k-96)) := by
  unfold ofLanes
  simp only [BitVec.getLsbD_append]
  split_ifs <;> first | rfl | omega
theorem lane_ofLanes (f : Nat → Nat) (j : Nat) (hj : j < 4) : lane (ofLanes f) j = f j % 2 ^ 32 := by
  have h4 : j = 0 ∨ j = 1 ∨ j = 2 ∨ j = 3 := by omega
  unfold lane
  rw [← BitVec.toNat_ofNat]
  congr 1
  apply BitVec.eq_of_getLsbD_eq
  intro i hi
  rw [BitVec.getLsbD_extractLsb', ofLanes_bit, decide_eq_true hi, Bool.true_and]
  rcases h4 with rfl | rfl | rfl | rfl
  · rw [if_pos (by omega)]; simp
  · rw [if_neg (by omega), if_pos (by omega)]; congr 1; omega
  · rw [if_neg (by omega), if_neg (by omega), if_pos (by omega)]; congr 1; omega
  · rw [if_neg (by omega), if_neg (by omega), if_neg (by omega)]; congr 1; omega
theorem ofLanes_congr {f g : Nat → Nat} (h : ∀ j, j < 4 → f j % 2 ^ 32 = g j % 2 ^ 32) : ofLanes f = ofLanes g := by
  have e : ∀ j, j < 4 → BitVec.ofNat 32 (f j) = BitVec.ofNat 32 (g j) := fun j hj => BitVec.eq_of_toNat_eq (by simpa using h j hj)
  unfold ofLanes; rw [e 0 (by omega), e 1 (by omega), e 2 (by omega), e 3 (by omega)]
theorem ofLanes_lane (v : BitVec 128) : ofLanes (lane v) = v := by
  apply BitVec.eq_of_getLsbD_eq
  intro i hi
  rw [ofLanes_bit]
  simp only [lane, BitVec.ofNat_toNat, BitVec.setWidth_eq, BitVec.getLsbD_extractLsb']
  split_ifs
  · rw [decide_eq_true (by omega), Bool.true_and]; congr 1; omega
  · rw [decide_eq_true (by omega), Bool.true_and]; congr 1; omega
  · rw [decide_eq_true (by omega), Bool.true_and]; congr 1; omega
  · rw [decide_eq_true (by omega), Bool.true_and]; congr 1; omega

end Sys2Proof.Machine.Claims
end

