-- ==== Sys2Proof/Laws/Frames.lean ====
section
/-!
SUPPORT. What an instruction of a core that only computes registers leaves as it was, once for each operation that such instructions share.
-/
namespace Sys2Proof.Machine.Claims

/-- Two contents of a core that differ in the PC, the trap registers, and in G[gd] and V[vdest] at most. -/
def SameBut (gd vdest : Option Nat) (x y : Core) : Prop :=
    (∀ r, some r ≠ gd → gGet y r = gGet x r) ∧ (∀ r, some r ≠ vdest → vGet y r = vGet x r) ∧
    (y.vector = x.vector ∧ y.enables = x.enables ∧ y.timecmp = x.timecmp ∧ y.seed = x.seed ∧ y.scratch = x.scratch ∧ y.lanes = x.lanes ∧
      y.l0d = x.l0d ∧ y.tracker = x.tracker ∧ y.tags = x.tags ∧ y.ctx = x.ctx ∧ y.ctxPart = x.ctxPart)
/-- Two states of the hub that differ in core `c`, as `SameBut` says, and in what a faulting fetch logs, at most. -/
def OnlyCore (s : State) (c : Fin 25600) (gd vdest : Option Nat) (t : State) : Prop :=
    let x := core s c.val
    let y := core t c.val
    (∀ r, some r ≠ gd → gGet y r = gGet x r) ∧ (∀ r, some r ≠ vdest → vGet y r = vGet x r) ∧
    (y.vector = x.vector ∧ y.enables = x.enables ∧ y.timecmp = x.timecmp ∧ y.seed = x.seed ∧ y.scratch = x.scratch ∧ y.lanes = x.lanes ∧
      y.l0d = x.l0d ∧ y.tracker = x.tracker ∧ y.tags = x.tags ∧ y.ctx = x.ctx ∧ y.ctxPart = x.ctxPart) ∧
    (∀ n, n ≠ c.val → core t n = core s n) ∧ (∀ k, k ≠ c.val / 16 → cluster t k = cluster s k) ∧
    t = { s with prt := t.prt, dict := { s.dict with coll := t.dict.coll } }

theorem core_putCore {s : State} (h : s.coresOk = true) (n x) : core (putCore s n x) n = x := by
  unfold Machine.core putCore; rw [smGet_smSet h]; simp

theorem coresOk_putCore {s : State} (h : s.coresOk = true) (n x) : (putCore s n x).coresOk = true := smWf_smSet h _ _

theorem only_self (s c g v) : OnlyCore s c g v s := ⟨fun _ _ => rfl, fun _ _ => rfl, ⟨rfl,rfl,rfl,rfl,rfl,rfl,rfl,rfl,rfl,rfl,rfl⟩, fun _ _ => rfl, fun _ _ => rfl, rfl⟩

theorem only_putCore {s t c g v y} (h : t.coresOk = true) (hf : OnlyCore s c g v t) (hs : SameBut g v (core t c.val) y) : OnlyCore s c g v (putCore t c.val y) := by
  obtain ⟨a1,a2,⟨b1,b2,b3,b4,b5,b6,b7,b8,b9,b10,b11⟩,a4,a5,a6⟩ := hf
  obtain ⟨c1,c2,d1,d2,d3,d4,d5,d6,d7,d8,d9,d10,d11⟩ := hs
  unfold OnlyCore; dsimp only; rw [core_putCore h]
  refine ⟨fun r hr => (c1 r hr).trans (a1 r hr), fun r hr => (c2 r hr).trans (a2 r hr), ⟨d1.trans b1, d2.trans b2, d3.trans b3, d4.trans b4, d5.trans b5, d6.trans b6, d7.trans b7, d8.trans b8, d9.trans b9, d10.trans b10, d11.trans b11⟩, ?_, a5, ?_⟩
  · intro n hn; rw [← a4 n hn]; unfold Machine.core putCore; rw [smGet_smSet_ne _ _ _ hn]
  · rw [a6]; rfl

theorem sameBut_gSet (g v : Option Nat) (x : Core) (d : Nat) (w) (hd : g = some d) : SameBut g v x (gSet x d w) := by
  unfold SameBut gSet; subst hd
  split
  · simp
  · refine ⟨?_, by simp [vGet], by simp⟩
    intro r hr; unfold gGet; split; rfl
    dsimp only; rw [smGet_smSet_ne]; intro h; exact hr (by rw [h])

theorem sameBut_vSet (g v : Option Nat) (x : Core) (d : Nat) (w) (hd : v = some d) : SameBut g v x (vSet x d w) := by
  unfold SameBut vSet; subst hd
  refine ⟨by simp [gGet], ?_, by simp⟩
  intro r hr; unfold vGet
  dsimp only; rw [smGet_smSet_ne]; intro h; exact hr (by rw [h])

theorem sameBut_pc {g v x y pc} (h : SameBut g v x y) : SameBut g v x { y with pc := pc } := h

theorem sameBut_rfl (g v x) : SameBut g v x x := ⟨fun _ _ => rfl, fun _ _ => rfl, ⟨rfl,rfl,rfl,rfl,rfl,rfl,rfl,rfl,rfl,rfl,rfl⟩⟩

theorem sameBut_fetched (g v x) : SameBut g v x (fetched x) := by
  rw [fetched_eq]; exact ⟨fun _ _ => rfl, fun _ _ => rfl, ⟨rfl,rfl,rfl,rfl,rfl,rfl,rfl,rfl,rfl,rfl,rfl⟩⟩

theorem only_raise {s t c g v a b} (h : t.coresOk = true) (hf : OnlyCore s c g v t) : OnlyCore s c g v (raise t c.val a b) := by
  unfold raise modCore; exact only_putCore h hf ⟨fun _ _ => rfl, fun _ _ => rfl, ⟨rfl,rfl,rfl,rfl,rfl,rfl,rfl,rfl,rfl,rfl,rfl⟩⟩

theorem coresOk_haFault {s n a} (h : s.coresOk = true) : (haFault s n a).coresOk = true := by
  unfold haFault clusterLatch modCluster putCluster logUnmapped; dsimp only
  split <;> exact h

theorem only_haFault {s : State} {c : Fin 25600} {g v a} : OnlyCore s c g v (haFault s c.val a) := by
  have key : ∀ s' : State, (s' = s ∨ s' = logUnmapped s (initCluster (c.val / 16)) a) → OnlyCore s c g v (clusterLatch s' c.val .translationFault) := by
    intro s' h
    have hc : ∀ k, cluster s' k = cluster s k := by rcases h with rfl | rfl <;> intro k <;> rfl
    refine ⟨?_, ?_, ?_, ?_, ?_, ?_⟩
    · rcases h with rfl | rfl <;> intro r _ <;> rfl
    · rcases h with rfl | rfl <;> intro r _ <;> rfl
    · rcases h with rfl | rfl <;> exact ⟨rfl,rfl,rfl,rfl,rfl,rfl,rfl,rfl,rfl,rfl,rfl⟩
    · rcases h with rfl | rfl <;> intro r _ <;> rfl
    · intro k hk; rw [← hc]; unfold clusterLatch modCluster cluster putCluster; dsimp only; rw [smGet_smSet_ne _ _ _ hk]
    · rcases h with rfl | rfl <;> rfl
  unfold haFault; apply key; split <;> simp

theorem only_notDue {s t : State} {c g v} (hx : notDue s = .next t) : OnlyCore s c g v t := by
  unfold notDue at hx; injection hx with hx; subst hx; exact only_self _ _ _ _

theorem only_coreDo {s t : State} {c f g v} (h : s.coresOk = true) (hx : coreDo c s f = .next t)
   (hf : ∀ t, f (begun s c) (during s c) = .next t → OnlyCore s c g v t) : OnlyCore s c g v t := by
  have hd : fetchDo c s f = .next t → OnlyCore s c g v t := by
    unfold fetchDo; dsimp only
    intro hx
    split at hx
    · exact hf t hx
    · unfold ok at hx
      injection hx with hx
      subst hx
      split
      · exact only_raise (coresOk_haFault h) only_haFault
      · exact only_raise h (only_self _ _ _ _)
  unfold coreDo at hx; dsimp only at hx
  split at hx
  · exact only_notDue hx
  · split at hx
    · exact hd hx
    · exact only_notDue hx

theorem coresOk_during {s : State} {c} (h : s.coresOk = true) : (during s c).coresOk = true := coresOk_putCore h _ _

theorem only_during {s : State} {c g v} (h : s.coresOk = true) : OnlyCore s c g v (during s c) := only_putCore h (only_self _ _ _ _) (sameBut_fetched _ _ _)

theorem only_end {s : State} {c g v y} (h : s.coresOk = true) (hy : SameBut g v (begun s c) y) : OnlyCore s c g v (putCore (during s c) c.val y) := by
  apply only_putCore (coresOk_during h) (only_during h)
  unfold during; rw [core_putCore h]; exact hy

theorem only_retire {s t : State} {c g v y} (h : s.coresOk = true) (hy : SameBut g v (begun s c) y) (hx : retire (during s c) c y = .next t) : OnlyCore s c g v t := by
  unfold retire ok at hx; injection hx with hx; subst hx; exact only_end h (sameBut_pc hy)

theorem only_illegal {s t : State} {c g v w} (h : s.coresOk = true) (hx : illegal (during s c) c w = .next t) : OnlyCore s c g v t := by
  unfold illegal ok at hx; injection hx with hx; subst hx; exact only_raise (coresOk_during h) (only_during h)

theorem only_coreRegs {s t : State} {c g v f} (h : s.coresOk = true) (hf : ∀ x, SameBut g v x (f x)) (hx : coreRegs c s f = .next t) : OnlyCore s c g v t := by
  unfold coreRegs at hx; exact only_coreDo h hx (fun t ht => only_retire h (hf _) ht)

theorem only_ok {s t : State} {c g v y} (h : s.coresOk = true) (hy : SameBut g v (begun s c) y) (hx : ok (putCore (during s c) c.val y) = .next t) : OnlyCore s c g v t := by
  unfold ok at hx; injection hx with hx; subst hx; exact only_end h hy

/-! ### The shared shapes of the instructions -/

section
variable {s t : State} {c : Fin 25600} {d a b : Fin 32} {vd va vb : Fin 16} {imm : BitVec 14} (hok : s.coresOk = true)
include hok

theorem only_alu (f) (hx : alu c d a b s f = .next t) : OnlyCore s c (some d.val) none t := by
    unfold alu at hx; exact only_coreRegs hok (fun x => sameBut_gSet _ _ _ _ _ rfl) hx

theorem only_aluImm (f) (hx : aluImm c d a s f = .next t) : OnlyCore s c (some d.val) none t := by
    unfold aluImm at hx; exact only_coreRegs hok (fun x => sameBut_gSet _ _ _ _ _ rfl) hx

theorem only_branch (f) (hx : branch c a b imm s f = .next t) : OnlyCore s c none none t := by
    unfold branch at hx; exact only_coreDo hok hx (fun t ht => only_ok hok (sameBut_pc (sameBut_rfl _ _ _)) ht)

theorem only_vop2 (f) (hx : vop2 c vd va vb s f = .next t) : OnlyCore s c none (some vd.val) t := by
    unfold vop2 at hx; exact only_coreRegs hok (fun x => sameBut_vSet _ _ _ _ _ rfl) hx

theorem only_coreRegs_v (f : Core → BitVec 128) (hx : coreRegs c s (fun x => vSet x vd (f x)) = .next t) : OnlyCore s c none (some vd.val) t :=
    only_coreRegs hok (fun x => sameBut_vSet _ _ _ _ _ rfl) hx

theorem only_coreRegs_g (f : Core → BitVec 64) (hx : coreRegs c s (fun x => gSet x d (f x)) = .next t) : OnlyCore s c (some d.val) none t :=
    only_coreRegs hok (fun x => sameBut_gSet _ _ _ _ _ rfl) hx
end

end Sys2Proof.Machine.Claims
end

