-- ==== Sys2Proof/Laws/Memory.lean ====
section
/-!
SUPPORT. Laws of HBM: a read after a write gives the byte written, a write leaves every other byte alone, and every operation on HBM
keeps its canonical form.
-/
namespace Sys2Proof.Machine

/-! ### The canonical form by its members -/

theorem smAbove_of_sorted {m : SMap Byte} {a : Nat} (h : ∀ c ∈ m, a < c.1) : smAbove m a = true := by
  cases m with
  | nil => rfl
  | cons p m => simpa [smAbove] using h p (by simp)

/-- The canonical form says: keys rising, and each listed byte differs from what an unlisted one reads as. -/
theorem cellsWf_iff (m : HbmMem) (l : List Host.Cell) :
    cellsWf m l = true ↔ l.Pairwise (fun c d => c.1 < d.1) ∧ ∀ c ∈ l, c.2 ≠ 0 ∨ undefAt m c.1 ≠ 0 := by
  induction l with
  | nil => simp [cellsWf]
  | cons p l ih =>
    obtain ⟨a, b⟩ := p
    simp only [cellsWf, Bool.and_eq_true, Bool.or_eq_true, decide_eq_true_eq, ih, List.pairwise_cons, List.mem_cons, forall_eq_or_imp]
    constructor
    · rintro ⟨⟨h1, h2⟩, h3, h4⟩
      refine ⟨⟨?_, h3⟩, h1, h4⟩
      cases l with
      | nil => simp
      | cons q l =>
        simp only [smAbove, decide_eq_true_eq] at h2
        intro c hc
        rcases List.mem_cons.mp hc with rfl | hc
        · exact h2
        · exact lt_trans h2 ((List.pairwise_cons.mp h3).1 c hc)
    · rintro ⟨⟨h1, h2⟩, h3, h4⟩
      exact ⟨⟨h3, smAbove_of_sorted h1⟩, h2, h4⟩

/-- Beside the bytes the form depends on the undefined granules alone. -/
theorem cellsWf_undef {m n : HbmMem} {l : List Host.Cell} (h : cellsWf m l = true) (hu : n.undef = m.undef) : cellsWf n l = true := by
  have hu' : ∀ a, undefAt n a = undefAt m a := fun a => by unfold undefAt; rw [hu]
  rw [cellsWf_iff] at h ⊢; simpa only [hu'] using h

/-- Taking bytes away keeps the form. -/
theorem cellsWf_filter {m : HbmMem} {l : List Host.Cell} (h : cellsWf m l = true) (p : Host.Cell → Bool) : cellsWf m (l.filter p) = true := by
  rw [cellsWf_iff] at h ⊢
  exact ⟨h.1.filter p, fun c hc => h.2 c (List.mem_of_mem_filter hc)⟩

theorem smErase_sublist (m : SMap Byte) (a : Nat) : (smErase m a).Sublist m := by
  induction m with
  | nil => exact List.Sublist.slnil
  | cons p m ih =>
    obtain ⟨k, w⟩ := p
    unfold smErase
    split
    · exact List.sublist_cons_self _ _
    · exact ih.cons_cons _

theorem cellsWf_smErase {m : HbmMem} {l : List Host.Cell} (h : cellsWf m l = true) (a : Nat) : cellsWf m (smErase l a) = true := by
  rw [cellsWf_iff] at h ⊢
  exact ⟨h.1.sublist (smErase_sublist l a), fun c hc => h.2 c ((smErase_sublist l a).subset hc)⟩

theorem cellsWf_smInsert {m : HbmMem} {l : List Host.Cell} (h : cellsWf m l = true) {a : Nat} {b : Byte} (hb : b ≠ 0 ∨ undefAt m a ≠ 0) :
    cellsWf m (smInsert l a b) = true := by
  induction l with
  | nil => simpa [smInsert, cellsWf, smAbove] using hb
  | cons p l ih =>
    obtain ⟨k, w⟩ := p
    have h' := h
    simp only [cellsWf, Bool.and_eq_true] at h
    unfold smInsert
    split
    · next hk => rw [cellsWf, h']; simpa [smAbove, hk] using hb
    · split
      · next hk => subst hk; simp only [cellsWf, h.1.2, h.2, Bool.and_true]; simpa using hb
      · next h1 h2 => rw [cellsWf, ih h.2, smAbove_smInsert h.1.2 (show k < a by omega)]; simpa using h.1.1

/-! ### Every operation keeps the form -/

theorem Memory.wf_memPut {m : HbmMem} (h : Memory.wf m = true) (a : Nat) (b : Byte) : Memory.wf (memPut m a b) = true := by
  unfold Memory.wf memPut at *
  split
  · exact cellsWf_undef (cellsWf_smErase h a) rfl
  · next hb => exact cellsWf_undef (cellsWf_smInsert h (by tauto)) rfl

theorem Memory.wf_memPutBytes {m : HbmMem} (h : Memory.wf m = true) (a : Nat) (l : List Byte) : Memory.wf (memPutBytes m a l) = true := by
  induction l generalizing m a with
  | nil => exact h
  | cons b l ih => exact ih (Memory.wf_memPut h a b) (a + 1)

/-- Poison is no part of the form. -/
theorem Memory.wf_poison {m : HbmMem} (h : Memory.wf m = true) (p : List Nat) : Memory.wf { m with poison := p } = true :=
  cellsWf_undef h rfl

theorem Memory.wf_memPutLine {m : HbmMem} (h : Memory.wf m = true) (l : Nat) (d : Line) : Memory.wf (memPutLine m l d) = true :=
  Memory.wf_poison (Memory.wf_memPutBytes h _ _) _

theorem Memory.wf_memPoisonLine {m : HbmMem} (h : Memory.wf m = true) (l : Nat) : Memory.wf (memPoisonLine m l) = true :=
  Memory.wf_poison h _

theorem Memory.wf_memPutSectors {m : HbmMem} (h : Memory.wf m = true) (a : Nat) (l : List Byte) : Memory.wf (memPutSectors m a l) = true :=
  Memory.wf_poison (Memory.wf_memPutBytes h _ _) _

/-- Bytes may be dropped with their poison. -/
theorem Memory.wf_filter {m : HbmMem} (h : Memory.wf m = true) (p : Host.Cell → Bool) (q : List Nat) :
    Memory.wf { m with cells := m.cells.filter p, poison := q } = true :=
  cellsWf_undef (cellsWf_filter h p) rfl

/-- A granule without a listed byte may become defined or undefined. -/
theorem Memory.wf_granule {m : HbmMem} (h : Memory.wf m = true) (g v : Nat) (q : List Nat) :
    Memory.wf { cells := m.cells.filter (fun c => c.1 / 2 ^ 30 != g), undef := smSet 0 m.undef g v, poison := q } = true := by
  unfold Memory.wf at *
  rw [cellsWf_iff] at *
  refine ⟨h.1.filter _, fun c hc => ?_⟩
  rw [List.mem_filter] at hc
  have hg : c.1 / 2 ^ 30 ≠ g := by simpa using hc.2
  have := h.2 c hc.1
  unfold undefAt at *
  dsimp only
  rwa [smGet_smSet_ne 0 m.undef v hg]

theorem Memory.wf_zeroGranule {m : HbmMem} (h : Memory.wf m = true) (g : Nat) : Memory.wf (zeroGranule m g) = true :=
  Memory.wf_granule h g 0 _

theorem Memory.wf_undef_zeroGranule {m : HbmMem} (h : Memory.wf m = true) (g v : Nat) :
    Memory.wf { zeroGranule m g with undef := smSet 0 (zeroGranule m g).undef g v } = true := by
  have h1 := Memory.wf_granule (Memory.wf_zeroGranule h g) g v (zeroGranule m g).poison
  have h2 : (zeroGranule m g).cells.filter (fun c => c.1 / 2 ^ 30 != g) = (zeroGranule m g).cells := by
    unfold zeroGranule; dsimp only; rw [List.filter_filter]; simp
  rwa [h2] at h1

theorem Memory.wf_empty (u : SMap Nat) (p : List Nat) : Memory.wf { cells := [], undef := u, poison := p } = true := rfl

/-! ### Reads after writes -/

theorem undefAt_memPut (m : HbmMem) (a b : Nat) (v : Byte) : undefAt (memPut m a v) b = undefAt m b := by
  unfold memPut; split <;> rfl

/-- A write leaves every other byte alone. -/
theorem memByte_memPut_ne (m : HbmMem) {a b : Nat} (v : Byte) (h : b ≠ a) : memByte (memPut m a v) b = memByte m b := by
  have hc : smFind (memPut m a v).cells b = smFind m.cells b := by
    unfold memPut
    by_cases hv : v = 0 ∧ undefAt m a = 0
    · rw [if_pos hv]; exact smFind_smErase_ne _ h
    · rw [if_neg hv]; exact smFind_smInsert_ne _ _ h
  unfold memByte
  rw [undefAt_memPut, hc]

theorem smFind_smErase_cells {m : HbmMem} {l : List Host.Cell} (h : cellsWf m l = true) (a : Nat) : smFind (smErase l a) a = none := by
  have key : ∀ l : List Host.Cell, (∀ c ∈ l, c.1 ≠ a) → smFind l a = none := by
    intro l
    induction l with
    | nil => intro _; rfl
    | cons p l ih =>
      obtain ⟨k, w⟩ := p
      intro hl
      have hk : k ≠ a := hl (k, w) (by simp)
      simp only [smFind, hk, if_false]
      exact ih (fun c hc => hl c (List.mem_cons_of_mem _ hc))
  induction l with
  | nil => rfl
  | cons p l ih =>
    obtain ⟨k, w⟩ := p
    have h' := ((cellsWf_iff m _).mp h).1
    rw [List.pairwise_cons] at h'
    simp only [cellsWf, Bool.and_eq_true] at h
    unfold smErase
    split
    · next hk => subst hk; exact key l (fun c hc => by have := h'.1 c hc; simp at this; omega)
    · next hk => simp only [smFind, hk, if_false]; exact ih h.2

/-- In canonical memory the byte written is read back. -/
theorem memByte_memPut_self {m : HbmMem} (h : Memory.wf m = true) (a : Nat) (v : Byte) : memByte (memPut m a v) a = v := by
  unfold memByte
  rw [undefAt_memPut]
  by_cases hv : v = 0 ∧ undefAt m a = 0
  · have : (memPut m a v).cells = smErase m.cells a := by unfold memPut; rw [if_pos hv]
    rw [this, smFind_smErase_cells h a]; simp [hv.1, hv.2]
  · have : (memPut m a v).cells = smInsert m.cells a v := by unfold memPut; rw [if_neg hv]
    rw [this, smFind_smInsert_self]

/-- A write of consecutive bytes leaves every byte outside them alone. -/
theorem memByte_memPutBytes_out (m : HbmMem) (a b : Nat) (l : List Byte) (h : b < a ∨ a + l.length ≤ b) :
    memByte (memPutBytes m a l) b = memByte m b := by
  induction l generalizing m a with
  | nil => rfl
  | cons v l ih =>
    simp only [List.length_cons] at h
    rw [memPutBytes, ih _ _ (by omega), memByte_memPut_ne _ _ (by omega)]

/-- A line written leaves every byte of the others alone. -/
theorem memByte_memPutLine_out (m : HbmMem) (l b : Nat) (d : Line) (h : b / 128 ≠ l) : memByte (memPutLine m l d) b = memByte m b := by
  have hlen : (lineBytes d).length = 128 := by
    unfold lineBytes
    have : ∀ n v, (toBytes n v).length = n := by
      intro n; induction n with
      | zero => intro v; rfl
      | succ n ih => intro v; simp [toBytes, ih]
    exact this 128 _
  exact memByte_memPutBytes_out m (lineHa l) b (lineBytes d) (by rw [hlen]; unfold lineHa; omega)

end Sys2Proof.Machine
end

