-- ==== Sys2Proof/Laws/Keep.lean ====
section
/-!
SUPPORT. What every operation of the hub keeps: the queue of commands, the canonical form of HBM and that of the cores. The lemmas of
the files that follow say it of each operation; this one says it of what they are made of.
-/
namespace Sys2Proof.Machine

/-- What a run of operations is to keep: a queue, the canonical form of HBM if it held, that of the cores if it held. -/
structure Held where
  queue : List Instr
  mem   : Bool
  cores : Bool

/-- The state has the queue, and the forms that held hold. -/
structure Keeps (i : Held) (s : State) : Prop where
  queue : s.pending = i.queue
  mem   : i.mem = true → Memory.wf s.mem.hbm = true
  cores : i.cores = true → smWf {} s.prt.cores = true

/-- The states in the answers of operations keep it. -/
inductive KeepsRes (i : Held) : Res → Prop
  | next {s} (h : Keeps i s) : KeepsRes i (.next s)
  | fault {e} : KeepsRes i (.fault e)
  | refused {e} : KeepsRes i (.refused e)
inductive KeepsOpt (i : Held) : Option State → Prop
  | some {s} (h : Keeps i s) : KeepsOpt i (some s)
  | none : KeepsOpt i none
inductive KeepsOptL (i : Held) {α : Type} : Option (State × α) → Prop
  | some {s a} (h : Keeps i s) : KeepsOptL i (some (s, a))
  | none : KeepsOptL i none
inductive KeepsOptR (i : Held) {α : Type} : Option (α × State) → Prop
  | some {s a} (h : Keeps i s) : KeepsOptR i (some (a, s))
  | none : KeepsOptR i none
inductive KeepsNow (i : Held) {α : Type} : Now α → Prop
  | done {s a} (h : Keeps i s) : KeepsNow i (.done s a)
  | bad {s st} (h : Keeps i s) : KeepsNow i (.bad s st)
  | wait {s} (h : Keeps i s) : KeepsNow i (.wait s)
inductive KeepsAlloc (i : Held) : AllocRes → Prop
  | way {w s} (h : Keeps i s) : KeepsAlloc i (.way w s)
  | noBuffer : KeepsAlloc i .noBuffer
  | bale {l} : KeepsAlloc i (.bale l)
  | noWay : KeepsAlloc i .noWay
inductive KeepsWrite (i : Held) : WriteRes → Prop
  | done {s} (h : Keeps i s) : KeepsWrite i (.done s)
  | wait {s} (h : Keeps i s) : KeepsWrite i (.wait s)
  | needData : KeepsWrite i .needData
  | drop {st} : KeepsWrite i (.drop st)
inductive KeepsRead (i : Held) : Read → Prop
  | got {s b} (h : Keeps i s) : KeepsRead i (.got s b)
  | halt {s c} (h : Keeps i s) : KeepsRead i (.halt s c)
  | wait {s} (h : Keeps i s) : KeepsRead i (.wait s)
  | bad : KeepsRead i .bad
inductive KeepsIntake (i : Held) : Intake → Prop
  | refused {s} (h : Keeps i s) : KeepsIntake i (.refused s)
  | taken {s d} (h : Keeps i s) : KeepsIntake i (.taken s d)

variable {i : Held} {s t : State} {α : Type}

/-- A state that is put together from a kept one, with the same queue, HBM and cores. -/
theorem keeps_mk {x : State} {fr re li stg mm ti wo di ho en pr uc fl ag pa cu br ou} (h : Keeps i x) (hm : mm.hbm = x.mem.hbm)
    (hc : pr.cores = x.prt.cores) : Keeps i (State.mk x.pending fr re li stg mm ti wo di ho en pr uc fl ag pa cu br ou) :=
  ⟨h.queue, fun e => by rw [hm]; exact h.mem e, fun e => by rw [hc]; exact h.cores e⟩

theorem keeps_ite {p : Prop} [Decidable p] {a b : State} (ha : Keeps i a) (hb : Keeps i b) : Keeps i (if p then a else b) := by
  split <;> assumption
theorem keeps_cut {P : Prop} (x : State) (h : Keeps i x) (k : Keeps i x → P) : P := k h

/-! ### Answers -/

theorem res_ite {p : Prop} [Decidable p] {a b : Res} (ha : KeepsRes i a) (hb : KeepsRes i b) : KeepsRes i (if p then a else b) := by
  split <;> assumption
theorem opt_ite {p : Prop} [Decidable p] {a b : Option State} (ha : KeepsOpt i a) (hb : KeepsOpt i b) : KeepsOpt i (if p then a else b) := by
  split <;> assumption
theorem now_ite {p : Prop} [Decidable p] {a b : Now α} (ha : KeepsNow i a) (hb : KeepsNow i b) : KeepsNow i (if p then a else b) := by
  split <;> assumption

theorem opt_mapState {o : Option State} {f : State → State} (h : KeepsOpt i o) (hf : ∀ s, Keeps i s → Keeps i (f s)) : KeepsOpt i (o.map f) := by
  cases h with
  | none => exact KeepsOpt.none
  | some h => exact KeepsOpt.some (hf _ h)
theorem opt_map {o : Option α} {f : α → State} (h : ∀ a, Keeps i (f a)) : KeepsOpt i (o.map f) := by
  cases o with
  | none => exact KeepsOpt.none
  | some a => exact KeepsOpt.some (h a)
theorem optR_map {β : Type} {o : Option β} {f : β → α × State} (h : ∀ b, Keeps i (f b).2) : KeepsOptR i (o.map f) := by
  cases o with
  | none => exact KeepsOptR.none
  | some b => exact KeepsOptR.some (h b)
theorem optR_bind {β : Type} {o : Option β} {f : β → Option (α × State)} (h : ∀ b, KeepsOptR i (f b)) : KeepsOptR i (o.bind f) := by
  cases o with
  | none => exact KeepsOptR.none
  | some b => exact h b

/-! ### From an answer to its state -/

theorem of_fst {p : State × α} {a : α} (e : p = (s, a)) (h : Keeps i p.1) : Keeps i s := by rw [e] at h; exact h
theorem of_snd {p : α × State} {a : α} (e : p = (a, s)) (h : Keeps i p.2) : Keeps i s := by rw [e] at h; exact h
theorem of_next {r : Res} (e : r = .next s) (h : KeepsRes i r) : Keeps i s := by rw [e] at h; cases h; assumption
theorem of_some {o : Option State} (e : o = some s) (h : KeepsOpt i o) : Keeps i s := by rw [e] at h; cases h; assumption
theorem of_someL {o : Option (State × α)} {a : α} (e : o = some (s, a)) (h : KeepsOptL i o) : Keeps i s := by rw [e] at h; cases h; assumption
theorem of_someR {o : Option (α × State)} {a : α} (e : o = some (a, s)) (h : KeepsOptR i o) : Keeps i s := by rw [e] at h; cases h; assumption
theorem of_done {n : Now α} {a : α} (e : n = .done s a) (h : KeepsNow i n) : Keeps i s := by rw [e] at h; cases h; assumption
theorem of_bad {n : Now α} {st} (e : n = .bad s st) (h : KeepsNow i n) : Keeps i s := by rw [e] at h; cases h; assumption
theorem of_wait {n : Now α} (e : n = .wait s) (h : KeepsNow i n) : Keeps i s := by rw [e] at h; cases h; assumption
theorem of_way {n : AllocRes} {w} (e : n = .way w s) (h : KeepsAlloc i n) : Keeps i s := by rw [e] at h; cases h; assumption
theorem of_wrDone {n : WriteRes} (e : n = .done s) (h : KeepsWrite i n) : Keeps i s := by rw [e] at h; cases h; assumption
theorem of_wrWait {n : WriteRes} (e : n = .wait s) (h : KeepsWrite i n) : Keeps i s := by rw [e] at h; cases h; assumption
theorem of_got {n : Read} {b} (e : n = .got s b) (h : KeepsRead i n) : Keeps i s := by rw [e] at h; cases h; assumption
theorem of_halt {n : Read} {c} (e : n = .halt s c) (h : KeepsRead i n) : Keeps i s := by rw [e] at h; cases h; assumption
theorem of_rdWait {n : Read} (e : n = .wait s) (h : KeepsRead i n) : Keeps i s := by rw [e] at h; cases h; assumption
theorem of_refused {n : Intake} (e : n = .refused s) (h : KeepsIntake i n) : Keeps i s := by rw [e] at h; cases h; assumption
theorem of_taken {n : Intake} {d} (e : n = .taken s d) (h : KeepsIntake i n) : Keeps i s := by rw [e] at h; cases h; assumption

theorem keeps_getD {o : Option State} (h : KeepsOpt i o) (hs : Keeps i s) : Keeps i (o.getD s) := by
  cases h <;> assumption

/-! ### Folds -/

theorem keeps_foldl {f : State → α → State} {l : List α} (h : Keeps i s) (hf : ∀ s a, Keeps i s → Keeps i (f s a)) : Keeps i (l.foldl f s) := by
  induction l generalizing s with
  | nil => exact h
  | cons a l ih => exact ih (hf s a h)
theorem keeps_foldl_fst {β : Type} {f : State × β → α → State × β} {l : List α} {p : State × β} (h : Keeps i p.1)
    (hf : ∀ s b a, Keeps i s → Keeps i (f (s, b) a).1) : Keeps i (l.foldl f p).1 := by
  induction l generalizing p with
  | nil => exact h
  | cons a l ih => exact ih (hf p.1 p.2 a h)
theorem keeps_foldl_snd {β : Type} {f : β × State → α → β × State} {l : List α} {p : β × State} (h : Keeps i p.2)
    (hf : ∀ b s a, Keeps i s → Keeps i (f (b, s) a).2) : Keeps i (l.foldl f p).2 := by
  induction l generalizing p with
  | nil => exact h
  | cons a l ih => exact ih (hf p.1 p.2 a h)

theorem opt_foldl {f : Option State → α → Option State} {l : List α} {o : Option State} (h : KeepsOpt i o)
    (hf : ∀ o a, KeepsOpt i o → KeepsOpt i (f o a)) : KeepsOpt i (l.foldl f o) := by
  induction l generalizing o with
  | nil => exact h
  | cons a l ih => exact ih (hf o a h)
theorem opt_bind {f : State → Option State} {o : Option State} (h : KeepsOpt i o) (hf : ∀ s, Keeps i s → KeepsOpt i (f s)) :
    KeepsOpt i (o.bind f) := by
  cases h with
  | some h => exact hf _ h
  | none => exact KeepsOpt.none

/-! ### The operations on HBM and on the cores -/

theorem keeps_putHbm {m : HbmMem} (h : Keeps i s) (hm : i.mem = true → Memory.wf m = true) : Keeps i (putHbm s m) := ⟨h.queue, hm, h.cores⟩
theorem keeps_hbmLine {x : State} {l : Nat} {d : Line} (h : Keeps i s) (hx : Keeps i x) : Keeps i (putHbm s (memPutLine (hbm x) l d)) :=
  keeps_putHbm h (fun e => Memory.wf_memPutLine (hx.mem e) l d)
theorem keeps_hbmPoison {x : State} {l : Nat} (h : Keeps i s) (hx : Keeps i x) : Keeps i (putHbm s (memPoisonLine (hbm x) l)) :=
  keeps_putHbm h (fun e => Memory.wf_memPoisonLine (hx.mem e) l)
theorem keeps_hbmBytes {x : State} {a : Nat} {b : List Byte} (h : Keeps i s) (hx : Keeps i x) : Keeps i (putHbm s (memPutBytes (hbm x) a b)) :=
  keeps_putHbm h (fun e => Memory.wf_memPutBytes (hx.mem e) a b)
theorem keeps_hbmSectors {x : State} {a : Nat} {b : List Byte} (h : Keeps i s) (hx : Keeps i x) : Keeps i (putHbm s (memPutSectors (hbm x) a b)) :=
  keeps_putHbm h (fun e => Memory.wf_memPutSectors (hx.mem e) a b)
theorem keeps_hbmZero {x : State} {g : Nat} (h : Keeps i s) (hx : Keeps i x) : Keeps i (putHbm s (zeroGranule (hbm x) g)) :=
  keeps_putHbm h (fun e => Memory.wf_zeroGranule (hx.mem e) g)
theorem keeps_hbmUndef {x : State} {g v : Nat} (h : Keeps i s) (hx : Keeps i x) :
    Keeps i (putHbm s { zeroGranule (hbm x) g with undef := smSet 0 (zeroGranule (hbm x) g).undef g v }) :=
  keeps_putHbm h (fun e => Memory.wf_undef_zeroGranule (hx.mem e) g v)
theorem keeps_hbmFilter {x : State} {p : Host.Cell → Bool} {q : List Nat} (h : Keeps i s) (hx : Keeps i x) :
    Keeps i (putHbm s { hbm x with cells := (hbm x).cells.filter p, poison := q }) :=
  keeps_putHbm h (fun e => Memory.wf_filter (hx.mem e) p q)
theorem keeps_hbmPoisonSet {x : State} {q : List Nat} (h : Keeps i s) (hx : Keeps i x) : Keeps i (putHbm s { hbm x with poison := q }) :=
  keeps_putHbm h (fun e => Memory.wf_poison (hx.mem e) q)
theorem keeps_hbmEmpty {u : SMap Nat} {p : List Nat} (h : Keeps i s) : Keeps i (putHbm s { cells := [], undef := u, poison := p }) :=
  keeps_putHbm h (fun _ => Memory.wf_empty u p)
theorem keeps_putCore {n : Nat} {x : Core} (h : Keeps i s) : Keeps i (putCore s n x) := ⟨h.queue, h.mem, fun e => smWf_smSet (h.cores e) n x⟩
theorem keeps_draw (h : Keeps i s) : Keeps i (draw s).2 := ⟨h.queue, h.mem, h.cores⟩

end Sys2Proof.Machine
end

