-- ==== Sys2Proof/Laws/KeepBase.lean ====
section
/-! SUPPORT. One lemma per function that carries a State, for the base operations: register files, event log, interrupts, collection, HBM, Serai, records, tolls:
what `Keep.lean` calls kept (the queue of commands, the canonical form of the stores, the well-formed
cores) stays kept through it. Later proofs cite these lemmas and unfold no function again. -/

namespace Sys2Proof.Machine
variable {i : Held} {s t : State}

/-! ### Sys2Proof.Machine.Regs -/

theorem keeps_regPut {a0 a1 a2} (h0 : Keeps i a0) : Keeps i (regPut a0 a1 a2) := by
  unfold regPut
  with_reducible repeat' (first
    | assumption | dsimp only | fail_if_no_progress (refine keeps_mk ?_ rfl rfl))

theorem keeps_regSetBits {a0 a1 a2 a3 a4} (h0 : Keeps i a0) : Keeps i (regSetBits a0 a1 a2 a3 a4) := by
  unfold regSetBits
  with_reducible repeat' (first
    | assumption | apply keeps_regPut)

theorem keeps_bump {a0 a1 a2} (h0 : Keeps i a0) : Keeps i (bump a0 a1 a2) := by
  unfold bump
  split
  · exact keeps_regSetBits h0
  · exact h0

theorem keeps_bumpMax {a0 a1 a2} (h0 : Keeps i a0) : Keeps i (bumpMax a0 a1 a2) := by
  unfold bumpMax
  split
  · exact keeps_regSetBits h0
  · exact h0

/-! ### Sys2Proof.Machine.Events -/

theorem keeps_emit {a0 a1} (h0 : Keeps i a0) : Keeps i (emit a0 a1) := by
  unfold emit
  with_reducible repeat' (first
    | assumption | dsimp only | fail_if_no_progress (refine keeps_mk ?_ rfl rfl))

theorem keeps_putFn {a0 a1 a2} (h0 : Keeps i a0) : Keeps i (putFn a0 a1 a2) := by
  unfold putFn
  extract_lets z0
  with_reducible repeat' (first
    | assumption | unfold z0 | dsimp only | fail_if_no_progress (refine keeps_mk ?_ rfl rfl))

theorem keeps_modFn {a0 a1 a2} (h0 : Keeps i a0) : Keeps i (modFn a0 a1 a2) := by
  unfold modFn
  with_reducible repeat' (first
    | assumption | apply keeps_putFn)

theorem keeps_raiseVector {a0 a1 a2} (h0 : Keeps i a0) : Keeps i (raiseVector a0 a1 a2) := by
  unfold raiseVector
  extract_lets z0 z1
  with_reducible repeat' (first
    | assumption | apply keeps_emit | apply keeps_putFn | refine keeps_ite ?_ ?_ | split | unfold z0 | unfold z1 | dsimp only)

theorem keeps_sendPending {a0 a1} (h0 : Keeps i a0) : Keeps i (sendPending a0 a1) := by
  unfold sendPending
  with_reducible repeat' (first
    | assumption | apply keeps_emit | apply keeps_putFn | refine keeps_ite ?_ ?_ | refine keeps_foldl ?_ (fun _ _ _ => ?_) | split | dsimp only)

theorem keeps_logEvent {a0 a1 a2 a3 a4} (h0 : Keeps i a0) : Keeps i (logEvent a0 a1 a2 a3 a4) := by
  unfold logEvent
  extract_lets z0 z1
  with_reducible repeat' (first
    | assumption | unfold z0 | unfold z1 | dsimp only | fail_if_no_progress (refine keeps_mk ?_ rfl rfl))

theorem keeps_raiseMissFn {a0 a1} (h0 : Keeps i a0) : Keeps i (raiseMissFn a0 a1) := by
  unfold raiseMissFn
  extract_lets z0
  with_reducible repeat' (first
    | assumption | apply keeps_putFn | apply keeps_raiseVector | refine keeps_ite ?_ ?_ | split | unfold z0 | dsimp only)

theorem keeps_raiseMiss {a0 a1} (h0 : Keeps i a0) : Keeps i (raiseMiss a0 a1) := by
  unfold raiseMiss
  extract_lets z0
  refine keeps_cut (i := i) z0 ?_ (fun hz0 => ?_)
  on_goal 1 => unfold z0
  all_goals
    with_reducible repeat' (first
      | assumption | apply keeps_raiseMissFn | refine keeps_ite ?_ ?_ | split | dsimp only)

theorem keeps_raiseStatus {a0 a1} (h0 : Keeps i a0) : Keeps i (raiseStatus a0 a1) := by
  unfold raiseStatus
  with_reducible repeat' (first
    | assumption | apply keeps_raiseVector | apply keeps_raiseMiss | split | dsimp only)

theorem keeps_setStatus {a0 a1 a2 a3 a4} (h0 : Keeps i a0) : Keeps i (setStatus a0 a1 a2 a3 a4) := by
  unfold setStatus
  extract_lets z0 z1
  refine keeps_cut (i := i) z0 ?_ (fun hz0 => keeps_cut (i := i) z1 ?_ (fun hz1 => ?_))
  on_goal 1 => unfold z0
  on_goal 2 => unfold z1
  all_goals
    with_reducible repeat' (first
      | assumption | apply keeps_regSetBits | apply keeps_logEvent | apply keeps_raiseStatus | refine keeps_ite ?_ ?_ | split | dsimp only)

theorem keeps_enableWritten {a0 a1 a2} (h0 : Keeps i a0) : Keeps i (enableWritten a0 a1 a2) := by
  unfold enableWritten
  with_reducible repeat' (first
    | assumption | apply keeps_raiseStatus | refine keeps_ite ?_ ?_ | split | dsimp only)

/-! ### Sys2Proof.Machine.Collect -/

theorem keeps_illFormed : KeepsRes i (illFormed) := KeepsRes.refused

theorem keeps_ok {a0} (h0 : Keeps i a0) : KeepsRes i (ok a0) := by
  unfold ok
  with_reducible repeat' (first
    | assumption | exact KeepsRes.fault | exact KeepsRes.refused | refine KeepsRes.next ?_)

theorem keeps_notDue {a0} (h0 : Keeps i a0) : KeepsRes i (notDue a0) := by
  unfold notDue
  with_reducible repeat' (first
    | assumption | exact KeepsRes.fault | exact KeepsRes.refused | refine res_ite ?_ ?_ | refine KeepsRes.next ?_ | refine keeps_ite ?_ ?_
    | refine keeps_foldl ?_ (fun _ _ _ => ?_) | split | dsimp only | fail_if_no_progress (refine keeps_mk ?_ rfl rfl))

theorem keeps_advance {a0 a1} (h0 : Keeps i a0) : Keeps i (advance a0 a1) := by
  unfold advance
  extract_lets z0
  with_reducible repeat' (first
    | assumption | unfold z0 | dsimp only | fail_if_no_progress (refine keeps_mk ?_ rfl rfl))

theorem keeps_putColl {a0 a1} (h0 : Keeps i a0) : Keeps i (putColl a0 a1) := by
  unfold putColl
  extract_lets z0
  with_reducible repeat' (first
    | assumption | unfold z0 | dsimp only | fail_if_no_progress (refine keeps_mk ?_ rfl rfl))

theorem keeps_hostRing {a0 a1} (h0 : Keeps i a0) : Keeps i (hostRing a0 a1) := by
  unfold hostRing
  extract_lets z0 z1 z2 z3 z4
  refine keeps_cut (i := i) z1 ?_ (fun hz1 => keeps_cut (i := i) z2 ?_ (fun hz2 => keeps_cut (i := i) z4 ?_ (fun hz4 => ?_)))
  on_goal 1 => unfold z1
  on_goal 2 => unfold z2
  on_goal 3 => unfold z4
  all_goals
    with_reducible repeat' (first
      | assumption | apply keeps_emit | apply keeps_putColl | apply keeps_raiseVector | refine keeps_ite ?_ ?_ | split | unfold z0 | unfold z3
      | dsimp only)

theorem keeps_sendNotice {a0} (h0 : Keeps i a0) : Keeps i (sendNotice a0) := by
  unfold sendNotice
  extract_lets z0
  with_reducible repeat' (first
    | assumption | apply keeps_putColl | apply keeps_emit | split | unfold z0 | dsimp only)

theorem keeps_mgmtQueue {a0 a1} (h0 : Keeps i a0) : Keeps i (mgmtQueue a0 a1) := by
  unfold mgmtQueue
  extract_lets z0 z1 z2 z3
  refine keeps_cut (i := i) z1 ?_ (fun hz1 => ?_)
  on_goal 1 => unfold z1
  all_goals
    with_reducible repeat' (first
      | assumption | apply keeps_putColl | apply keeps_sendNotice | refine keeps_ite ?_ ?_ | split | unfold z0 | unfold z2 | unfold z3 | dsimp only)

theorem keeps_blackBox {a0 a1} (h0 : Keeps i a0) : Keeps i (blackBox a0 a1) := by
  unfold blackBox
  extract_lets z0 z1 z2
  with_reducible repeat' (first
    | assumption | apply keeps_putColl | refine keeps_ite ?_ ?_ | split | unfold z0 | unfold z1 | unfold z2 | dsimp only)

theorem keeps_emitEntry {a0 a1 a2 a3} (h0 : Keeps i a0) : Keeps i (emitEntry a0 a1 a2 a3) := by
  unfold emitEntry
  extract_lets z0 z1 z2
  refine keeps_cut (i := i) z2 ?_ (fun hz2 => ?_)
  on_goal 1 => unfold z2
  all_goals
    with_reducible repeat' (first
      | assumption | apply keeps_putColl | apply keeps_blackBox | apply keeps_mgmtQueue | apply keeps_hostRing | unfold z0 | unfold z1 | dsimp only)

theorem keeps_takeOcc {a0 a1} (h0 : Keeps i a0) : Keeps i (takeOcc a0 a1) := by
  unfold takeOcc
  extract_lets z0 z1 z2 z3
  refine keeps_cut (i := i) z2 ?_ (fun hz2 => ?_)
  on_goal 1 => unfold z2
  all_goals
    with_reducible repeat' (first
      | assumption | apply keeps_emitEntry | apply keeps_putColl | refine keeps_ite ?_ ?_ | split | unfold z0 | unfold z1 | unfold z3 | dsimp only)

theorem keeps_reportLost {a0} (h0 : Keeps i a0) : Keeps i (reportLost a0) := by
  unfold reportLost
  extract_lets z0 z1
  refine keeps_cut (i := i) z1 ?_ (fun hz1 => ?_)
  on_goal 1 => unfold z1
  all_goals
    with_reducible repeat' (first
      | assumption | apply keeps_putColl | apply keeps_emitEntry | refine keeps_ite ?_ ?_ | split | unfold z0 | dsimp only)

theorem keeps_execEventOccurrence {a0} (h0 : Keeps i a0) : KeepsRes i (execEventOccurrence a0) := by
  unfold execEventOccurrence
  extract_lets z0
  with_reducible repeat' (first
    | assumption | exact KeepsRes.fault | exact KeepsRes.refused | apply keeps_reportLost | apply keeps_takeOcc | apply keeps_putColl
    | refine KeepsRes.next ?_ | split | unfold z0 | dsimp only)

theorem keeps_execCoalesceWindowEnd {a0 a1 a2} (h2 : Keeps i a2) : KeepsRes i (execCoalesceWindowEnd a0 a1 a2) := by
  unfold execCoalesceWindowEnd
  with_reducible repeat' (first
    | assumption | exact KeepsRes.fault | exact KeepsRes.refused | apply keeps_advance | apply keeps_putColl | apply keeps_emitEntry
    | refine keeps_ite ?_ ?_ | refine res_ite ?_ ?_ | refine KeepsRes.next ?_ | split | dsimp only)

theorem keeps_execNotifyRepeat {a0} (h0 : Keeps i a0) : KeepsRes i (execNotifyRepeat a0) := by
  unfold execNotifyRepeat
  extract_lets z0
  with_reducible repeat' (first
    | assumption | exact KeepsRes.fault | exact KeepsRes.refused | apply keeps_sendNotice | apply keeps_advance | refine keeps_ite ?_ ?_
    | refine res_ite ?_ ?_ | refine KeepsRes.next ?_ | split | unfold z0 | dsimp only)

/-! ### Sys2Proof.Machine.Hbm -/

theorem keeps_putPart {a0 a1 a2} (h0 : Keeps i a0) : Keeps i (putPart a0 a1 a2) := by
  unfold putPart
  extract_lets z0
  with_reducible repeat' (first
    | assumption | unfold z0 | dsimp only | fail_if_no_progress (refine keeps_mk ?_ rfl rfl))

theorem keeps_putContext {a0 a1 a2} (h0 : Keeps i a0) : Keeps i (putContext a0 a1 a2) := by
  unfold putContext
  extract_lets z0
  with_reducible repeat' (first
    | assumption | unfold z0 | dsimp only | fail_if_no_progress (refine keeps_mk ?_ rfl rfl))

theorem keeps_modContext {a0 a1 a2} (h0 : Keeps i a0) : Keeps i (modContext a0 a1 a2) := by
  unfold modContext
  with_reducible repeat' (first
    | assumption | apply keeps_putContext | dsimp only)

theorem keeps_logUnmapped {a0 a1 a2} (h0 : Keeps i a0) : Keeps i (logUnmapped a0 a1 a2) := by
  unfold logUnmapped
  with_reducible repeat' (first
    | assumption | apply keeps_logEvent)

theorem keeps_putStack {a0 a1 a2} (h0 : Keeps i a0) : Keeps i (putStack a0 a1 a2) := by
  unfold putStack
  extract_lets z0
  with_reducible repeat' (first
    | assumption | unfold z0 | dsimp only | fail_if_no_progress (refine keeps_mk ?_ rfl rfl))

/-! ### Sys2Proof.Machine.HbmUnit -/

theorem keeps_hbcLastErr {a0 a1 a2 a3 a4} (h0 : Keeps i a0) : Keeps i (hbcLastErr a0 a1 a2 a3 a4) := by
  unfold hbcLastErr
  extract_lets z0
  with_reducible repeat' (first
    | assumption | apply keeps_regPut | refine keeps_ite ?_ ?_ | refine keeps_foldl ?_ (fun _ _ _ => ?_) | split | unfold z0 | dsimp only
    | fail_if_no_progress (refine keeps_mk ?_ rfl rfl))

theorem keeps_rowDue {a0 a1 a2} (h0 : Keeps i a0) : Keeps i (rowDue a0 a1 a2) := by
  unfold rowDue
  extract_lets z0
  with_reducible repeat' (first
    | assumption | apply keeps_putStack | refine keeps_ite ?_ ?_ | refine keeps_foldl ?_ (fun _ _ _ => ?_) | split | unfold z0 | dsimp only
    | fail_if_no_progress (refine keeps_mk ?_ rfl rfl))

theorem keeps_rowCorrected {a0 a1 a2 a3} (h0 : Keeps i a0) : Keeps i (rowCorrected a0 a1 a2 a3) := by
  unfold rowCorrected
  extract_lets z0 z1 z2 z3
  refine keeps_cut (i := i) z2 ?_ (fun hz2 => ?_)
  on_goal 1 => unfold z2
  all_goals
    with_reducible repeat' (first
      | assumption | apply keeps_putStack | apply keeps_rowDue | refine keeps_ite ?_ ?_ | refine keeps_foldl ?_ (fun _ _ _ => ?_) | split | unfold z0
      | unfold z1 | unfold z3 | dsimp only | fail_if_no_progress (refine keeps_mk ?_ rfl rfl))

theorem keeps_clientSector {a0 a1 a2 a3 a4 a5} (h0 : Keeps i a0) : Keeps i (clientSector a0 a1 a2 a3 a4 a5) := by
  unfold clientSector
  with_reducible repeat' (first
    | assumption | apply keeps_rowCorrected | apply keeps_hbcLastErr | apply keeps_bump | apply keeps_rowDue | apply keeps_setStatus
    | refine keeps_ite ?_ ?_ | refine keeps_foldl ?_ (fun _ _ _ => ?_) | split | dsimp only | fail_if_no_progress (refine keeps_mk ?_ rfl rfl))

theorem keeps_openRow {a0 a1 a2} (h0 : Keeps i a0) : Keeps i (openRow a0 a1 a2) := by
  unfold openRow
  with_reducible repeat' (first
    | assumption | apply keeps_bump | apply keeps_putStack | refine keeps_ite ?_ ?_ | refine keeps_foldl ?_ (fun _ _ _ => ?_) | split | dsimp only
    | fail_if_no_progress (refine keeps_mk ?_ rfl rfl))

theorem keeps_takeEntry {a0 a1} (h0 : Keeps i a0) : Keeps i (takeEntry a0 a1) := by
  unfold takeEntry
  with_reducible repeat' (first
    | assumption | refine keeps_ite ?_ ?_ | refine keeps_foldl ?_ (fun _ _ _ => ?_) | split | dsimp only
    | fail_if_no_progress (refine keeps_mk ?_ rfl rfl))

theorem keeps_dropEntry {a0 a1} (h0 : Keeps i a0) : Keeps i (dropEntry a0 a1) := by
  unfold dropEntry
  extract_lets z0 z1
  with_reducible repeat' (first
    | assumption | refine keeps_ite ?_ ?_ | refine keeps_foldl ?_ (fun _ _ _ => ?_) | split | unfold z0 | unfold z1 | dsimp only
    | fail_if_no_progress (refine keeps_mk ?_ rfl rfl))

theorem keeps_dropWrites {a0 a1} (h0 : Keeps i a0) : Keeps i (dropWrites a0 a1) := by
  unfold dropWrites
  extract_lets mine m z
  refine keeps_cut (i := i) z ?_ (fun hz => ?_)
  · exact keeps_mk h0 rfl rfl
  · exact keeps_foldl hz (fun _ _ h => keeps_dropEntry h)

theorem keeps_serveChunk {a0 a1 a2 a3} (h0 : Keeps i a0) : Keeps i (serveChunk a0 a1 a2 a3) := by
  unfold serveChunk
  with_reducible repeat' (first
    | assumption | apply keeps_openRow | apply keeps_bump | apply keeps_clientSector | refine keeps_ite ?_ ?_
    | refine keeps_foldl ?_ (fun _ _ _ => ?_) | split | dsimp only | fail_if_no_progress (refine keeps_mk ?_ rfl rfl))

theorem keeps_hbmServe {a0 a1 a2 a3} (h0 : Keeps i a0) : Keeps i (hbmServe a0 a1 a2 a3) := by
  unfold hbmServe
  with_reducible repeat' (first
    | assumption | apply keeps_serveChunk | refine keeps_ite ?_ ?_ | refine keeps_foldl ?_ (fun _ _ _ => ?_) | split | dsimp only
    | fail_if_no_progress (refine keeps_mk ?_ rfl rfl))

/-! ### Sys2Proof.Machine.Serai -/

theorem keeps_seraiPut {a0 a1 a2 a3 a4} (h0 : Keeps i a0) : Keeps i (seraiPut a0 a1 a2 a3 a4) := by
  unfold seraiPut
  extract_lets z0
  with_reducible repeat' (first
    | assumption | unfold z0 | dsimp only | fail_if_no_progress (refine keeps_mk ?_ rfl rfl))

theorem keeps_seraiSetLine {a0 a1 a2 a3} (h0 : Keeps i a0) : Keeps i (seraiSetLine a0 a1 a2 a3) := by
  unfold seraiSetLine
  with_reducible repeat' (first
    | assumption | apply keeps_seraiPut)

theorem keeps_keepRoom {a0 a1 a2} (h0 : Keeps i a0) : Keeps i (keepRoom a0 a1 a2) := by
  unfold keepRoom
  with_reducible repeat' (first
    | assumption | apply keeps_seraiPut | refine keeps_ite ?_ ?_ | split | dsimp only)

theorem keeps_nextMru {a0} (h0 : Keeps i a0) : Keeps i (nextMru a0).2 := by
  unfold nextMru
  extract_lets z0
  with_reducible repeat' (first
    | assumption | unfold z0 | dsimp only | fail_if_no_progress (refine keeps_mk ?_ rfl rfl))

theorem keeps_nextLru {a0} (h0 : Keeps i a0) : Keeps i (nextLru a0).2 := by
  unfold nextLru
  extract_lets z0
  with_reducible repeat' (first
    | assumption | unfold z0 | dsimp only | fail_if_no_progress (refine keeps_mk ?_ rfl rfl))

theorem keeps_seraiPlace {a0 a1 a2 a3 a4 a5 a6} (h0 : Keeps i a0) : Keeps i (seraiPlace a0 a1 a2 a3 a4 a5 a6) := by
  unfold seraiPlace
  extract_lets z0 z1
  refine keeps_cut (i := i) z1 ?_ (fun hz1 => ?_)
  on_goal 1 => unfold z1
  all_goals
    with_reducible repeat' (first
      | assumption | apply keeps_keepRoom | apply keeps_nextLru | apply keeps_nextMru | apply keeps_seraiSetLine | refine keeps_ite ?_ ?_
      | refine of_snd (by assumption) ?_ | split | unfold z0 | dsimp only)

theorem keeps_toBuffer {a0 a1 a2} (h0 : Keeps i a0) : Keeps i (toBuffer a0 a1 a2) := by
  unfold toBuffer
  extract_lets z0 z1
  refine keeps_cut (i := i) z1 ?_ (fun hz1 => ?_)
  on_goal 1 => unfold z1
  all_goals
    with_reducible repeat' (first
      | assumption | apply keeps_bump | unfold z0 | dsimp only | fail_if_no_progress (refine keeps_mk ?_ rfl rfl))

theorem keeps_makeWay {a0 a1 a2} (h0 : Keeps i a0) : KeepsAlloc i (makeWay a0 a1 a2) := by
  unfold makeWay
  extract_lets z0 z1
  with_reducible repeat' (first
    | assumption | exact KeepsAlloc.noBuffer | exact KeepsAlloc.bale | exact KeepsAlloc.noWay | apply keeps_seraiPut | apply keeps_toBuffer
    | refine keeps_ite ?_ ?_ | refine KeepsAlloc.way ?_ | split | unfold z0 | unfold z1 | dsimp only)

theorem keeps_seraiAlloc {a0 a1 a2 a3 a4 a5} (h0 : Keeps i a0) : KeepsAlloc i (seraiAlloc a0 a1 a2 a3 a4 a5) := by
  unfold seraiAlloc
  with_reducible repeat' (first
    | assumption | exact KeepsAlloc.noBuffer | exact KeepsAlloc.bale | exact KeepsAlloc.noWay | apply keeps_makeWay | apply keeps_seraiPlace
    | refine KeepsAlloc.way ?_ | refine of_way (by assumption) ?_ | split | dsimp only)

theorem keeps_seraiTouch {a0 a1 a2 a3 a4} (h0 : Keeps i a0) : Keeps i (seraiTouch a0 a1 a2 a3 a4) := by
  unfold seraiTouch
  extract_lets z0
  refine keeps_cut (i := i) z0 ?_ (fun hz0 => ?_)
  on_goal 1 => unfold z0
  all_goals
    with_reducible repeat' (first
      | assumption | apply keeps_nextMru | apply keeps_seraiSetLine | apply keeps_keepRoom | refine keeps_ite ?_ ?_ | refine of_snd (by assumption) ?_
      | split | dsimp only)

theorem keeps_lowerPut {a0 a1 a2 a3} (h0 : Keeps i a0) : Keeps i (lowerPut a0 a1 a2 a3) := by
  unfold lowerPut
  with_reducible repeat' (first
    | assumption | apply keeps_hbmLine | apply keeps_hbmPoison | apply keeps_hbmSectors | apply keeps_hbmZero | apply keeps_hbmUndef
    | apply keeps_hbmFilter | apply keeps_hbmPoisonSet | apply keeps_hbmEmpty | refine keeps_ite ?_ ?_ | split)

theorem keeps_dropBufs {a0 a1} (h0 : Keeps i a0) : Keeps i (dropBufs a0 a1) := by
  unfold dropBufs
  extract_lets z0
  refine keeps_cut (i := i) z0 ?_ (fun hz0 => ?_)
  on_goal 1 => unfold z0
  all_goals
    with_reducible repeat' (first
      | assumption | apply keeps_dropWrites | refine keeps_ite ?_ ?_ | refine keeps_foldl ?_ (fun _ _ _ => ?_) | split | dsimp only
      | fail_if_no_progress (refine keeps_mk ?_ rfl rfl))

theorem keeps_lowerWrite {a0 a1 a2 a3} (h0 : Keeps i a0) : Keeps i (lowerWrite a0 a1 a2 a3) := by
  unfold lowerWrite
  with_reducible repeat' (first
    | assumption | apply keeps_lowerPut | apply keeps_hbmServe | apply keeps_dropBufs | refine keeps_ite ?_ ?_
    | refine keeps_foldl ?_ (fun _ _ _ => ?_) | split | dsimp only | fail_if_no_progress (refine keeps_mk ?_ rfl rfl))

theorem keeps_flushBufs {a0 a1} (h0 : Keeps i a0) : Keeps i (flushBufs a0 a1) := by
  unfold flushBufs
  with_reducible repeat' (first
    | assumption | apply keeps_lowerWrite | refine keeps_ite ?_ ?_ | refine keeps_foldl ?_ (fun _ _ _ => ?_) | split | dsimp only
    | fail_if_no_progress (refine keeps_mk ?_ rfl rfl))

theorem keeps_seraiDrop {a0 a1} (h0 : Keeps i a0) : Keeps i (seraiDrop a0 a1) := by
  unfold seraiDrop
  with_reducible repeat' (first
    | assumption | apply keeps_seraiSetLine | split | dsimp only)

theorem keeps_seraiClean {a0 a1} (h0 : Keeps i a0) : Keeps i (seraiClean a0 a1) := by
  unfold seraiClean
  with_reducible repeat' (first
    | assumption | apply keeps_bump | apply keeps_lowerWrite | apply keeps_seraiSetLine | refine keeps_ite ?_ ?_
    | refine keeps_foldl ?_ (fun _ _ _ => ?_) | split | dsimp only | fail_if_no_progress (refine keeps_mk ?_ rfl rfl))

theorem keeps_imageLine {a0 a1} (h0 : Keeps i a0) : Keeps i (imageLine a0 a1).1 := by
  unfold imageLine
  with_reducible repeat' (first
    | assumption | apply keeps_draw | apply keeps_seraiSetLine | refine keeps_ite ?_ ?_ | refine keeps_foldl ?_ (fun _ _ _ => ?_)
    | refine of_snd (by assumption) ?_ | split | dsimp only | fail_if_no_progress (refine keeps_mk ?_ rfl rfl))

theorem keeps_discardAfter {a0 a1} (h0 : Keeps i a0) : Keeps i (discardAfter a0 a1) := by
  unfold discardAfter
  extract_lets z0
  refine keeps_cut (i := i) z0 ?_ (fun hz0 => ?_)
  on_goal 1 => unfold z0
  all_goals
    with_reducible repeat' (first
      | assumption | apply keeps_dropBufs | apply keeps_bump | apply keeps_seraiDrop | apply keeps_draw | apply keeps_hbmLine | apply keeps_hbmPoison
      | apply keeps_hbmSectors | apply keeps_hbmZero | apply keeps_hbmUndef | apply keeps_hbmFilter | apply keeps_hbmPoisonSet | apply keeps_hbmEmpty
      | refine keeps_ite ?_ ?_ | refine keeps_foldl ?_ (fun _ _ _ => ?_) | refine of_snd (by assumption) ?_ | split | dsimp only
      | fail_if_no_progress (refine keeps_mk ?_ rfl rfl))

/-! ### Sys2Proof.Machine.Records -/

theorem keeps_cacheRec {a0 a1 a2} (h0 : Keeps i a0) : Keeps i (cacheRec a0 a1 a2) := by
  unfold cacheRec
  extract_lets z0 z1 z2
  with_reducible repeat' (first
    | assumption | refine keeps_ite ?_ ?_ | split | unfold z0 | unfold z1 | unfold z2 | dsimp only | fail_if_no_progress (refine keeps_mk ?_ rfl rfl))

theorem keeps_fetchRec {a0 a1 a2} (h0 : Keeps i a0) : Keeps i (fetchRec a0 a1 a2) := by
  unfold fetchRec
  extract_lets z0 z1
  with_reducible repeat' (first
    | assumption | apply keeps_cacheRec | apply keeps_hbmServe | refine keeps_ite ?_ ?_ | refine keeps_foldl ?_ (fun _ _ _ => ?_) | split | unfold z0
    | unfold z1 | dsimp only | fail_if_no_progress (refine keeps_mk ?_ rfl rfl))

theorem keeps_writeRec {a0 a1 a2 a3} (h0 : Keeps i a0) : Keeps i (writeRec a0 a1 a2 a3) := by
  unfold writeRec
  extract_lets z0 z1 z2 z3 z4 z5
  refine keeps_cut (i := i) z1 ?_ (fun hz1 => keeps_cut (i := i) z2 ?_ (fun hz2 => keeps_cut (i := i) z5 ?_ (fun hz5 => ?_)))
  · exact keeps_hbmServe (keeps_flushBufs h0)
  · exact keeps_hbmSectors hz1 hz1
  · unfold z5
    split
    · exact keeps_seraiSetLine hz2
    · exact hz2
  · exact keeps_cacheRec hz5

theorem keeps_dropBale {a0 a1 a2} (h0 : Keeps i a0) : Keeps i (dropBale a0 a1 a2) := by
  unfold dropBale
  with_reducible repeat' (first
    | assumption | apply keeps_seraiDrop | refine keeps_foldl ?_ (fun _ _ _ => ?_) | dsimp only)

theorem keeps_cleanBale {a0 a1 a2} (h0 : Keeps i a0) : Keeps i (cleanBale a0 a1 a2) := by
  unfold cleanBale
  with_reducible repeat' (first
    | assumption | apply keeps_seraiSetLine | refine keeps_foldl ?_ (fun _ _ _ => ?_) | split | dsimp only)

theorem keeps_tirLastErr {a0 a1 a2 a3 a4} (h0 : Keeps i a0) : Keeps i (tirLastErr a0 a1 a2 a3 a4) := by
  unfold tirLastErr
  with_reducible repeat' (first
    | assumption | apply keeps_regPut | refine keeps_ite ?_ ?_ | split)

theorem keeps_tierError {a0 a1 a2 a3} (h0 : Keeps i a0) : Keeps i (tierError a0 a1 a2 a3) := by
  unfold tierError
  with_reducible repeat' (first
    | assumption | apply keeps_setStatus | apply keeps_tirLastErr)

theorem keeps_tierUncorr {a0 a1 a2} (h0 : Keeps i a0) : Keeps i (tierUncorr a0 a1 a2) := by
  unfold tierUncorr
  with_reducible repeat' (first
    | assumption | apply keeps_setStatus | apply keeps_tirLastErr)

theorem keeps_countTierAnswer {a0 a1 a2} (h0 : Keeps i a0) : Keeps i (countTierAnswer a0 a1 a2) := by
  unfold countTierAnswer
  with_reducible repeat' (first
    | assumption | apply keeps_bump | split | dsimp only)

theorem keeps_queueOpFor {a0 a1 a2 a3 a4 a5 a6 a7} (h0 : Keeps i a0) : Keeps i (queueOpFor a0 a1 a2 a3 a4 a5 a6 a7) := by
  unfold queueOpFor
  with_reducible repeat' (first
    | assumption | refine keeps_ite ?_ ?_ | refine keeps_foldl ?_ (fun _ _ _ => ?_) | split | dsimp only
    | fail_if_no_progress (refine keeps_mk ?_ rfl rfl))

theorem keeps_queueOp {a0 a1 a2 a3 a4 a5} (h0 : Keeps i a0) : Keeps i (queueOp a0 a1 a2 a3 a4 a5) := by
  unfold queueOp
  with_reducible repeat' (first
    | assumption | apply keeps_queueOpFor | refine keeps_ite ?_ ?_ | refine keeps_foldl ?_ (fun _ _ _ => ?_) | split | dsimp only
    | fail_if_no_progress (refine keeps_mk ?_ rfl rfl))

theorem keeps_askFill {a0 a1 a2} (h0 : Keeps i a0) : Keeps i (askFill a0 a1 a2) := by
  unfold askFill
  extract_lets z0
  with_reducible repeat' (first
    | assumption | apply keeps_queueOp | refine keeps_ite ?_ ?_ | split | unfold z0 | dsimp only)

theorem keeps_markInstant {a0 a1 a2} (h0 : Keeps i a0) : Keeps i (markInstant a0 a1 a2) := by
  unfold markInstant
  with_reducible repeat' (first
    | assumption | refine keeps_ite ?_ ?_ | refine keeps_foldl ?_ (fun _ _ _ => ?_) | split | dsimp only
    | fail_if_no_progress (refine keeps_mk ?_ rfl rfl))

theorem keeps_askFillNow {a0 a1 a2} (h0 : Keeps i a0) : Keeps i (askFillNow a0 a1 a2) := by
  unfold askFillNow
  with_reducible repeat' (first
    | assumption | apply keeps_markInstant | apply keeps_askFill | refine keeps_ite ?_ ?_ | refine keeps_foldl ?_ (fun _ _ _ => ?_) | split
    | dsimp only | fail_if_no_progress (refine keeps_mk ?_ rfl rfl))

theorem keeps_takeFailed {a0 a1} (h0 : Keeps i a0) : Keeps i (takeFailed a0 a1) := by
  unfold takeFailed
  extract_lets z0
  with_reducible repeat' (first
    | assumption | refine keeps_ite ?_ ?_ | refine keeps_foldl ?_ (fun _ _ _ => ?_) | split | unfold z0 | dsimp only
    | fail_if_no_progress (refine keeps_mk ?_ rfl rfl))

theorem keeps_askLeave {a0 a1} (h0 : Keeps i a0) : Keeps i (askLeave a0 a1) := by
  unfold askLeave
  extract_lets z0
  with_reducible repeat' (first
    | assumption | apply keeps_dropBale | apply keeps_queueOp | refine keeps_ite ?_ ?_ | split | unfold z0 | dsimp only)

/-! ### Sys2Proof.Machine.Tolls -/

theorem keeps_putDomain {a0 a1 a2} (h0 : Keeps i a0) : Keeps i (putDomain a0 a1 a2) := by
  unfold putDomain
  extract_lets z0
  with_reducible repeat' (first
    | assumption | unfold z0 | dsimp only | fail_if_no_progress (refine keeps_mk ?_ rfl rfl))

theorem keeps_charge {a0 a1 a2 a3 a4} (h0 : Keeps i a0) : Keeps i (charge a0 a1 a2 a3 a4) := by
  unfold charge
  extract_lets z0 z1 z2
  with_reducible repeat' (first
    | assumption | refine keeps_ite ?_ ?_ | split | unfold z0 | unfold z1 | unfold z2 | dsimp only | fail_if_no_progress (refine keeps_mk ?_ rfl rfl))

theorem keeps_admitPieces {a0 a1 a2 a3 a4 a5} (h1 : Keeps i a1) : Keeps i (admitPieces a0 a1 a2 a3 a4 a5).1 := by
  induction a0 generalizing a1 a5 with
  | zero => exact h1
  | succ n ih =>
    unfold admitPieces
    split
    · exact h1
    · split
      · exact h1
      · exact ih (keeps_charge h1)

theorem keeps_gateCls {a0 a1 a2 a3 a4 a5 a6} (h0 : Keeps i a0) : Keeps i (gateCls a0 a1 a2 a3 a4 a5 a6).1 := by
  unfold gateCls
  extract_lets z0
  with_reducible repeat' (first
    | assumption | apply keeps_admitPieces | refine keeps_ite ?_ ?_ | refine keeps_foldl ?_ (fun _ _ _ => ?_) | refine of_fst (by assumption) ?_
    | split | unfold z0 | dsimp only | fail_if_no_progress (refine keeps_mk ?_ rfl rfl))

theorem keeps_gate {a0 a1 a2 a3 a4 a5} (h0 : Keeps i a0) : Keeps i (gate a0 a1 a2 a3 a4 a5).1 := by
  unfold gate
  with_reducible repeat' (first
    | assumption | apply keeps_gateCls | refine keeps_ite ?_ ?_ | refine keeps_foldl ?_ (fun _ _ _ => ?_) | refine of_fst (by assumption) ?_ | split
    | dsimp only | fail_if_no_progress (refine keeps_mk ?_ rfl rfl))

theorem keeps_ungate {a0 a1} (h0 : Keeps i a0) : Keeps i (ungate a0 a1) := by
  unfold ungate
  with_reducible repeat' (first
    | assumption | refine keeps_ite ?_ ?_ | refine keeps_foldl ?_ (fun _ _ _ => ?_) | split | dsimp only
    | fail_if_no_progress (refine keeps_mk ?_ rfl rfl))

theorem keeps_missFirst {a0 a1 a2} (h0 : Keeps i a0) : Keeps i (missFirst a0 a1 a2) := by
  unfold missFirst
  extract_lets z0
  with_reducible repeat' (first
    | assumption | apply keeps_regPut | refine keeps_ite ?_ ?_ | split | unfold z0 | dsimp only)

theorem keeps_missedGuarantee {a0 a1 a2 a3} (h0 : Keeps i a0) : Keeps i (missedGuarantee a0 a1 a2 a3) := by
  unfold missedGuarantee
  with_reducible repeat' (first
    | assumption | apply keeps_setStatus | apply keeps_missFirst | apply keeps_bump)

theorem keeps_countLateRead {a0 a1} (h0 : Keeps i a0) : Keeps i (countLateRead a0 a1) := by
  unfold countLateRead
  extract_lets z0
  with_reducible repeat' (first
    | assumption | apply keeps_missedGuarantee | apply keeps_bump | unfold z0 | dsimp only)

theorem keeps_countLateWrite {a0 a1} (h0 : Keeps i a0) : Keeps i (countLateWrite a0 a1) := by
  unfold countLateWrite
  with_reducible repeat' (first
    | assumption | apply keeps_bump | refine keeps_ite ?_ ?_ | split)

theorem keeps_windowMisses {a0} (h0 : Keeps i a0) : Keeps i (windowMisses a0) := by
  unfold windowMisses
  refine keeps_foldl_fst h0 (fun s b a h => ?_)
  dsimp only
  split
  · exact h
  · repeat' split
    all_goals first | exact keeps_missedGuarantee h | exact h

theorem keeps_newWindowIrq {a0} (h0 : Keeps i a0) : Keeps i (newWindowIrq a0) := by
  unfold newWindowIrq
  with_reducible repeat' (first
    | assumption | apply keeps_putFn | apply keeps_raiseVector | refine keeps_ite ?_ ?_ | refine keeps_foldl ?_ (fun _ _ _ => ?_) | split | dsimp only)

theorem keeps_resetTolls {a0} (h0 : Keeps i a0) : Keeps i (resetTolls a0) := by
  unfold resetTolls
  extract_lets z0
  with_reducible repeat' (first
    | assumption | unfold z0 | dsimp only | fail_if_no_progress (refine keeps_mk ?_ rfl rfl))

/-! ### Sys2Proof.Machine.SiteBase -/

theorem keeps_putSite {a0 a1 a2} (h0 : Keeps i a0) : Keeps i (putSite a0 a1 a2) := by
  unfold putSite
  extract_lets z0
  with_reducible repeat' (first
    | assumption | unfold z0 | dsimp only | fail_if_no_progress (refine keeps_mk ?_ rfl rfl))

theorem keeps_modSite {a0 a1 a2} (h0 : Keeps i a0) : Keeps i (modSite a0 a1 a2) := by
  unfold modSite
  with_reducible repeat' (first
    | assumption | apply keeps_putSite)

theorem keeps_emitEhp {a0 a1 a2} (h0 : Keeps i a0) : Keeps i (emitEhp a0 a1 a2) := by
  unfold emitEhp
  with_reducible repeat' (first
    | assumption | apply keeps_bump | apply keeps_emit | refine keeps_ite ?_ ?_ | refine keeps_foldl ?_ (fun _ _ _ => ?_) | split | dsimp only
    | fail_if_no_progress (refine keeps_mk ?_ rfl rfl))

theorem keeps_sendEhp {a0 a1 a2 a3 a4 a5 a6 a7 a8 a9} (h0 : Keeps i a0) : Keeps i (sendEhp a0 a1 a2 a3 a4 a5 a6 a7 a8 a9) := by
  unfold sendEhp
  extract_lets z0 z1 z2
  with_reducible repeat' (first
    | assumption | apply keeps_putSite | apply keeps_emitEhp | refine keeps_ite ?_ ?_ | refine keeps_foldl ?_ (fun _ _ _ => ?_) | split | unfold z0
    | unfold z1 | unfold z2 | dsimp only | fail_if_no_progress (refine keeps_mk ?_ rfl rfl))

theorem keeps_returnCredit {a0 a1 a2 a3 a4} (h0 : Keeps i a0) : Keeps i (returnCredit a0 a1 a2 a3 a4) := by
  unfold returnCredit
  extract_lets z0
  refine keeps_cut (i := i) z0 ?_ (fun hz0 => ?_)
  on_goal 1 => unfold z0
  all_goals
    with_reducible repeat' (first
      | assumption | intro _ | apply keeps_modSite | apply keeps_sendEhp | dsimp only)

theorem keeps_freeTag {a0 a1 a2} (h0 : Keeps i a0) : Keeps i (freeTag a0 a1 a2) := by
  unfold freeTag
  extract_lets z0
  with_reducible repeat' (first
    | assumption | intro _ | apply keeps_returnCredit | apply keeps_modSite | refine keeps_ite ?_ ?_ | split | unfold z0 | dsimp only)

theorem keeps_sendReply {a0 a1 a2 a3 a4 a5 a6 a7 a8 a9} (h0 : Keeps i a0) : Keeps i (sendReply a0 a1 a2 a3 a4 a5 a6 a7 a8 a9) := by
  unfold sendReply
  with_reducible repeat' (first
    | assumption | apply keeps_freeTag | apply keeps_sendEhp)

theorem keeps_holdHome {a0 a1 a2} (h0 : Keeps i a0) : Keeps i (holdHome a0 a1 a2) := by
  unfold holdHome
  with_reducible repeat' (first
    | assumption | apply keeps_modSite | refine keeps_ite ?_ ?_ | refine keeps_foldl ?_ (fun _ _ _ => ?_) | split | dsimp only
    | fail_if_no_progress (refine keeps_mk ?_ rfl rfl))

theorem keeps_emitHome {a0 a1 a2 a3} (h0 : Keeps i a0) : Keeps i (emitHome a0 a1 a2 a3) := by
  unfold emitHome
  extract_lets z0 z1
  refine keeps_cut (i := i) z0 ?_ (fun hz0 => keeps_cut (i := i) z1 ?_ (fun hz1 => ?_))
  on_goal 1 => unfold z0
  on_goal 2 => unfold z1
  all_goals
    with_reducible repeat' (first
      | assumption | apply keeps_modSite | apply keeps_emitEhp | apply keeps_freeTag | refine keeps_ite ?_ ?_
      | refine keeps_foldl ?_ (fun _ _ _ => ?_) | split | dsimp only | fail_if_no_progress (refine keeps_mk ?_ rfl rfl))

theorem keeps_routeHome {a0 a1 a2} (h0 : Keeps i a0) : Keeps i (routeHome a0 a1 a2) := by
  unfold routeHome
  with_reducible repeat' (first
    | assumption | apply keeps_holdHome | apply keeps_emitHome | apply keeps_draw | refine keeps_ite ?_ ?_ | refine keeps_foldl ?_ (fun _ _ _ => ?_)
    | refine of_snd (by assumption) ?_ | split | dsimp only | fail_if_no_progress (refine keeps_mk ?_ rfl rfl))

theorem keeps_flushHome {a0 a1} (h0 : Keeps i a0) : Keeps i (flushHome a0 a1) := by
  unfold flushHome
  extract_lets z0
  with_reducible repeat' (first
    | assumption | apply keeps_routeHome | apply keeps_modSite | refine keeps_ite ?_ ?_ | refine keeps_foldl ?_ (fun _ _ _ => ?_) | split | unfold z0
    | dsimp only | fail_if_no_progress (refine keeps_mk ?_ rfl rfl))

theorem keeps_flushHomes {a0} (h0 : Keeps i a0) : Keeps i (flushHomes a0) := by
  unfold flushHomes
  with_reducible repeat' (first
    | assumption | apply keeps_flushHome | refine keeps_ite ?_ ?_ | refine keeps_foldl ?_ (fun _ _ _ => ?_) | split | dsimp only
    | fail_if_no_progress (refine keeps_mk ?_ rfl rfl))

theorem keeps_sendHome {a0 a1 a2 a3 a4 a5 a6 a7 a8 a9 a10 a11} (h0 : Keeps i a0) : Keeps i (sendHome a0 a1 a2 a3 a4 a5 a6 a7 a8 a9 a10 a11) := by
  unfold sendHome
  extract_lets z0 z1 z2
  with_reducible repeat' (first
    | assumption | apply keeps_putSite | apply keeps_routeHome | refine keeps_ite ?_ ?_ | refine keeps_foldl ?_ (fun _ _ _ => ?_) | split | unfold z0
    | unfold z1 | unfold z2 | dsimp only | fail_if_no_progress (refine keeps_mk ?_ rfl rfl))

theorem keeps_sendHeld {a0 a1} (h0 : Keeps i a0) : Keeps i (sendHeld a0 a1) := by
  unfold sendHeld
  extract_lets z0 z1 z2 z3
  refine keeps_cut (i := i) z3 ?_ (fun hz3 => ?_)
  on_goal 1 => unfold z3
  all_goals
    with_reducible repeat' (first
      | assumption | apply keeps_putSite | apply keeps_emitEhp | apply keeps_routeHome | refine keeps_ite ?_ ?_
      | refine keeps_foldl ?_ (fun _ _ _ => ?_) | split | unfold z0 | unfold z1 | unfold z2 | dsimp only
      | fail_if_no_progress (refine keeps_mk ?_ rfl rfl))

theorem keeps_ucsLastErr {a0 a1 a2 a3 a4 a5 a6} (h0 : Keeps i a0) : Keeps i (ucsLastErr a0 a1 a2 a3 a4 a5 a6) := by
  unfold ucsLastErr
  extract_lets z0
  with_reducible repeat' (first
    | assumption | apply keeps_regPut | refine keeps_ite ?_ ?_ | split | unfold z0 | dsimp only)

theorem keeps_protoErr {a0 a1 a2 a3 a4} (h0 : Keeps i a0) : Keeps i (protoErr a0 a1 a2 a3 a4) := by
  unfold protoErr
  with_reducible repeat' (first
    | assumption | apply keeps_setStatus | apply keeps_ucsLastErr | apply keeps_bump)

end Sys2Proof.Machine
end

