-- ==== Sys2Proof/Laws/KeepHome.lean ====
section
/-! SUPPORT. One lemma per function that carries a State, for coherence at the home node, delivery of lines and the steps of units:
what `Keep.lean` calls kept (the queue of commands, the canonical form of the stores, the well-formed
cores) stays kept through it. Later proofs cite these lemmas and unfold no function again. -/

namespace Sys2Proof.Machine
variable {i : Held} {s t : State}

/-! ### Sys2Proof.Machine.Coherence -/

theorem keeps_dirPut {a0 a1 a2} (h0 : Keeps i a0) : Keeps i (dirPut a0 a1 a2) := by
  unfold dirPut
  extract_lets z0
  with_reducible repeat' (first
    | assumption | unfold z0 | dsimp only | fail_if_no_progress (refine keeps_mk ?_ rfl rfl))

theorem keeps_nextDirClock {a0} (h0 : Keeps i a0) : Keeps i (nextDirClock a0).2 := by
  unfold nextDirClock
  extract_lets z0
  with_reducible repeat' (first
    | assumption | unfold z0 | dsimp only | fail_if_no_progress (refine keeps_mk ?_ rfl rfl))

theorem keeps_dirSet {a0 a1 a2} (h0 : Keeps i a0) : Keeps i (dirSet a0 a1 a2) := by
  unfold dirSet
  with_reducible repeat' (first
    | assumption | apply keeps_dirPut | apply keeps_nextDirClock | refine of_snd (by assumption) ?_ | split | dsimp only)

theorem keeps_dirRemove {a0 a1 a2} (h0 : Keeps i a0) : Keeps i (dirRemove a0 a1 a2) := by
  unfold dirRemove
  with_reducible repeat' (first
    | assumption | apply keeps_dirSet | refine keeps_ite ?_ ?_ | split | dsimp only)

theorem keeps_txnPut {a0 a1} (h0 : Keeps i a0) : Keeps i (txnPut a0 a1) := by
  unfold txnPut
  extract_lets z0
  with_reducible repeat' (first
    | assumption | unfold z0 | dsimp only | fail_if_no_progress (refine keeps_mk ?_ rfl rfl))

theorem keeps_txnDel {a0 a1} (h0 : Keeps i a0) : Keeps i (txnDel a0 a1) := by
  unfold txnDel
  extract_lets z0
  with_reducible repeat' (first
    | assumption | unfold z0 | dsimp only | fail_if_no_progress (refine keeps_mk ?_ rfl rfl))

theorem keeps_endTxn {a0 a1} (h0 : Keeps i a0) : Keeps i (endTxn a0 a1) := by
  unfold endTxn
  with_reducible repeat' (first
    | assumption | apply keeps_txnDel | apply keeps_txnPut | refine keeps_ite ?_ ?_ | split | dsimp only)

theorem keeps_holdIn {a0 a1} (h0 : Keeps i a0) : Keeps i (holdIn a0 a1) := by
  unfold holdIn
  extract_lets z0
  with_reducible repeat' (first
    | assumption | unfold z0 | dsimp only | fail_if_no_progress (refine keeps_mk ?_ rfl rfl))

theorem keeps_requeue {a0 a1 a2} (h0 : Keeps i a0) : Keeps i (requeue a0 a1 a2) := by
  unfold requeue
  with_reducible repeat' (first
    | assumption | apply keeps_txnPut | refine keeps_ite ?_ ?_ | refine keeps_foldl ?_ (fun _ _ _ => ?_) | split | dsimp only
    | fail_if_no_progress (refine keeps_mk ?_ rfl rfl))

theorem keeps_bumpDom {a0 a1 a2} (h0 : Keeps i a0) : Keeps i (bumpDom a0 a1 a2) := by
  unfold bumpDom
  with_reducible repeat' (first
    | assumption | apply keeps_bump | split | dsimp only)

theorem keeps_bumpSiteDom {a0 a1 a2} (h0 : Keeps i a0) : Keeps i (bumpSiteDom a0 a1 a2) := by
  unfold bumpSiteDom
  with_reducible repeat' (first
    | assumption | apply keeps_bump | split | dsimp only)

theorem keeps_startHold {a0 a1 a2} (h0 : Keeps i a0) : Keeps i (startHold a0 a1 a2) := by
  unfold startHold
  extract_lets z0
  with_reducible repeat' (first
    | assumption | unfold z0 | dsimp only | fail_if_no_progress (refine keeps_mk ?_ rfl rfl))

theorem keeps_countArrival {a0 a1} (h0 : Keeps i a0) : Keeps i (countArrival a0 a1) := by
  unfold countArrival
  with_reducible repeat' (first
    | assumption | apply keeps_draw | apply keeps_bump | refine keeps_ite ?_ ?_ | refine keeps_foldl ?_ (fun _ _ _ => ?_)
    | refine of_snd (by assumption) ?_ | split | dsimp only | fail_if_no_progress (refine keeps_mk ?_ rfl rfl))

theorem keeps_answerData {a0 a1 a2 a3} (h0 : Keeps i a0) : Keeps i (answerData a0 a1 a2 a3) := by
  unfold answerData
  extract_lets z0
  with_reducible repeat' (first
    | assumption | apply keeps_countArrival | apply keeps_sendHome | apply keeps_startHold | refine keeps_ite ?_ ?_
    | refine keeps_foldl ?_ (fun _ _ _ => ?_) | split | unfold z0 | dsimp only | fail_if_no_progress (refine keeps_mk ?_ rfl rfl))

theorem keeps_answerCmp {a0 a1 a2 a3} (h0 : Keeps i a0) : Keeps i (answerCmp a0 a1 a2 a3) := by
  unfold answerCmp
  extract_lets z0
  with_reducible repeat' (first
    | assumption | apply keeps_sendHome | apply keeps_startHold | refine keeps_ite ?_ ?_ | refine keeps_foldl ?_ (fun _ _ _ => ?_) | split | unfold z0
    | dsimp only | fail_if_no_progress (refine keeps_mk ?_ rfl rfl))

theorem keeps_dropLate {a0 a1} (h0 : Keeps i a0) : Keeps i (dropLate a0 a1) := by
  unfold dropLate
  with_reducible repeat' (first
    | assumption | apply keeps_countLateRead | apply keeps_answerCmp)

theorem keeps_answerErr {a0 a1 a2} (h0 : Keeps i a0) : Keeps i (answerErr a0 a1 a2) := by
  unfold answerErr
  extract_lets z0
  refine keeps_cut (i := i) z0 ?_ (fun hz0 => ?_)
  on_goal 1 => unfold z0
  all_goals
    with_reducible repeat' (first
      | assumption | apply keeps_countTierAnswer | apply keeps_answerCmp | refine keeps_ite ?_ ?_ | split | dsimp only)

theorem keeps_mkSnoop {a0 a1 a2 a3 a4} (h0 : Keeps i a0) : Keeps i (mkSnoop a0 a1 a2 a3 a4).1 := by
  unfold mkSnoop
  extract_lets z0 z1 z2
  with_reducible repeat' (first
    | assumption | apply keeps_bumpDom | apply keeps_bumpSiteDom | apply keeps_sendHome | refine keeps_ite ?_ ?_
    | refine keeps_foldl ?_ (fun _ _ _ => ?_) | split | unfold z0 | unfold z1 | unfold z2 | dsimp only
    | fail_if_no_progress (refine keeps_mk ?_ rfl rfl))

theorem keeps_mkSnoops {a0 a1 a2 a3 a4} (h0 : Keeps i a0) : Keeps i (mkSnoops a0 a1 a2 a3 a4).1 := by
  induction a4 generalizing a0 with
  | nil => exact h0
  | cons h l ih => exact ih (keeps_mkSnoop h0)

theorem keeps_countHit {a0 a1 a2} (h0 : Keeps i a0) : Keeps i (countHit a0 a1 a2) := by
  unfold countHit
  with_reducible repeat' (first
    | assumption | apply keeps_bump | refine keeps_ite ?_ ?_ | refine keeps_foldl ?_ (fun _ _ _ => ?_) | split | dsimp only
    | fail_if_no_progress (refine keeps_mk ?_ rfl rfl))

theorem keeps_afterHit {a0 a1 a2 a3 a4 a5} (h0 : Keeps i a0) : Keeps i (afterHit a0 a1 a2 a3 a4 a5) := by
  unfold afterHit
  extract_lets z0
  refine keeps_cut (i := i) z0 ?_ (fun hz0 => ?_)
  on_goal 1 => unfold z0
  all_goals
    with_reducible repeat' (first
      | assumption | apply keeps_countHit | apply keeps_discardAfter | apply keeps_seraiTouch | refine keeps_ite ?_ ?_
      | refine keeps_foldl ?_ (fun _ _ _ => ?_) | split | dsimp only | fail_if_no_progress (refine keeps_mk ?_ rfl rfl))

theorem keeps_applyWrite {a0 a1} (h0 : Keeps i a0) : KeepsWrite i (applyWrite a0 a1) := by
  unfold applyWrite
  extract_lets z0 z1 z2 z3
  refine keeps_cut (i := i) z2 ?_ (fun hz2 => ?_)
  on_goal 1 => unfold z2
  all_goals
    with_reducible repeat' (first
      | assumption | exact KeepsWrite.needData | exact KeepsWrite.drop | apply keeps_countHit | apply keeps_seraiTouch | apply keeps_seraiSetLine
      | apply keeps_lowerWrite | apply keeps_seraiAlloc | apply keeps_askLeave | refine KeepsWrite.done ?_ | refine KeepsWrite.wait ?_
      | refine keeps_ite ?_ ?_ | refine keeps_foldl ?_ (fun _ _ _ => ?_) | refine of_way (by assumption) ?_ | split | unfold z0 | unfold z1
      | unfold z3 | dsimp only | fail_if_no_progress (refine keeps_mk ?_ rfl rfl))

theorem keeps_takeMiss {a0 a1 a2} (h0 : Keeps i a0) : Keeps i (takeMiss a0 a1 a2) := by
  unfold takeMiss
  extract_lets z0
  with_reducible repeat' (first
    | assumption | apply keeps_endTxn | apply keeps_dropLate | apply keeps_answerCmp | apply keeps_logUnmapped | apply keeps_bump | apply keeps_txnPut
    | apply keeps_askFill | apply keeps_txnDel | refine keeps_ite ?_ ?_ | refine keeps_foldl ?_ (fun _ _ _ => ?_) | split | unfold z0 | dsimp only
    | fail_if_no_progress (refine keeps_mk ?_ rfl rfl))

theorem keeps_writeHome {a0 a1 a2} (h0 : Keeps i a0) : Keeps i (writeHome a0 a1 a2) := by
  unfold writeHome
  with_reducible repeat' (first
    | assumption | apply keeps_applyWrite | apply keeps_endTxn | apply keeps_answerCmp | apply keeps_countLateWrite | apply keeps_dirSet
    | apply keeps_requeue | apply keeps_takeMiss | apply keeps_answerErr | apply keeps_bump | refine keeps_ite ?_ ?_
    | refine keeps_foldl ?_ (fun _ _ _ => ?_) | refine of_wrDone (by assumption) ?_ | refine of_wrWait (by assumption) ?_ | split | dsimp only
    | fail_if_no_progress (refine keeps_mk ?_ rfl rfl))

theorem keeps_readHome {a0 a1 a2 a3} (h0 : Keeps i a0) (h3 : ∀ s, Keeps i s → Keeps i (a3 s)) : Keeps i (readHome a0 a1 a2 a3) := by
  unfold readHome
  with_reducible repeat' (first
    | assumption | apply keeps_endTxn | apply keeps_dropLate | apply h3 | apply keeps_dirSet | apply keeps_answerData | refine keeps_ite ?_ ?_ | split
    | dsimp only)

theorem keeps_proceed {a0 a1} (h0 : Keeps i a0) : Keeps i (proceed a0 a1) := by
  unfold proceed
  with_reducible repeat' (first
    | assumption | intro _ | apply keeps_endTxn | apply keeps_writeHome | apply keeps_answerCmp | apply keeps_dirSet | apply keeps_answerErr
    | apply keeps_readHome | apply keeps_afterHit | apply keeps_imageLine | apply keeps_takeMiss | refine keeps_ite ?_ ?_
    | refine keeps_foldl ?_ (fun _ _ _ => ?_) | refine keeps_foldl_fst ?_ (fun _ _ _ _ => ?_) | refine keeps_foldl_snd ?_ (fun _ _ _ _ => ?_)
    | refine opt_foldl ?_ (fun _ _ _ => ?_) | refine of_fst (by assumption) ?_ | split | unfold id | dsimp only
    | fail_if_no_progress (refine keeps_mk ?_ rfl rfl))

theorem keeps_takeUp {a0 a1 a2} (h0 : Keeps i a0) : Keeps i (takeUp a0 a1 a2) := by
  unfold takeUp
  extract_lets z0 z1 z2 z3 z4 z5
  refine keeps_cut (i := i) z3 ?_ (fun hz3 => keeps_cut (i := i) z4 ?_ (fun hz4 => keeps_cut (i := i) z5 ?_ (fun hz5 => ?_)))
  on_goal 1 => unfold z3
  on_goal 2 => unfold z4
  on_goal 3 => unfold z5
  all_goals
    with_reducible repeat' (first
      | assumption | apply keeps_txnDel | apply keeps_txnPut | apply keeps_requeue | apply keeps_writeHome | apply keeps_endTxn
      | apply keeps_answerCmp | apply keeps_dirRemove | apply keeps_mkSnoops | apply keeps_bumpDom | apply keeps_dropLate | apply keeps_mkSnoop
      | apply keeps_proceed | refine keeps_ite ?_ ?_ | refine keeps_foldl ?_ (fun _ _ _ => ?_) | refine of_fst (by assumption) ?_ | split | unfold z0
      | unfold z1 | unfold z2 | dsimp only | fail_if_no_progress (refine keeps_mk ?_ rfl rfl))

theorem keeps_arrive {a0 a1} (h0 : Keeps i a0) : Keeps i (arrive a0 a1) := by
  unfold arrive
  extract_lets z0
  refine keeps_cut (i := i) z0 ?_ (fun hz0 => ?_)
  on_goal 1 => unfold z0
  all_goals
    with_reducible repeat' (first
      | assumption | apply keeps_holdIn | apply keeps_takeUp | apply keeps_bumpDom | apply keeps_dropLate | apply keeps_bump | apply keeps_txnPut
      | refine keeps_ite ?_ ?_ | split | dsimp only)

theorem keeps_nextHeld {a0 a1} (h0 : Keeps i a0) : KeepsOpt i (nextHeld a0 a1) := by
  unfold nextHeld
  with_reducible repeat' (first
    | assumption | exact KeepsOpt.none | apply keeps_takeUp | apply keeps_txnDel | refine opt_ite ?_ ?_ | refine KeepsOpt.some ?_
    | refine opt_mapState ?_ (fun _ _ => ?_) | refine keeps_ite ?_ ?_ | refine keeps_foldl ?_ (fun _ _ _ => ?_) | split | dsimp only
    | fail_if_no_progress (refine keeps_mk ?_ rfl rfl))

theorem keeps_serveHeld {a0 a1 a2} (h1 : Keeps i a1) : Keeps i (serveHeld a0 a1 a2) := by
  induction a0 generalizing a1 with
  | zero => exact h1
  | succ n ih =>
    unfold serveHeld
    repeat' split
    all_goals first | exact h1 | exact ih (of_some (by assumption) (keeps_nextHeld h1))

theorem keeps_returnData_keepRet {a0 a1 a2 a3} (h3 : Keeps i a3) : Keeps i (returnData.keepRet a0 a1 a2 a3) := by
  unfold returnData.keepRet
  with_reducible repeat' (first
    | assumption | apply keeps_txnPut | apply keeps_lowerWrite | refine keeps_ite ?_ ?_ | refine keeps_foldl ?_ (fun _ _ _ => ?_) | split | dsimp only
    | fail_if_no_progress (refine keeps_mk ?_ rfl rfl))

theorem keeps_returnData {a0 a1 a2 a3} (h0 : Keeps i a0) : Keeps i (returnData a0 a1 a2 a3) := by
  unfold returnData
  with_reducible repeat' (first
    | assumption | apply keeps_seraiSetLine | apply keeps_lowerWrite | apply keeps_seraiAlloc | apply keeps_returnData_keepRet | apply keeps_askLeave
    | refine keeps_ite ?_ ?_ | refine keeps_foldl ?_ (fun _ _ _ => ?_) | refine of_way (by assumption) ?_ | split | dsimp only
    | fail_if_no_progress (refine keeps_mk ?_ rfl rfl))

theorem keeps_finishForward {a0 a1 a2} (h0 : Keeps i a0) : Keeps i (finishForward a0 a1 a2) := by
  unfold finishForward
  extract_lets z0
  refine keeps_cut (i := i) z0 ?_ (fun hz0 => ?_)
  on_goal 1 => unfold z0
  all_goals
    with_reducible repeat' (first
      | assumption | apply keeps_dirSet | apply keeps_serveHeld | apply keeps_endTxn | refine keeps_ite ?_ ?_
      | refine keeps_foldl ?_ (fun _ _ _ => ?_) | split | dsimp only | fail_if_no_progress (refine keeps_mk ?_ rfl rfl))

theorem keeps_snoopsDone {a0 a1} (h0 : Keeps i a0) : Keeps i (snoopsDone a0 a1) := by
  unfold snoopsDone
  with_reducible repeat' (first
    | assumption | apply keeps_serveHeld | apply keeps_endTxn | apply keeps_dirSet | apply keeps_proceed | refine keeps_ite ?_ ?_
    | refine keeps_foldl ?_ (fun _ _ _ => ?_) | split | dsimp only | fail_if_no_progress (refine keeps_mk ?_ rfl rfl))

theorem keeps_retake {a0 a1} (h0 : Keeps i a0) : Keeps i (retake a0 a1) := by
  unfold retake
  with_reducible repeat' (first
    | assumption | apply keeps_takeUp | apply keeps_txnDel | refine keeps_ite ?_ ?_ | refine keeps_foldl ?_ (fun _ _ _ => ?_) | split | dsimp only
    | fail_if_no_progress (refine keeps_mk ?_ rfl rfl))

theorem keeps_txnGoOn {a0 a1} (h0 : Keeps i a0) : Keeps i (txnGoOn a0 a1) := by
  unfold txnGoOn
  with_reducible repeat' (first
    | assumption | apply keeps_finishForward | apply keeps_snoopsDone | refine keeps_ite ?_ ?_ | refine keeps_foldl ?_ (fun _ _ _ => ?_) | split
    | dsimp only | fail_if_no_progress (refine keeps_mk ?_ rfl rfl))

theorem keeps_retryRet {a0 a1} (h0 : Keeps i a0) : Keeps i (retryRet a0 a1) := by
  unfold retryRet
  with_reducible repeat' (first
    | assumption | apply keeps_txnGoOn | apply keeps_returnData | apply keeps_txnPut | refine keeps_ite ?_ ?_
    | refine keeps_foldl ?_ (fun _ _ _ => ?_) | split | dsimp only | fail_if_no_progress (refine keeps_mk ?_ rfl rfl))

theorem keeps_retryRets {a0} (h0 : Keeps i a0) : Keeps i (retryRets a0) := by
  unfold retryRets
  with_reducible repeat' (first
    | assumption | apply keeps_retryRet | refine keeps_ite ?_ ?_ | refine keeps_foldl ?_ (fun _ _ _ => ?_) | split | dsimp only
    | fail_if_no_progress (refine keeps_mk ?_ rfl rfl))

theorem keeps_recallNow {a0 a1 a2 a3} (h0 : Keeps i a0) : Keeps i (recallNow a0 a1 a2 a3) := by
  unfold recallNow
  with_reducible repeat' (first
    | assumption | apply keeps_mkSnoop | apply keeps_draw | apply keeps_returnData | apply keeps_dirSet | refine keeps_ite ?_ ?_
    | refine keeps_foldl ?_ (fun _ _ _ => ?_) | refine of_fst (by assumption) ?_ | refine of_snd (by assumption) ?_ | split | dsimp only)

theorem keeps_roomWait {a0 a1 a2} (h0 : Keeps i a0) : KeepsOpt i (roomWait a0 a1 a2) := by
  unfold roomWait
  with_reducible repeat' (first
    | assumption | exact KeepsOpt.none | apply keeps_seraiAlloc | apply keeps_askLeave | refine opt_ite ?_ ?_ | refine KeepsOpt.some ?_
    | refine opt_mapState ?_ (fun _ _ => ?_) | refine keeps_ite ?_ ?_ | refine keeps_foldl ?_ (fun _ _ _ => ?_) | refine of_way (by assumption) ?_
    | split | dsimp only | fail_if_no_progress (refine keeps_mk ?_ rfl rfl))

theorem keeps_placeNow {a0 a1 a2 a3 a4} (h0 : Keeps i a0) : Keeps i (placeNow a0 a1 a2 a3 a4) := by
  unfold placeNow
  with_reducible repeat' (first
    | assumption | apply keeps_seraiAlloc | apply keeps_lowerWrite | refine keeps_ite ?_ ?_ | refine keeps_foldl ?_ (fun _ _ _ => ?_)
    | refine of_way (by assumption) ?_ | split | dsimp only | fail_if_no_progress (refine keeps_mk ?_ rfl rfl))

theorem keeps_failNow {α : Type} {a0 a1 a2 a3} (h0 : Keeps i a0) : KeepsNow i (failNow (α := α) a0 a1 a2 a3) := by
  unfold failNow
  refine KeepsNow.bad ?_
  with_reducible repeat' (first
    | assumption | apply keeps_bump | apply keeps_countTierAnswer | apply keeps_takeFailed | refine keeps_ite ?_ ?_ | split)

theorem keeps_missNow {a0 a1} (h0 : Keeps i a0) : Keeps i (missNow a0 a1).1 := by
  unfold missNow
  extract_lets z0
  refine keeps_cut (i := i) z0 ?_ (fun hz0 => ?_)
  on_goal 1 => unfold z0
  all_goals
    with_reducible repeat' (first
      | assumption | apply keeps_bump | apply keeps_hbmServe | refine keeps_ite ?_ ?_ | refine keeps_foldl ?_ (fun _ _ _ => ?_) | split | dsimp only
      | fail_if_no_progress (refine keeps_mk ?_ rfl rfl))

theorem keeps_lineReadNow {a0 a1 a2} (h0 : Keeps i a0) : KeepsNow i (lineReadNow a0 a1 a2) := by
  unfold lineReadNow
  extract_lets z0
  refine keeps_cut (i := i) z0 ?_ (fun hz0 => ?_)
  on_goal 1 => unfold z0
  all_goals
    with_reducible repeat' (first
      | assumption | apply keeps_failNow | apply keeps_roomWait | apply keeps_recallNow | apply keeps_countTierAnswer | apply keeps_afterHit
      | apply keeps_imageLine | apply keeps_logUnmapped | apply keeps_askFillNow | apply keeps_missNow | apply keeps_placeNow | refine now_ite ?_ ?_
      | refine KeepsNow.done ?_ | refine KeepsNow.bad ?_ | refine KeepsNow.wait ?_ | refine keeps_ite ?_ ?_ | refine keeps_foldl ?_ (fun _ _ _ => ?_)
      | refine of_done (by assumption) ?_ | refine of_bad (by assumption) ?_ | refine of_wait (by assumption) ?_ | refine of_some (by assumption) ?_
      | refine keeps_getD ?_ ?_ | refine of_fst (by assumption) ?_ | split | dsimp only | fail_if_no_progress (refine keeps_mk ?_ rfl rfl))

theorem keeps_lineWriteNow {a0 a1 a2 a3 a4} (h0 : Keeps i a0) : KeepsNow i (lineWriteNow a0 a1 a2 a3 a4) := by
  unfold lineWriteNow
  extract_lets z0 z1 z2
  refine keeps_cut (i := i) z1 ?_ (fun hz1 => ?_)
  on_goal 1 => unfold z1
  all_goals
    with_reducible repeat' (first
      | assumption | apply keeps_failNow | apply keeps_roomWait | apply keeps_recallNow | apply keeps_applyWrite | apply keeps_bump
      | apply keeps_countTierAnswer | apply keeps_logUnmapped | apply keeps_askFillNow | apply keeps_missNow | apply keeps_placeNow
      | refine now_ite ?_ ?_ | refine KeepsNow.done ?_ | refine KeepsNow.bad ?_ | refine KeepsNow.wait ?_ | refine keeps_ite ?_ ?_
      | refine keeps_foldl ?_ (fun _ _ _ => ?_) | refine of_done (by assumption) ?_ | refine of_bad (by assumption) ?_
      | refine of_wait (by assumption) ?_ | refine of_some (by assumption) ?_ | refine keeps_getD ?_ ?_ | refine of_wrDone (by assumption) ?_
      | refine of_wrWait (by assumption) ?_ | refine of_fst (by assumption) ?_ | split | unfold z0 | unfold z2 | dsimp only
      | fail_if_no_progress (refine keeps_mk ?_ rfl rfl))

theorem keeps_linesReadNow {a0 a1 a2} (h0 : Keeps i a0) : KeepsNow i (linesReadNow a0 a1 a2) := by
  induction a2 generalizing a0 with
  | nil => exact KeepsNow.done h0
  | cons l ls ih =>
    unfold linesReadNow
    split
    · next e =>
      have h := ih (of_done e (keeps_lineReadNow h0))
      split <;> next e => rw [e] at h; cases h; constructor; assumption
    · next e => exact KeepsNow.bad (of_bad e (keeps_lineReadNow h0))
    · next e => exact KeepsNow.wait (of_wait e (keeps_lineReadNow h0))

theorem keeps_readNow {a0 a1 a2 a3} (h0 : Keeps i a0) : KeepsNow i (readNow a0 a1 a2 a3) := by
  unfold readNow
  with_reducible repeat' (first
    | assumption | apply keeps_linesReadNow | refine KeepsNow.done ?_ | refine KeepsNow.bad ?_ | refine KeepsNow.wait ?_
    | refine of_done (by assumption) ?_ | refine of_bad (by assumption) ?_ | refine of_wait (by assumption) ?_ | split | dsimp only)

theorem keeps_linesWriteNow {a0 a1 a2 a3 a4} (h0 : Keeps i a0) : KeepsNow i (linesWriteNow a0 a1 a2 a3 a4) := by
  induction a4 generalizing a0 with
  | nil => exact KeepsNow.done h0
  | cons l ls ih =>
    unfold linesWriteNow
    dsimp only
    split
    · next e => exact ih (of_done e (keeps_lineWriteNow h0))
    · next e =>
      have h := ih (of_bad e (keeps_lineWriteNow h0))
      split
      · next e => rw [e] at h; cases h; exact KeepsNow.bad (by assumption)
      · exact h
    · next e => exact KeepsNow.wait (of_wait e (keeps_lineWriteNow h0))

theorem keeps_writeNow {a0 a1 a2 a3} (h0 : Keeps i a0) : KeepsNow i (writeNow a0 a1 a2 a3) := by
  unfold writeNow
  with_reducible repeat' (first
    | assumption | apply keeps_linesWriteNow | refine KeepsNow.done ?_ | refine KeepsNow.bad ?_ | refine KeepsNow.wait ?_)

theorem keeps_waitFor {a0 a1} (h0 : Keeps i a0) (h1 : Keeps i a1) : Keeps i (waitFor a0 a1) := by
  unfold waitFor
  extract_lets z0
  with_reducible repeat' (first
    | assumption | unfold z0 | dsimp only | fail_if_no_progress (refine keeps_mk ?_ rfl rfl))

/-! ### Sys2Proof.Machine.Delivery -/

theorem keeps_putPort {a0 a1 a2} (h0 : Keeps i a0) : Keeps i (putPort a0 a1 a2) := by
  unfold putPort
  extract_lets z0
  with_reducible repeat' (first
    | assumption | unfold z0 | dsimp only | fail_if_no_progress (refine keeps_mk ?_ rfl rfl))

theorem keeps_putLink {a0 a1 a2} (h0 : Keeps i a0) : Keeps i (putLink a0 a1 a2) := by
  unfold putLink
  extract_lets z0
  with_reducible repeat' (first
    | assumption | apply keeps_putPort | refine keeps_ite ?_ ?_ | split | unfold z0 | dsimp only)

theorem keeps_tcPut {a0 a1 a2} (h0 : Keeps i a0) : Keeps i (tcPut a0 a1 a2) := by
  unfold tcPut
  extract_lets z0
  with_reducible repeat' (first
    | assumption | unfold z0 | dsimp only | fail_if_no_progress (refine keeps_mk ?_ rfl rfl))

theorem keeps_tcStore {a0 a1} (h0 : Keeps i a0) : Keeps i (tcStore a0 a1) := by
  unfold tcStore
  extract_lets z0 z1 z2 z3 z4
  refine keeps_cut (i := i) z3 ?_ (fun hz3 => ?_)
  on_goal 1 => unfold z3
  all_goals
    with_reducible repeat' (first
      | assumption | apply keeps_tcPut | refine keeps_ite ?_ ?_ | refine keeps_foldl ?_ (fun _ _ _ => ?_) | split | unfold z0 | unfold z1 | unfold z2
      | unfold z4 | dsimp only | fail_if_no_progress (refine keeps_mk ?_ rfl rfl))

theorem keeps_tcDrop {a0 a1} (h0 : Keeps i a0) : Keeps i (tcDrop a0 a1) := by
  unfold tcDrop
  extract_lets z0
  with_reducible repeat' (first
    | assumption | split | unfold z0 | dsimp only | fail_if_no_progress (refine keeps_mk ?_ rfl rfl))

theorem keeps_tcAdd {a0 a1 a2 a3 a4 a5 a6 a7 a8 a9} (h0 : Keeps i a0) : Keeps i (tcAdd a0 a1 a2 a3 a4 a5 a6 a7 a8 a9) := by
  unfold tcAdd
  extract_lets z0
  with_reducible repeat' (first
    | assumption | apply keeps_tcStore | refine keeps_ite ?_ ?_ | split | unfold z0 | dsimp only)

theorem keeps_countFault {a0 a1 a2} (h0 : Keeps i a0) : Keeps i (countFault a0 a1 a2) := by
  unfold countFault
  with_reducible repeat' (first
    | assumption | apply keeps_setStatus | apply keeps_bump | split | dsimp only)

theorem keeps_askTranslation {a0 a1 a2 a3} (h0 : Keeps i a0) : Keeps i (askTranslation a0 a1 a2 a3) := by
  unfold askTranslation
  extract_lets z0 z1 z2
  refine keeps_cut (i := i) z2 ?_ (fun hz2 => ?_)
  on_goal 1 => unfold z2
  all_goals
    with_reducible repeat' (first
      | assumption | apply keeps_sendEhp | apply keeps_emit | refine keeps_ite ?_ ?_ | split | unfold z0 | unfold z1 | dsimp only
      | fail_if_no_progress (refine keeps_mk ?_ rfl rfl))

theorem keeps_translate {a0 a1 a2 a3 a4} (h0 : Keeps i a0) : Keeps i (translate a0 a1 a2 a3 a4).1 := by
  unfold translate
  extract_lets z0 z1 z2 z3
  refine keeps_cut (i := i) z3 ?_ (fun hz3 => ?_)
  on_goal 1 => unfold z3
  all_goals
    with_reducible repeat' (first
      | assumption | apply keeps_tcPut | apply keeps_bump | apply keeps_askTranslation | refine keeps_ite ?_ ?_ | split | unfold z0 | unfold z1
      | unfold z2 | dsimp only | fail_if_no_progress (refine keeps_mk ?_ rfl rfl))

theorem keeps_putQueue {a0 a1 a2} (h0 : Keeps i a0) : Keeps i (putQueue a0 a1 a2) := by
  unfold putQueue
  extract_lets z0
  with_reducible repeat' (first
    | assumption | unfold z0 | dsimp only | fail_if_no_progress (refine keeps_mk ?_ rfl rfl))

theorem keeps_putHost {a0 a1 a2 a3} (h0 : Keeps i a0) : Keeps i (putHost a0 a1 a2 a3).1 := by
  unfold putHost
  with_reducible repeat' (first
    | assumption | apply keeps_writeNow | apply keeps_waitFor | apply keeps_emit | apply keeps_countFault | refine KeepsNow.done ?_
    | refine KeepsNow.bad ?_ | refine KeepsNow.wait ?_ | refine of_done (by assumption) ?_ | refine of_bad (by assumption) ?_
    | refine of_wait (by assumption) ?_ | split | dsimp only)

theorem keeps_writeEntry {a0 a1 a2 a3} (h0 : Keeps i a0) : Keeps i (writeEntry a0 a1 a2 a3).1 := by
  unfold writeEntry
  extract_lets z0 z1 z2 z3 z4 z5 z6 z7
  with_reducible repeat' (first
    | assumption | apply keeps_putQueue | apply keeps_translate | apply keeps_putHost | apply keeps_waitFor | apply keeps_raiseVector
    | apply keeps_writeNow | apply keeps_logUnmapped | apply keeps_sendEhp | unfold z2 | refine keeps_ite ?_ ?_ | refine now_ite ?_ ?_
    | refine KeepsNow.done ?_ | refine KeepsNow.bad ?_ | refine KeepsNow.wait ?_ | refine of_done (by assumption) ?_ | refine of_bad (by assumption) ?_
    | refine of_wait (by assumption) ?_ | refine of_fst (by assumption) ?_ | split | unfold z0 | unfold z1 | unfold z3 | unfold z4 | unfold z5
    | unfold z6 | unfold z7 | dsimp only)

theorem keeps_toBacklog {a0 a1 a2} (h0 : Keeps i a0) : Keeps i (toBacklog a0 a1 a2) := by
  unfold toBacklog
  extract_lets z0
  with_reducible repeat' (first
    | assumption | apply keeps_putFn | apply keeps_setStatus | apply keeps_bump | refine keeps_ite ?_ ?_ | split | unfold z0 | dsimp only)

theorem keeps_giveEntry {a0 a1} (h0 : Keeps i a0) : Keeps i (giveEntry a0 a1) := by
  unfold giveEntry
  with_reducible repeat' (first
    | assumption | apply keeps_toBacklog | apply keeps_writeEntry | refine keeps_ite ?_ ?_ | refine of_fst (by assumption) ?_ | split | dsimp only)

theorem keeps_deliverOne {l e} (h0 : Keeps i s) : Keeps i (deliverOne (s, l) e).1 := by
  unfold deliverOne
  with_reducible repeat' (first
    | assumption | refine of_fst (by assumption) (keeps_writeEntry ?_) | split | dsimp only)

theorem keeps_deliverBacklog {a0 a1} (h0 : Keeps i a0) : Keeps i (deliverBacklog a0 a1) := by
  unfold deliverBacklog
  split
  · next e => exact keeps_modFn (of_fst e (keeps_foldl_fst h0 (fun _ _ _ h => keeps_deliverOne h)))

/-! ### Sys2Proof.Machine.UnitBase -/

theorem keeps_freeLine {a0 a1 a2} (h0 : Keeps i a0) : Keeps i (freeLine a0 a1 a2) := by
  unfold freeLine
  with_reducible repeat' (first
    | assumption | apply keeps_draw | apply keeps_seraiSetLine | apply keeps_hbmBytes | apply keeps_hbmLine | apply keeps_hbmPoison
    | apply keeps_hbmSectors | apply keeps_hbmZero | apply keeps_hbmUndef | apply keeps_hbmFilter | apply keeps_hbmPoisonSet | apply keeps_hbmEmpty
    | refine keeps_ite ?_ ?_ | refine keeps_foldl ?_ (fun _ _ _ => ?_) | refine of_snd (by assumption) ?_ | split | dsimp only
    | fail_if_no_progress (refine keeps_mk ?_ rfl rfl))

theorem keeps_freeRange {a0 a1 a2} (h0 : Keeps i a0) : Keeps i (freeRange a0 a1 a2) := by
  unfold freeRange
  with_reducible repeat' (first
    | assumption | apply keeps_freeLine | refine keeps_ite ?_ ?_ | refine keeps_foldl ?_ (fun _ _ _ => ?_) | split | dsimp only
    | fail_if_no_progress (refine keeps_mk ?_ rfl rfl))

theorem keeps_putEngine {a0 a1 a2} (h0 : Keeps i a0) : Keeps i (putEngine a0 a1 a2) := by
  unfold putEngine
  extract_lets z0
  with_reducible repeat' (first
    | assumption | unfold z0 | dsimp only | fail_if_no_progress (refine keeps_mk ?_ rfl rfl))

theorem keeps_modEngine {a0 a1 a2} (h0 : Keeps i a0) : Keeps i (modEngine a0 a1 a2) := by
  unfold modEngine
  with_reducible repeat' (first
    | assumption | apply keeps_putEngine)

theorem keeps_undefRows {a0 a1 a2} (h0 : Keeps i a0) : Keeps i (undefRows a0 a1 a2) := by
  unfold undefRows
  with_reducible repeat' (first
    | assumption | intro _ | apply keeps_draw | apply keeps_modEngine | refine keeps_foldl ?_ (fun _ _ _ => ?_) | refine of_snd (by assumption) ?_
    | split | dsimp only)

theorem keeps_endRun {a0 a1} (h0 : Keeps i a0) : Keeps i (endRun a0 a1) := by
  unfold endRun
  with_reducible repeat' (first
    | assumption | apply keeps_bump | apply keeps_modContext | apply keeps_putPart | apply keeps_modEngine | refine keeps_ite ?_ ?_
    | refine keeps_foldl ?_ (fun _ _ _ => ?_) | split | dsimp only | fail_if_no_progress (refine keeps_mk ?_ rfl rfl))

theorem keeps_engineUngate {a0 a1 a2} (h0 : Keeps i a0) : Keeps i (engineUngate a0 a1 a2) := by
  unfold engineUngate
  with_reducible repeat' (first
    | assumption | apply keeps_ungate | refine keeps_ite ?_ ?_ | refine keeps_foldl ?_ (fun _ _ _ => ?_) | split | dsimp only
    | fail_if_no_progress (refine keeps_mk ?_ rfl rfl))

theorem keeps_engineDrop {a0 a1 a2 a3} (h0 : Keeps i a0) : Keeps i (engineDrop a0 a1 a2 a3) := by
  unfold engineDrop
  with_reducible repeat' (first
    | assumption | apply keeps_endRun | apply keeps_engineUngate | apply keeps_putEngine | apply keeps_modEngine | apply keeps_undefRows
    | refine keeps_ite ?_ ?_ | refine keeps_foldl ?_ (fun _ _ _ => ?_) | split | dsimp only | fail_if_no_progress (refine keeps_mk ?_ rfl rfl))

theorem keeps_putCluster {a0 a1 a2} (h0 : Keeps i a0) : Keeps i (putCluster a0 a1 a2) := by
  unfold putCluster
  extract_lets z0
  with_reducible repeat' (first
    | assumption | unfold z0 | dsimp only | fail_if_no_progress (refine keeps_mk ?_ rfl rfl))

theorem keeps_modCluster {a0 a1 a2} (h0 : Keeps i a0) : Keeps i (modCluster a0 a1 a2) := by
  unfold modCluster
  with_reducible repeat' (first
    | assumption | apply keeps_putCluster)

theorem keeps_modCore {a0 a1 a2} (h0 : Keeps i a0) : Keeps i (modCore a0 a1 a2) := by
  unfold modCore
  with_reducible repeat' (first
    | assumption | apply keeps_putCore)

theorem keeps_wakeCore {a0 a1} (h0 : Keeps i a0) : Keeps i (wakeCore a0 a1) := by
  unfold wakeCore
  extract_lets z0
  with_reducible repeat' (first
    | assumption | apply keeps_putCore | refine keeps_ite ?_ ?_ | split | unfold z0 | dsimp only)

theorem keeps_pendCore {a0 a1 a2} (h0 : Keeps i a0) : Keeps i (pendCore a0 a1 a2) := by
  unfold pendCore
  with_reducible repeat' (first
    | assumption | intro _ | apply keeps_wakeCore | apply keeps_modCore)

theorem keeps_dropReads {a0 a1} (h0 : Keeps i a0) : Keeps i (dropReads a0 a1) := by
  unfold dropReads
  extract_lets z0 z1 z2 z3
  with_reducible repeat' (first
    | assumption | unfold z0 | refine keeps_ite ?_ ?_ | split | unfold z1 | unfold z2 | unfold z3 | dsimp only
    | fail_if_no_progress (refine keeps_mk ?_ rfl rfl))

theorem keeps_cancelCore {a0 a1 a2 a3} (h0 : Keeps i a0) : Keeps i (cancelCore a0 a1 a2 a3) := by
  unfold cancelCore
  extract_lets z0 z1 z2 z3
  refine keeps_cut (i := i) z0 ?_ (fun hz0 => keeps_cut (i := i) z2 ?_ (fun hz2 => keeps_cut (i := i) z3 ?_ (fun hz3 => ?_)))
  on_goal 1 => unfold z0
  on_goal 2 => unfold z2
  on_goal 3 => unfold z3
  all_goals
    with_reducible repeat' (first
      | assumption | intro _ | apply keeps_dropReads | apply keeps_modCluster | apply keeps_modCore | apply keeps_pendCore | refine keeps_ite ?_ ?_
      | split | unfold z1 | dsimp only)

theorem keeps_clusterDrop {a0 a1 a2 a3} (h0 : Keeps i a0) : Keeps i (clusterDrop a0 a1 a2 a3) := by
  unfold clusterDrop
  extract_lets z0
  with_reducible repeat' (first
    | assumption | apply keeps_putCluster | apply keeps_cancelCore | apply keeps_bump | apply keeps_freeLine | refine keeps_ite ?_ ?_
    | refine keeps_foldl ?_ (fun _ _ _ => ?_) | split | unfold z0 | dsimp only | fail_if_no_progress (refine keeps_mk ?_ rfl rfl))

theorem keeps_clusterBegin {a0 a1 a2 a3 a4 a5} (h0 : Keeps i a0) : Keeps i (clusterBegin a0 a1 a2 a3 a4 a5) := by
  unfold clusterBegin
  extract_lets z0
  refine keeps_cut (i := i) z0 ?_ (fun hz0 => ?_)
  on_goal 1 => unfold z0
  all_goals
    with_reducible repeat' (first
      | assumption | intro _ | apply keeps_modCluster | apply keeps_modCore | apply keeps_pendCore | refine keeps_foldl ?_ (fun _ _ _ => ?_)
      | dsimp only)

/-! ### Sys2Proof.Machine.Steps -/

theorem keeps_putSlot {a0 a1 a2} (h0 : Keeps i a0) : Keeps i (putSlot a0 a1 a2) := by
  unfold putSlot
  extract_lets z0
  with_reducible repeat' (first
    | assumption | unfold z0 | dsimp only | fail_if_no_progress (refine keeps_mk ?_ rfl rfl))

theorem keeps_tallyAdd {a0 a1 a2} (h0 : Keeps i a0) : Keeps i (tallyAdd a0 a1 a2) := by
  unfold tallyAdd
  with_reducible repeat' (first
    | assumption | apply keeps_putSlot | split | dsimp only)

theorem keeps_sealArm {a0 a1} (h0 : Keeps i a0) : Keeps i (sealArm a0 a1) := by
  unfold sealArm
  with_reducible repeat' (first
    | assumption | apply keeps_putSlot | refine keeps_ite ?_ ?_ | split | dsimp only)

theorem keeps_sealEnd {a0 a1 a2 a3 a4} (h0 : Keeps i a0) : Keeps i (sealEnd a0 a1 a2 a3 a4) := by
  unfold sealEnd
  with_reducible repeat' (first
    | assumption | apply keeps_putSlot | refine keeps_ite ?_ ?_ | split | dsimp only)

theorem keeps_modStep {a0 a1 a2} (h0 : Keeps i a0) : Keeps i (modStep a0 a1 a2) := by
  unfold modStep
  extract_lets z0
  with_reducible repeat' (first
    | assumption | unfold z0 | dsimp only | fail_if_no_progress (refine keeps_mk ?_ rfl rfl))

theorem keeps_delStep {a0 a1} (h0 : Keeps i a0) : Keeps i (delStep a0 a1) := by
  unfold delStep
  extract_lets z0
  with_reducible repeat' (first
    | assumption | unfold z0 | dsimp only | fail_if_no_progress (refine keeps_mk ?_ rfl rfl))

theorem keeps_beginStep {a0 a1 a2} (h0 : Keeps i a0) : Keeps i (beginStep a0 a1 a2) := by
  unfold beginStep
  with_reducible repeat' (first
    | assumption | intro _ | apply keeps_modStep | refine keeps_ite ?_ ?_ | split)

theorem keeps_endStep {a0 a1 a2} (h0 : Keeps i a0) : Keeps i (endStep a0 a1 a2) := by
  unfold endStep
  extract_lets z0 z1 z2 z3 z4 z5 z6
  refine keeps_cut (i := i) z1 ?_ (fun hz1 => keeps_cut (i := i) z2 ?_ (fun hz2 => keeps_cut (i := i) z4 ?_ (fun hz4 => keeps_cut (i := i) z6 ?_ (fun hz6 => ?_))))
  on_goal 1 => unfold z1
  on_goal 2 => unfold z2
  on_goal 3 => unfold z4
  on_goal 4 => unfold z6
  all_goals
    with_reducible repeat' (first
      | assumption | intro _ | apply keeps_delStep | apply keeps_sealEnd | apply keeps_modContext | apply keeps_giveEntry | refine keeps_ite ?_ ?_
      | split | unfold z0 | unfold z3 | unfold z5 | dsimp only | fail_if_no_progress (refine keeps_mk ?_ rfl rfl))

theorem keeps_commitStep {a0 a1 a2} (h0 : Keeps i a0) : Keeps i (commitStep a0 a1 a2) := by
  unfold commitStep
  extract_lets z0
  refine keeps_cut (i := i) z0 ?_ (fun hz0 => ?_)
  on_goal 1 => unfold z0
  all_goals
    with_reducible repeat' (first
      | assumption | apply keeps_tallyAdd | apply keeps_endStep | refine keeps_ite ?_ ?_ | split | dsimp only)

theorem keeps_freeOutputs {a0 a1} (h0 : Keeps i a0) : Keeps i (freeOutputs a0 a1) := by
  unfold freeOutputs
  with_reducible repeat' (first
    | assumption | apply keeps_freeRange | refine keeps_ite ?_ ?_ | refine keeps_foldl ?_ (fun _ _ _ => ?_) | split | dsimp only
    | fail_if_no_progress (refine keeps_mk ?_ rfl rfl))

theorem keeps_tierDrop {a0 a1} (h0 : Keeps i a0) : Keeps i (tierDrop a0 a1) := by
  unfold tierDrop
  extract_lets z0 z1 z2
  refine keeps_cut (i := i) z0 ?_ (fun hz0 => ?_)
  on_goal 1 => unfold z0
  all_goals
    with_reducible repeat' (first
      | assumption | apply keeps_ungate | refine keeps_ite ?_ ?_ | refine keeps_foldl ?_ (fun _ _ _ => ?_) | split | unfold z1 | unfold z2
      | dsimp only | fail_if_no_progress (refine keeps_mk ?_ rfl rfl))

theorem keeps_dropInUnit {a0 a1 a2} (h0 : Keeps i a0) : Keeps i (dropInUnit a0 a1 a2) := by
  unfold dropInUnit
  with_reducible repeat' (first
    | assumption | apply keeps_freeOutputs | apply keeps_engineDrop | apply keeps_clusterDrop | apply keeps_tierDrop | refine keeps_ite ?_ ?_
    | refine keeps_foldl ?_ (fun _ _ _ => ?_) | split | dsimp only | fail_if_no_progress (refine keeps_mk ?_ rfl rfl))

theorem keeps_breakStep {a0 a1 a2} (h0 : Keeps i a0) : Keeps i (breakStep a0 a1 a2) := by
  unfold breakStep
  with_reducible repeat' (first
    | assumption | apply keeps_endStep | apply keeps_dropInUnit)

theorem keeps_abortSteps {a0 a1 a2} (h0 : Keeps i a0) : Keeps i (abortSteps a0 a1 a2) := by
  unfold abortSteps
  with_reducible repeat' (first
    | assumption | intro _ | apply keeps_modStep | apply keeps_breakStep | refine keeps_ite ?_ ?_ | refine keeps_foldl ?_ (fun _ _ _ => ?_) | split
    | dsimp only)

theorem keeps_breakSteps {a0 a1 a2} (h0 : Keeps i a0) : Keeps i (breakSteps a0 a1 a2) := by
  unfold breakSteps
  with_reducible repeat' (first
    | assumption | apply keeps_breakStep | refine keeps_ite ?_ ?_ | refine keeps_foldl ?_ (fun _ _ _ => ?_) | split | dsimp only)

theorem keeps_stepErr {a0 a1 a2} (h0 : Keeps i a0) : Keeps i (stepErr a0 a1 a2) := by
  unfold stepErr
  with_reducible repeat' (first
    | assumption | intro _ | apply keeps_modStep | refine keeps_ite ?_ ?_ | split)

theorem keeps_clusterNext {a0 a1} (h0 : Keeps i a0) : Keeps i (clusterNext a0 a1) := by
  unfold clusterNext
  extract_lets z0
  with_reducible repeat' (first
    | assumption | apply keeps_clusterBegin | apply keeps_beginStep | apply keeps_putCluster | refine keeps_ite ?_ ?_ | split | unfold z0 | dsimp only)

end Sys2Proof.Machine
end

