-- ==== Sys2Proof/Laws/KeepTier.lean ====
section
/-! SUPPORT. One lemma per function that carries a State, for the tier operations, the HBC objects and the work queues:
what `Keep.lean` calls kept (the queue of commands, the canonical form of the stores, the well-formed
cores) stays kept through it. Later proofs cite these lemmas and unfold no function again. -/

namespace Sys2Proof.Machine
variable {i : Held} {s t : State}

/-! ### Sys2Proof.Machine.TierOps -/

theorem keeps_homePut {a0 a1 a2} (h0 : Keeps i a0) : Keeps i (homePut a0 a1 a2) := by
  unfold homePut
  extract_lets z0 z1 z2
  refine keeps_cut (i := i) z0 ?_ (fun hz0 => keeps_cut (i := i) z1 ?_ (fun hz1 => keeps_cut (i := i) z2 ?_ (fun hz2 => ?_)))
  on_goal 1 => unfold z0
  on_goal 2 => unfold z1
  on_goal 3 => unfold z2
  all_goals
    with_reducible repeat' (first
      | assumption | apply keeps_flushBufs | apply keeps_recallNow | apply keeps_hbmServe | apply keeps_hbmBytes | apply keeps_hbmLine
      | apply keeps_hbmPoison | apply keeps_hbmSectors | apply keeps_hbmZero | apply keeps_hbmUndef | apply keeps_hbmFilter | apply keeps_hbmPoisonSet
      | apply keeps_hbmEmpty | apply keeps_seraiSetLine | refine keeps_ite ?_ ?_ | refine keeps_foldl ?_ (fun _ _ _ => ?_) | split | dsimp only
      | fail_if_no_progress (refine keeps_mk ?_ rfl rfl))

theorem keeps_revokeParking {a0 a1} (h0 : Keeps i a0) : Keeps i (revokeParking a0 a1) := by
  unfold revokeParking
  extract_lets z0 z1
  with_reducible repeat' (first
    | assumption | apply keeps_setStatus | refine keeps_ite ?_ ?_ | split | unfold z0 | unfold z1 | dsimp only
    | fail_if_no_progress (refine keeps_mk ?_ rfl rfl))

theorem keeps_recallBale {a0 a1 a2 a3} (h0 : Keeps i a0) : Keeps i (recallBale a0 a1 a2 a3) := by
  unfold recallBale
  with_reducible repeat' (first
    | assumption | apply keeps_recallNow | refine keeps_ite ?_ ?_ | refine keeps_foldl ?_ (fun _ _ _ => ?_) | split | dsimp only)

theorem keeps_recallOwned {a0 a1 a2} (h0 : Keeps i a0) : Keeps i (recallOwned a0 a1 a2) := by
  unfold recallOwned
  with_reducible repeat' (first
    | assumption | apply keeps_recallNow | refine keeps_ite ?_ ?_ | refine keeps_foldl ?_ (fun _ _ _ => ?_) | split | dsimp only
    | fail_if_no_progress (refine keeps_mk ?_ rfl rfl))

theorem keeps_discardBale {a0 a1 a2} (h0 : Keeps i a0) : Keeps i (discardBale a0 a1 a2) := by
  unfold discardBale
  with_reducible repeat' (first
    | assumption | apply keeps_dropBale | apply keeps_recallBale)

theorem keeps_poisonRec {a0 a1 a2 a3} (h0 : Keeps i a0) : Keeps i (poisonRec a0 a1 a2 a3) := by
  unfold poisonRec
  with_reducible repeat' (first
    | assumption | apply keeps_writeRec | split | dsimp only)

theorem keeps_poisonLost {a0 a1 a2} (h0 : Keeps i a0) : Keeps i (poisonLost a0 a1 a2) := by
  unfold poisonLost
  with_reducible repeat' (first
    | assumption | apply keeps_poisonRec | refine keeps_ite ?_ ?_ | refine keeps_foldl ?_ (fun _ _ _ => ?_) | split | dsimp only
    | fail_if_no_progress (refine keeps_mk ?_ rfl rfl))

theorem keeps_loseBale {a0 a1 a2 a3} (h0 : Keeps i a0) : Keeps i (loseBale a0 a1 a2 a3) := by
  unfold loseBale
  with_reducible repeat' (first
    | assumption | apply keeps_poisonLost | apply keeps_tierError | apply keeps_bump | apply keeps_dropBale | refine keeps_ite ?_ ?_
    | refine keeps_foldl ?_ (fun _ _ _ => ?_) | split | dsimp only | fail_if_no_progress (refine keeps_mk ?_ rfl rfl))

theorem keeps_opEnd {a0 a1 a2} (h0 : Keeps i a0) : Keeps i (opEnd a0 a1 a2) := by
  unfold opEnd
  extract_lets z0 z1 z2 z3 z4
  refine keeps_cut (i := i) z0 ?_ (fun hz0 => keeps_cut (i := i) z2 ?_ (fun hz2 => keeps_cut (i := i) z4 ?_ (fun hz4 => ?_)))
  on_goal 1 => unfold z0
  on_goal 2 => unfold z2
  on_goal 3 => unfold z4
  all_goals
    with_reducible repeat' (first
      | assumption | apply keeps_ungate | apply keeps_stepErr | refine keeps_ite ?_ ?_ | refine keeps_foldl ?_ (fun _ _ _ => ?_) | split | unfold z1
      | unfold z3 | dsimp only | fail_if_no_progress (refine keeps_mk ?_ rfl rfl))

theorem keeps_opStarted {a0 a1} (h0 : Keeps i a0) : Keeps i (opStarted a0 a1) := by
  unfold opStarted
  extract_lets z0 z1
  with_reducible repeat' (first
    | assumption | unfold z0 | unfold z1 | dsimp only | fail_if_no_progress (refine keeps_mk ?_ rfl rfl))

theorem keeps_modOp {a0 a1 a2 a3} (h0 : Keeps i a0) : Keeps i (modOp a0 a1 a2 a3) := by
  unfold modOp
  extract_lets z0
  with_reducible repeat' (first
    | assumption | unfold z0 | dsimp only | fail_if_no_progress (refine keeps_mk ?_ rfl rfl))

theorem keeps_parkPump {a0 a1 a2 a3} (h1 : Keeps i a1) : Keeps i (parkPump a0 a1 a2 a3) := by
  induction a0 generalizing a1 with
  | zero => exact h1
  | succ n ih =>
    unfold parkPump
    split
    · exact h1
    split
    · exact h1
    split
    · exact h1
    split
    · exact keeps_modOp h1
    dsimp only
    split
    · exact h1
    split
    · next e => exact of_fst e (keeps_gate h1)
    · next e => exact ih (keeps_modOp (keeps_emit (keeps_putPort (of_fst e (keeps_gate h1)))))

theorem keeps_parkStart {a0 a1 a2 a3 a4} (h0 : Keeps i a0) : Keeps i (parkStart a0 a1 a2 a3 a4) := by
  unfold parkStart
  extract_lets z0
  with_reducible repeat' (first
    | assumption | intro _ | apply keeps_parkPump | apply keeps_modOp | unfold z0 | dsimp only)

theorem keeps_opTierError {a0 a1 a2} (h0 : Keeps i a0) : Keeps i (opTierError a0 a1 a2) := by
  unfold opTierError
  with_reducible repeat' (first
    | assumption | apply keeps_opEnd | apply keeps_tierError)

theorem keeps_writebackFails {a0 a1 a2 a3 a4} (h0 : Keeps i a0) : Keeps i (writebackFails a0 a1 a2 a3 a4) := by
  unfold writebackFails
  with_reducible repeat' (first
    | assumption | apply keeps_opEnd | apply keeps_loseBale | apply keeps_opTierError | refine keeps_ite ?_ ?_
    | refine keeps_foldl ?_ (fun _ _ _ => ?_) | split | dsimp only | fail_if_no_progress (refine keeps_mk ?_ rfl rfl))

theorem keeps_startWriteback {a0 a1 a2 a3} (h0 : Keeps i a0) : Keeps i (startWriteback a0 a1 a2 a3) := by
  unfold startWriteback
  with_reducible repeat' (first
    | assumption | apply keeps_writebackFails | apply keeps_opEnd | apply keeps_loseBale | apply keeps_opStarted | apply keeps_writeRec
    | refine keeps_ite ?_ ?_ | refine keeps_foldl ?_ (fun _ _ _ => ?_) | split | dsimp only | fail_if_no_progress (refine keeps_mk ?_ rfl rfl))

theorem keeps_startFill {a0 a1 a2} (h0 : Keeps i a0) : Keeps i (startFill a0 a1 a2) := by
  unfold startFill
  with_reducible repeat' (first
    | assumption | apply keeps_opEnd | apply keeps_parkStart | apply keeps_opStarted | refine keeps_ite ?_ ?_
    | refine keeps_foldl ?_ (fun _ _ _ => ?_) | split | dsimp only | fail_if_no_progress (refine keeps_mk ?_ rfl rfl))

theorem keeps_countMaint {a0 a1} (h0 : Keeps i a0) : Keeps i (countMaint a0 a1) := by
  unfold countMaint
  extract_lets z0
  with_reducible repeat' (first
    | assumption | refine keeps_ite ?_ ?_ | refine keeps_foldl ?_ (fun _ _ _ => ?_) | split | unfold z0 | dsimp only
    | fail_if_no_progress (refine keeps_mk ?_ rfl rfl))

theorem keeps_forgetFails {a0 a1 a2} (h0 : Keeps i a0) : Keeps i (forgetFails a0 a1 a2) := by
  unfold forgetFails
  extract_lets z0
  with_reducible repeat' (first
    | assumption | refine keeps_ite ?_ ?_ | refine keeps_foldl ?_ (fun _ _ _ => ?_) | split | unfold z0 | dsimp only
    | fail_if_no_progress (refine keeps_mk ?_ rfl rfl))

theorem keeps_startOp {a0 a1 a2} (h0 : Keeps i a0) : Keeps i (startOp a0 a1 a2) := by
  unfold startOp
  extract_lets z0 z1 z2 z3 z4
  refine keeps_cut (i := i) z0 ?_ (fun hz0 => keeps_cut (i := i) z1 ?_ (fun hz1 => keeps_cut (i := i) z2 ?_ (fun hz2 => ?_)))
  on_goal 1 => unfold z0
  on_goal 2 => unfold z1
  on_goal 3 => unfold z2
  all_goals
    with_reducible repeat' (first
      | assumption | apply keeps_countMaint | apply keeps_startFill | apply keeps_recallOwned | apply keeps_startWriteback | apply keeps_opEnd
      | apply keeps_recallBale | apply keeps_dropBale | apply keeps_discardBale | apply keeps_opTierError | apply keeps_opStarted
      | apply keeps_writeRec | apply keeps_modOp | apply keeps_parkStart | apply keeps_forgetFails | refine keeps_ite ?_ ?_
      | refine keeps_foldl ?_ (fun _ _ _ => ?_) | split | unfold z3 | unfold z4 | dsimp only | fail_if_no_progress (refine keeps_mk ?_ rfl rfl))

theorem keeps_opTurn {a0 a1 a2} (h0 : Keeps i a0) : Keeps i (opTurn a0 a1 a2) := by
  unfold opTurn
  with_reducible repeat' (first
    | assumption | apply keeps_gate | apply keeps_startOp | apply keeps_fetchRec | refine keeps_ite ?_ ?_ | refine keeps_foldl ?_ (fun _ _ _ => ?_)
    | refine of_fst (by assumption) ?_ | split | dsimp only | fail_if_no_progress (refine keeps_mk ?_ rfl rfl))

theorem keeps_tierRun {a0 a1 a2} (h2 : Keeps i a2) : Keeps i (tierRun a0 a1 a2) := by
  induction a0 generalizing a1 a2 with
  | zero => exact h2
  | succ n ih =>
    unfold tierRun
    repeat' split
    · exact h2
    · exact ih (keeps_opEnd h2)
    · exact ih (keeps_opTurn h2)

theorem keeps_settle {a0} (h0 : Keeps i a0) : Keeps i (settle a0) := by
  unfold settle
  with_reducible repeat' (first
    | assumption | apply keeps_flushHomes | apply keeps_retryRets | apply keeps_tierRun | refine keeps_ite ?_ ?_
    | refine keeps_foldl ?_ (fun _ _ _ => ?_) | split | dsimp only | fail_if_no_progress (refine keeps_mk ?_ rfl rfl))

theorem keeps_okT {a0} (h0 : Keeps i a0) : KeepsRes i (okT a0) := by
  unfold okT
  with_reducible repeat' (first
    | assumption | exact KeepsRes.fault | exact KeepsRes.refused | apply keeps_settle | refine KeepsRes.next ?_)

theorem keeps_slotBytes {a0 a1 a2 a3} (h0 : Keeps i a0) : Keeps i (slotBytes a0 a1 a2 a3).1 := by
  unfold slotBytes
  extract_lets z0 z1
  refine keeps_cut (i := i) z1 ?_ (fun hz1 => ?_)
  on_goal 1 => unfold z1
  all_goals
    with_reducible repeat' (first
      | assumption | apply keeps_hbmServe | refine keeps_ite ?_ ?_ | refine keeps_foldl ?_ (fun _ _ _ => ?_) | split | unfold z0 | dsimp only
      | fail_if_no_progress (refine keeps_mk ?_ rfl rfl))

theorem keeps_failWaiters {a0 a1 a2 a3 a4} (h0 : Keeps i a0) : Keeps i (failWaiters a0 a1 a2 a3 a4) := by
  unfold failWaiters
  extract_lets z0 z1 z2 z3 z4
  refine keeps_cut (i := i) z3 ?_ (fun hz3 => ?_)
  on_goal 1 => unfold z3
  all_goals
    with_reducible repeat' (first
      | assumption | apply keeps_bump | apply keeps_answerErr | apply keeps_answerCmp | apply keeps_txnDel | refine keeps_ite ?_ ?_
      | refine keeps_foldl ?_ (fun _ _ _ => ?_) | split | unfold z0 | unfold z1 | unfold z2 | unfold z4 | dsimp only
      | fail_if_no_progress (refine keeps_mk ?_ rfl rfl))

theorem keeps_allocLines {a0 a1 a2 a3} (h3 : Keeps i a3) : Keeps i (allocLines a0 a1 a2 a3).1 := by
  induction a2 generalizing a1 a3 with
  | nil => exact h3
  | cons d ds ih =>
    unfold allocLines
    split
    · next e => exact ih (of_way e (keeps_seraiAlloc h3))
    · exact keeps_askLeave h3
    · exact h3

theorem keeps_serveMiss {a0 a1} (h0 : Keeps i a0) : Keeps i (serveMiss a0 a1) := by
  unfold serveMiss
  with_reducible repeat' (first
    | assumption | apply keeps_serveHeld | apply keeps_proceed | apply keeps_txnPut | refine keeps_ite ?_ ?_ | split | dsimp only)

theorem keeps_fillFails {a0 a1 a2} (h0 : Keeps i a0) : Keeps i (fillFails a0 a1 a2) := by
  unfold fillFails
  extract_lets z0 z1
  refine keeps_cut (i := i) z1 ?_ (fun hz1 => ?_)
  on_goal 1 => unfold z1
  all_goals
    with_reducible repeat' (first
      | assumption | apply keeps_opEnd | apply keeps_failWaiters | refine keeps_ite ?_ ?_ | refine keeps_foldl ?_ (fun _ _ _ => ?_) | split
      | unfold z0 | dsimp only | fail_if_no_progress (refine keeps_mk ?_ rfl rfl))

theorem keeps_countUnits {a0 a1 a2} (h0 : Keeps i a0) : Keeps i (countUnits a0 a1 a2) := by
  unfold countUnits
  with_reducible repeat' (first
    | assumption | apply keeps_modContext | apply keeps_bump | refine keeps_ite ?_ ?_ | refine keeps_foldl ?_ (fun _ _ _ => ?_) | split | dsimp only
    | fail_if_no_progress (refine keeps_mk ?_ rfl rfl))

theorem keeps_fillTierError {a0 a1 a2 a3} (h0 : Keeps i a0) : Keeps i (fillTierError a0 a1 a2 a3) := by
  unfold fillTierError
  with_reducible repeat' (first
    | assumption | apply keeps_fillFails | apply keeps_tierError | apply keeps_writeRec)

theorem keeps_fillData {a0 a1 a2 a3} (h0 : Keeps i a0) : KeepsOpt i (fillData a0 a1 a2 a3) := by
  unfold fillData
  with_reducible repeat' (first
    | assumption | exact KeepsOpt.none | apply keeps_allocLines | apply keeps_bump | apply keeps_opEnd | apply keeps_forgetFails
    | apply keeps_serveMiss | refine opt_ite ?_ ?_ | refine KeepsOpt.some ?_ | refine opt_mapState ?_ (fun _ _ => ?_) | refine keeps_ite ?_ ?_
    | refine keeps_foldl ?_ (fun _ _ _ => ?_) | refine of_fst (by assumption) ?_ | split | dsimp only
    | fail_if_no_progress (refine keeps_mk ?_ rfl rfl))

theorem keeps_fillExpand {a0 a1 a2 a3 a4 a5 a6} (h0 : Keeps i a0) (h1 : Keeps i a1) : Keeps i (fillExpand a0 a1 a2 a3 a4 a5 a6) := by
  unfold fillExpand
  extract_lets z0
  refine keeps_cut (i := i) z0 ?_ (fun hz0 => ?_)
  on_goal 1 => unfold z0
  all_goals
    with_reducible repeat' (first
      | assumption | apply keeps_countUnits | apply keeps_fillTierError | apply keeps_fillData | apply keeps_waitFor | apply keeps_allocLines
      | refine keeps_ite ?_ ?_ | refine keeps_foldl ?_ (fun _ _ _ => ?_) | refine of_some (by assumption) ?_ | refine keeps_getD ?_ ?_
      | refine of_fst (by assumption) ?_ | split | dsimp only | fail_if_no_progress (refine keeps_mk ?_ rfl rfl))

theorem keeps_finishFill {a0 a1 a2 a3 a4} (h0 : Keeps i a0) : Keeps i (finishFill a0 a1 a2 a3 a4) := by
  unfold finishFill
  with_reducible repeat' (first
    | assumption | apply keeps_fillFails | apply keeps_tierError | apply keeps_fillTierError | apply keeps_fillExpand | apply keeps_slotBytes
    | apply keeps_tierUncorr | apply keeps_writeRec | apply keeps_countUnits | apply keeps_bump | refine keeps_ite ?_ ?_
    | refine keeps_foldl ?_ (fun _ _ _ => ?_) | refine of_fst (by assumption) ?_ | split | dsimp only
    | fail_if_no_progress (refine keeps_mk ?_ rfl rfl))

theorem keeps_slotTail {a0 a1} (h0 : Keeps i a0) : Keeps i (slotTail a0 a1).2 := by
  unfold slotTail
  with_reducible repeat' (first
    | assumption | apply keeps_draw | refine of_snd (by assumption) ?_ | split | dsimp only)

theorem keeps_putSlotBytes {a0 a1 a2 a3 a4} (h0 : Keeps i a0) : Keeps i (putSlotBytes a0 a1 a2 a3 a4) := by
  unfold putSlotBytes
  with_reducible repeat' (first
    | assumption | apply keeps_slotTail | apply keeps_homePut | apply keeps_emit | refine keeps_ite ?_ ?_ | refine of_snd (by assumption) ?_ | split
    | dsimp only)

theorem keeps_slotWrites {a0 a1 a2 a3 a4 a5} (h0 : Keeps i a0) : Keeps i (slotWrites a0 a1 a2 a3 a4 a5).1 := by
  unfold slotWrites
  extract_lets z0
  with_reducible repeat' (first
    | assumption | apply keeps_gate | refine keeps_ite ?_ ?_ | refine keeps_foldl ?_ (fun _ _ _ => ?_) | refine of_fst (by assumption) ?_ | split
    | unfold z0 | dsimp only | fail_if_no_progress (refine keeps_mk ?_ rfl rfl))

theorem keeps_recBack {a0 a1 a2 a3} (h0 : Keeps i a0) : Keeps i (recBack a0 a1 a2 a3) := by
  unfold recBack
  with_reducible repeat' (first
    | assumption | apply keeps_writeRec | refine keeps_ite ?_ ?_ | refine keeps_foldl ?_ (fun _ _ _ => ?_) | split | dsimp only
    | fail_if_no_progress (refine keeps_mk ?_ rfl rfl))

theorem keeps_recLost {a0 a1 a2 a3} (h0 : Keeps i a0) : Keeps i (recLost a0 a1 a2 a3) := by
  unfold recLost
  with_reducible repeat' (first
    | assumption | apply keeps_writebackFails | refine keeps_ite ?_ ?_ | refine keeps_foldl ?_ (fun _ _ _ => ?_) | split | dsimp only
    | fail_if_no_progress (refine keeps_mk ?_ rfl rfl))

theorem keeps_finishWriteback {a0 a1 a2 a3 a4 a5 a6} (h0 : Keeps i a0) : Keeps i (finishWriteback a0 a1 a2 a3 a4 a5 a6) := by
  unfold finishWriteback
  extract_lets z0 z1
  with_reducible repeat' (first
    | assumption | apply keeps_writebackFails | apply keeps_recBack | apply keeps_slotWrites | apply keeps_putSlotBytes | apply keeps_writeRec
    | apply keeps_bump | apply keeps_cleanBale | apply keeps_opEnd | apply keeps_dropBale | apply keeps_recLost | refine keeps_ite ?_ ?_
    | refine keeps_foldl ?_ (fun _ _ _ => ?_) | refine of_fst (by assumption) ?_ | split | unfold z0 | unfold z1 | dsimp only
    | fail_if_no_progress (refine keeps_mk ?_ rfl rfl))

theorem keeps_moveDirty {a0 a1 a2 a3 a4 a5 a6 a7} (h0 : Keeps i a0) : Keeps i (moveDirty a0 a1 a2 a3 a4 a5 a6 a7) := by
  unfold moveDirty
  extract_lets z0 z1
  with_reducible repeat' (first
    | assumption | apply keeps_slotWrites | apply keeps_putSlotBytes | apply keeps_opEnd | apply keeps_bump | apply keeps_cleanBale
    | apply keeps_writeRec | refine keeps_ite ?_ ?_ | refine keeps_foldl ?_ (fun _ _ _ => ?_) | refine of_fst (by assumption) ?_ | split | unfold z0
    | unfold z1 | dsimp only | fail_if_no_progress (refine keeps_mk ?_ rfl rfl))

theorem keeps_moveCopy {a0 a1 a2 a3 a4 a5 a6} (h0 : Keeps i a0) : Keeps i (moveCopy a0 a1 a2 a3 a4 a5 a6) := by
  unfold moveCopy
  with_reducible repeat' (first
    | assumption | apply keeps_slotWrites | apply keeps_putSlotBytes | apply keeps_writeRec | apply keeps_opEnd | apply keeps_bump
    | refine keeps_ite ?_ ?_ | refine keeps_foldl ?_ (fun _ _ _ => ?_) | refine of_fst (by assumption) ?_ | split | dsimp only
    | fail_if_no_progress (refine keeps_mk ?_ rfl rfl))

theorem keeps_finishMove {a0 a1 a2 a3 a4 a5 a6 a7} (h0 : Keeps i a0) : Keeps i (finishMove a0 a1 a2 a3 a4 a5 a6 a7) := by
  unfold finishMove
  extract_lets z0
  with_reducible repeat' (first
    | assumption | apply keeps_opTierError | apply keeps_recBack | apply keeps_moveDirty | apply keeps_moveCopy | apply keeps_slotBytes
    | apply keeps_slotWrites | apply keeps_opEnd | apply keeps_tierUncorr | apply keeps_writeRec | apply keeps_bump | apply keeps_recLost
    | refine keeps_ite ?_ ?_ | refine keeps_foldl ?_ (fun _ _ _ => ?_) | refine of_fst (by assumption) ?_ | split | unfold z0 | dsimp only
    | fail_if_no_progress (refine keeps_mk ?_ rfl rfl))

theorem keeps_endContextOps {a0 a1 a2} (h0 : Keeps i a0) : Keeps i (endContextOps a0 a1 a2) := by
  unfold endContextOps
  extract_lets z0
  with_reducible repeat' (first
    | assumption | apply keeps_opEnd | apply keeps_failWaiters | refine keeps_ite ?_ ?_ | refine keeps_foldl ?_ (fun _ _ _ => ?_) | split | unfold z0
    | dsimp only | fail_if_no_progress (refine keeps_mk ?_ rfl rfl))

/-! ### Sys2Proof.Machine.Tier -/

theorem keeps_execBaleFillDone {a0 a1 a2} (h2 : Keeps i a2) : KeepsRes i (execBaleFillDone a0 a1 a2) := by
  unfold execBaleFillDone
  with_reducible repeat' (first
    | assumption | exact KeepsRes.fault | exact KeepsRes.refused | apply keeps_okT | apply keeps_finishFill | refine KeepsRes.next ?_ | split
    | dsimp only)

theorem keeps_execBaleWritebackDone {a0 a1 a2 a3 a4} (h4 : Keeps i a4) : KeepsRes i (execBaleWritebackDone a0 a1 a2 a3 a4) := by
  unfold execBaleWritebackDone
  with_reducible repeat' (first
    | assumption | exact KeepsRes.fault | exact KeepsRes.refused | apply keeps_okT | apply keeps_finishWriteback | apply keeps_recallBale
    | refine keeps_ite ?_ ?_ | refine res_ite ?_ ?_ | refine KeepsRes.next ?_ | split | dsimp only)

theorem keeps_execBaleMoveDone {a0 a1 a2 a3 a4} (h4 : Keeps i a4) : KeepsRes i (execBaleMoveDone a0 a1 a2 a3 a4) := by
  unfold execBaleMoveDone
  with_reducible repeat' (first
    | assumption | exact KeepsRes.fault | exact KeepsRes.refused | apply keeps_okT | apply keeps_finishMove | refine KeepsRes.next ?_ | split
    | dsimp only)

theorem keeps_stopTierStep {a0 a1 a2} (h0 : Keeps i a0) : Keeps i (stopTierStep a0 a1 a2) := by
  unfold stopTierStep
  with_reducible repeat' (first
    | assumption | intro _ | apply keeps_modStep | split | dsimp only)

theorem keeps_tierCommand {a0 a1 a2 a3} (h2 : Keeps i a2) (h3 : ∀ c x d s, Keeps i s → KeepsRes i (a3 c x d s)) :
    KeepsRes i (tierCommand a0 a1 a2 a3) := by
  unfold tierCommand
  with_reducible repeat' (first
    | assumption | apply h3 | exact KeepsRes.fault | exact KeepsRes.refused | intro _ | apply keeps_notDue | apply keeps_ok | apply keeps_stopTierStep
    | apply keeps_logUnmapped | apply keeps_gate | apply keeps_okT | apply keeps_readNow | apply keeps_waitFor | apply keeps_modStep
    | refine res_ite ?_ ?_ | refine KeepsRes.next ?_ | refine keeps_ite ?_ ?_ | refine keeps_foldl ?_ (fun _ _ _ => ?_)
    | refine keeps_foldl_fst ?_ (fun _ _ _ _ => ?_) | refine keeps_foldl_snd ?_ (fun _ _ _ _ => ?_) | refine opt_foldl ?_ (fun _ _ _ => ?_)
    | refine of_next (by assumption) ?_ | refine of_fst (by assumption) ?_ | refine of_done (by assumption) ?_ | refine of_bad (by assumption) ?_
    | refine of_wait (by assumption) ?_ | split | dsimp only | fail_if_no_progress (refine keeps_mk ?_ rfl rfl))

theorem keeps_queueAll {a0 a1 a2 a3 a4} (h4 : Keeps i a4) : Keeps i (queueAll a0 a1 a2 a3 a4) := by
  unfold queueAll
  with_reducible repeat' (first
    | assumption | apply keeps_queueOp | refine keeps_foldl ?_ (fun _ _ _ => ?_) | dsimp only)

theorem keeps_execPrefetch {a0 a1} (h1 : Keeps i a1) : KeepsRes i (execPrefetch a0 a1) := by
  unfold execPrefetch
  with_reducible repeat' (first
    | assumption | intro _ | exact KeepsRes.fault | exact KeepsRes.refused | apply keeps_tierCommand | apply keeps_okT | apply keeps_queueOp
    | refine KeepsRes.next ?_ | refine keeps_foldl ?_ (fun _ _ _ => ?_) | dsimp only)

theorem keeps_execWriteback {a0 a1} (h1 : Keeps i a1) : KeepsRes i (execWriteback a0 a1) := by
  unfold execWriteback
  with_reducible repeat' (first
    | assumption | intro _ | exact KeepsRes.fault | exact KeepsRes.refused | apply keeps_tierCommand | apply keeps_okT | apply keeps_queueAll
    | refine KeepsRes.next ?_)

theorem keeps_execTierEvict {a0 a1} (h1 : Keeps i a1) : KeepsRes i (execTierEvict a0 a1) := by
  unfold execTierEvict
  with_reducible repeat' (first
    | assumption | intro _ | exact KeepsRes.fault | exact KeepsRes.refused | apply keeps_tierCommand | apply keeps_okT | apply keeps_queueAll
    | refine KeepsRes.next ?_)

theorem keeps_execTierDiscard {a0 a1} (h1 : Keeps i a1) : KeepsRes i (execTierDiscard a0 a1) := by
  unfold execTierDiscard
  with_reducible repeat' (first
    | assumption | intro _ | exact KeepsRes.fault | exact KeepsRes.refused | apply keeps_tierCommand | apply keeps_okT | apply keeps_queueAll
    | refine KeepsRes.next ?_)

theorem keeps_execMoveC {a0 a1} (h1 : Keeps i a1) : KeepsRes i (execMoveC a0 a1) := by
  unfold execMoveC
  with_reducible repeat' (first
    | assumption | intro _ | exact KeepsRes.fault | exact KeepsRes.refused | apply keeps_tierCommand | apply keeps_okT | apply keeps_queueAll
    | refine KeepsRes.next ?_)

theorem keeps_execInitC {a0 a1} (h1 : Keeps i a1) : KeepsRes i (execInitC a0 a1) := by
  unfold execInitC
  with_reducible repeat' (first
    | assumption | intro _ | exact KeepsRes.fault | exact KeepsRes.refused | apply keeps_tierCommand | apply keeps_okT | apply keeps_queueAll
    | refine KeepsRes.next ?_)

theorem keeps_execAdvise {a0 a1} (h1 : Keeps i a1) : KeepsRes i (execAdvise a0 a1) := by
  unfold execAdvise
  with_reducible repeat' (first
    | assumption | intro _ | exact KeepsRes.fault | exact KeepsRes.refused | apply keeps_tierCommand | apply keeps_okT | refine keeps_ite ?_ ?_
    | refine res_ite ?_ ?_ | refine KeepsRes.next ?_ | split | dsimp only | fail_if_no_progress (refine keeps_mk ?_ rfl rfl))

theorem keeps_execDonate {a0 a1} (h1 : Keeps i a1) : KeepsRes i (execDonate a0 a1) := by
  unfold execDonate
  with_reducible repeat' (first
    | assumption | exact KeepsRes.fault | exact KeepsRes.refused | intro _ | apply keeps_tierCommand | apply keeps_ok | apply keeps_modStep
    | apply keeps_okT | apply keeps_modContext | refine res_ite ?_ ?_ | refine KeepsRes.next ?_ | refine keeps_ite ?_ ?_
    | refine keeps_foldl ?_ (fun _ _ _ => ?_) | refine keeps_foldl_fst ?_ (fun _ _ _ _ => ?_) | refine keeps_foldl_snd ?_ (fun _ _ _ _ => ?_)
    | refine opt_foldl ?_ (fun _ _ _ => ?_) | refine of_next (by assumption) ?_ | split | dsimp only
    | fail_if_no_progress (refine keeps_mk ?_ rfl rfl))

theorem keeps_execTierStepCommit {a0 a1} (h1 : Keeps i a1) : KeepsRes i (execTierStepCommit a0 a1) := by
  unfold execTierStepCommit
  with_reducible repeat' (first
    | assumption | exact KeepsRes.fault | exact KeepsRes.refused | apply keeps_okT | apply keeps_commitStep | refine KeepsRes.next ?_ | split
    | dsimp only)

/-! ### Sys2Proof.Machine.Objects -/

theorem keeps_putBuf {a0 a1 a2} (h0 : Keeps i a0) : Keeps i (putBuf a0 a1 a2) := by
  unfold putBuf
  with_reducible repeat' (first
    | assumption | apply keeps_regPut | refine keeps_foldl ?_ (fun _ _ _ => ?_) | dsimp only)

theorem keeps_putCmd {a0 a1 a2} (h0 : Keeps i a0) : Keeps i (putCmd a0 a1 a2) := by
  unfold putCmd
  extract_lets z0
  with_reducible repeat' (first
    | assumption | unfold z0 | dsimp only | fail_if_no_progress (refine keeps_mk ?_ rfl rfl))

theorem keeps_cmdEnd {a0 a1 a2 a3} (h0 : Keeps i a0) : Keeps i (cmdEnd a0 a1 a2 a3) := by
  unfold cmdEnd
  extract_lets z0 z1
  refine keeps_cut (i := i) z0 ?_ (fun hz0 => keeps_cut (i := i) z1 ?_ (fun hz1 => ?_))
  on_goal 1 => unfold z0
  on_goal 2 => unfold z1
  all_goals
    with_reducible repeat' (first
      | assumption | apply keeps_putCmd | apply keeps_regPut | dsimp only)

theorem keeps_cmdBusy {a0 a1 a2 a3 a4} (h0 : Keeps i a0) : Keeps i (cmdBusy a0 a1 a2 a3 a4) := by
  unfold cmdBusy
  with_reducible repeat' (first
    | assumption | apply keeps_regPut | apply keeps_putCmd)

theorem keeps_startCmd {a0 a1 a2 a3} (h0 : Keeps i a0) (h3 : ∀ x0, Keeps i x0 → Keeps i (a3 x0)) : KeepsRes i (startCmd a0 a1 a2 a3) := by
  unfold startCmd
  extract_lets z0
  refine keeps_cut (i := i) z0 ?_ (fun hz0 => ?_)
  on_goal 1 => unfold z0
  all_goals
    with_reducible repeat' (first
      | assumption | exact KeepsRes.fault | exact KeepsRes.refused | apply keeps_regPut | apply keeps_cmdEnd | apply keeps_okT | apply h3
      | refine keeps_ite ?_ ?_ | refine res_ite ?_ ?_ | refine KeepsRes.next ?_ | split | dsimp only)

theorem keeps_execCtxCreate {a0 a1} (h1 : Keeps i a1) : KeepsRes i (execCtxCreate a0 a1) := by
  unfold execCtxCreate
  with_reducible repeat' (first
    | assumption | intro _ | exact KeepsRes.fault | exact KeepsRes.refused | apply keeps_startCmd | apply keeps_cmdEnd | apply keeps_regSetBits
    | apply keeps_putContext | apply keeps_cmdBusy | refine keeps_ite ?_ ?_ | refine res_ite ?_ ?_ | refine KeepsRes.next ?_ | split | dsimp only)

theorem keeps_newRecord {a0 a1 a2} (h0 : Keeps i a0) : Keeps i (newRecord a0 a1 a2) := by
  unfold newRecord
  extract_lets z0
  with_reducible repeat' (first
    | assumption | apply keeps_draw | apply keeps_writeRec | refine keeps_ite ?_ ?_ | refine of_snd (by assumption) ?_ | split | unfold z0 | dsimp only)

theorem keeps_scanRecord {a0 a1 a2} (h0 : Keeps i a0) : Keeps i (scanRecord a0 a1 a2) := by
  unfold scanRecord
  extract_lets z0 z1 z2
  refine keeps_cut (i := i) z2 ?_ (fun hz2 => ?_)
  on_goal 1 => unfold z2
  all_goals
    with_reducible repeat' (first
      | assumption | apply keeps_setStatus | apply keeps_bump | apply keeps_fetchRec | apply keeps_writeRec | refine keeps_ite ?_ ?_
      | refine keeps_foldl ?_ (fun _ _ _ => ?_) | split | unfold z0 | unfold z1 | dsimp only | fail_if_no_progress (refine keeps_mk ?_ rfl rfl))

theorem keeps_scanStatus {a0} (h0 : Keeps i a0) : Keeps i (scanStatus a0) := by
  unfold scanStatus
  extract_lets z0
  with_reducible repeat' (first
    | assumption | apply keeps_regSetBits | refine keeps_ite ?_ ?_ | refine keeps_foldl ?_ (fun _ _ _ => ?_) | split | unfold z0 | dsimp only
    | fail_if_no_progress (refine keeps_mk ?_ rfl rfl))

theorem keeps_execCtxCreateDone {a0 a1} (h1 : Keeps i a1) : KeepsRes i (execCtxCreateDone a0 a1) := by
  unfold execCtxCreateDone
  with_reducible repeat' (first
    | assumption | exact KeepsRes.fault | exact KeepsRes.refused | apply keeps_scanRecord | apply keeps_newRecord | apply keeps_ok
    | apply keeps_cmdEnd | apply keeps_scanStatus | apply keeps_modContext | apply keeps_notDue | refine res_ite ?_ ?_ | refine KeepsRes.next ?_
    | refine keeps_ite ?_ ?_ | refine keeps_foldl ?_ (fun _ _ _ => ?_) | refine of_next (by assumption) ?_ | split | dsimp only
    | fail_if_no_progress (refine keeps_mk ?_ rfl rfl))

theorem keeps_tearStart {a0 a1 a2 a3} (h0 : Keeps i a0) : Keeps i (tearStart a0 a1 a2 a3) := by
  unfold tearStart
  extract_lets z0 z1 z2 z3 z4 z5
  refine keeps_cut (i := i) z2 ?_ (fun hz2 => keeps_cut (i := i) z3 ?_ (fun hz3 => keeps_cut (i := i) z5 ?_ (fun hz5 => ?_)))
  on_goal 1 => unfold z2
  on_goal 2 => unfold z3
  on_goal 3 => unfold z5
  all_goals
    with_reducible repeat' (first
      | assumption | intro _ | apply keeps_abortSteps | apply keeps_breakSteps | apply keeps_tcDrop | apply keeps_endContextOps | apply keeps_queueOp
      | apply keeps_discardBale | apply keeps_modContext | unfold z4 | refine keeps_ite ?_ ?_ | refine keeps_foldl ?_ (fun _ _ _ => ?_) | split
      | unfold z0 | unfold z1 | dsimp only | fail_if_no_progress (refine keeps_mk ?_ rfl rfl))

theorem keeps_tearFinish {a0 a1} (h0 : Keeps i a0) : Keeps i (tearFinish a0 a1) := by
  unfold tearFinish
  with_reducible repeat' (first
    | assumption | intro _ | apply keeps_discardBale | apply keeps_modFn | apply keeps_putContext | refine keeps_ite ?_ ?_
    | refine keeps_foldl ?_ (fun _ _ _ => ?_) | split | dsimp only | fail_if_no_progress (refine keeps_mk ?_ rfl rfl))

theorem keeps_execCtxTeardown {a0 a1} (h1 : Keeps i a1) : KeepsRes i (execCtxTeardown a0 a1) := by
  unfold execCtxTeardown
  with_reducible repeat' (first
    | assumption | intro _ | exact KeepsRes.fault | exact KeepsRes.refused | apply keeps_startCmd | apply keeps_cmdEnd | apply keeps_cmdBusy
    | apply keeps_tearStart | refine keeps_ite ?_ ?_ | refine res_ite ?_ ?_ | refine KeepsRes.next ?_ | split | dsimp only)

theorem keeps_execCtxTeardownDone {a0 a1} (h1 : Keeps i a1) : KeepsRes i (execCtxTeardownDone a0 a1) := by
  unfold execCtxTeardownDone
  with_reducible repeat' (first
    | assumption | exact KeepsRes.fault | exact KeepsRes.refused | apply keeps_okT | apply keeps_cmdEnd | apply keeps_tearFinish
    | refine keeps_ite ?_ ?_ | refine res_ite ?_ ?_ | refine KeepsRes.next ?_ | split | dsimp only)

theorem keeps_execQueueBind {a0 a1} (h1 : Keeps i a1) : KeepsRes i (execQueueBind a0 a1) := by
  unfold execQueueBind
  with_reducible repeat' (first
    | assumption | intro _ | exact KeepsRes.fault | exact KeepsRes.refused | apply keeps_startCmd | apply keeps_cmdEnd | apply keeps_putQueue
    | refine keeps_ite ?_ ?_ | refine res_ite ?_ ?_ | refine KeepsRes.next ?_ | split | dsimp only)

theorem keeps_execQueueUnbind {a0 a1} (h1 : Keeps i a1) : KeepsRes i (execQueueUnbind a0 a1) := by
  unfold execQueueUnbind
  with_reducible repeat' (first
    | assumption | intro _ | exact KeepsRes.fault | exact KeepsRes.refused | apply keeps_startCmd | apply keeps_cmdEnd | apply keeps_modFn
    | apply keeps_putQueue | refine keeps_ite ?_ ?_ | refine res_ite ?_ ?_ | refine KeepsRes.next ?_ | split | dsimp only)

theorem keeps_execSlotConfig {a0 a1} (h1 : Keeps i a1) : KeepsRes i (execSlotConfig a0 a1) := by
  unfold execSlotConfig
  with_reducible repeat' (first
    | assumption | intro _ | exact KeepsRes.fault | exact KeepsRes.refused | apply keeps_startCmd | apply keeps_cmdEnd | apply keeps_putSlot
    | refine keeps_ite ?_ ?_ | refine res_ite ?_ ?_ | refine KeepsRes.next ?_ | split)

theorem keeps_execSlotFree {a0 a1} (h1 : Keeps i a1) : KeepsRes i (execSlotFree a0 a1) := by
  unfold execSlotFree
  with_reducible repeat' (first
    | assumption | intro _ | exact KeepsRes.fault | exact KeepsRes.refused | apply keeps_startCmd | apply keeps_cmdEnd | apply keeps_putSlot
    | refine keeps_ite ?_ ?_ | refine res_ite ?_ ?_ | refine KeepsRes.next ?_ | split)

theorem keeps_execAbort {a0 a1} (h1 : Keeps i a1) : KeepsRes i (execAbort a0 a1) := by
  unfold execAbort
  with_reducible repeat' (first
    | assumption | intro _ | exact KeepsRes.fault | exact KeepsRes.refused | apply keeps_startCmd | apply keeps_cmdEnd | apply keeps_cmdBusy
    | apply keeps_abortSteps | refine keeps_ite ?_ ?_ | refine res_ite ?_ ?_ | refine KeepsRes.next ?_ | split | dsimp only)

theorem keeps_execAbortDone {a0 a1} (h1 : Keeps i a1) : KeepsRes i (execAbortDone a0 a1) := by
  unfold execAbortDone
  with_reducible repeat' (first
    | assumption | exact KeepsRes.fault | exact KeepsRes.refused | apply keeps_cmdEnd | refine keeps_ite ?_ ?_ | refine res_ite ?_ ?_
    | refine KeepsRes.next ?_ | split | dsimp only)

theorem keeps_execCtxQuery {a0 a1} (h1 : Keeps i a1) : KeepsRes i (execCtxQuery a0 a1) := by
  unfold execCtxQuery
  with_reducible repeat' (first
    | assumption | intro _ | exact KeepsRes.fault | exact KeepsRes.refused | apply keeps_startCmd | apply keeps_cmdEnd | apply keeps_putBuf
    | refine keeps_ite ?_ ?_ | refine res_ite ?_ ?_ | refine KeepsRes.next ?_ | split | dsimp only)

theorem keeps_execPartQuery {a0 a1} (h1 : Keeps i a1) : KeepsRes i (execPartQuery a0 a1) := by
  unfold execPartQuery
  with_reducible repeat' (first
    | assumption | intro _ | exact KeepsRes.fault | exact KeepsRes.refused | apply keeps_startCmd | apply keeps_cmdEnd | apply keeps_putBuf
    | refine keeps_ite ?_ ?_ | refine res_ite ?_ ?_ | refine KeepsRes.next ?_ | split | dsimp only)

theorem keeps_resetBanks {a0 a1} (h0 : Keeps i a0) : Keeps i (resetBanks a0 a1) := by
  unfold resetBanks
  extract_lets z0
  with_reducible repeat' (first
    | assumption | intro _ | apply keeps_modEngine | unfold z0 | refine keeps_ite ?_ ?_ | refine keeps_foldl ?_ (fun _ _ _ => ?_) | split | dsimp only)

theorem keeps_resetLines {a0 a1} (h0 : Keeps i a0) : Keeps i (resetLines a0 a1) := by
  unfold resetLines
  extract_lets z0 z1
  with_reducible repeat' (first
    | assumption | refine keeps_ite ?_ ?_ | refine keeps_foldl ?_ (fun _ _ _ => ?_) | split | unfold z0 | unfold z1 | dsimp only
    | fail_if_no_progress (refine keeps_mk ?_ rfl rfl))

theorem keeps_stopMaint {a0 a1} (h0 : Keeps i a0) : Keeps i (stopMaint a0 a1) := by
  unfold stopMaint
  extract_lets z0 z1
  with_reducible repeat' (first
    | assumption | apply keeps_regPut | apply keeps_regSetBits | refine keeps_ite ?_ ?_ | refine keeps_foldl ?_ (fun _ _ _ => ?_) | split | unfold z0
    | unfold z1 | dsimp only | fail_if_no_progress (refine keeps_mk ?_ rfl rfl))

theorem keeps_emptyStaged {a0 a1} (h0 : Keeps i a0) : Keeps i (emptyStaged a0 a1) := by
  unfold emptyStaged
  extract_lets z0
  with_reducible repeat' (first
    | assumption | unfold z0 | dsimp only | fail_if_no_progress (refine keeps_mk ?_ rfl rfl))

theorem keeps_partitionReset {a0 a1} (h0 : Keeps i a0) : Keeps i (partitionReset a0 a1) := by
  unfold partitionReset
  extract_lets z0 z1 z2 z3 z4
  refine keeps_cut (i := i) z1 ?_ (fun hz1 => keeps_cut (i := i) z2 ?_ (fun hz2 => keeps_cut (i := i) z4 ?_ (fun hz4 => ?_)))
  on_goal 1 => unfold z1
  on_goal 2 => unfold z2
  on_goal 3 => unfold z4
  all_goals
    with_reducible repeat' (first
      | assumption | apply keeps_putPart | apply keeps_scanStatus | apply keeps_putContext | apply keeps_cmdEnd | apply keeps_tearStart
      | apply keeps_resetLines | apply keeps_resetBanks | apply keeps_stopMaint | apply keeps_revokeParking | apply keeps_emptyStaged
      | refine keeps_ite ?_ ?_ | refine keeps_foldl ?_ (fun _ _ _ => ?_) | split | unfold z0 | unfold z3 | dsimp only
      | fail_if_no_progress (refine keeps_mk ?_ rfl rfl))

theorem keeps_execPartReset {a0 a1} (h1 : Keeps i a1) : KeepsRes i (execPartReset a0 a1) := by
  unfold execPartReset
  with_reducible repeat' (first
    | assumption | intro _ | exact KeepsRes.fault | exact KeepsRes.refused | apply keeps_startCmd | apply keeps_cmdEnd | apply keeps_partitionReset
    | apply keeps_cmdBusy | refine keeps_ite ?_ ?_ | refine res_ite ?_ ?_ | refine KeepsRes.next ?_ | split)

theorem keeps_zeroUserWindows {a0 a1} (h0 : Keeps i a0) : Keeps i (zeroUserWindows a0 a1) := by
  unfold zeroUserWindows
  extract_lets z0
  with_reducible repeat' (first
    | assumption | intro _ | apply keeps_modCluster | unfold z0 | dsimp only)

theorem keeps_execPartitionResetDone {a0 a1} (h1 : Keeps i a1) : KeepsRes i (execPartitionResetDone a0 a1) := by
  unfold execPartitionResetDone
  extract_lets z0 z1 z2 z3 z4 z5 z6 z7 z8 z9 z10 z11 z12
  refine keeps_cut (i := i) z1 ?_ (fun hz1 => keeps_cut (i := i) z5 ?_ (fun hz5 => keeps_cut (i := i) z6 ?_ (fun hz6 => keeps_cut (i := i) z7 ?_ (fun hz7 => keeps_cut (i := i) z9 ?_ (fun hz9 => keeps_cut (i := i) z10 ?_ (fun hz10 => keeps_cut (i := i) z12 ?_ (fun hz12 => ?_)))))))
  on_goal 1 => unfold z1
  on_goal 2 => unfold z5
  on_goal 3 => unfold z6
  on_goal 4 => unfold z7
  on_goal 5 => unfold z9
  on_goal 6 => unfold z10
  on_goal 7 => unfold z12
  all_goals
    with_reducible repeat' (first
      | assumption | exact KeepsRes.fault | exact KeepsRes.refused | apply keeps_tearFinish | apply keeps_modFn | apply keeps_tcDrop
      | apply keeps_resetBanks | apply keeps_zeroUserWindows | apply keeps_putPart | apply keeps_cmdEnd | apply keeps_putFn | apply keeps_okT
      | apply keeps_notDue | refine res_ite ?_ ?_ | refine KeepsRes.next ?_ | refine keeps_ite ?_ ?_ | refine keeps_foldl ?_ (fun _ _ _ => ?_)
      | refine of_next (by assumption) ?_ | split | unfold z0 | unfold z2 | unfold z3 | unfold z4 | unfold z8 | unfold z11 | dsimp only
      | fail_if_no_progress (refine keeps_mk ?_ rfl rfl))

/-! ### Sys2Proof.Machine.Queues -/

theorem keeps_writeTail {a0 a1 a2 a3} (h0 : Keeps i a0) : Keeps i (writeTail a0 a1 a2 a3) := by
  unfold writeTail
  with_reducible repeat' (first
    | assumption | apply keeps_putQueue | refine keeps_ite ?_ ?_ | split | dsimp only)

theorem keeps_writeEvtHead {a0 a1 a2 a3} (h0 : Keeps i a0) : Keeps i (writeEvtHead a0 a1 a2 a3) := by
  unfold writeEvtHead
  with_reducible repeat' (first
    | assumption | apply keeps_deliverBacklog | apply keeps_putQueue | refine keeps_ite ?_ ?_ | split | dsimp only)

theorem keeps_windowTally {a0 a1 a2 a3} (h0 : Keeps i a0) : Keeps i (windowTally a0 a1 a2 a3) := by
  unfold windowTally
  with_reducible repeat' (first
    | assumption | apply keeps_tallyAdd | refine keeps_ite ?_ ?_ | split)

theorem keeps_haltQueue {a0 a1 a2} (h0 : Keeps i a0) : Keeps i (haltQueue a0 a1 a2) := by
  unfold haltQueue
  with_reducible repeat' (first
    | assumption | apply keeps_putQueue | split | dsimp only)

theorem keeps_readQueue {a0 a1 a2 a3 a4 a5} (h0 : Keeps i a0) : KeepsRead i (readQueue a0 a1 a2 a3 a4 a5) := by
  unfold readQueue
  extract_lets z0 z1
  with_reducible repeat' (first
    | assumption | exact KeepsRead.bad | apply keeps_translate | apply keeps_putQueue | apply keeps_countFault | apply keeps_readNow
    | apply keeps_waitFor | apply keeps_gate | apply keeps_emit | apply keeps_logUnmapped | refine keeps_ite ?_ ?_ | refine now_ite ?_ ?_
    | refine KeepsNow.done ?_ | refine KeepsNow.bad ?_ | refine KeepsNow.wait ?_ | refine KeepsRead.got ?_ | refine KeepsRead.halt ?_
    | refine KeepsRead.wait ?_ | refine of_done (by assumption) ?_ | refine of_bad (by assumption) ?_ | refine of_wait (by assumption) ?_
    | refine of_fst (by assumption) ?_ | split | unfold z0 | unfold z1 | dsimp only)

theorem keeps_joinStep {a0 a1 a2 a3} (h0 : Keeps i a0) : Keeps i (joinStep a0 a1 a2 a3) := by
  unfold joinStep
  extract_lets z0 z1 z2 z3 z4
  refine keeps_cut (i := i) z0 ?_ (fun hz0 => keeps_cut (i := i) z3 ?_ (fun hz3 => ?_))
  on_goal 1 => unfold z0
  on_goal 2 => unfold z3
  all_goals
    with_reducible repeat' (first
      | assumption | apply keeps_sealArm | apply keeps_putQueue | refine keeps_ite ?_ ?_ | split | unfold z1 | unfold z2 | unfold z4 | dsimp only
      | fail_if_no_progress (refine keeps_mk ?_ rfl rfl))

theorem keeps_readStep {a0 a1 a2 a3} (h0 : Keeps i a0) : KeepsRes i (readStep a0 a1 a2 a3) := by
  unfold readStep
  extract_lets z0
  with_reducible repeat' (first
    | assumption | exact KeepsRes.fault | exact KeepsRes.refused | apply keeps_readQueue | apply keeps_okT | apply keeps_haltQueue
    | apply keeps_joinStep | refine keeps_ite ?_ ?_ | refine res_ite ?_ ?_ | refine KeepsRes.next ?_ | refine of_got (by assumption) ?_
    | refine of_halt (by assumption) ?_ | refine of_rdWait (by assumption) ?_ | split | unfold z0 | dsimp only)

theorem keeps_execQueueStepRead {a0 a1 a2 a3} (h3 : Keeps i a3) : KeepsRes i (execQueueStepRead a0 a1 a2 a3) := by
  unfold execQueueStepRead
  with_reducible repeat' (first
    | assumption | exact KeepsRes.fault | exact KeepsRes.refused | apply keeps_readStep | apply keeps_readQueue | apply keeps_okT
    | apply keeps_haltQueue | apply keeps_putQueue | refine keeps_ite ?_ ?_ | refine res_ite ?_ ?_ | refine KeepsRes.next ?_
    | refine of_got (by assumption) ?_ | refine of_halt (by assumption) ?_ | refine of_rdWait (by assumption) ?_ | split | dsimp only)

theorem keeps_copyAdvance {a0 a1 a2} (h0 : Keeps i a0) : Keeps i (copyAdvance a0 a1 a2) := by
  unfold copyAdvance
  with_reducible repeat' (first
    | assumption | intro _ | apply keeps_modStep)

theorem keeps_copyMoved {a0 a1 a2} (h0 : Keeps i a0) : Keeps i (copyMoved a0 a1 a2) := by
  unfold copyMoved
  with_reducible repeat' (first
    | assumption | intro _ | apply keeps_modContext)

theorem keeps_copyOutside {a0 a1 a2 a3} (h0 : Keeps i a0) : Keeps i (copyOutside a0 a1 a2 a3) := by
  unfold copyOutside
  with_reducible repeat' (first
    | assumption | apply keeps_stepErr | apply keeps_logUnmapped | refine keeps_ite ?_ ?_ | split)

theorem keeps_copyIn {a0 a1 a2 a3} (h0 : Keeps i a0) : Keeps i (copyIn a0 a1 a2 a3).1 := by
  unfold copyIn
  with_reducible repeat' (first
    | assumption | apply keeps_copyOutside | apply keeps_writeNow | apply keeps_stepErr | apply keeps_waitFor | refine keeps_ite ?_ ?_
    | refine now_ite ?_ ?_ | refine KeepsNow.done ?_ | refine KeepsNow.bad ?_ | refine KeepsNow.wait ?_ | refine of_done (by assumption) ?_
    | refine of_bad (by assumption) ?_ | refine of_wait (by assumption) ?_ | split | dsimp only)

theorem keeps_copyPiece {a0 a1 a2 a3 a4 a5} (h0 : Keeps i a0) : Keeps i (copyPiece a0 a1 a2 a3 a4 a5).1 := by
  unfold copyPiece
  extract_lets z0 z1 z2 z3 z4 z5
  with_reducible repeat' (first
    | assumption | apply keeps_copyOutside | apply keeps_gate | apply keeps_translate | apply keeps_stepErr | apply keeps_countFault
    | apply keeps_readNow | apply keeps_waitFor | apply keeps_copyAdvance | apply keeps_writeNow | apply keeps_copyMoved | apply keeps_putPort
    | apply keeps_emit | refine keeps_ite ?_ ?_ | refine now_ite ?_ ?_ | refine KeepsNow.done ?_ | refine KeepsNow.bad ?_ | refine KeepsNow.wait ?_
    | refine of_done (by assumption) ?_ | refine of_bad (by assumption) ?_ | refine of_wait (by assumption) ?_ | refine of_fst (by assumption) ?_
    | split | unfold z0 | unfold z1 | unfold z2 | unfold z3 | unfold z4 | unfold z5 | dsimp only)

theorem keeps_copyPump {a0 a1 a2} (h1 : Keeps i a1) : Keeps i (copyPump a0 a1 a2) := by
  induction a0 generalizing a1 with
  | zero => exact h1
  | succ n ih =>
    unfold copyPump
    split
    · split
      · split
        · exact h1
        · split
          · next e => exact ih (of_fst e (keeps_copyPiece h1))
          · next e => exact of_fst e (keeps_copyPiece h1)
      · exact h1
    · exact h1

theorem keeps_copySettle {a0 a1} (h0 : Keeps i a0) : Keeps i (copySettle a0 a1) := by
  unfold copySettle
  with_reducible repeat' (first
    | assumption | apply keeps_breakStep | refine keeps_ite ?_ ?_ | split | dsimp only)

theorem keeps_copyGo {a0 a1} (h0 : Keeps i a0) : Keeps i (copyGo a0 a1) := by
  unfold copyGo
  with_reducible repeat' (first
    | assumption | apply keeps_copySettle | apply keeps_copyPump)

theorem keeps_pumpHost {a0} (h0 : Keeps i a0) : Keeps i (pumpHost a0) := by
  unfold pumpHost
  extract_lets z0
  refine keeps_cut (i := i) z0 ?_ (fun hz0 => ?_)
  on_goal 1 => unfold z0
  all_goals
    with_reducible repeat' (first
      | assumption | apply keeps_copyGo | apply keeps_parkPump | refine keeps_ite ?_ ?_ | refine keeps_foldl ?_ (fun _ _ _ => ?_) | split | dsimp only)

theorem keeps_dropTag {a0 a1 a2} (h0 : Keeps i a0) : Keeps i (dropTag a0 a1 a2) := by
  unfold dropTag
  extract_lets z0 z1
  refine keeps_cut (i := i) z1 ?_ (fun hz1 => ?_)
  on_goal 1 => unfold z1
  all_goals
    with_reducible repeat' (first
      | assumption | apply keeps_putPort | apply keeps_putFn | refine keeps_ite ?_ ?_ | refine keeps_foldl ?_ (fun _ _ _ => ?_) | split | unfold z0
      | dsimp only)

theorem keeps_readEnds {a0 a1 a2 a3} (h0 : Keeps i a0) : KeepsRes i (readEnds a0 a1 a2 a3) := by
  unfold readEnds
  extract_lets z0
  refine keeps_cut (i := i) z0 ?_ (fun hz0 => ?_)
  on_goal 1 => unfold z0
  all_goals
    with_reducible repeat' (first
      | assumption | intro _ | exact KeepsRes.fault | exact KeepsRes.refused | apply keeps_dropTag | apply keeps_okT | apply keeps_pumpHost
      | apply keeps_copyIn | apply keeps_copySettle | apply keeps_copyMoved | apply keeps_waitFor | apply keeps_stepErr | apply keeps_countFault
      | apply keeps_modOp | refine keeps_ite ?_ ?_ | refine res_ite ?_ ?_ | refine KeepsRes.next ?_ | refine of_fst (by assumption) ?_ | split
      | dsimp only)

theorem keeps_execHostReadCompletion {a0 a1 a2 a3} (h3 : Keeps i a3) : KeepsRes i (execHostReadCompletion a0 a1 a2 a3) := by
  unfold execHostReadCompletion
  with_reducible repeat' (first
    | assumption | exact KeepsRes.fault | exact KeepsRes.refused | apply keeps_readEnds | refine keeps_ite ?_ ?_ | refine res_ite ?_ ?_
    | refine KeepsRes.next ?_ | split)

theorem keeps_execHostCompletionTimeout {a0 a1 a2} (h2 : Keeps i a2) : KeepsRes i (execHostCompletionTimeout a0 a1 a2) := by
  unfold execHostCompletionTimeout
  with_reducible repeat' (first
    | assumption | exact KeepsRes.fault | exact KeepsRes.refused | apply keeps_draw | apply keeps_readEnds | refine keeps_ite ?_ ?_
    | refine res_ite ?_ ?_ | refine KeepsRes.next ?_ | refine of_snd (by assumption) ?_ | split | dsimp only)

theorem keeps_execCopyStepCommit {a0 a1} (h1 : Keeps i a1) : KeepsRes i (execCopyStepCommit a0 a1) := by
  unfold execCopyStepCommit
  with_reducible repeat' (first
    | assumption | exact KeepsRes.fault | exact KeepsRes.refused | apply keeps_copyGo | apply keeps_okT | apply keeps_commitStep
    | refine keeps_ite ?_ ?_ | refine res_ite ?_ ?_ | refine KeepsRes.next ?_ | split | dsimp only)

theorem keeps_sendStep {a0 a1} (h0 : Keeps i a0) : KeepsRes i (sendStep a0 a1) := by
  unfold sendStep
  extract_lets z0
  refine keeps_cut (i := i) z0 ?_ (fun hz0 => ?_)
  on_goal 1 => unfold z0
  all_goals
    with_reducible repeat' (first
      | assumption | intro _ | exact KeepsRes.fault | exact KeepsRes.refused | apply keeps_okT | apply keeps_breakStep | apply keeps_modStep
      | apply keeps_modEngine | apply keeps_clusterNext | apply keeps_modCluster | apply keeps_beginStep | apply keeps_copyGo | apply keeps_commitStep
      | refine KeepsRes.next ?_ | split | dsimp only)

theorem keeps_execStepDispatch {a0 a1} (h1 : Keeps i a1) : KeepsRes i (execStepDispatch a0 a1) := by
  unfold execStepDispatch
  with_reducible repeat' (first
    | assumption | exact KeepsRes.fault | exact KeepsRes.refused | apply keeps_okT | apply keeps_breakStep | apply keeps_sendStep
    | refine keeps_ite ?_ ?_ | refine res_ite ?_ ?_ | refine KeepsRes.next ?_ | split | dsimp only)

end Sys2Proof.Machine
end

