-- ==== Sys2Proof/Laws/KeepCores.lean ====
section
/-! SUPPORT. One lemma per function that carries a State, for the core's instructions and events:
what `Keep.lean` calls kept (the queue of commands, the canonical form of the stores, the well-formed
cores) stays kept through it. Later proofs cite these lemmas and unfold no function again. -/

namespace Sys2Proof.Machine
variable {i : Held} {s t : State}

/-! ### Sys2Proof.Machine.CoreBase -/

theorem keeps_raise {a0 a1 a2 a3} (h0 : Keeps i a0) : Keeps i (raise a0 a1 a2 a3) := by
  unfold raise
  with_reducible repeat' (first
    | assumption | intro _ | apply keeps_modCore)

theorem keeps_clusterLatch {a0 a1 a2} (h0 : Keeps i a0) : Keeps i (clusterLatch a0 a1 a2) := by
  unfold clusterLatch
  with_reducible repeat' (first
    | assumption | intro _ | apply keeps_modCluster | refine keeps_ite ?_ ?_ | split)

theorem keeps_haFault {a0 a1 a2} (h0 : Keeps i a0) : Keeps i (haFault a0 a1 a2) := by
  unfold haFault
  with_reducible repeat' (first
    | assumption | apply keeps_clusterLatch | apply keeps_logUnmapped | refine keeps_ite ?_ ?_ | split)

theorem keeps_rangeFault {a0 a1 a2 a3} (h0 : Keeps i a0) : Keeps i (rangeFault a0 a1 a2 a3) := by
  unfold rangeFault
  with_reducible repeat' (first
    | assumption | apply keeps_haFault | refine keeps_ite ?_ ?_ | refine keeps_foldl ?_ (fun _ _ _ => ?_) | split | dsimp only
    | fail_if_no_progress (refine keeps_mk ?_ rfl rfl))

theorem keeps_fetchDo {a0 a1 a2} (h1 : Keeps i a1) (h2 : ∀ x s, Keeps i s → KeepsRes i (a2 x s)) : KeepsRes i (fetchDo a0 a1 a2) := by
  unfold fetchDo
  with_reducible repeat' (first
    | assumption | apply h2 | apply keeps_ok | apply keeps_raise | apply keeps_haFault | apply keeps_putCore | split | dsimp only)

theorem keeps_coreDo {a0 a1 a2} (h1 : Keeps i a1) (h2 : ∀ x s, Keeps i s → KeepsRes i (a2 x s)) : KeepsRes i (coreDo a0 a1 a2) := by
  unfold coreDo
  extract_lets z0
  with_reducible repeat' (first
    | assumption | apply keeps_notDue | exact keeps_fetchDo h1 h2 | split)

theorem keeps_retire {a0 a1 a2} (h0 : Keeps i a0) : KeepsRes i (retire a0 a1 a2) := by
  unfold retire
  with_reducible repeat' (first
    | assumption | exact KeepsRes.fault | exact KeepsRes.refused | apply keeps_putCore | refine KeepsRes.next ?_)

theorem keeps_coreRegs {a0 a1 a2} (h1 : Keeps i a1) : KeepsRes i (coreRegs a0 a1 a2) := by
  unfold coreRegs
  with_reducible repeat' (first
    | assumption | intro _ | exact KeepsRes.fault | exact KeepsRes.refused | apply keeps_coreDo | apply keeps_retire | refine KeepsRes.next ?_)

theorem keeps_illegal {a0 a1 a2} (h0 : Keeps i a0) : KeepsRes i (illegal a0 a1 a2) := by
  unfold illegal
  with_reducible repeat' (first
    | assumption | exact KeepsRes.fault | exact KeepsRes.refused | apply keeps_raise | refine KeepsRes.next ?_)

theorem keeps_storePut {a0 a1 a2 a3} (h0 : Keeps i a0) : Keeps i (storePut a0 a1 a2 a3) := by
  unfold storePut
  with_reducible repeat' (first
    | assumption | intro _ | apply keeps_modCluster | refine keeps_foldl ?_ (fun _ _ _ => ?_) | dsimp only)

/-! ### Sys2Proof.Machine.CoreAlu -/

theorem keeps_alu {a0 a1 a2 a3 a4 a5} (h4 : Keeps i a4) : KeepsRes i (alu a0 a1 a2 a3 a4 a5) := by
  unfold alu
  with_reducible repeat' (first
    | assumption | intro _ | exact KeepsRes.fault | exact KeepsRes.refused | apply keeps_coreRegs | refine KeepsRes.next ?_)

theorem keeps_execAdd {a0 a1 a2 a3 a4} (h4 : Keeps i a4) : KeepsRes i (execAdd a0 a1 a2 a3 a4) := by
  unfold execAdd
  with_reducible repeat' (first
    | assumption | intro _ | exact KeepsRes.fault | exact KeepsRes.refused | apply keeps_alu | refine KeepsRes.next ?_)

theorem keeps_execSub {a0 a1 a2 a3 a4} (h4 : Keeps i a4) : KeepsRes i (execSub a0 a1 a2 a3 a4) := by
  unfold execSub
  with_reducible repeat' (first
    | assumption | intro _ | exact KeepsRes.fault | exact KeepsRes.refused | apply keeps_alu | refine KeepsRes.next ?_)

theorem keeps_execAndC {a0 a1 a2 a3 a4} (h4 : Keeps i a4) : KeepsRes i (execAndC a0 a1 a2 a3 a4) := by
  unfold execAndC
  with_reducible repeat' (first
    | assumption | intro _ | exact KeepsRes.fault | exact KeepsRes.refused | apply keeps_alu | refine KeepsRes.next ?_)

theorem keeps_execOrC {a0 a1 a2 a3 a4} (h4 : Keeps i a4) : KeepsRes i (execOrC a0 a1 a2 a3 a4) := by
  unfold execOrC
  with_reducible repeat' (first
    | assumption | intro _ | exact KeepsRes.fault | exact KeepsRes.refused | apply keeps_alu | refine KeepsRes.next ?_)

theorem keeps_execXorC {a0 a1 a2 a3 a4} (h4 : Keeps i a4) : KeepsRes i (execXorC a0 a1 a2 a3 a4) := by
  unfold execXorC
  with_reducible repeat' (first
    | assumption | intro _ | exact KeepsRes.fault | exact KeepsRes.refused | apply keeps_alu | refine KeepsRes.next ?_)

theorem keeps_execSll {a0 a1 a2 a3 a4} (h4 : Keeps i a4) : KeepsRes i (execSll a0 a1 a2 a3 a4) := by
  unfold execSll
  with_reducible repeat' (first
    | assumption | intro _ | exact KeepsRes.fault | exact KeepsRes.refused | apply keeps_alu | refine KeepsRes.next ?_)

theorem keeps_execSrl {a0 a1 a2 a3 a4} (h4 : Keeps i a4) : KeepsRes i (execSrl a0 a1 a2 a3 a4) := by
  unfold execSrl
  with_reducible repeat' (first
    | assumption | intro _ | exact KeepsRes.fault | exact KeepsRes.refused | apply keeps_alu | refine KeepsRes.next ?_)

theorem keeps_execSra {a0 a1 a2 a3 a4} (h4 : Keeps i a4) : KeepsRes i (execSra a0 a1 a2 a3 a4) := by
  unfold execSra
  with_reducible repeat' (first
    | assumption | intro _ | exact KeepsRes.fault | exact KeepsRes.refused | apply keeps_alu | refine KeepsRes.next ?_)

theorem keeps_execSlt {a0 a1 a2 a3 a4} (h4 : Keeps i a4) : KeepsRes i (execSlt a0 a1 a2 a3 a4) := by
  unfold execSlt
  with_reducible repeat' (first
    | assumption | intro _ | exact KeepsRes.fault | exact KeepsRes.refused | apply keeps_alu | refine KeepsRes.next ?_)

theorem keeps_execSltu {a0 a1 a2 a3 a4} (h4 : Keeps i a4) : KeepsRes i (execSltu a0 a1 a2 a3 a4) := by
  unfold execSltu
  with_reducible repeat' (first
    | assumption | intro _ | exact KeepsRes.fault | exact KeepsRes.refused | apply keeps_alu | refine KeepsRes.next ?_)

theorem keeps_execMul {a0 a1 a2 a3 a4} (h4 : Keeps i a4) : KeepsRes i (execMul a0 a1 a2 a3 a4) := by
  unfold execMul
  with_reducible repeat' (first
    | assumption | intro _ | exact KeepsRes.fault | exact KeepsRes.refused | apply keeps_alu | refine KeepsRes.next ?_)

theorem keeps_execMulhs {a0 a1 a2 a3 a4} (h4 : Keeps i a4) : KeepsRes i (execMulhs a0 a1 a2 a3 a4) := by
  unfold execMulhs
  with_reducible repeat' (first
    | assumption | intro _ | exact KeepsRes.fault | exact KeepsRes.refused | apply keeps_alu | refine KeepsRes.next ?_)

theorem keeps_execMulhu {a0 a1 a2 a3 a4} (h4 : Keeps i a4) : KeepsRes i (execMulhu a0 a1 a2 a3 a4) := by
  unfold execMulhu
  with_reducible repeat' (first
    | assumption | intro _ | exact KeepsRes.fault | exact KeepsRes.refused | apply keeps_alu | refine KeepsRes.next ?_)

theorem keeps_execDivs {a0 a1 a2 a3 a4} (h4 : Keeps i a4) : KeepsRes i (execDivs a0 a1 a2 a3 a4) := by
  unfold execDivs
  with_reducible repeat' (first
    | assumption | intro _ | exact KeepsRes.fault | exact KeepsRes.refused | apply keeps_alu | refine KeepsRes.next ?_)

theorem keeps_execDivu {a0 a1 a2 a3 a4} (h4 : Keeps i a4) : KeepsRes i (execDivu a0 a1 a2 a3 a4) := by
  unfold execDivu
  with_reducible repeat' (first
    | assumption | intro _ | exact KeepsRes.fault | exact KeepsRes.refused | apply keeps_alu | refine KeepsRes.next ?_)

theorem keeps_execRems {a0 a1 a2 a3 a4} (h4 : Keeps i a4) : KeepsRes i (execRems a0 a1 a2 a3 a4) := by
  unfold execRems
  with_reducible repeat' (first
    | assumption | intro _ | exact KeepsRes.fault | exact KeepsRes.refused | apply keeps_alu | refine KeepsRes.next ?_)

theorem keeps_execRemu {a0 a1 a2 a3 a4} (h4 : Keeps i a4) : KeepsRes i (execRemu a0 a1 a2 a3 a4) := by
  unfold execRemu
  with_reducible repeat' (first
    | assumption | intro _ | exact KeepsRes.fault | exact KeepsRes.refused | apply keeps_alu | refine KeepsRes.next ?_)

theorem keeps_execClz {a0 a1 a2 a3 a4} (h4 : Keeps i a4) : KeepsRes i (execClz a0 a1 a2 a3 a4) := by
  unfold execClz
  with_reducible repeat' (first
    | assumption | intro _ | exact KeepsRes.fault | exact KeepsRes.refused | apply keeps_alu | refine KeepsRes.next ?_)

theorem keeps_execPopc {a0 a1 a2 a3 a4} (h4 : Keeps i a4) : KeepsRes i (execPopc a0 a1 a2 a3 a4) := by
  unfold execPopc
  with_reducible repeat' (first
    | assumption | intro _ | exact KeepsRes.fault | exact KeepsRes.refused | apply keeps_alu | refine KeepsRes.next ?_)

theorem keeps_execMin {a0 a1 a2 a3 a4} (h4 : Keeps i a4) : KeepsRes i (execMin a0 a1 a2 a3 a4) := by
  unfold execMin
  with_reducible repeat' (first
    | assumption | intro _ | exact KeepsRes.fault | exact KeepsRes.refused | apply keeps_alu | refine keeps_ite ?_ ?_ | refine res_ite ?_ ?_
    | refine KeepsRes.next ?_ | split)

theorem keeps_execMax {a0 a1 a2 a3 a4} (h4 : Keeps i a4) : KeepsRes i (execMax a0 a1 a2 a3 a4) := by
  unfold execMax
  with_reducible repeat' (first
    | assumption | intro _ | exact KeepsRes.fault | exact KeepsRes.refused | apply keeps_alu | refine keeps_ite ?_ ?_ | refine res_ite ?_ ?_
    | refine KeepsRes.next ?_ | split)

theorem keeps_aluImm {a0 a1 a2 a3 a4} (h3 : Keeps i a3) : KeepsRes i (aluImm a0 a1 a2 a3 a4) := by
  unfold aluImm
  with_reducible repeat' (first
    | assumption | intro _ | exact KeepsRes.fault | exact KeepsRes.refused | apply keeps_coreRegs | refine KeepsRes.next ?_)

theorem keeps_execAddi {a0 a1 a2 a3 a4} (h4 : Keeps i a4) : KeepsRes i (execAddi a0 a1 a2 a3 a4) := by
  unfold execAddi
  with_reducible repeat' (first
    | assumption | intro _ | exact KeepsRes.fault | exact KeepsRes.refused | apply keeps_aluImm | refine KeepsRes.next ?_)

theorem keeps_execAndi {a0 a1 a2 a3 a4} (h4 : Keeps i a4) : KeepsRes i (execAndi a0 a1 a2 a3 a4) := by
  unfold execAndi
  with_reducible repeat' (first
    | assumption | intro _ | exact KeepsRes.fault | exact KeepsRes.refused | apply keeps_aluImm | refine KeepsRes.next ?_)

theorem keeps_execOri {a0 a1 a2 a3 a4} (h4 : Keeps i a4) : KeepsRes i (execOri a0 a1 a2 a3 a4) := by
  unfold execOri
  with_reducible repeat' (first
    | assumption | intro _ | exact KeepsRes.fault | exact KeepsRes.refused | apply keeps_aluImm | refine KeepsRes.next ?_)

theorem keeps_execXori {a0 a1 a2 a3 a4} (h4 : Keeps i a4) : KeepsRes i (execXori a0 a1 a2 a3 a4) := by
  unfold execXori
  with_reducible repeat' (first
    | assumption | intro _ | exact KeepsRes.fault | exact KeepsRes.refused | apply keeps_aluImm | refine KeepsRes.next ?_)

theorem keeps_execShi {a0 a1 a2 a3 a4} (h4 : Keeps i a4) : KeepsRes i (execShi a0 a1 a2 a3 a4) := by
  unfold execShi
  extract_lets z0
  with_reducible repeat' (first
    | assumption | intro _ | exact KeepsRes.fault | exact KeepsRes.refused | apply keeps_coreDo | apply keeps_retire | apply keeps_illegal
    | refine KeepsRes.next ?_ | split | unfold z0 | dsimp only)

theorem keeps_execSlti {a0 a1 a2 a3 a4} (h4 : Keeps i a4) : KeepsRes i (execSlti a0 a1 a2 a3 a4) := by
  unfold execSlti
  with_reducible repeat' (first
    | assumption | intro _ | exact KeepsRes.fault | exact KeepsRes.refused | apply keeps_aluImm | refine KeepsRes.next ?_)

theorem keeps_execLdhi {a0 a1 a2 a3} (h3 : Keeps i a3) : KeepsRes i (execLdhi a0 a1 a2 a3) := by
  unfold execLdhi
  with_reducible repeat' (first
    | assumption | intro _ | exact KeepsRes.fault | exact KeepsRes.refused | apply keeps_coreRegs | refine KeepsRes.next ?_)

theorem keeps_execPcadd {a0 a1 a2 a3} (h3 : Keeps i a3) : KeepsRes i (execPcadd a0 a1 a2 a3) := by
  unfold execPcadd
  with_reducible repeat' (first
    | assumption | intro _ | exact KeepsRes.fault | exact KeepsRes.refused | apply keeps_coreRegs | refine KeepsRes.next ?_)

theorem keeps_branch {a0 a1 a2 a3 a4 a5} (h4 : Keeps i a4) : KeepsRes i (branch a0 a1 a2 a3 a4 a5) := by
  unfold branch
  with_reducible repeat' (first
    | assumption | intro _ | exact KeepsRes.fault | exact KeepsRes.refused | apply keeps_coreDo | apply keeps_putCore | refine keeps_ite ?_ ?_
    | refine res_ite ?_ ?_ | refine KeepsRes.next ?_ | split)

theorem keeps_execBeq {a0 a1 a2 a3 a4} (h4 : Keeps i a4) : KeepsRes i (execBeq a0 a1 a2 a3 a4) := by
  unfold execBeq
  with_reducible repeat' (first
    | assumption | intro _ | exact KeepsRes.fault | exact KeepsRes.refused | apply keeps_branch | refine KeepsRes.next ?_)

theorem keeps_execBne {a0 a1 a2 a3 a4} (h4 : Keeps i a4) : KeepsRes i (execBne a0 a1 a2 a3 a4) := by
  unfold execBne
  with_reducible repeat' (first
    | assumption | intro _ | exact KeepsRes.fault | exact KeepsRes.refused | apply keeps_branch | refine KeepsRes.next ?_)

theorem keeps_execBlt {a0 a1 a2 a3 a4} (h4 : Keeps i a4) : KeepsRes i (execBlt a0 a1 a2 a3 a4) := by
  unfold execBlt
  with_reducible repeat' (first
    | assumption | intro _ | exact KeepsRes.fault | exact KeepsRes.refused | apply keeps_branch | refine KeepsRes.next ?_)

theorem keeps_execBge {a0 a1 a2 a3 a4} (h4 : Keeps i a4) : KeepsRes i (execBge a0 a1 a2 a3 a4) := by
  unfold execBge
  with_reducible repeat' (first
    | assumption | intro _ | exact KeepsRes.fault | exact KeepsRes.refused | apply keeps_branch | refine KeepsRes.next ?_)

theorem keeps_execBltu {a0 a1 a2 a3 a4} (h4 : Keeps i a4) : KeepsRes i (execBltu a0 a1 a2 a3 a4) := by
  unfold execBltu
  with_reducible repeat' (first
    | assumption | intro _ | exact KeepsRes.fault | exact KeepsRes.refused | apply keeps_branch | refine KeepsRes.next ?_)

theorem keeps_execBgeu {a0 a1 a2 a3 a4} (h4 : Keeps i a4) : KeepsRes i (execBgeu a0 a1 a2 a3 a4) := by
  unfold execBgeu
  with_reducible repeat' (first
    | assumption | intro _ | exact KeepsRes.fault | exact KeepsRes.refused | apply keeps_branch | refine KeepsRes.next ?_)

theorem keeps_execJlk {a0 a1 a2 a3} (h3 : Keeps i a3) : KeepsRes i (execJlk a0 a1 a2 a3) := by
  unfold execJlk
  with_reducible repeat' (first
    | assumption | intro _ | exact KeepsRes.fault | exact KeepsRes.refused | apply keeps_coreDo | apply keeps_putCore | refine KeepsRes.next ?_)

theorem keeps_execJlkr {a0 a1 a2 a3 a4} (h4 : Keeps i a4) : KeepsRes i (execJlkr a0 a1 a2 a3 a4) := by
  unfold execJlkr
  with_reducible repeat' (first
    | assumption | intro _ | exact KeepsRes.fault | exact KeepsRes.refused | apply keeps_coreDo | apply keeps_putCore | refine KeepsRes.next ?_)

/-! ### Sys2Proof.Machine.CoreMem -/

theorem keeps_clRead {a0 a1 a2 a3} (h0 : Keeps i a0) : Keeps i (clRead a0 a1 a2 a3).2 := by
  unfold clRead
  extract_lets z0 z1
  refine keeps_cut (i := i) z1 ?_ (fun hz1 => ?_)
  on_goal 1 => unfold z1
  all_goals
    with_reducible repeat' (first
      | assumption | apply keeps_regPut | unfold z0 | refine keeps_foldl ?_ (fun _ _ _ => ?_) | refine keeps_foldl_snd ?_ (fun _ _ _ _ => ?_) | split
      | dsimp only)

theorem keeps_softRaise {a0 a1 a2 a3} (h0 : Keeps i a0) : Keeps i (softRaise a0 a1 a2 a3) := by
  unfold softRaise
  with_reducible repeat' (first
    | assumption | intro _ | apply keeps_pendCore | apply keeps_modCore | refine keeps_ite ?_ ?_ | refine keeps_foldl ?_ (fun _ _ _ => ?_) | split
    | dsimp only)

theorem keeps_access {a0 a1 a2 a3 a4} (h4 : Keeps i a4) : KeepsRes i (access a0 a1 a2 a3 a4) := by
  unfold access
  extract_lets z0 z1 z2 z3 z4
  refine keeps_cut (i := i) z4 ?_ (fun hz4 => ?_)
  on_goal 1 => unfold z4
  all_goals
    with_reducible repeat' (first
      | assumption | exact KeepsRes.fault | exact KeepsRes.refused | apply keeps_raise | apply keeps_retire | apply keeps_storePut | apply keeps_putCore
      | apply keeps_softRaise | apply keeps_clRead | apply keeps_haFault | unfold z3 | refine keeps_ite ?_ ?_ | refine res_ite ?_ ?_
      | refine KeepsRes.next ?_ | refine of_snd (by assumption) ?_ | split | unfold z0 | unfold z1 | unfold z2 | dsimp only)

theorem keeps_load {a0 a1 a2 a3 a4 a5 a6} (h6 : Keeps i a6) : KeepsRes i (load a0 a1 a2 a3 a4 a5 a6) := by
  unfold load
  with_reducible repeat' (first
    | assumption | intro _ | exact KeepsRes.fault | exact KeepsRes.refused | apply keeps_coreDo | apply keeps_access | refine KeepsRes.next ?_)

theorem keeps_store {a0 a1 a2 a3 a4 a5} (h5 : Keeps i a5) : KeepsRes i (store a0 a1 a2 a3 a4 a5) := by
  unfold store
  with_reducible repeat' (first
    | assumption | intro _ | exact KeepsRes.fault | exact KeepsRes.refused | apply keeps_coreDo | apply keeps_access | refine KeepsRes.next ?_)

theorem keeps_execLd8u {a0 a1 a2 a3 a4} (h4 : Keeps i a4) : KeepsRes i (execLd8u a0 a1 a2 a3 a4) := by
  unfold execLd8u
  with_reducible repeat' (first
    | assumption | exact KeepsRes.fault | exact KeepsRes.refused | apply keeps_load | refine KeepsRes.next ?_)

theorem keeps_execLd16u {a0 a1 a2 a3 a4} (h4 : Keeps i a4) : KeepsRes i (execLd16u a0 a1 a2 a3 a4) := by
  unfold execLd16u
  with_reducible repeat' (first
    | assumption | exact KeepsRes.fault | exact KeepsRes.refused | apply keeps_load | refine KeepsRes.next ?_)

theorem keeps_execLd32u {a0 a1 a2 a3 a4} (h4 : Keeps i a4) : KeepsRes i (execLd32u a0 a1 a2 a3 a4) := by
  unfold execLd32u
  with_reducible repeat' (first
    | assumption | exact KeepsRes.fault | exact KeepsRes.refused | apply keeps_load | refine KeepsRes.next ?_)

theorem keeps_execLd64 {a0 a1 a2 a3 a4} (h4 : Keeps i a4) : KeepsRes i (execLd64 a0 a1 a2 a3 a4) := by
  unfold execLd64
  with_reducible repeat' (first
    | assumption | exact KeepsRes.fault | exact KeepsRes.refused | apply keeps_load | refine KeepsRes.next ?_)

theorem keeps_execLd8s {a0 a1 a2 a3 a4} (h4 : Keeps i a4) : KeepsRes i (execLd8s a0 a1 a2 a3 a4) := by
  unfold execLd8s
  with_reducible repeat' (first
    | assumption | exact KeepsRes.fault | exact KeepsRes.refused | apply keeps_load | refine KeepsRes.next ?_)

theorem keeps_execLd16s {a0 a1 a2 a3 a4} (h4 : Keeps i a4) : KeepsRes i (execLd16s a0 a1 a2 a3 a4) := by
  unfold execLd16s
  with_reducible repeat' (first
    | assumption | exact KeepsRes.fault | exact KeepsRes.refused | apply keeps_load | refine KeepsRes.next ?_)

theorem keeps_execLd32s {a0 a1 a2 a3 a4} (h4 : Keeps i a4) : KeepsRes i (execLd32s a0 a1 a2 a3 a4) := by
  unfold execLd32s
  with_reducible repeat' (first
    | assumption | exact KeepsRes.fault | exact KeepsRes.refused | apply keeps_load | refine KeepsRes.next ?_)

theorem keeps_execSt8 {a0 a1 a2 a3 a4} (h4 : Keeps i a4) : KeepsRes i (execSt8 a0 a1 a2 a3 a4) := by
  unfold execSt8
  with_reducible repeat' (first
    | assumption | exact KeepsRes.fault | exact KeepsRes.refused | apply keeps_store | refine KeepsRes.next ?_)

theorem keeps_execSt16 {a0 a1 a2 a3 a4} (h4 : Keeps i a4) : KeepsRes i (execSt16 a0 a1 a2 a3 a4) := by
  unfold execSt16
  with_reducible repeat' (first
    | assumption | exact KeepsRes.fault | exact KeepsRes.refused | apply keeps_store | refine KeepsRes.next ?_)

theorem keeps_execSt32 {a0 a1 a2 a3 a4} (h4 : Keeps i a4) : KeepsRes i (execSt32 a0 a1 a2 a3 a4) := by
  unfold execSt32
  with_reducible repeat' (first
    | assumption | exact KeepsRes.fault | exact KeepsRes.refused | apply keeps_store | refine KeepsRes.next ?_)

theorem keeps_execSt64 {a0 a1 a2 a3 a4} (h4 : Keeps i a4) : KeepsRes i (execSt64 a0 a1 a2 a3 a4) := by
  unfold execSt64
  with_reducible repeat' (first
    | assumption | exact KeepsRes.fault | exact KeepsRes.refused | apply keeps_store | refine KeepsRes.next ?_)

theorem keeps_execVld {a0 a1 a2 a3 a4} (h4 : Keeps i a4) : KeepsRes i (execVld a0 a1 a2 a3 a4) := by
  unfold execVld
  with_reducible repeat' (first
    | assumption | intro _ | exact KeepsRes.fault | exact KeepsRes.refused | apply keeps_coreDo | apply keeps_illegal | apply keeps_access
    | refine keeps_ite ?_ ?_ | refine res_ite ?_ ?_ | refine KeepsRes.next ?_ | split)

theorem keeps_execVst {a0 a1 a2 a3 a4} (h4 : Keeps i a4) : KeepsRes i (execVst a0 a1 a2 a3 a4) := by
  unfold execVst
  with_reducible repeat' (first
    | assumption | intro _ | exact KeepsRes.fault | exact KeepsRes.refused | apply keeps_coreDo | apply keeps_illegal | apply keeps_access
    | refine keeps_ite ?_ ?_ | refine res_ite ?_ ?_ | refine KeepsRes.next ?_ | split)

/-! ### Sys2Proof.Machine.CoreVec -/

theorem keeps_vop2 {a0 a1 a2 a3 a4 a5} (h4 : Keeps i a4) : KeepsRes i (vop2 a0 a1 a2 a3 a4 a5) := by
  unfold vop2
  with_reducible repeat' (first
    | assumption | intro _ | exact KeepsRes.fault | exact KeepsRes.refused | apply keeps_coreRegs | refine KeepsRes.next ?_)

theorem keeps_execVadd32 {a0 a1 a2 a3 a4} (h4 : Keeps i a4) : KeepsRes i (execVadd32 a0 a1 a2 a3 a4) := by
  unfold execVadd32
  with_reducible repeat' (first
    | assumption | intro _ | exact KeepsRes.fault | exact KeepsRes.refused | apply keeps_vop2 | refine KeepsRes.next ?_)

theorem keeps_execVsub32 {a0 a1 a2 a3 a4} (h4 : Keeps i a4) : KeepsRes i (execVsub32 a0 a1 a2 a3 a4) := by
  unfold execVsub32
  with_reducible repeat' (first
    | assumption | intro _ | exact KeepsRes.fault | exact KeepsRes.refused | apply keeps_vop2 | refine KeepsRes.next ?_)

theorem keeps_execVmul32 {a0 a1 a2 a3 a4} (h4 : Keeps i a4) : KeepsRes i (execVmul32 a0 a1 a2 a3 a4) := by
  unfold execVmul32
  with_reducible repeat' (first
    | assumption | intro _ | exact KeepsRes.fault | exact KeepsRes.refused | apply keeps_vop2 | refine KeepsRes.next ?_)

theorem keeps_execFadd {a0 a1 a2 a3 a4} (h4 : Keeps i a4) : KeepsRes i (execFadd a0 a1 a2 a3 a4) := by
  unfold execFadd
  with_reducible repeat' (first
    | assumption | intro _ | exact KeepsRes.fault | exact KeepsRes.refused | apply keeps_vop2 | refine KeepsRes.next ?_)

theorem keeps_execFsub {a0 a1 a2 a3 a4} (h4 : Keeps i a4) : KeepsRes i (execFsub a0 a1 a2 a3 a4) := by
  unfold execFsub
  with_reducible repeat' (first
    | assumption | intro _ | exact KeepsRes.fault | exact KeepsRes.refused | apply keeps_vop2 | refine KeepsRes.next ?_)

theorem keeps_execFmul {a0 a1 a2 a3 a4} (h4 : Keeps i a4) : KeepsRes i (execFmul a0 a1 a2 a3 a4) := by
  unfold execFmul
  with_reducible repeat' (first
    | assumption | intro _ | exact KeepsRes.fault | exact KeepsRes.refused | apply keeps_vop2 | refine KeepsRes.next ?_)

theorem keeps_execFma {a0 a1 a2 a3 a4} (h4 : Keeps i a4) : KeepsRes i (execFma a0 a1 a2 a3 a4) := by
  unfold execFma
  with_reducible repeat' (first
    | assumption | intro _ | exact KeepsRes.fault | exact KeepsRes.refused | apply keeps_coreRegs | refine KeepsRes.next ?_)

theorem keeps_minMax {a0 a1 a2 a3 a4 a5} (h5 : Keeps i a5) : KeepsRes i (minMax a0 a1 a2 a3 a4 a5) := by
  unfold minMax
  with_reducible repeat' (first
    | assumption | intro _ | exact KeepsRes.fault | exact KeepsRes.refused | apply keeps_coreDo | apply keeps_draw | apply keeps_retire
    | refine keeps_ite ?_ ?_ | refine res_ite ?_ ?_ | refine KeepsRes.next ?_ | refine of_snd (by assumption) ?_ | split | dsimp only)

theorem keeps_execFmin {a0 a1 a2 a3 a4} (h4 : Keeps i a4) : KeepsRes i (execFmin a0 a1 a2 a3 a4) := by
  unfold execFmin
  with_reducible repeat' (first
    | assumption | exact KeepsRes.fault | exact KeepsRes.refused | apply keeps_minMax | refine KeepsRes.next ?_)

theorem keeps_execFmax {a0 a1 a2 a3 a4} (h4 : Keeps i a4) : KeepsRes i (execFmax a0 a1 a2 a3 a4) := by
  unfold execFmax
  with_reducible repeat' (first
    | assumption | exact KeepsRes.fault | exact KeepsRes.refused | apply keeps_minMax | refine KeepsRes.next ?_)

theorem keeps_execVand {a0 a1 a2 a3 a4} (h4 : Keeps i a4) : KeepsRes i (execVand a0 a1 a2 a3 a4) := by
  unfold execVand
  with_reducible repeat' (first
    | assumption | intro _ | exact KeepsRes.fault | exact KeepsRes.refused | apply keeps_coreRegs | refine KeepsRes.next ?_)

theorem keeps_execVor {a0 a1 a2 a3 a4} (h4 : Keeps i a4) : KeepsRes i (execVor a0 a1 a2 a3 a4) := by
  unfold execVor
  with_reducible repeat' (first
    | assumption | intro _ | exact KeepsRes.fault | exact KeepsRes.refused | apply keeps_coreRegs | refine KeepsRes.next ?_)

theorem keeps_execVxor {a0 a1 a2 a3 a4} (h4 : Keeps i a4) : KeepsRes i (execVxor a0 a1 a2 a3 a4) := by
  unfold execVxor
  with_reducible repeat' (first
    | assumption | intro _ | exact KeepsRes.fault | exact KeepsRes.refused | apply keeps_coreRegs | refine KeepsRes.next ?_)

theorem keeps_execVins {a0 a1 a2 a3 a4} (h4 : Keeps i a4) : KeepsRes i (execVins a0 a1 a2 a3 a4) := by
  unfold execVins
  with_reducible repeat' (first
    | assumption | intro _ | exact KeepsRes.fault | exact KeepsRes.refused | apply keeps_coreRegs | refine keeps_ite ?_ ?_ | refine res_ite ?_ ?_
    | refine KeepsRes.next ?_ | split)

theorem keeps_execVext {a0 a1 a2 a3 a4} (h4 : Keeps i a4) : KeepsRes i (execVext a0 a1 a2 a3 a4) := by
  unfold execVext
  with_reducible repeat' (first
    | assumption | intro _ | exact KeepsRes.fault | exact KeepsRes.refused | apply keeps_coreRegs | refine KeepsRes.next ?_)

theorem keeps_execVsplat {a0 a1 a2 a3} (h3 : Keeps i a3) : KeepsRes i (execVsplat a0 a1 a2 a3) := by
  unfold execVsplat
  with_reducible repeat' (first
    | assumption | intro _ | exact KeepsRes.fault | exact KeepsRes.refused | apply keeps_coreRegs | refine KeepsRes.next ?_)

theorem keeps_execCvtI2f {a0 a1 a2 a3} (h3 : Keeps i a3) : KeepsRes i (execCvtI2f a0 a1 a2 a3) := by
  unfold execCvtI2f
  with_reducible repeat' (first
    | assumption | intro _ | exact KeepsRes.fault | exact KeepsRes.refused | apply keeps_coreRegs | refine KeepsRes.next ?_)

theorem keeps_execCvtF2i {a0 a1 a2 a3} (h3 : Keeps i a3) : KeepsRes i (execCvtF2i a0 a1 a2 a3) := by
  unfold execCvtF2i
  with_reducible repeat' (first
    | assumption | intro _ | exact KeepsRes.fault | exact KeepsRes.refused | apply keeps_coreRegs | refine KeepsRes.next ?_)

theorem keeps_execNdot {a0 a1 a2 a3 a4 a5} (h5 : Keeps i a5) : KeepsRes i (execNdot a0 a1 a2 a3 a4 a5) := by
  unfold execNdot
  with_reducible repeat' (first
    | assumption | intro _ | exact KeepsRes.fault | exact KeepsRes.refused | apply keeps_coreDo | apply keeps_illegal | apply keeps_retire
    | refine keeps_ite ?_ ?_ | refine res_ite ?_ ?_ | refine KeepsRes.next ?_ | refine keeps_foldl ?_ (fun _ _ _ => ?_) | split | dsimp only)

theorem keeps_execNcvt {a0 a1 a2 a3 a4} (h4 : Keeps i a4) : KeepsRes i (execNcvt a0 a1 a2 a3 a4) := by
  unfold execNcvt
  with_reducible repeat' (first
    | assumption | intro _ | exact KeepsRes.fault | exact KeepsRes.refused | apply keeps_coreDo | apply keeps_illegal | apply keeps_bump
    | apply keeps_retire | refine keeps_ite ?_ ?_ | refine res_ite ?_ ?_ | refine KeepsRes.next ?_ | split | dsimp only)

theorem keeps_execNexp {a0 a1 a2 a3 a4} (h4 : Keeps i a4) : KeepsRes i (execNexp a0 a1 a2 a3 a4) := by
  unfold execNexp
  with_reducible repeat' (first
    | assumption | intro _ | exact KeepsRes.fault | exact KeepsRes.refused | apply keeps_coreDo | apply keeps_illegal | apply keeps_retire
    | refine keeps_ite ?_ ?_ | refine res_ite ?_ ?_ | refine KeepsRes.next ?_ | split | dsimp only)

/-! ### Sys2Proof.Machine.CoreHub -/

theorem keeps_execRcall {a0 a1} (h1 : Keeps i a1) : KeepsRes i (execRcall a0 a1) := by
  unfold execRcall
  with_reducible repeat' (first
    | assumption | intro _ | exact KeepsRes.fault | exact KeepsRes.refused | apply keeps_coreDo | apply keeps_raise | refine keeps_ite ?_ ?_
    | refine res_ite ?_ ?_ | refine KeepsRes.next ?_ | split)

theorem keeps_execTret {a0 a1} (h1 : Keeps i a1) : KeepsRes i (execTret a0 a1) := by
  unfold execTret
  with_reducible repeat' (first
    | assumption | intro _ | exact KeepsRes.fault | exact KeepsRes.refused | apply keeps_coreDo | apply keeps_illegal | apply keeps_putCore
    | refine keeps_ite ?_ ?_ | refine res_ite ?_ ?_ | refine KeepsRes.next ?_ | split)

theorem keeps_execSleep {a0 a1} (h1 : Keeps i a1) : KeepsRes i (execSleep a0 a1) := by
  unfold execSleep
  with_reducible repeat' (first
    | assumption | intro _ | exact KeepsRes.fault | exact KeepsRes.refused | apply keeps_coreDo | apply keeps_illegal | apply keeps_retire
    | apply keeps_putCore | refine keeps_ite ?_ ?_ | refine res_ite ?_ ?_ | refine KeepsRes.next ?_ | split)

theorem keeps_execIclr {a0 a1} (h1 : Keeps i a1) : KeepsRes i (execIclr a0 a1) := by
  unfold execIclr
  with_reducible repeat' (first
    | assumption | intro _ | exact KeepsRes.fault | exact KeepsRes.refused | apply keeps_coreRegs | refine KeepsRes.next ?_)

theorem keeps_execDbgstop {a0 a1} (h1 : Keeps i a1) : KeepsRes i (execDbgstop a0 a1) := by
  unfold execDbgstop
  with_reducible repeat' (first
    | assumption | intro _ | exact KeepsRes.fault | exact KeepsRes.refused | apply keeps_coreDo | apply keeps_raise | refine KeepsRes.next ?_)

theorem keeps_execCcrr {a0 a1 a2 a3} (h3 : Keeps i a3) : KeepsRes i (execCcrr a0 a1 a2 a3) := by
  unfold execCcrr
  with_reducible repeat' (first
    | assumption | intro _ | exact KeepsRes.fault | exact KeepsRes.refused | apply keeps_coreDo | apply keeps_retire | apply keeps_illegal
    | refine keeps_ite ?_ ?_ | refine res_ite ?_ ?_ | refine KeepsRes.next ?_ | split | dsimp only)

theorem keeps_execCcrw {a0 a1 a2 a3 a4} (h4 : Keeps i a4) : KeepsRes i (execCcrw a0 a1 a2 a3 a4) := by
  unfold execCcrw
  with_reducible repeat' (first
    | assumption | intro _ | exact KeepsRes.fault | exact KeepsRes.refused | apply keeps_coreDo | apply keeps_retire | apply keeps_illegal
    | refine keeps_ite ?_ ?_ | refine res_ite ?_ ?_ | refine KeepsRes.next ?_ | split | dsimp only)

theorem keeps_tallyDo {a0 a1 a2 a3 a4 a5 a6} (h0 : Keeps i a0) : Keeps i (tallyDo a0 a1 a2 a3 a4 a5 a6) := by
  unfold tallyDo
  extract_lets z0 z1 z2 z3 z4
  refine keeps_cut (i := i) z2 ?_ (fun hz2 => ?_)
  on_goal 1 => unfold z2
  all_goals
    with_reducible repeat' (first
      | assumption | apply keeps_tallyAdd | apply keeps_putCore | refine keeps_ite ?_ ?_ | split | unfold z0 | unfold z1 | unfold z3 | unfold z4
      | dsimp only)

theorem keeps_clusterCommit {a0 a1} (h0 : Keeps i a0) : Keeps i (clusterCommit a0 a1) := by
  unfold clusterCommit
  extract_lets z0 z1 z2 z3
  refine keeps_cut (i := i) z1 ?_ (fun hz1 => keeps_cut (i := i) z2 ?_ (fun hz2 => keeps_cut (i := i) z3 ?_ (fun hz3 => ?_)))
  on_goal 1 => unfold z1
  on_goal 2 => unfold z2
  on_goal 3 => unfold z3
  all_goals
    with_reducible repeat' (first
      | assumption | intro _ | apply keeps_putCluster | apply keeps_modCore | apply keeps_bump | apply keeps_commitStep | apply keeps_clusterNext
      | refine keeps_ite ?_ ?_ | refine keeps_foldl ?_ (fun _ _ _ => ?_) | split | unfold z0 | dsimp only)

theorem keeps_coreReport {a0 a1 a2} (h0 : Keeps i a0) : Keeps i (coreReport a0 a1 a2) := by
  unfold coreReport
  extract_lets z0 z1 z2
  refine keeps_cut (i := i) z1 ?_ (fun hz1 => keeps_cut (i := i) z2 ?_ (fun hz2 => ?_))
  on_goal 1 => unfold z1
  on_goal 2 => unfold z2
  all_goals
    with_reducible repeat' (first
      | assumption | intro _ | apply keeps_modCore | apply keeps_modCluster | apply keeps_clusterCommit | refine keeps_ite ?_ ?_ | split | unfold z0
      | dsimp only)

theorem keeps_drainCore {a0 a1} (h0 : Keeps i a0) : Keeps i (drainCore a0 a1) := by
  unfold drainCore
  extract_lets z0
  with_reducible repeat' (first
    | assumption | apply keeps_putCore | apply keeps_tallyDo | apply keeps_coreReport | refine keeps_ite ?_ ?_ | split | unfold z0 | dsimp only)

theorem keeps_drainStart {a0 a1 a2 a3 a4 a5} (h0 : Keeps i a0) : Keeps i (drainStart a0 a1 a2 a3 a4 a5) := by
  unfold drainStart
  extract_lets z0 z1
  with_reducible repeat' (first
    | assumption | apply keeps_drainCore | apply keeps_putCore | unfold z0 | unfold z1 | dsimp only)

theorem keeps_tally {a0 a1 a2 a3 a4 a5 a6 a7} (h7 : Keeps i a7) : KeepsRes i (tally a0 a1 a2 a3 a4 a5 a6 a7) := by
  unfold tally
  extract_lets z0 z1
  with_reducible repeat' (first
    | assumption | intro _ | exact KeepsRes.fault | exact KeepsRes.refused | apply keeps_coreDo | apply keeps_illegal | apply keeps_raise
    | apply keeps_drainStart | apply keeps_tallyDo | refine keeps_ite ?_ ?_ | refine res_ite ?_ ?_ | refine KeepsRes.next ?_ | split | unfold z0
    | unfold z1 | dsimp only)

theorem keeps_execTallyRead {a0 a1 a2 a3 a4 a5} (h5 : Keeps i a5) : KeepsRes i (execTallyRead a0 a1 a2 a3 a4 a5) := by
  unfold execTallyRead
  with_reducible repeat' (first
    | assumption | exact KeepsRes.fault | exact KeepsRes.refused | apply keeps_tally | refine KeepsRes.next ?_)

theorem keeps_execTallyAdd {a0 a1 a2 a3 a4 a5} (h5 : Keeps i a5) : KeepsRes i (execTallyAdd a0 a1 a2 a3 a4 a5) := by
  unfold execTallyAdd
  with_reducible repeat' (first
    | assumption | exact KeepsRes.fault | exact KeepsRes.refused | apply keeps_tally | refine KeepsRes.next ?_)

theorem keeps_execTallyWaitGe {a0 a1 a2 a3 a4 a5} (h5 : Keeps i a5) : KeepsRes i (execTallyWaitGe a0 a1 a2 a3 a4 a5) := by
  unfold execTallyWaitGe
  with_reducible repeat' (first
    | assumption | exact KeepsRes.fault | exact KeepsRes.refused | apply keeps_tally | refine KeepsRes.next ?_)

theorem keeps_execTallyWaitRelease {a0 a1} (h1 : Keeps i a1) : KeepsRes i (execTallyWaitRelease a0 a1) := by
  unfold execTallyWaitRelease
  with_reducible repeat' (first
    | assumption | exact KeepsRes.fault | exact KeepsRes.refused | apply keeps_tallyDo | refine keeps_ite ?_ ?_ | refine res_ite ?_ ?_
    | refine KeepsRes.next ?_ | split | dsimp only)

theorem keeps_execFlush {a0 a1 a2 a3 a4 a5} (h5 : Keeps i a5) : KeepsRes i (execFlush a0 a1 a2 a3 a4 a5) := by
  unfold execFlush
  extract_lets z0
  with_reducible repeat' (first
    | assumption | intro _ | exact KeepsRes.fault | exact KeepsRes.refused | apply keeps_coreDo | apply keeps_illegal | apply keeps_drainStart
    | refine keeps_ite ?_ ?_ | refine res_ite ?_ ?_ | refine KeepsRes.next ?_ | split | unfold z0 | dsimp only)

theorem keeps_execAcq {a0 a1 a2 a3 a4 a5} (h5 : Keeps i a5) : KeepsRes i (execAcq a0 a1 a2 a3 a4 a5) := by
  unfold execAcq
  extract_lets z0
  with_reducible repeat' (first
    | assumption | intro _ | exact KeepsRes.fault | exact KeepsRes.refused | apply keeps_coreDo | apply keeps_illegal | apply keeps_drainStart
    | refine keeps_ite ?_ ?_ | refine res_ite ?_ ?_ | refine KeepsRes.next ?_ | split | unfold z0 | dsimp only)

theorem keeps_execStepDone {a0 a1 a2} (h2 : Keeps i a2) : KeepsRes i (execStepDone a0 a1 a2) := by
  unfold execStepDone
  with_reducible repeat' (first
    | assumption | intro _ | exact KeepsRes.fault | exact KeepsRes.refused | apply keeps_coreDo | apply keeps_illegal | apply keeps_drainStart
    | refine keeps_ite ?_ ?_ | refine res_ite ?_ ?_ | refine KeepsRes.next ?_ | split)

theorem keeps_moveFault {a0 a1 a2 a3 a4 a5} (h0 : Keeps i a0) : Keeps i (moveFault a0 a1 a2 a3 a4 a5) := by
  unfold moveFault
  with_reducible repeat' (first
    | assumption | apply keeps_rangeFault | refine keeps_ite ?_ ?_ | refine keeps_foldl ?_ (fun _ _ _ => ?_) | split | dsimp only
    | fail_if_no_progress (refine keeps_mk ?_ rfl rfl))

theorem keeps_movePut {a0 a1 a2 a3} (h0 : Keeps i a0) : Keeps i (movePut a0 a1 a2 a3) := by
  unfold movePut
  with_reducible repeat' (first
    | assumption | intro _ | apply keeps_storePut | apply keeps_modCore | split | dsimp only)

theorem keeps_movePiece {a0 a1 a2 a3} (h0 : Keeps i a0) : Keeps i (movePiece a0 a1 a2 a3) := by
  unfold movePiece
  extract_lets z0 z1
  refine keeps_cut (i := i) z0 ?_ (fun hz0 => ?_)
  on_goal 1 => unfold z0
  all_goals
    with_reducible repeat' (first
      | assumption | intro _ | apply keeps_movePut | apply keeps_modCore | refine keeps_ite ?_ ?_ | split | unfold z1 | dsimp only)

theorem keeps_execBmove {a0 a1 a2 a3 a4 a5} (h5 : Keeps i a5) : KeepsRes i (execBmove a0 a1 a2 a3 a4 a5) := by
  unfold execBmove
  extract_lets z0
  with_reducible repeat' (first
    | assumption | exact KeepsRes.fault | exact KeepsRes.refused | intro _ | apply keeps_coreDo | apply keeps_illegal | apply keeps_retire
    | apply keeps_ok | apply keeps_raise | apply keeps_moveFault | apply keeps_putCore | apply keeps_drainStart | apply keeps_movePiece
    | refine res_ite ?_ ?_ | refine KeepsRes.next ?_ | refine keeps_ite ?_ ?_ | refine keeps_foldl ?_ (fun _ _ _ => ?_)
    | refine keeps_foldl_fst ?_ (fun _ _ _ _ => ?_) | refine keeps_foldl_snd ?_ (fun _ _ _ _ => ?_) | refine opt_foldl ?_ (fun _ _ _ => ?_)
    | refine of_next (by assumption) ?_ | split | unfold z0 | dsimp only | fail_if_no_progress (refine keeps_mk ?_ rfl rfl))

theorem keeps_execCmaIssue {a0 a1 a2 a3} (h3 : Keeps i a3) : KeepsRes i (execCmaIssue a0 a1 a2 a3) := by
  unfold execCmaIssue
  extract_lets z0
  with_reducible repeat' (first
    | assumption | intro _ | exact KeepsRes.fault | exact KeepsRes.refused | apply keeps_coreDo | apply keeps_raise | apply keeps_putCore
    | apply keeps_modCluster | apply keeps_retire | refine keeps_ite ?_ ?_ | refine res_ite ?_ ?_ | refine KeepsRes.next ?_ | split | unfold z0
    | dsimp only)

theorem keeps_execCmaWait {a0 a1 a2 a3} (h3 : Keeps i a3) : KeepsRes i (execCmaWait a0 a1 a2 a3) := by
  unfold execCmaWait
  with_reducible repeat' (first
    | assumption | intro _ | exact KeepsRes.fault | exact KeepsRes.refused | apply keeps_coreDo | apply keeps_putCore | apply keeps_retire
    | refine KeepsRes.next ?_ | split | dsimp only)

theorem keeps_execCmaPoll {a0 a1 a2 a3} (h3 : Keeps i a3) : KeepsRes i (execCmaPoll a0 a1 a2 a3) := by
  unfold execCmaPoll
  with_reducible repeat' (first
    | assumption | intro _ | exact KeepsRes.fault | exact KeepsRes.refused | apply keeps_coreRegs | refine KeepsRes.next ?_)

theorem keeps_execCmaWaitRelease {a0 a1} (h1 : Keeps i a1) : KeepsRes i (execCmaWaitRelease a0 a1) := by
  unfold execCmaWaitRelease
  extract_lets z0
  with_reducible repeat' (first
    | assumption | exact KeepsRes.fault | exact KeepsRes.refused | apply keeps_putCore | refine KeepsRes.next ?_ | split | unfold z0 | dsimp only)

/-! ### Sys2Proof.Machine.CoreEvents -/

theorem keeps_tagSettled {a0 a1 a2 a3} (h0 : Keeps i a0) : Keeps i (tagSettled a0 a1 a2 a3) := by
  unfold tagSettled
  extract_lets z0
  refine keeps_cut (i := i) z0 ?_ (fun hz0 => ?_)
  on_goal 1 => unfold z0
  all_goals
    with_reducible repeat' (first
      | assumption | intro _ | apply keeps_modCore | apply keeps_drainCore | refine keeps_ite ?_ ?_ | split | dsimp only)

theorem keeps_cmaFinish {a0 a1 a2 a3} (h0 : Keeps i a0) : Keeps i (cmaFinish a0 a1 a2 a3) := by
  unfold cmaFinish
  with_reducible repeat' (first
    | assumption | apply keeps_modCluster | refine keeps_ite ?_ ?_ | refine keeps_foldl ?_ (fun _ _ _ => ?_) | split | dsimp only
    | fail_if_no_progress (refine keeps_mk ?_ rfl rfl))

theorem keeps_cmaWriteOut {a0 a1 a2 a3} (h0 : Keeps i a0) : Keeps i (cmaWriteOut a0 a1 a2 a3) := by
  unfold cmaWriteOut
  with_reducible repeat' (first
    | assumption | apply keeps_storePut | refine keeps_ite ?_ ?_ | refine keeps_foldl ?_ (fun _ _ _ => ?_) | split | dsimp only
    | fail_if_no_progress (refine keeps_mk ?_ rfl rfl))

theorem keeps_execCmaCommandDone {a0 a1} (h1 : Keeps i a1) : KeepsRes i (execCmaCommandDone a0 a1) := by
  unfold execCmaCommandDone
  extract_lets z0
  with_reducible repeat' (first
    | assumption | exact KeepsRes.fault | exact KeepsRes.refused | apply keeps_notDue | apply keeps_putCluster | apply keeps_ok
    | apply keeps_tagSettled | apply keeps_bump | apply keeps_cmaWriteOut | apply keeps_cmaFinish | refine res_ite ?_ ?_ | refine KeepsRes.next ?_
    | refine keeps_ite ?_ ?_ | refine keeps_foldl ?_ (fun _ _ _ => ?_) | refine of_next (by assumption) ?_ | split | unfold z0 | dsimp only
    | fail_if_no_progress (refine keeps_mk ?_ rfl rfl))

theorem keeps_execTakeInterrupt {a0 a1} (h1 : Keeps i a1) : KeepsRes i (execTakeInterrupt a0 a1) := by
  unfold execTakeInterrupt
  extract_lets z0 z1
  with_reducible repeat' (first
    | assumption | exact KeepsRes.fault | exact KeepsRes.refused | apply keeps_putCore | refine keeps_ite ?_ ?_ | refine res_ite ?_ ?_
    | refine KeepsRes.next ?_ | split | unfold z0 | unfold z1 | dsimp only)

theorem keeps_execTimerExpiry {a0 a1} (h1 : Keeps i a1) : KeepsRes i (execTimerExpiry a0 a1) := by
  unfold execTimerExpiry
  extract_lets z0
  with_reducible repeat' (first
    | assumption | exact KeepsRes.fault | exact KeepsRes.refused | apply keeps_pendCore | apply keeps_advance | refine keeps_ite ?_ ?_
    | refine res_ite ?_ ?_ | refine KeepsRes.next ?_ | split | unfold z0 | dsimp only)

theorem keeps_execSoftRaise {a0 a1 a2} (h2 : Keeps i a2) : KeepsRes i (execSoftRaise a0 a1 a2) := by
  unfold execSoftRaise
  with_reducible repeat' (first
    | assumption | exact KeepsRes.fault | exact KeepsRes.refused | apply keeps_draw | apply keeps_softRaise | refine KeepsRes.next ?_
    | refine of_snd (by assumption) ?_ | split | dsimp only)

theorem keeps_l0Install {a0 a1 a2} (h0 : Keeps i a0) : KeepsOptL i (l0Install a0 a1 a2) := by
  unfold l0Install
  extract_lets z0
  with_reducible repeat' (first
    | assumption | exact KeepsOptL.none | apply keeps_draw | refine keeps_ite ?_ ?_ | refine KeepsOptL.some ?_ | refine of_snd (by assumption) ?_
    | split | unfold z0 | dsimp only)

theorem keeps_readFails {a0 a1 a2 a3} (h0 : Keeps i a0) : Keeps i (readFails a0 a1 a2 a3) := by
  unfold readFails
  extract_lets z0
  refine keeps_cut (i := i) z0 ?_ (fun hz0 => ?_)
  on_goal 1 => unfold z0
  all_goals
    with_reducible repeat' (first
      | assumption | intro _ | apply keeps_raise | apply keeps_clusterLatch | apply keeps_modCore | refine keeps_ite ?_ ?_ | split | dsimp only)

theorem keeps_dropAnswer {a0 a1} (h0 : Keeps i a0) : Keeps i (dropAnswer a0 a1) := by
  unfold dropAnswer
  extract_lets z0
  with_reducible repeat' (first
    | assumption | unfold z0 | dsimp only | fail_if_no_progress (refine keeps_mk ?_ rfl rfl))

theorem keeps_execL0FillReturn {a0 a1} (h1 : Keeps i a1) : KeepsRes i (execL0FillReturn a0 a1) := by
  unfold execL0FillReturn
  extract_lets z0 z1
  with_reducible repeat' (first
    | assumption | exact KeepsRes.fault | exact KeepsRes.refused | apply keeps_dropAnswer | apply keeps_bump | apply keeps_readFails
    | apply keeps_l0Install | apply keeps_putCore | apply keeps_movePiece | refine keeps_ite ?_ ?_ | refine res_ite ?_ ?_ | refine KeepsRes.next ?_
    | refine of_someL (by assumption) ?_ | split | unfold z0 | unfold z1 | dsimp only)

theorem keeps_trackerFreed {a0 a1} (h0 : Keeps i a0) : Keeps i (trackerFreed a0 a1) := by
  unfold trackerFreed
  extract_lets z0
  with_reducible repeat' (first
    | assumption | apply keeps_putCore | apply keeps_drainCore | refine keeps_ite ?_ ?_ | split | unfold z0 | dsimp only)

theorem keeps_execWriteAccepted {a0 a1} (h1 : Keeps i a1) : KeepsRes i (execWriteAccepted a0 a1) := by
  unfold execWriteAccepted
  extract_lets z0
  with_reducible repeat' (first
    | assumption | intro _ | exact KeepsRes.fault | exact KeepsRes.refused | apply keeps_dropAnswer | apply keeps_clusterLatch | apply keeps_modCore
    | apply keeps_trackerFreed | refine keeps_ite ?_ ?_ | refine res_ite ?_ ?_ | refine KeepsRes.next ?_ | split | unfold z0 | dsimp only)

theorem keeps_startCore {a0 a1 a2 a3} (h0 : Keeps i a0) : Keeps i (startCore a0 a1 a2 a3) := by
  unfold startCore
  extract_lets z0 z1
  with_reducible repeat' (first
    | assumption | intro _ | apply keeps_modCore | unfold z1 | refine keeps_ite ?_ ?_ | refine keeps_foldl ?_ (fun _ _ _ => ?_) | split | unfold z0
    | dsimp only)

theorem keeps_bootCluster {a0 a1} (h0 : Keeps i a0) : Keeps i (bootCluster a0 a1) := by
  unfold bootCluster
  extract_lets z0 z1 z2 z3 z4 z5 z6 z7 z8
  refine keeps_cut (i := i) z4 ?_ (fun hz4 => keeps_cut (i := i) z5 ?_ (fun hz5 => keeps_cut (i := i) z6 ?_ (fun hz6 => keeps_cut (i := i) z7 ?_ (fun hz7 => keeps_cut (i := i) z8 ?_ (fun hz8 => ?_)))))
  on_goal 1 => unfold z4
  on_goal 2 => unfold z5
  on_goal 3 => unfold z6
  on_goal 4 => unfold z7
  on_goal 5 => unfold z8
  all_goals
    with_reducible repeat' (first
      | assumption | intro _ | apply keeps_storePut | apply keeps_modCluster | apply keeps_startCore | apply keeps_modCore | apply keeps_setStatus
      | refine keeps_ite ?_ ?_ | refine keeps_foldl ?_ (fun _ _ _ => ?_) | split | unfold z0 | unfold z1 | unfold z2 | unfold z3 | dsimp only)

theorem keeps_execWaveRelease {a0 a1} (h1 : Keeps i a1) : KeepsRes i (execWaveRelease a0 a1) := by
  unfold execWaveRelease
  with_reducible repeat' (first
    | assumption | exact KeepsRes.fault | exact KeepsRes.refused | apply keeps_advance | apply keeps_bootCluster | refine keeps_ite ?_ ?_
    | refine res_ite ?_ ?_ | refine KeepsRes.next ?_ | refine keeps_foldl ?_ (fun _ _ _ => ?_) | split | dsimp only
    | fail_if_no_progress (refine keeps_mk ?_ rfl rfl))

theorem keeps_spareStart {a0 a1 a2} (h0 : Keeps i a0) : Keeps i (spareStart a0 a1 a2) := by
  unfold spareStart
  extract_lets z0 z1 z2
  refine keeps_cut (i := i) z2 ?_ (fun hz2 => ?_)
  on_goal 1 => unfold z2
  all_goals
    with_reducible repeat' (first
      | assumption | apply keeps_putCore | apply keeps_startCore | refine keeps_ite ?_ ?_ | refine keeps_foldl ?_ (fun _ _ _ => ?_) | split
      | unfold z0 | unfold z1 | dsimp only | fail_if_no_progress (refine keeps_mk ?_ rfl rfl))

theorem keeps_clusterOut {a0 a1} (h0 : Keeps i a0) : Keeps i (clusterOut a0 a1) := by
  unfold clusterOut
  extract_lets z0 z1
  refine keeps_cut (i := i) z0 ?_ (fun hz0 => keeps_cut (i := i) z1 ?_ (fun hz1 => ?_))
  on_goal 1 => unfold z0
  on_goal 2 => unfold z1
  all_goals
    with_reducible repeat' (first
      | assumption | intro _ | apply keeps_modCluster | apply keeps_setStatus | apply keeps_breakSteps | split | dsimp only)

theorem keeps_killTags {a0 a1} (h0 : Keeps i a0) : Keeps i (killTags a0 a1) := by
  unfold killTags
  extract_lets z0
  refine keeps_cut (i := i) z0 ?_ (fun hz0 => ?_)
  on_goal 1 => unfold z0
  all_goals
    with_reducible repeat' (first
      | assumption | apply keeps_modCluster | apply keeps_modCore | refine keeps_ite ?_ ?_ | refine keeps_foldl ?_ (fun _ _ _ => ?_) | split
      | dsimp only | fail_if_no_progress (refine keeps_mk ?_ rfl rfl))

theorem keeps_coreFault {a0 a1} (h0 : Keeps i a0) : Keeps i (coreFault a0 a1) := by
  unfold coreFault
  extract_lets z0 z1 z2 z3 z4
  refine keeps_cut (i := i) z1 ?_ (fun hz1 => keeps_cut (i := i) z2 ?_ (fun hz2 => keeps_cut (i := i) z3 ?_ (fun hz3 => keeps_cut (i := i) z4 ?_ (fun hz4 => ?_))))
  on_goal 1 => unfold z1
  on_goal 2 => unfold z2
  on_goal 3 => unfold z3
  on_goal 4 => unfold z4
  all_goals
    with_reducible repeat' (first
      | assumption | apply keeps_killTags | apply keeps_dropReads | apply keeps_modCore | apply keeps_breakSteps | apply keeps_modCluster
      | apply keeps_setStatus | apply keeps_spareStart | apply keeps_clusterOut | refine keeps_ite ?_ ?_ | refine keeps_foldl ?_ (fun _ _ _ => ?_)
      | split | unfold z0 | dsimp only | fail_if_no_progress (refine keeps_mk ?_ rfl rfl))

theorem keeps_execCoreFault {a0 a1 a2} (h2 : Keeps i a2) : KeepsRes i (execCoreFault a0 a1 a2) := by
  unfold execCoreFault
  extract_lets z0 z1 z2 z3
  refine keeps_cut (i := i) z2 ?_ (fun hz2 => ?_)
  on_goal 1 => unfold z2
  all_goals
    with_reducible repeat' (first
      | assumption | exact KeepsRes.fault | exact KeepsRes.refused | apply keeps_coreFault | apply keeps_bump | apply keeps_putCore
      | apply keeps_dropReads | refine keeps_ite ?_ ?_ | refine res_ite ?_ ?_ | refine KeepsRes.next ?_ | split | unfold z0 | unfold z1 | unfold z3
      | dsimp only)

end Sys2Proof.Machine
end

