-- ==== Sys2Proof/Laws/KeepHub.lean ====
section
/-! SUPPORT. One lemma per function that carries a State, for the home commands, maintenance, HBM, power domains and chiplet requests:
what `Keep.lean` calls kept (the queue of commands, the canonical form of the stores, the well-formed
cores) stays kept through it. Later proofs cite these lemmas and unfold no function again. -/

namespace Sys2Proof.Machine
variable {i : Held} {s t : State}

/-! ### Sys2Proof.Machine.Home -/

theorem keeps_forward {a0 a1} (h0 : Keeps i a0) : Keeps i (forward a0 a1) := by
  unfold forward
  extract_lets z0
  refine keeps_cut (i := i) z0 ?_ (fun hz0 => ?_)
  on_goal 1 => unfold z0
  all_goals
    with_reducible repeat' (first
      | assumption | apply keeps_returnCredit | apply keeps_arrive | refine keeps_ite ?_ ?_ | split | dsimp only)

theorem keeps_presentReq {a0 a1 a2 a3} (h0 : Keeps i a0) : Keeps i (presentReq a0 a1 a2 a3) := by
  unfold presentReq
  extract_lets z0 z1
  with_reducible repeat' (first
    | assumption | apply keeps_forward | apply keeps_charge | refine keeps_ite ?_ ?_ | split | unfold z0 | unfold z1 | dsimp only
    | fail_if_no_progress (refine keeps_mk ?_ rfl rfl))

theorem keeps_execHomeRead {a0 a1} (h1 : Keeps i a1) : KeepsRes i (execHomeRead a0 a1) := by
  unfold execHomeRead
  extract_lets z0 z1 z2
  with_reducible repeat' (first
    | assumption | exact KeepsRes.fault | exact KeepsRes.refused | apply keeps_okT | apply keeps_presentReq | apply keeps_putCore
    | refine keeps_ite ?_ ?_ | refine res_ite ?_ ?_ | refine KeepsRes.next ?_ | split | unfold z0 | unfold z1 | unfold z2 | dsimp only)

theorem keeps_execHomeWrite {a0 a1 a2} (h2 : Keeps i a2) : KeepsRes i (execHomeWrite a0 a1 a2) := by
  unfold execHomeWrite
  extract_lets z0 z1
  with_reducible repeat' (first
    | assumption | exact KeepsRes.fault | exact KeepsRes.refused | apply keeps_notDue | apply keeps_modCluster | apply keeps_okT
    | apply keeps_presentReq | apply keeps_putCore | refine res_ite ?_ ?_ | refine KeepsRes.next ?_ | refine keeps_ite ?_ ?_
    | refine keeps_foldl ?_ (fun _ _ _ => ?_) | refine of_next (by assumption) ?_ | split | unfold z0 | unfold z1 | dsimp only
    | fail_if_no_progress (refine keeps_mk ?_ rfl rfl))

theorem keeps_execLineUnbusy {a0 a1} (h1 : Keeps i a1) : KeepsRes i (execLineUnbusy a0 a1) := by
  unfold execLineUnbusy
  with_reducible repeat' (first
    | assumption | exact KeepsRes.fault | exact KeepsRes.refused | apply keeps_nextHeld | apply keeps_okT | apply keeps_serveHeld
    | refine KeepsOpt.some ?_ | refine KeepsRes.next ?_ | refine of_some (by assumption) ?_ | split | dsimp only)

theorem keeps_failTxn {a0 a1 a2} (h0 : Keeps i a0) : Keeps i (failTxn a0 a1 a2) := by
  unfold failTxn
  with_reducible repeat' (first
    | assumption | apply keeps_answerErr | apply keeps_txnDel | refine keeps_foldl ?_ (fun _ _ _ => ?_) | dsimp only)

theorem keeps_serveUnplaced {a0 a1 a2} (h0 : Keeps i a0) : Keeps i (serveUnplaced a0 a1 a2) := by
  unfold serveUnplaced
  extract_lets z0 z1
  refine keeps_cut (i := i) z0 ?_ (fun hz0 => keeps_cut (i := i) z1 ?_ (fun hz1 => ?_))
  on_goal 1 => unfold z0
  on_goal 2 => unfold z1
  all_goals
    with_reducible repeat' (first
      | assumption | intro _ | apply keeps_txnPut | apply keeps_endTxn | apply keeps_lowerWrite | apply keeps_answerCmp | apply keeps_countLateWrite
      | apply keeps_dirSet | apply keeps_readHome | apply keeps_serveHeld | refine keeps_ite ?_ ?_ | refine keeps_foldl ?_ (fun _ _ _ => ?_)
      | refine keeps_foldl_fst ?_ (fun _ _ _ _ => ?_) | refine keeps_foldl_snd ?_ (fun _ _ _ _ => ?_) | refine opt_foldl ?_ (fun _ _ _ => ?_) | split
      | unfold id | dsimp only | fail_if_no_progress (refine keeps_mk ?_ rfl rfl))

theorem keeps_execMissFillReturn {a0 a1} (h1 : Keeps i a1) : KeepsRes i (execMissFillReturn a0 a1) := by
  unfold execMissFillReturn
  with_reducible repeat' (first
    | assumption | exact KeepsRes.fault | exact KeepsRes.refused | apply keeps_notDue | apply keeps_okT | apply keeps_failTxn | apply keeps_seraiAlloc
    | apply keeps_serveMiss | apply keeps_askLeave | apply keeps_serveUnplaced | refine res_ite ?_ ?_ | refine KeepsRes.next ?_
    | refine keeps_ite ?_ ?_ | refine keeps_foldl ?_ (fun _ _ _ => ?_) | refine of_next (by assumption) ?_ | refine of_way (by assumption) ?_ | split
    | dsimp only | fail_if_no_progress (refine keeps_mk ?_ rfl rfl))

theorem keeps_execDeadlineExpiry {a0 a1 a2} (h2 : Keeps i a2) : KeepsRes i (execDeadlineExpiry a0 a1 a2) := by
  unfold execDeadlineExpiry
  with_reducible repeat' (first
    | assumption | exact KeepsRes.fault | exact KeepsRes.refused | apply keeps_advance | apply keeps_dropLate | apply keeps_txnPut
    | refine keeps_ite ?_ ?_ | refine res_ite ?_ ?_ | refine KeepsRes.next ?_ | split | dsimp only | fail_if_no_progress (refine keeps_mk ?_ rfl rfl))

theorem keeps_execWaySweepDone {a0} (h0 : Keeps i a0) : KeepsRes i (execWaySweepDone a0) := by
  unfold execWaySweepDone
  extract_lets z0 z1 z2
  refine keeps_cut (i := i) z1 ?_ (fun hz1 => ?_)
  on_goal 1 => unfold z1
  all_goals
    with_reducible repeat' (first
      | assumption | exact KeepsRes.fault | exact KeepsRes.refused | apply keeps_askLeave | apply keeps_seraiClean | apply keeps_seraiDrop
      | apply keeps_okT | refine keeps_ite ?_ ?_ | refine res_ite ?_ ?_ | refine KeepsRes.next ?_ | refine keeps_foldl ?_ (fun _ _ _ => ?_) | split
      | unfold z0 | unfold z2 | dsimp only | fail_if_no_progress (refine keeps_mk ?_ rfl rfl))

theorem keeps_execGranuleZeroingDone {a0 a1} (h1 : Keeps i a1) : KeepsRes i (execGranuleZeroingDone a0 a1) := by
  unfold execGranuleZeroingDone
  extract_lets z0 z1
  refine keeps_cut (i := i) z0 ?_ (fun hz0 => ?_)
  on_goal 1 => unfold z0
  all_goals
    with_reducible repeat' (first
      | assumption | exact KeepsRes.fault | exact KeepsRes.refused | apply keeps_hbmLine | apply keeps_hbmPoison | apply keeps_hbmSectors
      | apply keeps_hbmZero | apply keeps_hbmUndef | apply keeps_hbmFilter | apply keeps_hbmPoisonSet | apply keeps_hbmEmpty | refine KeepsRes.next ?_
      | split | unfold z1 | dsimp only | fail_if_no_progress (refine keeps_mk ?_ rfl rfl))

/-! ### Sys2Proof.Machine.Maintain -/

theorem keeps_maintResult {a0 a1 a2} (h0 : Keeps i a0) : Keeps i (maintResult a0 a1 a2) := by
  unfold maintResult
  with_reducible repeat' (first
    | assumption | apply keeps_regSetBits)

theorem keeps_maintGo {a0 a1 a2 a3} (h0 : Keeps i a0) : Keeps i (maintGo a0 a1 a2 a3) := by
  unfold maintGo
  extract_lets z0 z1 z2 z3 z4 z5
  refine keeps_cut (i := i) z0 ?_ (fun hz0 => keeps_cut (i := i) z2 ?_ (fun hz2 => keeps_cut (i := i) z5 ?_ (fun hz5 => ?_)))
  on_goal 1 => unfold z0
  on_goal 2 => unfold z2
  on_goal 3 => unfold z5
  all_goals
    with_reducible repeat' (first
      | assumption | apply keeps_regSetBits | apply keeps_maintResult | apply keeps_regPut | apply keeps_queueOpFor | apply keeps_dropBale
      | refine keeps_ite ?_ ?_ | refine keeps_foldl ?_ (fun _ _ _ => ?_) | split | unfold z1 | unfold z3 | unfold z4 | dsimp only
      | fail_if_no_progress (refine keeps_mk ?_ rfl rfl))

theorem keeps_maintCmd {a0 a1 a2 a3} (h3 : Keeps i a3) : KeepsRes i (maintCmd a0 a1 a2 a3) := by
  unfold maintCmd
  with_reducible repeat' (first
    | assumption | exact KeepsRes.fault | exact KeepsRes.refused | apply keeps_okT | apply keeps_maintGo | refine KeepsRes.next ?_)

theorem keeps_execClean {a0 a1 a2} (h2 : Keeps i a2) : KeepsRes i (execClean a0 a1 a2) := by
  unfold execClean
  with_reducible repeat' (first
    | assumption | exact KeepsRes.fault | exact KeepsRes.refused | apply keeps_maintCmd | refine KeepsRes.next ?_)

theorem keeps_execInv {a0 a1 a2} (h2 : Keeps i a2) : KeepsRes i (execInv a0 a1 a2) := by
  unfold execInv
  with_reducible repeat' (first
    | assumption | exact KeepsRes.fault | exact KeepsRes.refused | apply keeps_maintCmd | refine KeepsRes.next ?_)

theorem keeps_execCleanInv {a0 a1 a2} (h2 : Keeps i a2) : KeepsRes i (execCleanInv a0 a1 a2) := by
  unfold execCleanInv
  with_reducible repeat' (first
    | assumption | exact KeepsRes.fault | exact KeepsRes.refused | apply keeps_maintCmd | refine KeepsRes.next ?_)

theorem keeps_execPreloadLock {a0 a1 a2} (h2 : Keeps i a2) : KeepsRes i (execPreloadLock a0 a1 a2) := by
  unfold execPreloadLock
  with_reducible repeat' (first
    | assumption | exact KeepsRes.fault | exact KeepsRes.refused | apply keeps_maintCmd | refine KeepsRes.next ?_)

theorem keeps_execUnlock {a0 a1 a2} (h2 : Keeps i a2) : KeepsRes i (execUnlock a0 a1 a2) := by
  unfold execUnlock
  with_reducible repeat' (first
    | assumption | exact KeepsRes.fault | exact KeepsRes.refused | apply keeps_maintCmd | refine KeepsRes.next ?_)

theorem keeps_unlockLine {a0 a1} (h0 : Keeps i a0) : Keeps i (unlockLine a0 a1) := by
  unfold unlockLine
  with_reducible repeat' (first
    | assumption | apply keeps_nextMru | apply keeps_seraiSetLine | refine of_snd (by assumption) ?_ | split | dsimp only)

theorem keeps_maintLine {a0 a1 a2} (h0 : Keeps i a0) : Keeps i (maintLine a0 a1 a2) := by
  unfold maintLine
  extract_lets z0 z1
  refine keeps_cut (i := i) z0 ?_ (fun hz0 => ?_)
  on_goal 1 => unfold z0
  all_goals
    with_reducible repeat' (first
      | assumption | apply keeps_recallNow | apply keeps_seraiClean | apply keeps_seraiDrop | apply keeps_unlockLine | refine keeps_ite ?_ ?_ | split
      | unfold z1 | dsimp only)

theorem keeps_lockLine {a0 a1 a2} (h0 : Keeps i a0) : Keeps i (lockLine a0 a1 a2).1 := by
  unfold lockLine
  extract_lets z0 z1
  refine keeps_cut (i := i) z1 ?_ (fun hz1 => ?_)
  on_goal 1 => unfold z1
  all_goals
    with_reducible repeat' (first
      | assumption | apply keeps_seraiDrop | apply keeps_seraiClean | apply keeps_nextMru | apply keeps_seraiSetLine | apply keeps_logUnmapped
      | apply keeps_recallNow | apply keeps_missNow | refine keeps_ite ?_ ?_ | refine keeps_foldl ?_ (fun _ _ _ => ?_)
      | refine of_snd (by assumption) ?_ | refine of_fst (by assumption) ?_ | split | unfold z0 | dsimp only
      | fail_if_no_progress (refine keeps_mk ?_ rfl rfl))

theorem keeps_maintRun {a0 a1 a2} (h0 : Keeps i a0) : Keeps i (maintRun a0 a1 a2).1 := by
  unfold maintRun
  extract_lets z0
  with_reducible repeat' (first
    | assumption | apply keeps_lockLine | apply keeps_maintLine | refine keeps_ite ?_ ?_ | refine keeps_foldl ?_ (fun _ _ _ => ?_)
    | refine keeps_foldl_fst ?_ (fun _ _ _ _ => ?_) | refine of_fst (by assumption) ?_ | split | unfold z0 | dsimp only)

theorem keeps_execMaintDone {a0 a1} (h1 : Keeps i a1) : KeepsRes i (execMaintDone a0 a1) := by
  unfold execMaintDone
  with_reducible repeat' (first
    | assumption | exact KeepsRes.fault | exact KeepsRes.refused | apply keeps_maintRun | apply keeps_regPut | apply keeps_maintResult
    | apply keeps_regSetBits | apply keeps_setStatus | apply keeps_okT | apply keeps_raiseVector | refine keeps_ite ?_ ?_ | refine res_ite ?_ ?_
    | refine KeepsRes.next ?_ | refine of_fst (by assumption) ?_ | split | dsimp only | fail_if_no_progress (refine keeps_mk ?_ rfl rfl))

/-! ### Sys2Proof.Machine.HbmCmds -/

theorem keeps_execHbmRequest {a0 a1 a2} (h3 : Keeps i a2) : KeepsRes i (execHbmRequest a0 a1 a2) := by
  unfold execHbmRequest
  with_reducible repeat' (first
    | assumption | exact KeepsRes.fault | exact KeepsRes.refused | apply keeps_notDue | apply keeps_ok | apply keeps_takeEntry | apply keeps_txnPut
    | refine res_ite ?_ ?_ | refine KeepsRes.next ?_ | refine keeps_ite ?_ ?_ | refine keeps_foldl ?_ (fun _ _ _ => ?_)
    | refine of_next (by assumption) ?_ | split | dsimp only | fail_if_no_progress (refine keeps_mk ?_ rfl rfl))

theorem keeps_dropPassed {a0 a1} (h0 : Keeps i a0) : Keeps i (dropPassed a0 a1) := by
  unfold dropPassed
  extract_lets z0 z1
  with_reducible repeat' (first
    | assumption | apply keeps_dropLate | apply keeps_txnPut | unfold z0 | unfold z1 | refine keeps_ite ?_ ?_ | refine keeps_foldl ?_ (fun _ _ _ => ?_)
    | split | dsimp only)

theorem keeps_execHbmReadIssue {a0 a1 a2} (h2 : Keeps i a2) : KeepsRes i (execHbmReadIssue a0 a1 a2) := by
  unfold execHbmReadIssue
  with_reducible repeat' (first
    | assumption | exact KeepsRes.fault | exact KeepsRes.refused | apply keeps_dropPassed | apply keeps_okT | apply keeps_txnDel | apply keeps_dropEntry
    | apply keeps_openRow | refine keeps_ite ?_ ?_ | refine res_ite ?_ ?_ | refine KeepsRes.next ?_ | split | dsimp only
    | fail_if_no_progress (refine keeps_mk ?_ rfl rfl))

theorem keeps_execHbmModeSwitch {a0 a1 a2} (h2 : Keeps i a2) : KeepsRes i (execHbmModeSwitch a0 a1 a2) := by
  unfold execHbmModeSwitch
  extract_lets z0 z1 z2 z3 z4 z5
  with_reducible repeat' (first
    | assumption | exact KeepsRes.fault | exact KeepsRes.refused | apply keeps_bump | apply keeps_putStack | unfold z5 | refine keeps_ite ?_ ?_
    | refine res_ite ?_ ?_ | refine KeepsRes.next ?_ | split | unfold z0 | unfold z1 | unfold z2 | unfold z3 | unfold z4 | dsimp only)

theorem keeps_execWritebackBufferFree {a0 a1} (h1 : Keeps i a1) : KeepsRes i (execWritebackBufferFree a0 a1) := by
  unfold execWritebackBufferFree
  with_reducible repeat' (first
    | assumption | exact KeepsRes.fault | exact KeepsRes.refused | apply keeps_putStack | apply keeps_lowerPut | apply keeps_dropEntry
    | apply keeps_openRow | apply keeps_okT | apply keeps_bump | refine keeps_ite ?_ ?_ | refine res_ite ?_ ?_ | refine KeepsRes.next ?_ | split
    | dsimp only | fail_if_no_progress (refine keeps_mk ?_ rfl rfl))

theorem keeps_execHbmReadData {a0 a1 a2 a3 a4} (h4 : Keeps i a4) : KeepsRes i (execHbmReadData a0 a1 a2 a3 a4) := by
  unfold execHbmReadData
  extract_lets z0 z1 z2 z3
  with_reducible repeat' (first
    | assumption | exact KeepsRes.fault | exact KeepsRes.refused | apply keeps_clientSector | apply keeps_txnPut | apply keeps_dropEntry
    | apply keeps_bump | refine keeps_ite ?_ ?_ | refine res_ite ?_ ?_ | refine KeepsRes.next ?_ | split | unfold z0 | unfold z1 | unfold z2 | unfold z3
    | dsimp only)

theorem keeps_execHbmRefresh {a0 a1 a2 a3} (h3 : Keeps i a3) : KeepsRes i (execHbmRefresh a0 a1 a2 a3) := by
  unfold execHbmRefresh
  extract_lets z0
  with_reducible repeat' (first
    | assumption | exact KeepsRes.fault | exact KeepsRes.refused | apply keeps_putStack | refine keeps_ite ?_ ?_ | refine res_ite ?_ ?_
    | refine KeepsRes.next ?_ | split | unfold z0 | dsimp only)

theorem keeps_loseSector {a0 a1} (h0 : Keeps i a0) : Keeps i (loseSector a0 a1) := by
  unfold loseSector
  extract_lets z0 z1 z2
  with_reducible repeat' (first
    | assumption | apply keeps_logEvent | unfold z0 | unfold z1 | unfold z2 | dsimp only | fail_if_no_progress (refine keeps_mk ?_ rfl rfl))

theorem keeps_rescueLine {a0 a1} (h0 : Keeps i a0) : Keeps i (rescueLine a0 a1) := by
  unfold rescueLine
  extract_lets z0
  with_reducible repeat' (first
    | assumption | apply keeps_logEvent | unfold z0 | dsimp only | fail_if_no_progress (refine keeps_mk ?_ rfl rfl))

theorem keeps_recoverSector {a0 a1} (h0 : Keeps i a0) : Keeps i (recoverSector a0 a1) := by
  unfold recoverSector
  extract_lets z0
  with_reducible repeat' (first
    | assumption | apply keeps_rescueLine | apply keeps_seraiSetLine | apply keeps_draw | apply keeps_loseSector | refine keeps_ite ?_ ?_
    | refine of_snd (by assumption) ?_ | split | unfold z0 | dsimp only)

theorem keeps_scrubNext {a0 a1} (h0 : Keeps i a0) : Keeps i (scrubNext a0 a1) := by
  unfold scrubNext
  extract_lets z0 z1
  refine keeps_cut (i := i) z1 ?_ (fun hz1 => ?_)
  on_goal 1 => unfold z1
  all_goals
    with_reducible repeat' (first
      | assumption | apply keeps_putStack | apply keeps_regSetBits | refine keeps_ite ?_ ?_ | split | unfold z0 | dsimp only)

theorem keeps_execPatrolScrubRead_scrubEnd {a0 a1 a2 a3 a4 a5} (h0 : Keeps i a0) : Keeps i (execPatrolScrubRead.scrubEnd a0 a1 a2 a3 a4 a5) := by
  unfold execPatrolScrubRead.scrubEnd
  extract_lets z0 z1 z2 z3 z4 z5 z6
  refine keeps_cut (i := i) z1 ?_ (fun hz1 => keeps_cut (i := i) z2 ?_ (fun hz2 => keeps_cut (i := i) z3 ?_ (fun hz3 => keeps_cut (i := i) z5 ?_ (fun hz5 => keeps_cut (i := i) z6 ?_ (fun hz6 => ?_)))))
  on_goal 1 => unfold z1
  on_goal 2 => unfold z2
  on_goal 3 => unfold z3
  on_goal 4 => unfold z5
  on_goal 5 => unfold z6
  all_goals
    with_reducible repeat' (first
      | assumption | apply keeps_hbmLine | apply keeps_hbmPoison | apply keeps_hbmSectors | apply keeps_hbmZero | apply keeps_hbmUndef
      | apply keeps_hbmFilter | apply keeps_hbmPoisonSet | apply keeps_hbmEmpty | apply keeps_scrubNext | apply keeps_bump | apply keeps_rowCorrected
      | apply keeps_hbcLastErr | apply keeps_rowDue | apply keeps_setStatus | apply keeps_recoverSector | split | unfold z0 | unfold z4 | dsimp only)

theorem keeps_execPatrolScrubRead {a0 a1 a2} (h2 : Keeps i a2) : KeepsRes i (execPatrolScrubRead a0 a1 a2) := by
  unfold execPatrolScrubRead
  extract_lets z0
  with_reducible repeat' (first
    | assumption | exact KeepsRes.fault | exact KeepsRes.refused | apply keeps_execPatrolScrubRead_scrubEnd | refine keeps_ite ?_ ?_
    | refine res_ite ?_ ?_ | refine KeepsRes.next ?_ | split | unfold z0 | dsimp only)

theorem keeps_execRowRepair {a0 a1 a2} (h2 : Keeps i a2) : KeepsRes i (execRowRepair a0 a1 a2) := by
  unfold execRowRepair
  extract_lets z0
  with_reducible repeat' (first
    | assumption | exact KeepsRes.fault | exact KeepsRes.refused | apply keeps_putStack | apply keeps_setStatus | apply keeps_hbcLastErr
    | refine keeps_ite ?_ ?_ | refine res_ite ?_ ?_ | refine KeepsRes.next ?_ | split | unfold z0 | dsimp only)

theorem keeps_execRowRepairDone {a0 a1} (h1 : Keeps i a1) : KeepsRes i (execRowRepairDone a0 a1) := by
  unfold execRowRepairDone
  extract_lets z0
  with_reducible repeat' (first
    | assumption | exact KeepsRes.fault | exact KeepsRes.refused | apply keeps_putStack | apply keeps_regSetBits | apply keeps_setStatus
    | apply keeps_hbcLastErr | refine KeepsRes.next ?_ | split | unfold z0 | dsimp only)

/-! ### Sys2Proof.Machine.Ehp -/

theorem keeps_received {a0 a1} (h0 : Keeps i a0) : Keeps i (received a0 a1) := by
  unfold received
  with_reducible repeat' (first
    | assumption | apply keeps_bump)

theorem keeps_takeRequest {a0 a1 a2} (h0 : Keeps i a0) : Keeps i (takeRequest a0 a1 a2) := by
  unfold takeRequest
  with_reducible repeat' (first
    | assumption | intro _ | apply keeps_modSite)

theorem keeps_refuseMalformed {a0 a1 a2 a3} (h0 : Keeps i a0) : Keeps i (refuseMalformed a0 a1 a2 a3) := by
  unfold refuseMalformed
  extract_lets z0 z1
  refine keeps_cut (i := i) z0 ?_ (fun hz0 => keeps_cut (i := i) z1 ?_ (fun hz1 => ?_))
  on_goal 1 => unfold z0
  on_goal 2 => unfold z1
  all_goals
    with_reducible repeat' (first
      | assumption | intro _ | apply keeps_modSite | apply keeps_sendEhp | apply keeps_protoErr | apply keeps_returnCredit | dsimp only)

theorem keeps_refuseRequest {a0 a1 a2 a3 a4} (h0 : Keeps i a0) : Keeps i (refuseRequest a0 a1 a2 a3 a4) := by
  unfold refuseRequest
  extract_lets z0
  refine keeps_cut (i := i) z0 ?_ (fun hz0 => ?_)
  on_goal 1 => unfold z0
  all_goals
    with_reducible repeat' (first
      | assumption | apply keeps_sendReply | apply keeps_takeRequest | apply keeps_returnCredit | refine keeps_ite ?_ ?_ | split | dsimp only)

theorem keeps_refuseAddress {a0 a1 a2 a3} (h0 : Keeps i a0) : Keeps i (refuseAddress a0 a1 a2 a3) := by
  unfold refuseAddress
  with_reducible repeat' (first
    | assumption | apply keeps_refuseRequest | apply keeps_logUnmapped | refine keeps_ite ?_ ?_ | refine keeps_foldl ?_ (fun _ _ _ => ?_) | split
    | dsimp only | fail_if_no_progress (refine keeps_mk ?_ rfl rfl))

theorem keeps_takeIn {a0 a1 a2 a3 a4} (h0 : Keeps i a0) : KeepsIntake i (takeIn a0 a1 a2 a3 a4) := by
  unfold takeIn
  extract_lets z0
  refine keeps_cut (i := i) z0 ?_ (fun hz0 => ?_)
  on_goal 1 => unfold z0
  all_goals
    with_reducible repeat' (first
      | assumption | apply keeps_received | apply keeps_refuseMalformed | apply keeps_refuseAddress | apply keeps_refuseRequest
      | apply keeps_takeRequest | refine KeepsIntake.refused ?_ | refine KeepsIntake.taken ?_ | refine keeps_ite ?_ ?_
      | refine keeps_foldl ?_ (fun _ _ _ => ?_) | split | dsimp only | fail_if_no_progress (refine keeps_mk ?_ rfl rfl))

/-! ### Sys2Proof.Machine.Domains -/

theorem keeps_answerWaiting {a0 a1} (h0 : Keeps i a0) : Keeps i (answerWaiting a0 a1) := by
  unfold answerWaiting
  extract_lets z0 z1 z2 z3 z4
  refine keeps_cut (i := i) z4 ?_ (fun hz4 => ?_)
  on_goal 1 => unfold z4
  all_goals
    with_reducible repeat' (first
      | assumption | apply keeps_answerCmp | unfold z0 | refine keeps_foldl ?_ (fun _ _ _ => ?_) | unfold z1 | unfold z2 | unfold z3 | dsimp only
      | fail_if_no_progress (refine keeps_mk ?_ rfl rfl))

theorem keeps_endBales {a0 a1} (h0 : Keeps i a0) : Keeps i (endBales a0 a1) := by
  unfold endBales
  with_reducible repeat' (first
    | assumption | intro _ | apply keeps_modSite | apply keeps_sendReply | refine keeps_foldl ?_ (fun _ _ _ => ?_) | dsimp only)

theorem keeps_domainDown {a0 a1 a2 a3} (h0 : Keeps i a0) : Keeps i (domainDown a0 a1 a2 a3) := by
  unfold domainDown
  extract_lets z0 z1 z2 z3
  refine keeps_cut (i := i) z1 ?_ (fun hz1 => keeps_cut (i := i) z2 ?_ (fun hz2 => keeps_cut (i := i) z3 ?_ (fun hz3 => ?_)))
  on_goal 1 => unfold z1
  on_goal 2 => unfold z2
  on_goal 3 => unfold z3
  all_goals
    with_reducible repeat' (first
      | assumption | intro _ | apply keeps_putDomain | apply keeps_setStatus | apply keeps_endBales | apply keeps_answerWaiting | apply keeps_breakSteps
      | refine keeps_ite ?_ ?_ | split | unfold z0 | dsimp only)

theorem keeps_chipletDead {a0 a1 a2} (h0 : Keeps i a0) : Keeps i (chipletDead a0 a1 a2) := by
  unfold chipletDead
  with_reducible repeat' (first
    | assumption | apply keeps_domainDown | split | dsimp only)

theorem keeps_loseLine {a0 a1 a2} (h0 : Keeps i a0) : Keeps i (loseLine a0 a1 a2) := by
  unfold loseLine
  extract_lets z0 z1 z2 z3
  refine keeps_cut (i := i) z1 ?_ (fun hz1 => keeps_cut (i := i) z2 ?_ (fun hz2 => ?_))
  on_goal 1 => unfold z1
  on_goal 2 => unfold z2
  all_goals
    with_reducible repeat' (first
      | assumption | apply keeps_tierUncorr | apply keeps_poisonRec | apply keeps_dropBale | apply keeps_lowerWrite | apply keeps_seraiDrop
      | apply keeps_bump | apply keeps_regPut | refine keeps_ite ?_ ?_ | refine keeps_foldl ?_ (fun _ _ _ => ?_) | split | unfold z0 | unfold z3
      | dsimp only | fail_if_no_progress (refine keeps_mk ?_ rfl rfl))

theorem keeps_sweepEntries {a0 a1} (h0 : Keeps i a0) : Keeps i (sweepEntries a0 a1) := by
  unfold sweepEntries
  extract_lets z0
  with_reducible repeat' (first
    | assumption | apply keeps_loseLine | apply keeps_dirSet | refine keeps_ite ?_ ?_ | refine keeps_foldl ?_ (fun _ _ _ => ?_) | split | unfold z0
    | dsimp only)

theorem keeps_closeTxn {a0 a1 a2} (h0 : Keeps i a0) : Keeps i (closeTxn a0 a1 a2) := by
  unfold closeTxn
  with_reducible repeat' (first
    | assumption | apply keeps_txnPut | apply keeps_dirRemove | apply keeps_retake | apply keeps_txnGoOn | refine keeps_ite ?_ ?_
    | refine keeps_foldl ?_ (fun _ _ _ => ?_) | split | dsimp only | fail_if_no_progress (refine keeps_mk ?_ rfl rfl))

theorem keeps_sweepDomain {a0 a1} (h0 : Keeps i a0) : Keeps i (sweepDomain a0 a1) := by
  unfold sweepDomain
  extract_lets z0 z1 z2
  refine keeps_cut (i := i) z0 ?_ (fun hz0 => keeps_cut (i := i) z1 ?_ (fun hz1 => ?_))
  on_goal 1 => unfold z0
  on_goal 2 => unfold z1
  all_goals
    with_reducible repeat' (first
      | assumption | apply keeps_sweepEntries | apply keeps_closeTxn | apply keeps_putDomain | refine keeps_foldl ?_ (fun _ _ _ => ?_) | unfold z2
      | dsimp only)

theorem keeps_execDomainSweepDone {a0 a1} (h1 : Keeps i a1) : KeepsRes i (execDomainSweepDone a0 a1) := by
  unfold execDomainSweepDone
  extract_lets z0
  with_reducible repeat' (first
    | assumption | exact KeepsRes.fault | exact KeepsRes.refused | apply keeps_okT | apply keeps_sweepDomain | refine keeps_ite ?_ ?_
    | refine res_ite ?_ ?_ | refine KeepsRes.next ?_ | split | unfold z0 | dsimp only)

theorem keeps_execDomainDownCommand {a0 a1} (h1 : Keeps i a1) : KeepsRes i (execDomainDownCommand a0 a1) := by
  unfold execDomainDownCommand
  with_reducible repeat' (first
    | assumption | exact KeepsRes.fault | exact KeepsRes.refused | apply keeps_okT | apply keeps_domainDown | refine KeepsRes.next ?_)

theorem keeps_resetSite {a0 a1} (h0 : Keeps i a0) : Keeps i (resetSite a0 a1) := by
  unfold resetSite
  extract_lets z0 z1 z2
  refine keeps_cut (i := i) z2 ?_ (fun hz2 => ?_)
  on_goal 1 => unfold z2
  all_goals
    with_reducible repeat' (first
      | assumption | apply keeps_putSite | unfold z0 | unfold z1 | dsimp only | fail_if_no_progress (refine keeps_mk ?_ rfl rfl))

theorem keeps_siteReset {a0 a1} (h0 : Keeps i a0) : Keeps i (siteReset a0 a1) := by
  unfold siteReset
  with_reducible repeat' (first
    | assumption | apply keeps_resetSite | refine keeps_foldl ?_ (fun _ _ _ => ?_) | dsimp only)

theorem keeps_execSiteReset {a0 a1} (h1 : Keeps i a1) : KeepsRes i (execSiteReset a0 a1) := by
  unfold execSiteReset
  extract_lets z0 z1 z2
  refine keeps_cut (i := i) z2 ?_ (fun hz2 => ?_)
  on_goal 1 => unfold z2
  all_goals
    with_reducible repeat' (first
      | assumption | exact KeepsRes.fault | exact KeepsRes.refused | apply keeps_siteReset | apply keeps_okT | apply keeps_domainDown
      | refine KeepsRes.next ?_ | split | unfold z0 | unfold z1 | dsimp only)

theorem keeps_domainResetBegin {a0 a1} (h0 : Keeps i a0) : Keeps i (domainResetBegin a0 a1) := by
  unfold domainResetBegin
  extract_lets z0 z1 z2 z3
  refine keeps_cut (i := i) z0 ?_ (fun hz0 => keeps_cut (i := i) z1 ?_ (fun hz1 => keeps_cut (i := i) z3 ?_ (fun hz3 => ?_)))
  on_goal 1 => unfold z0
  on_goal 2 => unfold z1
  on_goal 3 => unfold z3
  all_goals
    with_reducible repeat' (first
      | assumption | apply keeps_domainDown | apply keeps_sweepDomain | apply keeps_putDomain | apply keeps_siteReset | refine keeps_ite ?_ ?_
      | refine keeps_foldl ?_ (fun _ _ _ => ?_) | split | unfold z2 | dsimp only)

theorem keeps_execDomainReset {a0 a1} (h1 : Keeps i a1) : KeepsRes i (execDomainReset a0 a1) := by
  unfold execDomainReset
  with_reducible repeat' (first
    | assumption | exact KeepsRes.fault | exact KeepsRes.refused | apply keeps_okT | apply keeps_domainResetBegin | refine KeepsRes.next ?_ | split
    | dsimp only)

theorem keeps_execDomainResetCompare {a0 a1} (h1 : Keeps i a1) : KeepsRes i (execDomainResetCompare a0 a1) := by
  unfold execDomainResetCompare
  extract_lets z0
  with_reducible repeat' (first
    | assumption | exact KeepsRes.fault | exact KeepsRes.refused | apply keeps_putDomain | apply keeps_setStatus | refine keeps_ite ?_ ?_
    | refine res_ite ?_ ?_ | refine KeepsRes.next ?_ | split | unfold z0 | dsimp only)

/-! ### Sys2Proof.Machine.ChipReqs -/

theorem keeps_chipRequest {a0 a1 a2 a3 a4 a5 a6 a7 a8} (h8 : Keeps i a8) : KeepsRes i (chipRequest a0 a1 a2 a3 a4 a5 a6 a7 a8) := by
  unfold chipRequest
  with_reducible repeat' (first
    | assumption | exact KeepsRes.fault | exact KeepsRes.refused | apply keeps_takeIn | apply keeps_okT | apply keeps_presentReq
    | refine keeps_ite ?_ ?_ | refine res_ite ?_ ?_ | refine KeepsRes.next ?_ | refine of_refused (by assumption) ?_
    | refine of_taken (by assumption) ?_ | split | dsimp only)

theorem keeps_execRdCur {a0 a1 a2 a3} (h3 : Keeps i a3) : KeepsRes i (execRdCur a0 a1 a2 a3) := by
  unfold execRdCur
  with_reducible repeat' (first
    | assumption | exact KeepsRes.fault | exact KeepsRes.refused | apply keeps_chipRequest | refine KeepsRes.next ?_)

theorem keeps_execRdShared {a0 a1 a2 a3} (h3 : Keeps i a3) : KeepsRes i (execRdShared a0 a1 a2 a3) := by
  unfold execRdShared
  with_reducible repeat' (first
    | assumption | exact KeepsRes.fault | exact KeepsRes.refused | apply keeps_chipRequest | refine KeepsRes.next ?_)

theorem keeps_execRdOwn {a0 a1 a2 a3} (h3 : Keeps i a3) : KeepsRes i (execRdOwn a0 a1 a2 a3) := by
  unfold execRdOwn
  with_reducible repeat' (first
    | assumption | exact KeepsRes.fault | exact KeepsRes.refused | apply keeps_chipRequest | refine KeepsRes.next ?_)

theorem keeps_execUpgrade {a0 a1 a2 a3} (h3 : Keeps i a3) : KeepsRes i (execUpgrade a0 a1 a2 a3) := by
  unfold execUpgrade
  with_reducible repeat' (first
    | assumption | exact KeepsRes.fault | exact KeepsRes.refused | apply keeps_chipRequest | refine KeepsRes.next ?_)

theorem keeps_execWbDirty {a0 a1 a2 a3 a4} (h4 : Keeps i a4) : KeepsRes i (execWbDirty a0 a1 a2 a3 a4) := by
  unfold execWbDirty
  with_reducible repeat' (first
    | assumption | exact KeepsRes.fault | exact KeepsRes.refused | apply keeps_chipRequest | refine KeepsRes.next ?_)

theorem keeps_execEvict {a0 a1 a2 a3} (h3 : Keeps i a3) : KeepsRes i (execEvict a0 a1 a2 a3) := by
  unfold execEvict
  with_reducible repeat' (first
    | assumption | exact KeepsRes.fault | exact KeepsRes.refused | apply keeps_chipRequest | refine KeepsRes.next ?_)

theorem keeps_execWrFull {a0 a1 a2 a3 a4} (h4 : Keeps i a4) : KeepsRes i (execWrFull a0 a1 a2 a3 a4) := by
  unfold execWrFull
  with_reducible repeat' (first
    | assumption | exact KeepsRes.fault | exact KeepsRes.refused | apply keeps_chipRequest | refine KeepsRes.next ?_)

theorem keeps_execWrPart {a0 a1 a2 a3 a4 a5} (h5 : Keeps i a5) : KeepsRes i (execWrPart a0 a1 a2 a3 a4 a5) := by
  unfold execWrPart
  with_reducible repeat' (first
    | assumption | exact KeepsRes.fault | exact KeepsRes.refused | apply keeps_chipRequest | refine KeepsRes.next ?_)

theorem keeps_violation {a0 a1} (h0 : Keeps i a0) : Keeps i (violation a0 a1) := by
  unfold violation
  with_reducible repeat' (first
    | assumption | apply keeps_chipletDead)

theorem keeps_respond {a0 a1 a2 a3 a4} (h3 : ∀ x0 x1 x2 x3, Keeps i x0 → Keeps i (a3 x0 x1 x2 x3)) (h4 : Keeps i a4) : KeepsRes i (respond a0 a1 a2 a3 a4) := by
  unfold respond
  extract_lets z0 z1
  refine keeps_cut (i := i) z1 ?_ (fun hz1 => ?_)
  on_goal 1 => unfold z1
  all_goals
    with_reducible repeat' (first
      | assumption | exact KeepsRes.fault | exact KeepsRes.refused | apply keeps_received | apply keeps_okT | apply keeps_violation | apply keeps_txnPut
      | apply h3 | refine keeps_ite ?_ ?_ | refine res_ite ?_ ?_ | refine KeepsRes.next ?_ | split | unfold z0 | dsimp only)

theorem keeps_holderNow {a0 a1 a2 a3} (h0 : Keeps i a0) : Keeps i (holderNow a0 a1 a2 a3) := by
  unfold holderNow
  with_reducible repeat' (first
    | assumption | apply keeps_dirSet | apply keeps_dirRemove | refine keeps_ite ?_ ?_ | split | dsimp only)

theorem keeps_execRspI {a0 a1 a2} (h2 : Keeps i a2) : KeepsRes i (execRspI a0 a1 a2) := by
  unfold execRspI
  with_reducible repeat' (first
    | assumption | exact KeepsRes.fault | exact KeepsRes.refused | intro _ | apply keeps_respond | apply keeps_txnGoOn | apply keeps_holderNow
    | refine res_ite ?_ ?_ | refine KeepsRes.next ?_ | refine keeps_ite ?_ ?_ | refine keeps_foldl ?_ (fun _ _ _ => ?_)
    | refine keeps_foldl_fst ?_ (fun _ _ _ _ => ?_) | refine keeps_foldl_snd ?_ (fun _ _ _ _ => ?_) | refine opt_foldl ?_ (fun _ _ _ => ?_)
    | refine of_next (by assumption) ?_ | split | dsimp only | fail_if_no_progress (refine keeps_mk ?_ rfl rfl))

theorem keeps_execRspS {a0 a1 a2} (h2 : Keeps i a2) : KeepsRes i (execRspS a0 a1 a2) := by
  unfold execRspS
  with_reducible repeat' (first
    | assumption | exact KeepsRes.fault | exact KeepsRes.refused | intro _ | apply keeps_respond | apply keeps_txnGoOn | apply keeps_holderNow
    | refine res_ite ?_ ?_ | refine KeepsRes.next ?_ | refine keeps_ite ?_ ?_ | refine keeps_foldl ?_ (fun _ _ _ => ?_)
    | refine keeps_foldl_fst ?_ (fun _ _ _ _ => ?_) | refine keeps_foldl_snd ?_ (fun _ _ _ _ => ?_) | refine opt_foldl ?_ (fun _ _ _ => ?_)
    | refine of_next (by assumption) ?_ | split | dsimp only | fail_if_no_progress (refine keeps_mk ?_ rfl rfl))

theorem keeps_execRspIData {a0 a1 a2 a3 a4} (h4 : Keeps i a4) : KeepsRes i (execRspIData a0 a1 a2 a3 a4) := by
  unfold execRspIData
  with_reducible repeat' (first
    | assumption | exact KeepsRes.fault | exact KeepsRes.refused | intro _ | apply keeps_respond | apply keeps_txnGoOn | apply keeps_returnData
    | apply keeps_holderNow | refine res_ite ?_ ?_ | refine KeepsRes.next ?_ | refine keeps_ite ?_ ?_ | refine keeps_foldl ?_ (fun _ _ _ => ?_)
    | refine keeps_foldl_fst ?_ (fun _ _ _ _ => ?_) | refine keeps_foldl_snd ?_ (fun _ _ _ _ => ?_) | refine opt_foldl ?_ (fun _ _ _ => ?_)
    | refine of_next (by assumption) ?_ | split | dsimp only | fail_if_no_progress (refine keeps_mk ?_ rfl rfl))

theorem keeps_execRspSData {a0 a1 a2 a3 a4} (h4 : Keeps i a4) : KeepsRes i (execRspSData a0 a1 a2 a3 a4) := by
  unfold execRspSData
  with_reducible repeat' (first
    | assumption | exact KeepsRes.fault | exact KeepsRes.refused | intro _ | apply keeps_respond | apply keeps_txnGoOn | apply keeps_returnData
    | apply keeps_holderNow | refine res_ite ?_ ?_ | refine KeepsRes.next ?_ | refine keeps_ite ?_ ?_ | refine keeps_foldl ?_ (fun _ _ _ => ?_)
    | refine keeps_foldl_fst ?_ (fun _ _ _ _ => ?_) | refine keeps_foldl_snd ?_ (fun _ _ _ _ => ?_) | refine opt_foldl ?_ (fun _ _ _ => ?_)
    | refine of_next (by assumption) ?_ | split | dsimp only | fail_if_no_progress (refine keeps_mk ?_ rfl rfl))

theorem keeps_forwarded {a0 a1 a2 a3 a4 a5 a6 a7} (h4 : Keeps i a4) : Keeps i (forwarded a0 a1 a2 a3 a4 a5 a6 a7) := by
  unfold forwarded
  extract_lets z0 z1 z2
  refine keeps_cut (i := i) z0 ?_ (fun hz0 => keeps_cut (i := i) z1 ?_ (fun hz1 => ?_))
  on_goal 1 => unfold z0
  on_goal 2 => unfold z1
  all_goals
    with_reducible repeat' (first
      | assumption | apply keeps_holderNow | apply keeps_bumpSiteDom | apply keeps_sendReply | apply keeps_txnGoOn | refine keeps_ite ?_ ?_
      | refine keeps_foldl ?_ (fun _ _ _ => ?_) | split | unfold z2 | dsimp only | fail_if_no_progress (refine keeps_mk ?_ rfl rfl))

theorem keeps_execRspFwd {a0 a1 a2 a3 a4 a5} (h5 : Keeps i a5) : KeepsRes i (execRspFwd a0 a1 a2 a3 a4 a5) := by
  unfold execRspFwd
  with_reducible repeat' (first
    | assumption | intro _ | exact KeepsRes.fault | exact KeepsRes.refused | apply keeps_respond | apply keeps_forwarded | refine KeepsRes.next ?_)

theorem keeps_execRspFwdData {a0 a1 a2 a3 a4 a5} (h5 : Keeps i a5) : KeepsRes i (execRspFwdData a0 a1 a2 a3 a4 a5) := by
  unfold execRspFwdData
  with_reducible repeat' (first
    | assumption | intro _ | exact KeepsRes.fault | exact KeepsRes.refused | apply keeps_respond | apply keeps_forwarded | apply keeps_returnData
    | refine KeepsRes.next ?_)

theorem keeps_execRspFwdMiss {a0 a1 a2} (h2 : Keeps i a2) : KeepsRes i (execRspFwdMiss a0 a1 a2) := by
  unfold execRspFwdMiss
  with_reducible repeat' (first
    | assumption | intro _ | exact KeepsRes.fault | exact KeepsRes.refused | apply keeps_respond | apply keeps_retake | apply keeps_bumpSiteDom
    | apply keeps_dirRemove | refine KeepsRes.next ?_)

theorem keeps_execFwdAck {a0 a1 a2} (h2 : Keeps i a2) : KeepsRes i (execFwdAck a0 a1 a2) := by
  unfold execFwdAck
  extract_lets z0 z1 z2
  refine keeps_cut (i := i) z1 ?_ (fun hz1 => keeps_cut (i := i) z2 ?_ (fun hz2 => ?_))
  on_goal 1 => unfold z1
  on_goal 2 => unfold z2
  all_goals
    with_reducible repeat' (first
      | assumption | exact KeepsRes.fault | exact KeepsRes.refused | apply keeps_notDue | apply keeps_received | apply keeps_okT
      | apply keeps_violation | apply keeps_startHold | apply keeps_bump | apply keeps_txnGoOn | apply keeps_txnPut | refine res_ite ?_ ?_
      | refine KeepsRes.next ?_ | refine keeps_ite ?_ ?_ | refine keeps_foldl ?_ (fun _ _ _ => ?_) | refine of_next (by assumption) ?_ | split
      | unfold z0 | dsimp only | fail_if_no_progress (refine keeps_mk ?_ rfl rfl))

theorem keeps_dropOnHold {a0 a1 a2} (h0 : Keeps i a0) : Keeps i (dropOnHold a0 a1 a2) := by
  unfold dropOnHold
  extract_lets z0 z1
  refine keeps_cut (i := i) z0 ?_ (fun hz0 => ?_)
  on_goal 1 => unfold z0
  all_goals
    with_reducible repeat' (first
      | assumption | apply keeps_dropLate | apply keeps_txnGoOn | apply keeps_txnPut | refine keeps_ite ?_ ?_
      | refine keeps_foldl ?_ (fun _ _ _ => ?_) | split | unfold z1 | dsimp only | fail_if_no_progress (refine keeps_mk ?_ rfl rfl))

theorem keeps_execHoldExpiry {a0 a1 a2} (h2 : Keeps i a2) : KeepsRes i (execHoldExpiry a0 a1 a2) := by
  unfold execHoldExpiry
  with_reducible repeat' (first
    | assumption | exact KeepsRes.fault | exact KeepsRes.refused | apply keeps_advance | apply keeps_okT | apply keeps_dropOnHold | apply keeps_mkSnoop
    | apply keeps_txnPut | refine keeps_ite ?_ ?_ | refine res_ite ?_ ?_ | refine KeepsRes.next ?_ | refine of_fst (by assumption) ?_ | split
    | dsimp only)

theorem keeps_execSnoopTimeout {a0 a1 a2} (h2 : Keeps i a2) : KeepsRes i (execSnoopTimeout a0 a1 a2) := by
  unfold execSnoopTimeout
  with_reducible repeat' (first
    | assumption | exact KeepsRes.fault | exact KeepsRes.refused | apply keeps_okT | apply keeps_chipletDead | apply keeps_advance
    | refine keeps_ite ?_ ?_ | refine res_ite ?_ ?_ | refine KeepsRes.next ?_ | split | dsimp only)

theorem keeps_execLinkGraceExpiry {a0 a1} (h1 : Keeps i a1) : KeepsRes i (execLinkGraceExpiry a0 a1) := by
  unfold execLinkGraceExpiry
  with_reducible repeat' (first
    | assumption | intro _ | exact KeepsRes.fault | exact KeepsRes.refused | apply keeps_advance | apply keeps_okT | apply keeps_chipletDead
    | apply keeps_modSite | refine KeepsRes.next ?_ | split | dsimp only)

theorem keeps_execFatal {a0 a1 a2 a3} (h3 : Keeps i a3) : KeepsRes i (execFatal a0 a1 a2 a3) := by
  unfold execFatal
  extract_lets z0
  refine keeps_cut (i := i) z0 ?_ (fun hz0 => ?_)
  on_goal 1 => unfold z0
  all_goals
    with_reducible repeat' (first
      | assumption | intro _ | exact KeepsRes.fault | exact KeepsRes.refused | apply keeps_received | apply keeps_modSite | apply keeps_okT
      | apply keeps_chipletDead | apply keeps_returnCredit | refine keeps_ite ?_ ?_ | refine res_ite ?_ ?_ | refine KeepsRes.next ?_ | split
      | dsimp only)

end Sys2Proof.Machine
end

