-- ==== Sys2Proof/Laws/KeepHost.lean ====
section
/-! SUPPORT. One lemma per function that carries a State, for the host ports, the sites, the network and the engines:
what `Keep.lean` calls kept (the queue of commands, the canonical form of the stores, the well-formed
cores) stays kept through it. Later proofs cite these lemmas and unfold no function again. -/

namespace Sys2Proof.Machine
variable {i : Held} {s t : State}

/-! ### Sys2Proof.Machine.HostPorts -/

theorem keeps_clearHpf {a0 a1} (h0 : Keeps i a0) : Keeps i (clearHpf a0 a1) := by
  unfold clearHpf
  extract_lets z0
  with_reducible repeat' (first
    | assumption | unfold z0 | dsimp only | fail_if_no_progress (refine keeps_mk ?_ rfl rfl))

theorem keeps_resetConfig {a0 a1} (h0 : Keeps i a0) : Keeps i (resetConfig a0 a1) := by
  unfold resetConfig
  extract_lets z0
  with_reducible repeat' (first
    | assumption | apply keeps_clearHpf | apply keeps_putFn | unfold z0 | dsimp only)

theorem keeps_endReads {a0 a1 a2} (h0 : Keeps i a0) : Keeps i (endReads a0 a1 a2) := by
  unfold endReads
  with_reducible repeat' (first
    | assumption | intro _ | apply keeps_copySettle | apply keeps_stepErr | apply keeps_countFault | apply keeps_dropTag | apply keeps_modOp
    | refine keeps_ite ?_ ?_ | refine keeps_foldl ?_ (fun _ _ _ => ?_) | split | dsimp only)

theorem keeps_endParkWrites {a0 a1} (h0 : Keeps i a0) : Keeps i (endParkWrites a0 a1) := by
  unfold endParkWrites
  with_reducible repeat' (first
    | assumption | apply keeps_opTierError | apply keeps_writeRec | refine keeps_ite ?_ ?_ | refine keeps_foldl ?_ (fun _ _ _ => ?_) | split
    | dsimp only | fail_if_no_progress (refine keeps_mk ?_ rfl rfl))

theorem keeps_linkResetFn {a0 a1} (h0 : Keeps i a0) : Keeps i (linkResetFn a0 a1) := by
  unfold linkResetFn
  extract_lets z0 z1 z2 z3 z4
  refine keeps_cut (i := i) z0 ?_ (fun hz0 => keeps_cut (i := i) z1 ?_ (fun hz1 => keeps_cut (i := i) z3 ?_ (fun hz3 => keeps_cut (i := i) z4 ?_ (fun hz4 => ?_))))
  on_goal 1 => unfold z0
  on_goal 2 => unfold z1
  on_goal 3 => unfold z3
  on_goal 4 => unfold z4
  all_goals
    with_reducible repeat' (first
      | assumption | apply keeps_resetConfig | apply keeps_tcDrop | apply keeps_emptyStaged | apply keeps_revokeParking | apply keeps_endParkWrites
      | apply keeps_endReads | apply keeps_modFn | refine keeps_ite ?_ ?_ | refine keeps_foldl ?_ (fun _ _ _ => ?_) | split | unfold z2 | dsimp only
      | fail_if_no_progress (refine keeps_mk ?_ rfl rfl))

theorem keeps_moveFns {a0 a1} (h0 : Keeps i a0) : Keeps i (moveFns a0 a1) := by
  unfold moveFns
  extract_lets z0 z1
  refine keeps_cut (i := i) z0 ?_ (fun hz0 => ?_)
  on_goal 1 => unfold z0
  all_goals
    with_reducible repeat' (first
      | assumption | refine keeps_ite ?_ ?_ | refine keeps_foldl ?_ (fun _ _ _ => ?_) | split | unfold z1 | dsimp only
      | fail_if_no_progress (refine keeps_mk ?_ rfl rfl))

theorem keeps_endSessions {a0 a1} (h0 : Keeps i a0) : Keeps i (endSessions a0 a1) := by
  unfold endSessions
  extract_lets z0
  with_reducible repeat' (first
    | assumption | unfold z0 | dsimp only | fail_if_no_progress (refine keeps_mk ?_ rfl rfl))

theorem keeps_resetLink {a0 a1} (h0 : Keeps i a0) : Keeps i (resetLink a0 a1) := by
  unfold resetLink
  extract_lets z0
  refine keeps_cut (i := i) z0 ?_ (fun hz0 => ?_)
  on_goal 1 => unfold z0
  all_goals
    with_reducible repeat' (first
      | assumption | apply keeps_linkResetFn | apply keeps_endSessions | apply keeps_pumpHost | apply keeps_moveFns | apply keeps_putLink
      | refine keeps_foldl ?_ (fun _ _ _ => ?_) | dsimp only)

theorem keeps_execPerstAssert {a0 a1} (h1 : Keeps i a1) : KeepsRes i (execPerstAssert a0 a1) := by
  unfold execPerstAssert
  extract_lets z0 z1
  refine keeps_cut (i := i) z1 ?_ (fun hz1 => ?_)
  on_goal 1 => unfold z1
  all_goals
    with_reducible repeat' (first
      | assumption | exact KeepsRes.fault | exact KeepsRes.refused | apply keeps_putPort | apply keeps_okT | apply keeps_resetLink
      | refine keeps_ite ?_ ?_ | refine res_ite ?_ ?_ | refine KeepsRes.next ?_ | refine keeps_foldl ?_ (fun _ _ _ => ?_) | split | unfold z0
      | dsimp only)

theorem keeps_execPerstDeassert {a0 a1} (h1 : Keeps i a1) : KeepsRes i (execPerstDeassert a0 a1) := by
  unfold execPerstDeassert
  extract_lets z0
  with_reducible repeat' (first
    | assumption | exact KeepsRes.fault | exact KeepsRes.refused | apply keeps_putPort | refine keeps_ite ?_ ?_ | refine res_ite ?_ ?_
    | refine KeepsRes.next ?_ | split | unfold z0 | dsimp only)

theorem keeps_execHostLinkUp {a0 a1} (h1 : Keeps i a1) : KeepsRes i (execHostLinkUp a0 a1) := by
  unfold execHostLinkUp
  extract_lets z0 z1
  refine keeps_cut (i := i) z1 ?_ (fun hz1 => ?_)
  on_goal 1 => unfold z1
  all_goals
    with_reducible repeat' (first
      | assumption | exact KeepsRes.fault | exact KeepsRes.refused | apply keeps_putPort | apply keeps_putLink | refine keeps_ite ?_ ?_
      | refine res_ite ?_ ?_ | refine KeepsRes.next ?_ | split | unfold z0 | dsimp only)

theorem keeps_execHotReset {a0 a1} (h1 : Keeps i a1) : KeepsRes i (execHotReset a0 a1) := by
  unfold execHotReset
  with_reducible repeat' (first
    | assumption | exact KeepsRes.fault | exact KeepsRes.refused | apply keeps_okT | apply keeps_resetLink | refine keeps_ite ?_ ?_
    | refine res_ite ?_ ?_ | refine KeepsRes.next ?_ | split)

theorem keeps_execHostRefclkLoss {a0 a1} (h1 : Keeps i a1) : KeepsRes i (execHostRefclkLoss a0 a1) := by
  unfold execHostRefclkLoss
  extract_lets z0
  with_reducible repeat' (first
    | assumption | exact KeepsRes.fault | exact KeepsRes.refused | apply keeps_okT | apply keeps_resetLink | apply keeps_putPort
    | refine keeps_ite ?_ ?_ | refine res_ite ?_ ?_ | refine KeepsRes.next ?_ | refine keeps_foldl ?_ (fun _ _ _ => ?_) | split | unfold z0 | dsimp only)

theorem keeps_execFlr {a0 a1} (h1 : Keeps i a1) : KeepsRes i (execFlr a0 a1) := by
  unfold execFlr
  extract_lets z0
  refine keeps_cut (i := i) z0 ?_ (fun hz0 => ?_)
  on_goal 1 => unfold z0
  all_goals
    with_reducible repeat' (first
      | assumption | intro _ | exact KeepsRes.fault | exact KeepsRes.refused | apply keeps_modFn | apply keeps_endSessions | apply keeps_okT
      | apply keeps_partitionReset | refine keeps_ite ?_ ?_ | refine res_ite ?_ ?_ | refine KeepsRes.next ?_ | split | dsimp only)

theorem keeps_execFlrComplete {a0 a1} (h1 : Keeps i a1) : KeepsRes i (execFlrComplete a0 a1) := by
  unfold execFlrComplete
  extract_lets z0
  refine keeps_cut (i := i) z0 ?_ (fun hz0 => ?_)
  on_goal 1 => unfold z0
  all_goals
    with_reducible repeat' (first
      | assumption | intro _ | exact KeepsRes.fault | exact KeepsRes.refused | apply keeps_resetConfig | apply keeps_tcDrop | apply keeps_okT
      | apply keeps_modFn | refine keeps_ite ?_ ?_ | refine res_ite ?_ ?_ | refine KeepsRes.next ?_ | split | dsimp only)

theorem keeps_resumeFn {a0 a1} (h0 : Keeps i a0) : Keeps i (resumeFn a0 a1) := by
  unfold resumeFn
  extract_lets z0 z1
  refine keeps_cut (i := i) z1 ?_ (fun hz1 => ?_)
  on_goal 1 => unfold z1
  all_goals
    with_reducible repeat' (first
      | assumption | apply keeps_sendPending | apply keeps_pumpHost | apply keeps_deliverBacklog | refine keeps_ite ?_ ?_ | split | unfold z0
      | dsimp only)

theorem keeps_execBmeClear {a0 a1} (h1 : Keeps i a1) : KeepsRes i (execBmeClear a0 a1) := by
  unfold execBmeClear
  with_reducible repeat' (first
    | assumption | intro _ | exact KeepsRes.fault | exact KeepsRes.refused | apply keeps_okT | apply keeps_pumpHost | apply keeps_modFn
    | refine keeps_ite ?_ ?_ | refine res_ite ?_ ?_ | refine KeepsRes.next ?_ | split)

theorem keeps_execBmeSet {a0 a1} (h1 : Keeps i a1) : KeepsRes i (execBmeSet a0 a1) := by
  unfold execBmeSet
  with_reducible repeat' (first
    | assumption | intro _ | exact KeepsRes.fault | exact KeepsRes.refused | apply keeps_okT | apply keeps_resumeFn | apply keeps_modFn
    | refine keeps_ite ?_ ?_ | refine res_ite ?_ ?_ | refine KeepsRes.next ?_ | split)

theorem keeps_execD3hotEntry {a0 a1} (h1 : Keeps i a1) : KeepsRes i (execD3hotEntry a0 a1) := by
  unfold execD3hotEntry
  with_reducible repeat' (first
    | assumption | intro _ | exact KeepsRes.fault | exact KeepsRes.refused | apply keeps_okT | apply keeps_pumpHost | apply keeps_modFn
    | refine keeps_ite ?_ ?_ | refine res_ite ?_ ?_ | refine KeepsRes.next ?_ | split)

theorem keeps_execD0Entry {a0 a1} (h1 : Keeps i a1) : KeepsRes i (execD0Entry a0 a1) := by
  unfold execD0Entry
  with_reducible repeat' (first
    | assumption | intro _ | exact KeepsRes.fault | exact KeepsRes.refused | apply keeps_okT | apply keeps_resumeFn | apply keeps_modFn
    | refine keeps_ite ?_ ?_ | refine res_ite ?_ ?_ | refine KeepsRes.next ?_ | split)

theorem keeps_execMsixUnmask {a0 a1 a2} (h2 : Keeps i a2) : KeepsRes i (execMsixUnmask a0 a1 a2) := by
  unfold execMsixUnmask
  with_reducible repeat' (first
    | assumption | intro _ | exact KeepsRes.fault | exact KeepsRes.refused | apply keeps_sendPending | apply keeps_modFn | refine keeps_ite ?_ ?_
    | refine res_ite ?_ ?_ | refine KeepsRes.next ?_ | split | dsimp only)

theorem keeps_beginInval {a0 a1 a2 a3} (h0 : Keeps i a0) : Keeps i (beginInval a0 a1 a2 a3) := by
  unfold beginInval
  extract_lets z0
  with_reducible repeat' (first
    | assumption | intro _ | apply keeps_modFn | apply keeps_tcDrop | unfold z0 | dsimp only)

theorem keeps_endInval {a0 a1 a2} (h0 : Keeps i a0) : KeepsOpt i (endInval a0 a1 a2) := by
  unfold endInval
  extract_lets z0
  with_reducible repeat' (first
    | assumption | exact KeepsOpt.none | apply keeps_putFn | refine keeps_ite ?_ ?_ | refine opt_ite ?_ ?_ | refine KeepsOpt.some ?_ | split | unfold z0
    | dsimp only)

theorem keeps_execAtsInvalidationRequest {a0 a1 a2 a3 a4 a5 a6} (h6 : Keeps i a6) : KeepsRes i (execAtsInvalidationRequest a0 a1 a2 a3 a4 a5 a6) := by
  unfold execAtsInvalidationRequest
  with_reducible repeat' (first
    | assumption | intro _ | exact KeepsRes.fault | exact KeepsRes.refused | apply keeps_beginInval | refine keeps_ite ?_ ?_ | refine res_ite ?_ ?_
    | refine KeepsRes.next ?_ | split)

theorem keeps_execAtsInvalidationCompletion {a0 a1 a2} (h2 : Keeps i a2) : KeepsRes i (execAtsInvalidationCompletion a0 a1 a2) := by
  unfold execAtsInvalidationCompletion
  with_reducible repeat' (first
    | assumption | exact KeepsRes.fault | exact KeepsRes.refused | apply keeps_endInval | apply keeps_emit | refine keeps_ite ?_ ?_
    | refine opt_ite ?_ ?_ | refine KeepsOpt.some ?_ | refine res_ite ?_ ?_ | refine KeepsRes.next ?_ | refine of_some (by assumption) ?_ | split
    | dsimp only)

theorem keeps_execAtsEnableClear {a0 a1 a2} (h2 : Keeps i a2) : KeepsRes i (execAtsEnableClear a0 a1 a2) := by
  unfold execAtsEnableClear
  extract_lets z0 z1 z2
  refine keeps_cut (i := i) z0 ?_ (fun hz0 => keeps_cut (i := i) z1 ?_ (fun hz1 => ?_))
  on_goal 1 => unfold z0
  on_goal 2 => unfold z1
  all_goals
    with_reducible repeat' (first
      | assumption | intro _ | exact KeepsRes.fault | exact KeepsRes.refused | apply keeps_modFn | apply keeps_tcDrop | apply keeps_okT
      | apply keeps_pumpHost | refine keeps_ite ?_ ?_ | refine res_ite ?_ ?_ | refine KeepsRes.next ?_ | split | unfold z2 | dsimp only
      | fail_if_no_progress (refine keeps_mk ?_ rfl rfl))

theorem keeps_denyTranslation {a0 a1 a2 a3} (h0 : Keeps i a0) : Keeps i (denyTranslation a0 a1 a2 a3) := by
  unfold denyTranslation
  extract_lets z0 z1 z2 z3 z4
  refine keeps_cut (i := i) z0 ?_ (fun hz0 => keeps_cut (i := i) z2 ?_ (fun hz2 => keeps_cut (i := i) z3 ?_ (fun hz3 => ?_)))
  on_goal 1 => unfold z0
  on_goal 2 => unfold z2
  on_goal 3 => unfold z3
  all_goals
    with_reducible repeat' (first
      | assumption | apply keeps_haltQueue | apply keeps_countFault | apply keeps_deliverBacklog | apply keeps_pumpHost | refine keeps_ite ?_ ?_
      | refine keeps_foldl ?_ (fun _ _ _ => ?_) | split | unfold z1 | unfold z4 | dsimp only | fail_if_no_progress (refine keeps_mk ?_ rfl rfl))

theorem keeps_translationCame {a0 a1 a2 a3 a4 a5} (h0 : Keeps i a0) : Keeps i (translationCame a0 a1 a2 a3 a4 a5) := by
  unfold translationCame
  with_reducible repeat' (first
    | assumption | apply keeps_tcAdd | apply keeps_deliverBacklog | apply keeps_pumpHost | apply keeps_denyTranslation | refine keeps_ite ?_ ?_ | split
    | dsimp only)

theorem keeps_execTranslationCompletion {a0 a1 a2 a3 a4} (h4 : Keeps i a4) : KeepsRes i (execTranslationCompletion a0 a1 a2 a3 a4) := by
  unfold execTranslationCompletion
  extract_lets z0 z1 z2
  with_reducible repeat' (first
    | assumption | exact KeepsRes.fault | exact KeepsRes.refused | apply keeps_okT | apply keeps_translationCame | refine keeps_ite ?_ ?_
    | refine res_ite ?_ ?_ | refine KeepsRes.next ?_ | split | unfold z0 | unfold z1 | unfold z2 | dsimp only
    | fail_if_no_progress (refine keeps_mk ?_ rfl rfl))

theorem keeps_execTcInv {a0 a1 a2 a3} (h3 : Keeps i a3) : KeepsRes i (execTcInv a0 a1 a2 a3) := by
  unfold execTcInv
  extract_lets z0
  refine keeps_cut (i := i) z0 ?_ (fun hz0 => ?_)
  on_goal 1 => unfold z0
  all_goals
    with_reducible repeat' (first
      | assumption | intro _ | exact KeepsRes.fault | exact KeepsRes.refused | apply keeps_regSetBits | apply keeps_beginInval | refine keeps_ite ?_ ?_
      | refine res_ite ?_ ?_ | refine KeepsRes.next ?_ | split | dsimp only)

theorem keeps_execTcInvComplete {a0 a1} (h1 : Keeps i a1) : KeepsRes i (execTcInvComplete a0 a1) := by
  unfold execTcInvComplete
  with_reducible repeat' (first
    | assumption | exact KeepsRes.fault | exact KeepsRes.refused | apply keeps_endInval | refine keeps_ite ?_ ?_ | refine opt_ite ?_ ?_
    | refine KeepsOpt.some ?_ | refine res_ite ?_ ?_ | refine KeepsRes.next ?_ | refine of_some (by assumption) ?_ | split | dsimp only)

theorem keeps_execAdopt {a0 a1} (h1 : Keeps i a1) : KeepsRes i (execAdopt a0 a1) := by
  unfold execAdopt
  extract_lets z0
  with_reducible repeat' (first
    | assumption | exact KeepsRes.fault | exact KeepsRes.refused | apply keeps_okT | apply keeps_pumpHost | apply keeps_deliverBacklog
    | apply keeps_putFn | refine keeps_ite ?_ ?_ | refine res_ite ?_ ?_ | refine KeepsRes.next ?_ | split | unfold z0 | dsimp only)

theorem keeps_execAttachDiscard {a0 a1} (h1 : Keeps i a1) : KeepsRes i (execAttachDiscard a0 a1) := by
  unfold execAttachDiscard
  extract_lets z0
  with_reducible repeat' (first
    | assumption | exact KeepsRes.fault | exact KeepsRes.refused | apply keeps_okT | apply keeps_partitionReset | refine keeps_ite ?_ ?_
    | refine res_ite ?_ ?_ | refine KeepsRes.next ?_ | split | unfold z0 | dsimp only)

theorem keeps_performPosted {a0 a1 a2} (h0 : Keeps i a0) : Keeps i (performPosted a0 a1 a2).1 := by
  unfold performPosted
  extract_lets z0
  with_reducible repeat' (first
    | assumption | apply keeps_regPut | apply keeps_writeTail | apply keeps_writeEvtHead | apply keeps_windowTally | apply keeps_logUnmapped
    | apply keeps_gate | apply keeps_writeNow | apply keeps_bump | apply keeps_waitFor | refine keeps_ite ?_ ?_ | refine now_ite ?_ ?_
    | refine KeepsNow.done ?_ | refine KeepsNow.bad ?_ | refine KeepsNow.wait ?_ | refine of_done (by assumption) ?_ | refine of_bad (by assumption) ?_
    | refine of_wait (by assumption) ?_ | refine of_fst (by assumption) ?_ | split | unfold z0 | dsimp only)

theorem keeps_postedRun {a0 a1 a2 a3 a4 a5} (h2 : Keeps i a2) : Keeps i (postedRun a0 a1 a2 a3 a4 a5).1 := by
  induction a1 generalizing a2 a3 a4 a5 with
  | nil => exact h2
  | cons p l ih =>
    unfold postedRun
    split
    · exact h2
    split
    · exact ih h2
    split <;> next e => exact ih (of_fst e (keeps_performPosted h2))

theorem keeps_runPosted {a0 a1} (h0 : Keeps i a0) : Keeps i (runPosted a0 a1) := by
  unfold runPosted
  with_reducible repeat' (first
    | assumption | intro _ | apply keeps_postedRun | apply keeps_modFn | refine of_fst (by assumption) ?_ | split | dsimp only)

theorem keeps_post {a0 a1 a2} (h0 : Keeps i a0) : Keeps i (post a0 a1 a2) := by
  unfold post
  with_reducible repeat' (first
    | assumption | intro _ | apply keeps_runPosted | apply keeps_modFn)

theorem keeps_execHostWrite {a0 a1 a2 a3 a4 a5} (h5 : Keeps i a5) : KeepsRes i (execHostWrite a0 a1 a2 a3 a4 a5) := by
  unfold execHostWrite
  extract_lets z0
  with_reducible repeat' (first
    | assumption | intro _ | exact KeepsRes.fault | exact KeepsRes.refused | apply keeps_bump | apply keeps_draw | apply keeps_modFn | apply keeps_okT
    | apply keeps_post | refine keeps_ite ?_ ?_ | refine res_ite ?_ ?_ | refine KeepsRes.next ?_ | refine of_snd (by assumption) ?_ | split | unfold z0
    | dsimp only)

theorem keeps_execPull {a0 a1} (h1 : Keeps i a1) : KeepsRes i (execPull a0 a1) := by
  unfold execPull
  with_reducible repeat' (first
    | assumption | exact KeepsRes.fault | exact KeepsRes.refused | apply keeps_okT | apply keeps_runPosted | refine keeps_ite ?_ ?_
    | refine res_ite ?_ ?_ | refine KeepsRes.next ?_ | split)

theorem keeps_execHostRead {a0 a1 a2 a3 a4} (h4 : Keeps i a4) : KeepsRes i (execHostRead a0 a1 a2 a3 a4) := by
  unfold execHostRead
  extract_lets z0 z1 z2
  refine keeps_cut (i := i) z0 ?_ (fun hz0 => ?_)
  on_goal 1 => unfold z0
  all_goals
    with_reducible repeat' (first
      | assumption | exact KeepsRes.fault | exact KeepsRes.refused | apply keeps_emit | apply keeps_runPosted | apply keeps_okT
      | apply keeps_logUnmapped | apply keeps_gate | apply keeps_readNow | apply keeps_logEvent | apply keeps_bump | apply keeps_waitFor | unfold z2
      | refine keeps_ite ?_ ?_ | refine now_ite ?_ ?_ | refine KeepsNow.done ?_ | refine KeepsNow.bad ?_ | refine KeepsNow.wait ?_
      | refine res_ite ?_ ?_ | refine KeepsRes.next ?_ | refine of_done (by assumption) ?_ | refine of_bad (by assumption) ?_
      | refine of_wait (by assumption) ?_ | refine of_fst (by assumption) ?_ | split | unfold z1 | dsimp only)

theorem keeps_postOwn {a0 a1 a2} (h0 : Keeps i a0) : KeepsRes i (postOwn a0 a1 a2) := by
  unfold postOwn
  with_reducible repeat' (first
    | assumption | exact KeepsRes.fault | exact KeepsRes.refused | apply keeps_okT | apply keeps_post | refine keeps_ite ?_ ?_ | refine res_ite ?_ ?_
    | refine KeepsRes.next ?_ | split)

theorem keeps_execFenceWrite {a0 a1 a2} (h2 : Keeps i a2) : KeepsRes i (execFenceWrite a0 a1 a2) := by
  unfold execFenceWrite
  with_reducible repeat' (first
    | assumption | exact KeepsRes.fault | exact KeepsRes.refused | apply keeps_postOwn | refine keeps_ite ?_ ?_ | refine res_ite ?_ ?_
    | refine KeepsRes.next ?_ | split)

theorem keeps_execFenceRead {a0 a1} (h1 : Keeps i a1) : KeepsRes i (execFenceRead a0 a1) := by
  unfold execFenceRead
  extract_lets z0
  refine keeps_cut (i := i) z0 ?_ (fun hz0 => ?_)
  on_goal 1 => unfold z0
  all_goals
    with_reducible repeat' (first
      | assumption | exact KeepsRes.fault | exact KeepsRes.refused | apply keeps_emit | apply keeps_runPosted | apply keeps_okT | refine keeps_ite ?_ ?_
      | refine res_ite ?_ ?_ | refine KeepsRes.next ?_ | split | dsimp only)

theorem keeps_execDoorbellTailWrite {a0 a1 a2 a3} (h3 : Keeps i a3) : KeepsRes i (execDoorbellTailWrite a0 a1 a2 a3) := by
  unfold execDoorbellTailWrite
  with_reducible repeat' (first
    | assumption | exact KeepsRes.fault | exact KeepsRes.refused | apply keeps_postOwn | refine keeps_ite ?_ ?_ | refine res_ite ?_ ?_
    | refine KeepsRes.next ?_ | split)

theorem keeps_execEvtHeadWrite {a0 a1 a2 a3} (h3 : Keeps i a3) : KeepsRes i (execEvtHeadWrite a0 a1 a2 a3) := by
  unfold execEvtHeadWrite
  with_reducible repeat' (first
    | assumption | exact KeepsRes.fault | exact KeepsRes.refused | apply keeps_postOwn | refine keeps_ite ?_ ?_ | refine res_ite ?_ ?_
    | refine KeepsRes.next ?_ | split)

theorem keeps_execTallyWindowAdd {a0 a1 a2 a3} (h3 : Keeps i a3) : KeepsRes i (execTallyWindowAdd a0 a1 a2 a3) := by
  unfold execTallyWindowAdd
  with_reducible repeat' (first
    | assumption | exact KeepsRes.fault | exact KeepsRes.refused | apply keeps_postOwn | refine keeps_ite ?_ ?_ | refine res_ite ?_ ?_
    | refine KeepsRes.next ?_ | split)

/-! ### Sys2Proof.Machine.Sites -/

theorem keeps_putModule {a0 a1 a2 a3} (h0 : Keeps i a0) : Keeps i (putModule a0 a1 a2 a3) := by
  unfold putModule
  with_reducible repeat' (first
    | assumption | intro _ | apply keeps_modSite)

theorem keeps_siteStatus {a0 a1 a2} (h0 : Keeps i a0) : Keeps i (siteStatus a0 a1 a2) := by
  unfold siteStatus
  with_reducible repeat' (first
    | assumption | apply keeps_setStatus)

theorem keeps_graceCheck {a0 a1} (h0 : Keeps i a0) : Keeps i (graceCheck a0 a1) := by
  unfold graceCheck
  extract_lets z0
  with_reducible repeat' (first
    | assumption | intro _ | apply keeps_modSite | refine keeps_ite ?_ ?_ | split | unfold z0 | dsimp only)

theorem keeps_moduleOut {a0 a1 a2} (h0 : Keeps i a0) : Keeps i (moduleOut a0 a1 a2) := by
  unfold moduleOut
  extract_lets z0 z1
  refine keeps_cut (i := i) z1 ?_ (fun hz1 => ?_)
  on_goal 1 => unfold z1
  all_goals
    with_reducible repeat' (first
      | assumption | apply keeps_putModule | apply keeps_graceCheck | apply keeps_siteStatus | apply keeps_ucsLastErr | unfold z0 | dsimp only)

theorem keeps_grantCredits {a0 a1} (h0 : Keeps i a0) : Keeps i (grantCredits a0 a1) := by
  unfold grantCredits
  with_reducible repeat' (first
    | assumption | apply keeps_returnCredit)

theorem keeps_refuseChiplet {a0 a1} (h0 : Keeps i a0) : Keeps i (refuseChiplet a0 a1) := by
  unfold refuseChiplet
  with_reducible repeat' (first
    | assumption | intro _ | apply keeps_siteStatus | apply keeps_ucsLastErr | apply keeps_modSite)

theorem keeps_recordChiplet {a0 a1 a2 a3} (h0 : Keeps i a0) : Keeps i (recordChiplet a0 a1 a2 a3) := by
  unfold recordChiplet
  with_reducible repeat' (first
    | assumption | intro _ | apply keeps_modSite | apply keeps_putModule | refine keeps_ite ?_ ?_ | refine keeps_foldl ?_ (fun _ _ _ => ?_) | split
    | dsimp only)

theorem keeps_identify {a0 a1} (h0 : Keeps i a0) : Keeps i (identify a0 a1) := by
  unfold identify
  extract_lets z0 z1
  with_reducible repeat' (first
    | assumption | apply keeps_refuseChiplet | apply keeps_recordChiplet | refine keeps_ite ?_ ?_ | split | unfold z0 | unfold z1 | dsimp only)

theorem keeps_identifyAll {a0 a1} (h0 : Keeps i a0) : Keeps i (identifyAll a0 a1) := by
  unfold identifyAll
  with_reducible repeat' (first
    | assumption | apply keeps_identify | refine keeps_foldl ?_ (fun _ _ _ => ?_) | dsimp only)

theorem keeps_execModuleTrainingDone {a0 a1 a2 a3 a4 a5 a6} (h6 : Keeps i a6) : KeepsRes i (execModuleTrainingDone a0 a1 a2 a3 a4 a5 a6) := by
  unfold execModuleTrainingDone
  extract_lets z0 z1 z2 z3 z4 z5 z6
  refine keeps_cut (i := i) z2 ?_ (fun hz2 => keeps_cut (i := i) z3 ?_ (fun hz3 => keeps_cut (i := i) z4 ?_ (fun hz4 => keeps_cut (i := i) z5 ?_ (fun hz5 => keeps_cut (i := i) z6 ?_ (fun hz6 => ?_)))))
  on_goal 1 => unfold z2
  on_goal 2 => unfold z3
  on_goal 3 => unfold z4
  on_goal 4 => unfold z5
  on_goal 5 => unfold z6
  all_goals
    with_reducible repeat' (first
      | assumption | intro _ | exact KeepsRes.fault | exact KeepsRes.refused | apply keeps_modSite | apply keeps_okT | apply keeps_identifyAll
      | apply keeps_moduleOut | apply keeps_putModule | apply keeps_siteStatus | apply keeps_graceCheck | apply keeps_grantCredits | apply keeps_sendEhp
      | refine keeps_ite ?_ ?_ | refine res_ite ?_ ?_ | refine KeepsRes.next ?_ | split | unfold z0 | unfold z1 | dsimp only)

theorem keeps_execDescriptor {a0 a1 a2 a3} (h3 : Keeps i a3) : KeepsRes i (execDescriptor a0 a1 a2 a3) := by
  unfold execDescriptor
  extract_lets z0 z1 z2 z3
  refine keeps_cut (i := i) z1 ?_ (fun hz1 => keeps_cut (i := i) z2 ?_ (fun hz2 => keeps_cut (i := i) z3 ?_ (fun hz3 => ?_)))
  on_goal 1 => unfold z1
  on_goal 2 => unfold z2
  on_goal 3 => unfold z3
  all_goals
    with_reducible repeat' (first
      | assumption | intro _ | exact KeepsRes.fault | exact KeepsRes.refused | apply keeps_received | apply keeps_modSite | apply keeps_returnCredit
      | apply keeps_putModule | apply keeps_okT | apply keeps_identifyAll | refine keeps_ite ?_ ?_ | refine res_ite ?_ ?_ | refine KeepsRes.next ?_
      | split | unfold z0 | dsimp only)

theorem keeps_execIdentifyTimeout {a0 a1 a2} (h2 : Keeps i a2) : KeepsRes i (execIdentifyTimeout a0 a1 a2) := by
  unfold execIdentifyTimeout
  extract_lets z0 z1
  refine keeps_cut (i := i) z1 ?_ (fun hz1 => ?_)
  on_goal 1 => unfold z1
  all_goals
    with_reducible repeat' (first
      | assumption | intro _ | exact KeepsRes.fault | exact KeepsRes.refused | apply keeps_putModule | apply keeps_okT | apply keeps_identifyAll
      | apply keeps_siteStatus | apply keeps_modSite | refine keeps_ite ?_ ?_ | refine res_ite ?_ ?_ | refine KeepsRes.next ?_ | split | unfold z0
      | dsimp only)

theorem keeps_execModuleRetrain {a0 a1 a2 a3 a4 a5} (h5 : Keeps i a5) : KeepsRes i (execModuleRetrain a0 a1 a2 a3 a4 a5) := by
  unfold execModuleRetrain
  extract_lets z0 z1
  refine keeps_cut (i := i) z1 ?_ (fun hz1 => ?_)
  on_goal 1 => unfold z1
  all_goals
    with_reducible repeat' (first
      | assumption | exact KeepsRes.fault | exact KeepsRes.refused | apply keeps_bump | apply keeps_siteStatus | apply keeps_putModule | apply keeps_okT
      | apply keeps_moduleOut | refine keeps_ite ?_ ?_ | refine res_ite ?_ ?_ | refine KeepsRes.next ?_ | split | unfold z0 | dsimp only)

theorem keeps_execModuleLinkDown {a0 a1 a2 a3} (h3 : Keeps i a3) : KeepsRes i (execModuleLinkDown a0 a1 a2 a3) := by
  unfold execModuleLinkDown
  extract_lets z0 z1
  refine keeps_cut (i := i) z1 ?_ (fun hz1 => ?_)
  on_goal 1 => unfold z1
  all_goals
    with_reducible repeat' (first
      | assumption | exact KeepsRes.fault | exact KeepsRes.refused | apply keeps_bump | apply keeps_ucsLastErr | apply keeps_sendEhp | apply keeps_okT
      | apply keeps_graceCheck | apply keeps_putModule | refine keeps_ite ?_ ?_ | refine res_ite ?_ ?_ | refine KeepsRes.next ?_ | split | unfold z0
      | dsimp only)

theorem keeps_sendBale {a0 a1 a2 a3 a4 a5} (h4 : Keeps i a4) : KeepsNow i (sendBale a0 a1 a2 a3 a4 a5) := by
  induction a3 generalizing a4 a5 with
  | nil => exact KeepsNow.done h4
  | cons j l ih =>
    unfold sendBale
    split
    · next e => exact ih (keeps_sendEhp (of_done e (keeps_lineReadNow h4)))
    · next e => exact ih (of_bad e (keeps_lineReadNow h4))
    · next e => exact KeepsNow.wait (of_wait e (keeps_lineReadNow h4))

theorem keeps_execBaleRd {a0 a1 a2 a3} (h3 : Keeps i a3) : KeepsRes i (execBaleRd a0 a1 a2 a3) := by
  unfold execBaleRd
  extract_lets z0
  with_reducible repeat' (first
    | assumption | exact KeepsRes.fault | exact KeepsRes.refused | apply keeps_notDue | apply keeps_takeIn | apply keeps_okT | apply keeps_gateCls
    | apply keeps_ok | apply keeps_sendBale | apply keeps_waitFor | apply keeps_freeTag | apply keeps_sendReply | refine res_ite ?_ ?_
    | refine KeepsRes.next ?_ | refine keeps_ite ?_ ?_ | refine keeps_foldl ?_ (fun _ _ _ => ?_) | refine of_next (by assumption) ?_
    | refine of_refused (by assumption) ?_ | refine of_taken (by assumption) ?_ | refine of_fst (by assumption) ?_ | refine of_done (by assumption) ?_
    | refine of_bad (by assumption) ?_ | refine of_wait (by assumption) ?_ | split | unfold z0 | dsimp only
    | fail_if_no_progress (refine keeps_mk ?_ rfl rfl))

theorem keeps_execBaleWr {a0 a1 a2 a3} (h3 : Keeps i a3) : KeepsRes i (execBaleWr a0 a1 a2 a3) := by
  unfold execBaleWr
  with_reducible repeat' (first
    | assumption | intro _ | exact KeepsRes.fault | exact KeepsRes.refused | apply keeps_takeIn | apply keeps_okT | apply keeps_modSite
    | refine keeps_ite ?_ ?_ | refine res_ite ?_ ?_ | refine KeepsRes.next ?_ | refine of_refused (by assumption) ?_
    | refine of_taken (by assumption) ?_ | split | dsimp only)

theorem keeps_discardBaleData {a0 a1} (h0 : Keeps i a0) : Keeps i (discardBaleData a0 a1) := by
  unfold discardBaleData
  with_reducible repeat' (first
    | assumption | apply keeps_returnCredit)

theorem keeps_poisonLine {a0 a1} (h0 : Keeps i a0) : Keeps i (poisonLine a0 a1) := by
  unfold poisonLine
  with_reducible repeat' (first
    | assumption | apply keeps_seraiSetLine | apply keeps_lowerWrite | refine keeps_ite ?_ ?_ | refine keeps_foldl ?_ (fun _ _ _ => ?_) | split
    | dsimp only | fail_if_no_progress (refine keeps_mk ?_ rfl rfl))

theorem keeps_execBaleData {a0 a1 a2 a3 a4 a5 a6 a7} (h7 : Keeps i a7) : KeepsRes i (execBaleData a0 a1 a2 a3 a4 a5 a6 a7) := by
  unfold execBaleData
  extract_lets z0 z1
  refine keeps_cut (i := i) z1 ?_ (fun hz1 => ?_)
  on_goal 1 => unfold z1
  all_goals
    with_reducible repeat' (first
      | assumption | exact KeepsRes.fault | exact KeepsRes.refused | apply keeps_notDue | apply keeps_received | apply keeps_modSite | apply keeps_ok
      | apply keeps_discardBaleData | apply keeps_bump | apply keeps_ucsLastErr | apply keeps_protoErr | apply keeps_gateCls | apply keeps_sendReply
      | apply keeps_lineWriteNow | apply keeps_okT | apply keeps_poisonLine | apply keeps_waitFor | refine res_ite ?_ ?_ | refine KeepsRes.next ?_
      | refine keeps_ite ?_ ?_ | refine keeps_foldl ?_ (fun _ _ _ => ?_) | refine of_next (by assumption) ?_ | refine of_fst (by assumption) ?_
      | refine of_done (by assumption) ?_ | refine of_bad (by assumption) ?_ | refine of_wait (by assumption) ?_ | split | unfold z0 | dsimp only
      | fail_if_no_progress (refine keeps_mk ?_ rfl rfl))

theorem keeps_execBaleTimeout {a0 a1 a2} (h2 : Keeps i a2) : KeepsRes i (execBaleTimeout a0 a1 a2) := by
  unfold execBaleTimeout
  with_reducible repeat' (first
    | assumption | intro _ | exact KeepsRes.fault | exact KeepsRes.refused | apply keeps_advance | apply keeps_modSite | apply keeps_sendReply
    | apply keeps_siteStatus | apply keeps_bump | apply keeps_ucsLastErr | refine KeepsRes.next ?_ | split | dsimp only)

theorem keeps_execEhpTally {a0 a1 a2 a3} (h3 : Keeps i a3) : KeepsRes i (execEhpTally a0 a1 a2 a3) := by
  unfold execEhpTally
  extract_lets z0 z1 z2 z3 z4 z5 z6
  refine keeps_cut (i := i) z3 ?_ (fun hz3 => keeps_cut (i := i) z4 ?_ (fun hz4 => ?_))
  on_goal 1 => unfold z3
  on_goal 2 => unfold z4
  all_goals
    with_reducible repeat' (first
      | assumption | exact KeepsRes.fault | exact KeepsRes.refused | apply keeps_received | apply keeps_okT | apply keeps_refuseMalformed
      | apply keeps_takeRequest | apply keeps_sendReply | apply keeps_tallyAdd | unfold z5 | refine keeps_ite ?_ ?_ | refine res_ite ?_ ?_
      | refine KeepsRes.next ?_ | split | unfold z0 | unfold z1 | unfold z2 | unfold z6 | dsimp only)

theorem keeps_execCredit {a0 a1 a2 a3 a4} (h4 : Keeps i a4) : KeepsRes i (execCredit a0 a1 a2 a3 a4) := by
  unfold execCredit
  extract_lets z0 z1
  refine keeps_cut (i := i) z1 ?_ (fun hz1 => ?_)
  on_goal 1 => unfold z1
  all_goals
    with_reducible repeat' (first
      | assumption | intro _ | exact KeepsRes.fault | exact KeepsRes.refused | apply keeps_received | apply keeps_sendHeld | apply keeps_modSite
      | refine keeps_ite ?_ ?_ | refine res_ite ?_ ?_ | refine KeepsRes.next ?_ | split | unfold z0 | dsimp only)

theorem keeps_execTrCpl {a0 a1 a2 a3 a4 a5} (h5 : Keeps i a5) : KeepsRes i (execTrCpl a0 a1 a2 a3 a4 a5) := by
  unfold execTrCpl
  extract_lets z0 z1
  refine keeps_cut (i := i) z0 ?_ (fun hz0 => ?_)
  on_goal 1 => unfold z0
  all_goals
    with_reducible repeat' (first
      | assumption | exact KeepsRes.fault | exact KeepsRes.refused | apply keeps_received | apply keeps_protoErr | apply keeps_okT
      | apply keeps_translationCame | refine keeps_ite ?_ ?_ | refine res_ite ?_ ?_ | refine KeepsRes.next ?_ | split | unfold z1 | dsimp only
      | fail_if_no_progress (refine keeps_mk ?_ rfl rfl))

theorem keeps_execTrReqTimeout {a0 a1 a2} (h2 : Keeps i a2) : KeepsRes i (execTrReqTimeout a0 a1 a2) := by
  unfold execTrReqTimeout
  with_reducible repeat' (first
    | assumption | exact KeepsRes.fault | exact KeepsRes.refused | apply keeps_advance | apply keeps_okT | apply keeps_denyTranslation
    | apply keeps_protoErr | refine KeepsRes.next ?_ | split | dsimp only | fail_if_no_progress (refine keeps_mk ?_ rfl rfl))

theorem keeps_execInvReq {a0 a1 a2 a3 a4 a5 a6 a7} (h7 : Keeps i a7) : KeepsRes i (execInvReq a0 a1 a2 a3 a4 a5 a6 a7) := by
  unfold execInvReq
  extract_lets z0 z1 z2
  refine keeps_cut (i := i) z2 ?_ (fun hz2 => ?_)
  on_goal 1 => unfold z2
  all_goals
    with_reducible repeat' (first
      | assumption | intro _ | exact KeepsRes.fault | exact KeepsRes.refused | apply keeps_returnCredit | apply keeps_received | apply keeps_modSite
      | apply keeps_sendEhp | apply keeps_beginInval | refine keeps_ite ?_ ?_ | refine res_ite ?_ ?_ | refine KeepsRes.next ?_
      | refine keeps_foldl ?_ (fun _ _ _ => ?_) | split | unfold z0 | unfold z1 | dsimp only)

theorem keeps_execInvCpl {a0 a1 a2} (h2 : Keeps i a2) : KeepsRes i (execInvCpl a0 a1 a2) := by
  unfold execInvCpl
  dsimp only
  split
  · exact keeps_notDue h2
  split
  · exact keeps_notDue h2
  · next e =>
    exact keeps_ok (keeps_sendEhp (of_some e
      (opt_foldl (KeepsOpt.some h2) (fun _ _ h => opt_bind h (fun _ h => keeps_endInval h)))))

theorem keeps_execUcieLowPowerRequest {a0 a1 a2} (h2 : Keeps i a2) : KeepsRes i (execUcieLowPowerRequest a0 a1 a2) := by
  unfold execUcieLowPowerRequest
  with_reducible repeat' (first
    | assumption | exact KeepsRes.fault | exact KeepsRes.refused | refine keeps_ite ?_ ?_ | refine res_ite ?_ ?_ | refine KeepsRes.next ?_ | split)

/-! ### Sys2Proof.Machine.Network -/

theorem keeps_nocLastErr {a0 a1 a2 a3 a4 a5 a6} (h0 : Keeps i a0) : Keeps i (nocLastErr a0 a1 a2 a3 a4 a5 a6) := by
  unfold nocLastErr
  extract_lets z0
  with_reducible repeat' (first
    | assumption | apply keeps_regPut | refine keeps_ite ?_ ?_ | split | unfold z0 | dsimp only)

theorem keeps_replaceAnswer {a0 a1 a2 a3 a4} (h0 : Keeps i a0) : KeepsOpt i (replaceAnswer a0 a1 a2 a3 a4) := by
  unfold replaceAnswer
  extract_lets z0
  with_reducible repeat' (first
    | assumption | exact KeepsOpt.none | refine KeepsOpt.some ?_ | refine opt_mapState ?_ (fun _ _ => ?_) | refine opt_map (fun _ => ?_) | unfold z0
    | dsimp only | fail_if_no_progress (refine keeps_mk ?_ rfl rfl))

theorem keeps_poisonHome {a0 a1} (h0 : Keeps i a0) : Keeps i (poisonHome a0 a1) := by
  unfold poisonHome
  with_reducible repeat' (first
    | assumption | apply keeps_seraiSetLine | apply keeps_lowerWrite | refine keeps_ite ?_ ?_ | refine keeps_foldl ?_ (fun _ _ _ => ?_) | split
    | dsimp only | fail_if_no_progress (refine keeps_mk ?_ rfl rfl))

theorem keeps_lostRequest {a0 a1 a2} (h0 : Keeps i a0) : KeepsOptR i (lostRequest a0 a1 a2) := by
  unfold lostRequest
  extract_lets z0 z1
  with_reducible repeat' (first
    | assumption | exact KeepsOptR.none | apply keeps_txnPut | unfold z0 | refine KeepsOptR.some ?_ | refine optR_map (fun _ => ?_)
    | refine optR_bind (fun _ => ?_) | split | unfold z1 | dsimp only | fail_if_no_progress (refine keeps_mk ?_ rfl rfl))

theorem keeps_execPacketError {a0 a1 a2 a3} (h3 : Keeps i a3) : KeepsRes i (execPacketError a0 a1 a2 a3) := by
  unfold execPacketError
  extract_lets z0
  with_reducible repeat' (first
    | assumption | exact KeepsRes.fault | exact KeepsRes.refused | apply keeps_nocLastErr | apply keeps_setStatus | apply keeps_bump
    | apply keeps_replaceAnswer | apply keeps_poisonHome | unfold z0 | refine keeps_ite ?_ ?_ | refine opt_ite ?_ ?_ | refine KeepsOpt.some ?_
    | refine res_ite ?_ ?_ | refine KeepsRes.next ?_ | refine of_some (by assumption) ?_ | split | dsimp only)

theorem keeps_execResponseTimeout {a0 a1 a2} (h2 : Keeps i a2) : KeepsRes i (execResponseTimeout a0 a1 a2) := by
  unfold execResponseTimeout
  with_reducible repeat' (first
    | assumption | exact KeepsRes.fault | exact KeepsRes.refused | apply keeps_lostRequest | apply keeps_setStatus | apply keeps_bump
    | apply keeps_nocLastErr | apply keeps_draw | apply keeps_applyWrite | apply keeps_okT | apply keeps_answerCmp | refine keeps_ite ?_ ?_
    | refine res_ite ?_ ?_ | refine KeepsRes.next ?_ | refine of_someR (by assumption) ?_ | refine of_wrDone (by assumption) ?_
    | refine of_wrWait (by assumption) ?_ | refine of_snd (by assumption) ?_ | split | dsimp only)

theorem keeps_execNocHistSelWrite {a0 a1 a2} (h2 : Keeps i a2) : KeepsRes i (execNocHistSelWrite a0 a1 a2) := by
  unfold execNocHistSelWrite
  extract_lets z0
  refine keeps_cut (i := i) z0 ?_ (fun hz0 => ?_)
  on_goal 1 => unfold z0
  all_goals
    with_reducible repeat' (first
      | assumption | exact KeepsRes.fault | exact KeepsRes.refused | apply keeps_regPut | refine KeepsRes.next ?_
      | refine keeps_foldl ?_ (fun _ _ _ => ?_) | dsimp only)

/-! ### Sys2Proof.Machine.Engines -/

theorem keeps_wantPlane {a0 a1 a2} (h0 : Keeps i a0) : Keeps i (wantPlane a0 a1 a2) := by
  unfold wantPlane
  with_reducible repeat' (first
    | assumption | intro _ | apply keeps_modEngine | refine keeps_ite ?_ ?_ | split)

theorem keeps_dropLoad {a0 a1} (h0 : Keeps i a0) : Keeps i (dropLoad a0 a1) := by
  unfold dropLoad
  extract_lets z0
  refine keeps_cut (i := i) z0 ?_ (fun hz0 => ?_)
  on_goal 1 => unfold z0
  all_goals
    with_reducible repeat' (first
      | assumption | apply keeps_ungate | apply keeps_modEngine | refine keeps_ite ?_ ?_ | refine keeps_foldl ?_ (fun _ _ _ => ?_) | split
      | dsimp only | fail_if_no_progress (refine keeps_mk ?_ rfl rfl))

theorem keeps_engStart {a0 a1 a2} (h0 : Keeps i a0) : Keeps i (engStart a0 a1 a2) := by
  unfold engStart
  extract_lets z0 z1
  with_reducible repeat' (first
    | assumption | apply keeps_dropLoad | apply keeps_wantPlane | apply keeps_putEngine | apply keeps_regPut | apply keeps_beginStep
    | refine keeps_ite ?_ ?_ | refine keeps_foldl ?_ (fun _ _ _ => ?_) | split | unfold z0 | unfold z1 | dsimp only
    | fail_if_no_progress (refine keeps_mk ?_ rfl rfl))

theorem keeps_enginesGo {a0} (h0 : Keeps i a0) : Keeps i (enginesGo a0) := by
  unfold enginesGo
  with_reducible repeat' (first
    | assumption | apply keeps_engStart | refine keeps_foldl ?_ (fun _ _ _ => ?_) | dsimp only)

theorem keeps_slotBoundary {a0} (h0 : Keeps i a0) : Keeps i (slotBoundary a0) := by
  unfold slotBoundary
  extract_lets z0
  with_reducible repeat' (first
    | assumption | intro _ | apply keeps_modEngine | apply keeps_enginesGo | unfold z0 | refine keeps_ite ?_ ?_
    | refine keeps_foldl ?_ (fun _ _ _ => ?_) | split | dsimp only)

theorem keeps_engineBreak {a0 a1 a2 a3} (h0 : Keeps i a0) : Keeps i (engineBreak a0 a1 a2 a3) := by
  unfold engineBreak
  extract_lets z0 z1 z2 z3 z4
  refine keeps_cut (i := i) z0 ?_ (fun hz0 => keeps_cut (i := i) z1 ?_ (fun hz1 => keeps_cut (i := i) z2 ?_ (fun hz2 => keeps_cut (i := i) z3 ?_ (fun hz3 => keeps_cut (i := i) z4 ?_ (fun hz4 => ?_)))))
  on_goal 1 => unfold z0
  on_goal 2 => unfold z1
  on_goal 3 => unfold z2
  on_goal 4 => unfold z3
  on_goal 5 => unfold z4
  all_goals
    with_reducible repeat' (first
      | assumption | apply keeps_endRun | apply keeps_engineUngate | apply keeps_dropLoad | apply keeps_modEngine | apply keeps_beginStep
      | apply keeps_engStart | apply keeps_endStep | apply keeps_freeOutputs | refine keeps_ite ?_ ?_ | refine keeps_foldl ?_ (fun _ _ _ => ?_)
      | split | dsimp only | fail_if_no_progress (refine keeps_mk ?_ rfl rfl))

theorem keeps_logOutside {a0 a1 a2 a3 a4} (h0 : Keeps i a0) : Keeps i (logOutside a0 a1 a2 a3 a4) := by
  unfold logOutside
  with_reducible repeat' (first
    | assumption | apply keeps_logUnmapped | refine keeps_ite ?_ ?_ | refine keeps_foldl ?_ (fun _ _ _ => ?_) | split | dsimp only
    | fail_if_no_progress (refine keeps_mk ?_ rfl rfl))

theorem keeps_fetchFails {a0 a1 a2 a3} (h0 : Keeps i a0) : Keeps i (fetchFails a0 a1 a2 a3) := by
  unfold fetchFails
  extract_lets z0
  refine keeps_cut (i := i) z0 ?_ (fun hz0 => ?_)
  on_goal 1 => unfold z0
  all_goals
    with_reducible repeat' (first
      | assumption | intro _ | apply keeps_setStatus | apply keeps_modEngine | apply keeps_engineBreak | refine keeps_ite ?_ ?_ | split | dsimp only)

theorem keeps_execDescriptorFetch {a0 a1} (h1 : Keeps i a1) : KeepsRes i (execDescriptorFetch a0 a1) := by
  unfold execDescriptorFetch
  extract_lets z0
  with_reducible repeat' (first
    | assumption | intro _ | exact KeepsRes.fault | exact KeepsRes.refused | apply keeps_okT | apply keeps_fetchFails | apply keeps_logOutside
    | apply keeps_gate | apply keeps_readNow | apply keeps_waitFor | apply keeps_modEngine | apply keeps_engStart | apply keeps_wantPlane
    | refine keeps_ite ?_ ?_ | refine now_ite ?_ ?_ | refine KeepsNow.done ?_ | refine KeepsNow.bad ?_ | refine KeepsNow.wait ?_ | refine res_ite ?_ ?_
    | refine KeepsRes.next ?_ | refine of_done (by assumption) ?_ | refine of_bad (by assumption) ?_ | refine of_wait (by assumption) ?_
    | refine of_fst (by assumption) ?_ | split | unfold z0 | dsimp only)

theorem keeps_readAll {a0 a1} (h0 : Keeps i a0) : KeepsNow i (readAll a0 a1) := by
  induction a1 generalizing a0 with
  | nil => exact KeepsNow.done h0
  | cons r rs ih =>
    unfold readAll
    split
    · next e =>
      have h := ih (of_done e (keeps_readNow h0))
      split <;> next e => rw [e] at h; cases h; constructor; assumption
    · next e => exact KeepsNow.bad (of_bad e (keeps_readNow h0))
    · next e => exact KeepsNow.wait (of_wait e (keeps_readNow h0))

theorem keeps_planeLoad {a0 a1 a2 a3} (h0 : Keeps i a0) : KeepsNow i (planeLoad a0 a1 a2 a3) := by
  unfold planeLoad
  with_reducible repeat' (first
    | assumption | apply keeps_readAll | apply keeps_bump | refine keeps_ite ?_ ?_ | refine now_ite ?_ ?_ | refine KeepsNow.done ?_
    | refine KeepsNow.bad ?_ | refine KeepsNow.wait ?_ | refine of_done (by assumption) ?_ | refine of_bad (by assumption) ?_
    | refine of_wait (by assumption) ?_ | split | dsimp only)

theorem keeps_execPlaneLoadDone {a0 a1 a2} (h2 : Keeps i a2) : KeepsRes i (execPlaneLoadDone a0 a1 a2) := by
  unfold execPlaneLoadDone
  extract_lets z0
  with_reducible repeat' (first
    | assumption | intro _ | exact KeepsRes.fault | exact KeepsRes.refused | apply keeps_gate | apply keeps_okT | apply keeps_advance
    | apply keeps_planeLoad | apply keeps_waitFor | apply keeps_fetchFails | apply keeps_modEngine | apply keeps_bump | apply keeps_engStart
    | refine keeps_ite ?_ ?_ | refine now_ite ?_ ?_ | refine KeepsNow.done ?_ | refine KeepsNow.bad ?_ | refine KeepsNow.wait ?_ | refine res_ite ?_ ?_
    | refine KeepsRes.next ?_ | refine of_done (by assumption) ?_ | refine of_bad (by assumption) ?_ | refine of_wait (by assumption) ?_
    | refine of_fst (by assumption) ?_ | split | unfold z0 | dsimp only)

theorem keeps_tileInputs {a0 a1 a2 a3} (h0 : Keeps i a0) : KeepsNow i (tileInputs a0 a1 a2 a3) := by
  unfold tileInputs
  extract_lets z0
  with_reducible repeat' (first
    | assumption | apply keeps_readAll | refine now_ite ?_ ?_ | refine KeepsNow.done ?_ | refine KeepsNow.bad ?_ | refine KeepsNow.wait ?_
    | refine keeps_ite ?_ ?_ | refine keeps_foldl ?_ (fun _ _ _ => ?_) | refine of_done (by assumption) ?_ | refine of_bad (by assumption) ?_
    | refine of_wait (by assumption) ?_ | split | unfold z0 | dsimp only | fail_if_no_progress (refine keeps_mk ?_ rfl rfl))

theorem keeps_writeAll {a0 a1 a2} (h0 : Keeps i a0) : KeepsNow i (writeAll a0 a1 a2) := by
  induction a2 generalizing a0 with
  | nil => exact KeepsNow.done h0
  | cons w ws ih =>
    unfold writeAll
    split
    · next e => exact ih (of_done e (keeps_writeNow h0))
    · next e => exact ih (keeps_stepErr (of_bad e (keeps_writeNow h0)))
    · next e => exact KeepsNow.wait (of_wait e (keeps_writeNow h0))

theorem keeps_numericTrip {a0 a1 a2 a3} (h0 : Keeps i a0) : Keeps i (numericTrip a0 a1 a2 a3) := by
  unfold numericTrip
  extract_lets z0 z1 z2 z3
  refine keeps_cut (i := i) z2 ?_ (fun hz2 => keeps_cut (i := i) z3 ?_ (fun hz3 => ?_))
  on_goal 1 => unfold z2
  on_goal 2 => unfold z3
  all_goals
    with_reducible repeat' (first
      | assumption | intro _ | apply keeps_modEngine | apply keeps_regSetBits | apply keeps_raiseStatus | apply keeps_setStatus | refine keeps_ite ?_ ?_
      | split | unfold z0 | unfold z1 | dsimp only)

theorem keeps_countTile {a0 a1 a2 a3 a4} (h0 : Keeps i a0) : Keeps i (countTile a0 a1 a2 a3 a4) := by
  unfold countTile
  extract_lets z0
  refine keeps_cut (i := i) z0 ?_ (fun hz0 => ?_)
  on_goal 1 => unfold z0
  all_goals
    with_reducible repeat' (first
      | assumption | apply keeps_bump | apply keeps_numericTrip | refine keeps_ite ?_ ?_ | split | dsimp only)

theorem keeps_releaseTile {a0 a1 a2 a3 a4} (h0 : Keeps i a0) : KeepsNow i (releaseTile a0 a1 a2 a3 a4) := by
  unfold releaseTile
  extract_lets z0 z1
  with_reducible repeat' (first
    | assumption | intro _ | apply keeps_writeAll | apply keeps_bump | apply keeps_numericTrip | apply keeps_undefRows | apply keeps_modEngine
    | unfold z0 | unfold z1 | refine keeps_ite ?_ ?_ | refine now_ite ?_ ?_ | refine KeepsNow.done ?_ | refine KeepsNow.bad ?_ | refine KeepsNow.wait ?_
    | refine keeps_foldl ?_ (fun _ _ _ => ?_) | refine of_done (by assumption) ?_ | refine of_bad (by assumption) ?_ | refine of_wait (by assumption) ?_
    | split | dsimp only)

theorem keeps_lastTrip {a0 a1 a2 a3 a4 a5} (h0 : Keeps i a0) : Keeps i (lastTrip a0 a1 a2 a3 a4 a5) := by
  unfold lastTrip
  extract_lets z0
  with_reducible repeat' (first
    | assumption | apply keeps_regPut | refine keeps_ite ?_ ?_ | split | unfold z0 | dsimp only)

theorem keeps_countTrips {a0 a1 a2 a3} (h0 : Keeps i a0) : Keeps i (countTrips a0 a1 a2 a3) := by
  unfold countTrips
  extract_lets z0
  refine keeps_cut (i := i) z0 ?_ (fun hz0 => ?_)
  on_goal 1 => unfold z0
  all_goals
    with_reducible repeat' (first
      | assumption | apply keeps_bump | apply keeps_lastTrip | refine keeps_ite ?_ ?_ | refine keeps_foldl ?_ (fun _ _ _ => ?_) | split | dsimp only
      | fail_if_no_progress (refine keeps_mk ?_ rfl rfl))

theorem keeps_modRun {a0 a1 a2} (h0 : Keeps i a0) : Keeps i (modRun a0 a1 a2) := by
  unfold modRun
  with_reducible repeat' (first
    | assumption | apply keeps_modEngine | refine keeps_ite ?_ ?_ | refine keeps_foldl ?_ (fun _ _ _ => ?_) | split | dsimp only
    | fail_if_no_progress (refine keeps_mk ?_ rfl rfl))

theorem keeps_setLadder {a0 a1 a2} (h0 : Keeps i a0) : Keeps i (setLadder a0 a1 a2) := by
  unfold setLadder
  with_reducible repeat' (first
    | assumption | apply keeps_modRun | refine keeps_ite ?_ ?_ | refine keeps_foldl ?_ (fun _ _ _ => ?_) | split | dsimp only
    | fail_if_no_progress (refine keeps_mk ?_ rfl rfl))

theorem keeps_runFails {a0 a1 a2 a3} (h0 : Keeps i a0) : Keeps i (runFails a0 a1 a2 a3) := by
  unfold runFails
  with_reducible repeat' (first
    | assumption | apply keeps_engineBreak)

theorem keeps_tileRan {a0 a1 a2 a3 a4 a5 a6} (h0 : Keeps i a0) : Keeps i (tileRan a0 a1 a2 a3 a4 a5 a6) := by
  unfold tileRan
  extract_lets z0 z1 z2
  refine keeps_cut (i := i) z0 ?_ (fun hz0 => keeps_cut (i := i) z1 ?_ (fun hz1 => keeps_cut (i := i) z2 ?_ (fun hz2 => ?_)))
  on_goal 1 => unfold z0
  on_goal 2 => unfold z1
  on_goal 3 => unfold z2
  all_goals
    with_reducible repeat' (first
      | assumption | apply keeps_countTile | apply keeps_bump | apply keeps_modRun | apply keeps_countTrips | refine keeps_ite ?_ ?_
      | refine keeps_foldl ?_ (fun _ _ _ => ?_) | split | dsimp only | fail_if_no_progress (refine keeps_mk ?_ rfl rfl))

theorem keeps_execGuardCheckDone {a0 a1 a2} (h2 : Keeps i a2) : KeepsRes i (execGuardCheckDone a0 a1 a2) := by
  unfold execGuardCheckDone
  with_reducible repeat' (first
    | assumption | exact KeepsRes.fault | exact KeepsRes.refused | apply keeps_notDue | apply keeps_gate | apply keeps_okT | apply keeps_tileInputs
    | apply keeps_waitFor | apply keeps_runFails | apply keeps_tileRan | apply keeps_bump | apply keeps_setLadder | apply keeps_releaseTile
    | refine res_ite ?_ ?_ | refine KeepsRes.next ?_ | refine keeps_ite ?_ ?_ | refine keeps_foldl ?_ (fun _ _ _ => ?_)
    | refine of_next (by assumption) ?_ | refine of_fst (by assumption) ?_ | refine of_done (by assumption) ?_ | refine of_bad (by assumption) ?_
    | refine of_wait (by assumption) ?_ | split | dsimp only | fail_if_no_progress (refine keeps_mk ?_ rfl rfl))

theorem keeps_engineOut {a0 a1} (h0 : Keeps i a0) : Keeps i (engineOut a0 a1) := by
  unfold engineOut
  extract_lets z0 z1 z2 z3 z4
  refine keeps_cut (i := i) z0 ?_ (fun hz0 => keeps_cut (i := i) z2 ?_ (fun hz2 => keeps_cut (i := i) z3 ?_ (fun hz3 => keeps_cut (i := i) z4 ?_ (fun hz4 => ?_))))
  on_goal 1 => unfold z0
  on_goal 2 => unfold z2
  on_goal 3 => unfold z3
  on_goal 4 => unfold z4
  all_goals
    with_reducible repeat' (first
      | assumption | apply keeps_endRun | apply keeps_ungate | apply keeps_modEngine | apply keeps_setStatus | apply keeps_undefRows
      | apply keeps_breakStep | apply keeps_modStep | apply keeps_freeOutputs | refine keeps_ite ?_ ?_ | refine keeps_foldl ?_ (fun _ _ _ => ?_)
      | split | unfold z1 | dsimp only | fail_if_no_progress (refine keeps_mk ?_ rfl rfl))

theorem keeps_remapColumn {a0 a1 a2} (h0 : Keeps i a0) : KeepsOpt i (remapColumn a0 a1 a2) := by
  unfold remapColumn
  extract_lets z0
  with_reducible repeat' (first
    | assumption | intro _ | exact KeepsOpt.none | apply keeps_regPut | apply keeps_setStatus | apply keeps_modEngine | unfold z0
    | refine keeps_ite ?_ ?_ | refine opt_ite ?_ ?_ | refine KeepsOpt.some ?_ | refine opt_mapState ?_ (fun _ _ => ?_) | refine opt_map (fun _ => ?_)
    | split | dsimp only)

theorem keeps_unresolved {a0 a1 a2 a3} (h0 : Keeps i a0) : Keeps i (unresolved a0 a1 a2 a3) := by
  unfold unresolved
  extract_lets z0
  refine keeps_cut (i := i) z0 ?_ (fun hz0 => ?_)
  on_goal 1 => unfold z0
  all_goals
    with_reducible repeat' (first
      | assumption | apply keeps_lastTrip | apply keeps_bump | apply keeps_engineBreak | apply keeps_setStatus | refine keeps_ite ?_ ?_
      | refine keeps_foldl ?_ (fun _ _ _ => ?_) | split | dsimp only | fail_if_no_progress (refine keeps_mk ?_ rfl rfl))

theorem keeps_rung3 {a0 a1 a2 a3 a4} (h0 : Keeps i a0) : Keeps i (rung3 a0 a1 a2 a3 a4) := by
  unfold rung3
  with_reducible repeat' (first
    | assumption | apply keeps_unresolved | apply keeps_remapColumn | apply keeps_setLadder | apply keeps_engineOut | apply keeps_bump
    | refine keeps_ite ?_ ?_ | refine opt_ite ?_ ?_ | refine KeepsOpt.some ?_ | refine of_some (by assumption) ?_ | split | dsimp only)

theorem keeps_rerunTile {a0 a1 a2 a3 a4 a5 a6 a7 a8} (h0 : Keeps i a0) (h7 : ∀ w t l, Keeps i w → KeepsOpt i (a7 w t l))
    (h8 : ∀ w, Keeps i w → Keeps i (a8 w)) : KeepsRes i (rerunTile a0 a1 a2 a3 a4 a5 a6 a7 a8) := by
  unfold rerunTile
  with_reducible repeat' (first
    | assumption | apply keeps_okT | apply keeps_gate | apply keeps_planeLoad
    | apply keeps_waitFor | apply keeps_runFails | apply keeps_modEngine | apply keeps_tileInputs | apply keeps_tileRan | apply keeps_bump
    | apply keeps_releaseTile | apply h8 | apply h7 | refine now_ite ?_ ?_ | refine KeepsNow.done ?_
    | refine of_some (by assumption) ?_ | refine of_done (by assumption) ?_ | refine of_bad (by assumption) ?_ | refine of_wait (by assumption) ?_
    | refine of_fst (by assumption) ?_ | split | dsimp only)

theorem keeps_afterRung1 {a0 a1 a2 a3 a4} (h3 : Keeps i a3) : KeepsOpt i (afterRung1 a0 a1 a2 a3 a4) := by
  unfold afterRung1
  with_reducible repeat' (first
    | assumption | exact KeepsOpt.none | apply keeps_setLadder | apply keeps_rung3 | refine opt_ite ?_ ?_ | refine KeepsOpt.some ?_
    | refine opt_mapState ?_ (fun _ _ => ?_) | refine keeps_ite ?_ ?_ | refine keeps_foldl ?_ (fun _ _ _ => ?_) | split | dsimp only
    | fail_if_no_progress (refine keeps_mk ?_ rfl rfl))

theorem keeps_execLadderRerunDone {a0 a1 a2 a3} (h2 : Keeps i a3) : KeepsRes i (execLadderRerunDone a0 a1 a2 a3) := by
  unfold execLadderRerunDone
  with_reducible repeat' (first
    | assumption | exact h2 | exact KeepsOpt.none | intro _ | apply keeps_illFormed | apply keeps_notDue | apply keeps_rerunTile | apply keeps_afterRung1 | apply keeps_setStatus | apply keeps_bump
    | apply keeps_rung3 | apply keeps_unresolved | refine KeepsOpt.some ?_ | refine res_ite ?_ ?_ | split | dsimp only [id])

theorem keeps_execDescriptorEnd {a0 a1 a2} (h2 : Keeps i a2) : KeepsRes i (execDescriptorEnd a0 a1 a2) := by
  unfold execDescriptorEnd
  extract_lets z0
  refine keeps_cut (i := i) z0 ?_ (fun hz0 => ?_)
  on_goal 1 => unfold z0
  all_goals
    with_reducible repeat' (first
      | assumption | exact KeepsRes.fault | exact KeepsRes.refused | apply keeps_notDue | apply keeps_endRun | apply keeps_bump | apply keeps_advance
      | apply keeps_okT | apply keeps_engStart | apply keeps_engineBreak | refine res_ite ?_ ?_ | refine KeepsRes.next ?_ | refine keeps_ite ?_ ?_
      | refine keeps_foldl ?_ (fun _ _ _ => ?_) | refine of_next (by assumption) ?_ | split | dsimp only
      | fail_if_no_progress (refine keeps_mk ?_ rfl rfl))

theorem keeps_execEngineStepCommit {a0 a1 a2} (h2 : Keeps i a2) : KeepsRes i (execEngineStepCommit a0 a1 a2) := by
  unfold execEngineStepCommit
  extract_lets z0
  with_reducible repeat' (first
    | assumption | exact KeepsRes.fault | exact KeepsRes.refused | apply keeps_putEngine | apply keeps_okT | apply keeps_engStart
    | apply keeps_commitStep | refine keeps_ite ?_ ?_ | refine res_ite ?_ ?_ | refine KeepsRes.next ?_ | split | unfold z0 | dsimp only)

theorem keeps_execMecDrain {a0 a1 a2} (h2 : Keeps i a2) : KeepsRes i (execMecDrain a0 a1 a2) := by
  unfold execMecDrain
  with_reducible repeat' (first
    | assumption | exact KeepsRes.fault | exact KeepsRes.refused | apply keeps_okT | apply keeps_engStart | apply keeps_regSetBits
    | refine KeepsRes.next ?_)

theorem keeps_execMecEnable {a0 a1 a2} (h2 : Keeps i a2) : KeepsRes i (execMecEnable a0 a1 a2) := by
  unfold execMecEnable
  with_reducible repeat' (first
    | assumption | exact KeepsRes.fault | exact KeepsRes.refused | apply keeps_okT | apply keeps_engStart | apply keeps_regSetBits
    | refine KeepsRes.next ?_)

theorem keeps_execStepCancelDone {a0 a1} (h1 : Keeps i a1) : KeepsRes i (execStepCancelDone a0 a1) := by
  unfold execStepCancelDone
  extract_lets z0 z1 z2 z3
  refine keeps_cut (i := i) z2 ?_ (fun hz2 => keeps_cut (i := i) z3 ?_ (fun hz3 => ?_))
  on_goal 1 => unfold z2
  on_goal 2 => unfold z3
  all_goals
    with_reducible repeat' (first
      | assumption | intro _ | exact KeepsRes.fault | exact KeepsRes.refused | apply keeps_breakStep | apply keeps_engStart | apply keeps_modEngine
      | apply keeps_clusterNext | apply keeps_modCluster | apply keeps_okT | unfold z0 | refine keeps_ite ?_ ?_ | refine res_ite ?_ ?_
      | refine KeepsRes.next ?_ | refine keeps_foldl ?_ (fun _ _ _ => ?_) | split | unfold z1 | dsimp only)

end Sys2Proof.Machine
end

