-- ==== Sys2Proof/Laws/KeepDict.lean ====
section
/-! SUPPORT. One lemma per function that carries a State, for registers, resets, ageing, the dictionary and the pair:
what `Keep.lean` calls kept (the queue of commands, the canonical form of the stores, the well-formed
cores) stays kept through it. Later proofs cite these lemmas and unfold no function again. -/

namespace Sys2Proof.Machine
variable {i : Held} {s t : State}

/-! ### Sys2Proof.Machine.RegView -/

theorem keeps_clearRc {a0 a1} (h0 : Keeps i a0) : Keeps i (clearRc a0 a1) := by
  have h1 : Keeps i (if uncounted a0 a1 then (draw a0).2 else a0) := keeps_ite (keeps_draw h0) h0
  unfold clearRc
  with_reducible repeat' (first
    | assumption | apply keeps_regSetBits | refine keeps_ite ?_ ?_ | refine keeps_foldl ?_ (fun _ _ _ => ?_) | split | dsimp only)

theorem keeps_readReg {a0 a1} (h0 : Keeps i a0) : Keeps i (readReg a0 a1).2 := by
  unfold readReg
  with_reducible repeat' (first
    | assumption | apply keeps_clearRc | dsimp only)

/-! ### Sys2Proof.Machine.DictObjs -/

theorem keeps_putAcc {a0 a1 a2} (h0 : Keeps i a0) : Keeps i (putAcc a0 a1 a2) := by
  unfold putAcc
  extract_lets z0
  with_reducible repeat' (first
    | assumption | unfold z0 | dsimp only | fail_if_no_progress (refine keeps_mk ?_ rfl rfl))

theorem keeps_stagePut {a0 a1 a2 a3} (h0 : Keeps i a0) : KeepsOpt i (stagePut a0 a1 a2 a3) := by
  unfold stagePut
  extract_lets z0 z1 z2 z3
  with_reducible repeat' (first
    | assumption | exact KeepsOpt.none | apply keeps_putAcc | refine keeps_ite ?_ ?_ | refine opt_ite ?_ ?_ | refine KeepsOpt.some ?_ | split
    | unfold z0 | unfold z1 | unfold z2 | unfold z3 | dsimp only)

/-! ### Sys2Proof.Machine.RegAccess -/

theorem keeps_writeFields {a0 a1 a2 a3} (h0 : Keeps i a0) : KeepsOpt i (writeFields a0 a1 a2 a3) := by
  unfold writeFields
  with_reducible repeat' (first
    | assumption | exact KeepsOpt.none | apply keeps_regSetBits | apply keeps_stagePut | refine keeps_ite ?_ ?_ | refine opt_ite ?_ ?_
    | refine KeepsOpt.some ?_ | refine opt_foldl ?_ (fun _ _ _ => ?_) | refine opt_bind ?_ (fun _ _ => ?_) | refine keeps_foldl ?_ (fun _ _ _ => ?_)
    | refine of_some (by assumption) ?_ | split | dsimp only)

theorem keeps_holdSite {a0 a1} (h0 : Keeps i a0) : Keeps i (holdSite a0 a1) := by
  unfold holdSite
  extract_lets z0
  refine keeps_cut (i := i) z0 ?_ (fun hz0 => ?_)
  on_goal 1 => unfold z0
  all_goals
    with_reducible repeat' (first
      | assumption | apply keeps_putModule | apply keeps_graceCheck | refine keeps_ite ?_ ?_ | refine keeps_foldl ?_ (fun _ _ _ => ?_) | split
      | dsimp only)

theorem keeps_writeEffect {a0 a1 a2} (h0 : Keeps i a0) : Keeps i (writeEffect a0 a1 a2) := by
  unfold writeEffect
  extract_lets z0 z1 z2 z3
  refine keeps_cut (i := i) z0 ?_ (fun hz0 => keeps_cut (i := i) z3 ?_ (fun hz3 => ?_))
  on_goal 1 => unfold z0
  on_goal 2 => unfold z3
  all_goals
    with_reducible repeat' (first
      | assumption | apply keeps_engStart | apply keeps_draw | apply keeps_softRaise | apply keeps_maintGo | apply keeps_holdSite
      | apply keeps_siteReset | apply keeps_domainDown | apply keeps_regPut | apply keeps_enableWritten | refine keeps_ite ?_ ?_
      | refine keeps_foldl ?_ (fun _ _ _ => ?_) | refine of_snd (by assumption) ?_ | split | unfold z1 | unfold z2 | dsimp only)

theorem keeps_writeBlockReg {a0 a1 a2 a3} (h0 : Keeps i a0) : KeepsOpt i (writeBlockReg a0 a1 a2 a3) := by
  unfold writeBlockReg
  with_reducible repeat' (first
    | assumption | exact KeepsOpt.none | apply keeps_writeEffect | apply keeps_writeFields | refine KeepsOpt.some ?_
    | refine opt_mapState ?_ (fun _ _ => ?_) | refine opt_map (fun _ => ?_) | dsimp only)

theorem keeps_apertureDenied {a0 a1} (h0 : Keeps i a0) : Keeps i (apertureDenied a0 a1) := by
  unfold apertureDenied
  with_reducible repeat' (first
    | assumption | apply keeps_setStatus | apply keeps_bump)

theorem keeps_readAperture {a0 a1 a2 a3} (h0 : Keeps i a0) : Keeps i (readAperture a0 a1 a2 a3).2 := by
  unfold readAperture
  extract_lets z0 z1 z2
  refine keeps_cut (i := i) z1 ?_ (fun hz1 => ?_)
  on_goal 1 => unfold z1
  all_goals
    with_reducible repeat' (first
      | assumption | apply keeps_apertureDenied | apply keeps_clearRc | unfold z2 | refine keeps_ite ?_ ?_ | refine keeps_foldl ?_ (fun _ _ _ => ?_)
      | refine keeps_foldl_snd ?_ (fun _ _ _ _ => ?_) | split | unfold z0 | dsimp only)

theorem keeps_writeAperture {a0 a1 a2 a3} (h0 : Keeps i a0) : Keeps i (writeAperture a0 a1 a2 a3) := by
  unfold writeAperture
  extract_lets z0 z1
  refine keeps_cut (i := i) z1 ?_ (fun hz1 => ?_)
  on_goal 1 => unfold z1
  all_goals
    with_reducible repeat' (first
      | assumption | apply keeps_apertureDenied | apply keeps_writeBlockReg | refine keeps_ite ?_ ?_ | refine opt_ite ?_ ?_ | refine KeepsOpt.some ?_
      | refine opt_foldl ?_ (fun _ _ _ => ?_) | refine keeps_foldl ?_ (fun _ _ _ => ?_) | refine keeps_getD ?_ ?_ | refine of_some (by assumption) ?_
      | split | unfold z0 | dsimp only)

theorem keeps_execApertureAccess {a0 a1 a2 a3 a4} (h4 : Keeps i a4) : KeepsRes i (execApertureAccess a0 a1 a2 a3 a4) := by
  unfold execApertureAccess
  extract_lets z0
  with_reducible repeat' (first
    | assumption | exact KeepsRes.fault | exact KeepsRes.refused | apply keeps_emit | apply keeps_okT | apply keeps_writeAperture
    | apply keeps_readAperture | refine keeps_ite ?_ ?_ | refine res_ite ?_ ?_ | refine KeepsRes.next ?_ | refine of_snd (by assumption) ?_ | split
    | unfold z0 | dsimp only)

/-! ### Sys2Proof.Machine.Resets -/

theorem keeps_flashPut {a0 a1 a2} (h0 : Keeps i a0) : Keeps i (flashPut a0 a1 a2) := by
  unfold flashPut
  extract_lets z0
  with_reducible repeat' (first
    | assumption | refine keeps_foldl ?_ (fun _ _ _ => ?_) | unfold z0 | dsimp only | fail_if_no_progress (refine keeps_mk ?_ rfl rfl))

theorem keeps_cutFlash {a0} (h0 : Keeps i a0) : Keeps i (cutFlash a0) := by
  unfold cutFlash
  with_reducible repeat' (first
    | assumption | apply keeps_draw | apply keeps_flashPut | refine of_snd (by assumption) ?_ | split | dsimp only)

theorem keeps_cutBurn {a0} (h0 : Keeps i a0) : Keeps i (cutBurn a0) := by
  unfold cutBurn
  with_reducible repeat' (first
    | assumption | apply keeps_draw | refine of_snd (by assumption) ?_ | split | dsimp only | fail_if_no_progress (refine keeps_mk ?_ rfl rfl))

theorem keeps_powerOn {a0} (h0 : Keeps i a0) : Keeps i (powerOn a0) :=
  ⟨(keeps_cutBurn (keeps_cutFlash h0)).queue, fun _ => rfl, fun _ => rfl⟩

theorem keeps_stackStops {a0 a1} (h0 : Keeps i a0) : Keeps i (stackStops a0 a1) := by
  unfold stackStops
  extract_lets z0 z1 z2
  refine keeps_cut (i := i) z0 ?_ (fun hz0 => keeps_cut (i := i) z2 ?_ (fun hz2 => ?_))
  on_goal 1 => unfold z0
  on_goal 2 => unfold z2
  all_goals
    with_reducible repeat' (first
      | assumption | apply keeps_lowerPut | apply keeps_regSetBits | apply keeps_putStack | refine keeps_ite ?_ ?_
      | refine keeps_foldl ?_ (fun _ _ _ => ?_) | split | unfold z1 | dsimp only | fail_if_no_progress (refine keeps_mk ?_ rfl rfl))

theorem keeps_warmConfig {a0 a1} (h0 : Keeps i a0) : Keeps i (warmConfig a0 a1) := by
  unfold warmConfig
  split <;> exact ⟨h0.queue, fun _ => rfl, fun _ => rfl⟩

theorem keeps_warmNow {a0 a1} (h0 : Keeps i a0) : Keeps i (warmNow a0 a1) := by
  unfold warmNow
  extract_lets s1 s2 n
  have h2 : Keeps i s2 := keeps_cutFlash (keeps_foldl h0 (fun _ _ h => keeps_stackStops h))
  clear_value s2
  have h3 : Keeps i n := keeps_warmConfig h2
  exact ⟨h3.queue, h2.mem, h3.cores⟩

theorem keeps_warmReset {a0 a1} (h0 : Keeps i a0) : Keeps i (warmReset a0 a1) := by
  unfold warmReset
  extract_lets z0 z1
  with_reducible repeat' (first
    | assumption | apply keeps_warmNow | refine keeps_ite ?_ ?_ | split | unfold z0 | unfold z1 | dsimp only
    | fail_if_no_progress (refine keeps_mk ?_ rfl rfl))

theorem keeps_execWarmReset {a0} (h0 : Keeps i a0) : KeepsRes i (execWarmReset a0) := by
  unfold execWarmReset
  with_reducible repeat' (first
    | assumption | exact KeepsRes.fault | exact KeepsRes.refused | apply keeps_warmReset | refine KeepsRes.next ?_)

theorem keeps_haltHub {a0} (h0 : Keeps i a0) : Keeps i (haltHub a0) := ⟨h0.queue, h0.mem, fun _ => rfl⟩

theorem keeps_setHealth {a0 a1} (h0 : Keeps i a0) : Keeps i (setHealth a0 a1) := by
  unfold setHealth
  extract_lets z0
  with_reducible repeat' (first
    | assumption | apply keeps_logEvent | refine keeps_ite ?_ ?_ | split | unfold z0 | dsimp only | fail_if_no_progress (refine keeps_mk ?_ rfl rfl))

theorem keeps_hubFault {a0 a1} (h0 : Keeps i a0) : Keeps i (hubFault a0 a1) := by
  unfold hubFault
  extract_lets z0 z1 z2 z3
  refine keeps_cut (i := i) z0 ?_ (fun hz0 => keeps_cut (i := i) z1 ?_ (fun hz1 => keeps_cut (i := i) z3 ?_ (fun hz3 => ?_)))
  on_goal 1 => unfold z0
  on_goal 2 => unfold z1
  on_goal 3 => unfold z3
  all_goals
    with_reducible repeat' (first
      | assumption | apply keeps_setHealth | apply keeps_logEvent | apply keeps_takeOcc | apply keeps_putColl | apply keeps_haltHub | apply keeps_emit
      | apply keeps_warmReset | refine keeps_ite ?_ ?_ | refine keeps_foldl ?_ (fun _ _ _ => ?_) | split | unfold z2 | dsimp only
      | fail_if_no_progress (refine keeps_mk ?_ rfl rfl))

theorem keeps_execHubFault {a0 a1} (h1 : Keeps i a1) : KeepsRes i (execHubFault a0 a1) := by
  unfold execHubFault
  with_reducible repeat' (first
    | assumption | exact KeepsRes.fault | exact KeepsRes.refused | apply keeps_hubFault | refine keeps_ite ?_ ?_ | refine res_ite ?_ ?_
    | refine KeepsRes.next ?_ | split)

/-! ### Sys2Proof.Machine.SeraiFail -/

theorem keeps_clearWay {a0 a1 a2} (h0 : Keeps i a0) : Keeps i (clearWay a0 a1 a2) := by
  unfold clearWay
  with_reducible repeat' (first
    | assumption | apply keeps_askLeave | apply keeps_seraiDrop | apply keeps_seraiClean | refine keeps_ite ?_ ?_
    | refine keeps_foldl ?_ (fun _ _ _ => ?_) | split | dsimp only)

theorem keeps_wayGone {a0 a1 a2} (h0 : Keeps i a0) : Keeps i (wayGone a0 a1 a2) := by
  unfold wayGone
  extract_lets z0 z1
  refine keeps_cut (i := i) z0 ?_ (fun hz0 => ?_)
  on_goal 1 => unfold z0
  all_goals
    with_reducible repeat' (first
      | assumption | apply keeps_setStatus | apply keeps_hubFault | apply keeps_logEvent | refine keeps_ite ?_ ?_ | split | unfold z1 | dsimp only)

theorem keeps_moveImage {a0 a1} (h0 : Keeps i a0) : Keeps i (moveImage a0 a1) := by
  unfold moveImage
  extract_lets z0
  with_reducible repeat' (first
    | assumption | refine keeps_ite ?_ ?_ | split | unfold z0 | dsimp only | fail_if_no_progress (refine keeps_mk ?_ rfl rfl))

theorem keeps_setWayOff {a0 a1 a2} (h0 : Keeps i a0) : Keeps i (setWayOff a0 a1 a2) := by
  unfold setWayOff
  extract_lets z0
  with_reducible repeat' (first
    | assumption | unfold z0 | dsimp only | fail_if_no_progress (refine keeps_mk ?_ rfl rfl))

theorem keeps_closeWay {a0 a1 a2} (h0 : Keeps i a0) : Keeps i (closeWay a0 a1 a2) := by
  unfold closeWay
  extract_lets z0
  with_reducible repeat' (first
    | assumption | apply keeps_clearWay | refine keeps_ite ?_ ?_ | refine keeps_foldl ?_ (fun _ _ _ => ?_) | split | unfold z0 | dsimp only
    | fail_if_no_progress (refine keeps_mk ?_ rfl rfl))

theorem keeps_wayClosed {a0 a1 a2} (h0 : Keeps i a0) : Keeps i (wayClosed a0 a1 a2) := by
  unfold wayClosed
  extract_lets z0
  with_reducible repeat' (first
    | assumption | refine keeps_ite ?_ ?_ | refine keeps_foldl ?_ (fun _ _ _ => ?_) | split | unfold z0 | dsimp only
    | fail_if_no_progress (refine keeps_mk ?_ rfl rfl))

theorem keeps_disableWay {a0 a1 a2} (h0 : Keeps i a0) : Keeps i (disableWay a0 a1 a2).1 := by
  unfold disableWay
  extract_lets z0 z1 z2 z3 z4 z5
  refine keeps_cut (i := i) z1 ?_ (fun hz1 => keeps_cut (i := i) z2 ?_ (fun hz2 => keeps_cut (i := i) z3 ?_ (fun hz3 => keeps_cut (i := i) z5 ?_ (fun hz5 => ?_))))
  on_goal 1 => unfold z1
  on_goal 2 => unfold z2
  on_goal 3 => unfold z3
  on_goal 4 => unfold z5
  all_goals
    with_reducible repeat' (first
      | assumption | apply keeps_hubFault | apply keeps_setWayOff | apply keeps_closeWay | apply keeps_wayGone | apply keeps_wayClosed
      | apply keeps_moveImage | refine keeps_ite ?_ ?_ | refine keeps_foldl ?_ (fun _ _ _ => ?_) | split | unfold z0 | unfold z4 | dsimp only
      | fail_if_no_progress (refine keeps_mk ?_ rfl rfl))

theorem keeps_rowFails {a0 a1 a2} (h0 : Keeps i a0) : Keeps i (rowFails a0 a1 a2).1 := by
  unfold rowFails
  extract_lets z0 z1
  refine keeps_cut (i := i) z1 ?_ (fun hz1 => ?_)
  on_goal 1 => unfold z1
  all_goals
    with_reducible repeat' (first
      | assumption | apply keeps_setStatus | apply keeps_disableWay | refine keeps_ite ?_ ?_ | split | unfold z0 | dsimp only
      | fail_if_no_progress (refine keeps_mk ?_ rfl rfl))

theorem keeps_execSeraiRowFail {a0 a1 a2} (h2 : Keeps i a2) : KeepsRes i (execSeraiRowFail a0 a1 a2) := by
  unfold execSeraiRowFail
  with_reducible repeat' (first
    | assumption | exact KeepsRes.fault | exact KeepsRes.refused | apply keeps_okT | apply keeps_rowFails | refine keeps_ite ?_ ?_
    | refine res_ite ?_ ?_ | refine KeepsRes.next ?_ | split | dsimp only)

/-! ### Sys2Proof.Machine.Ageing -/

theorem keeps_measureSites {a0 a1 a2} (h0 : Keeps i a0) : Keeps i (measureSites a0 a1 a2) := by
  unfold measureSites
  extract_lets z0 z1
  with_reducible repeat' (first
    | assumption | refine keeps_foldl ?_ (fun _ _ _ => ?_) | split | unfold z0 | unfold z1 | dsimp only
    | fail_if_no_progress (refine keeps_mk ?_ rfl rfl))

theorem keeps_execAgeingMeasure {a0 a1 a2} (h2 : Keeps i a2) : KeepsRes i (execAgeingMeasure a0 a1 a2) := by
  unfold execAgeingMeasure
  with_reducible repeat' (first
    | assumption | exact KeepsRes.fault | exact KeepsRes.refused | apply keeps_measureSites | refine keeps_ite ?_ ?_ | refine res_ite ?_ ?_
    | refine KeepsRes.next ?_ | split)

theorem keeps_sendTarget {a0 a1} (h0 : Keeps i a0) : Keeps i (sendTarget a0 a1) := by
  unfold sendTarget
  extract_lets z0 z1
  refine keeps_cut (i := i) z0 ?_ (fun hz0 => ?_)
  on_goal 1 => unfold z0
  all_goals
    with_reducible repeat' (first
      | assumption | apply keeps_logEvent | apply keeps_emit | refine keeps_ite ?_ ?_ | split | unfold z1 | dsimp only
      | fail_if_no_progress (refine keeps_mk ?_ rfl rfl))

theorem keeps_planSteps {a0} (h0 : Keeps i a0) : Keeps i (planSteps a0) := by
  unfold planSteps
  with_reducible repeat' (first
    | assumption | apply keeps_logEvent | refine keeps_ite ?_ ?_ | refine keeps_foldl ?_ (fun _ _ _ => ?_) | split | dsimp only
    | fail_if_no_progress (refine keeps_mk ?_ rfl rfl))

theorem keeps_planCaps {a0 a1} (h0 : Keeps i a0) : Keeps i (planCaps a0 a1) := by
  unfold planCaps
  with_reducible repeat' (first
    | assumption | apply keeps_draw | apply keeps_siteStatus | apply keeps_putModule | apply keeps_moduleOut | apply keeps_logEvent
    | refine keeps_ite ?_ ?_ | refine keeps_foldl ?_ (fun _ _ _ => ?_) | refine of_snd (by assumption) ?_ | split | dsimp only
    | fail_if_no_progress (refine keeps_mk ?_ rfl rfl))

theorem keeps_replan {a0 a1} (h0 : Keeps i a0) : Keeps i (replan a0 a1) := by
  unfold replan
  extract_lets z0 z1
  refine keeps_cut (i := i) z0 ?_ (fun hz0 => ?_)
  on_goal 1 => unfold z0
  all_goals
    with_reducible repeat' (first
      | assumption | apply keeps_planCaps | apply keeps_planSteps | apply keeps_sendTarget | unfold z1 | dsimp only
      | fail_if_no_progress (refine keeps_mk ?_ rfl rfl))

theorem keeps_applySteps {a0} (h0 : Keeps i a0) : Keeps i (applySteps a0) := by
  unfold applySteps
  extract_lets z0
  with_reducible repeat' (first
    | assumption | refine keeps_foldl ?_ (fun _ _ _ => ?_) | unfold z0 | dsimp only | fail_if_no_progress (refine keeps_mk ?_ rfl rfl))

theorem keeps_applyCaps {a0} (h0 : Keeps i a0) : Keeps i (applyCaps a0) := by
  unfold applyCaps
  extract_lets z0 z1 z2
  refine keeps_cut (i := i) z2 ?_ (fun hz2 => ?_)
  on_goal 1 => unfold z2
  all_goals
    with_reducible repeat' (first
      | assumption | apply keeps_graceCheck | apply keeps_putModule | refine keeps_ite ?_ ?_ | refine keeps_foldl ?_ (fun _ _ _ => ?_) | split
      | unfold z0 | unfold z1 | dsimp only | fail_if_no_progress (refine keeps_mk ?_ rfl rfl))

theorem keeps_execReplanNow {a0} (h0 : Keeps i a0) : KeepsRes i (execReplanNow a0) := by
  unfold execReplanNow
  extract_lets z0
  with_reducible repeat' (first
    | assumption | exact KeepsRes.fault | exact KeepsRes.refused | refine KeepsRes.next ?_ | unfold z0 | dsimp only
    | fail_if_no_progress (refine keeps_mk ?_ rfl rfl))

theorem keeps_execReplanInterval {a0} (h0 : Keeps i a0) : KeepsRes i (execReplanInterval a0) := by
  unfold execReplanInterval
  extract_lets z0 z1
  with_reducible repeat' (first
    | assumption | exact KeepsRes.fault | exact KeepsRes.refused | apply keeps_advance | refine keeps_ite ?_ ?_ | refine res_ite ?_ ?_
    | refine KeepsRes.next ?_ | split | unfold z0 | unfold z1 | dsimp only | fail_if_no_progress (refine keeps_mk ?_ rfl rfl))

theorem keeps_execTempSample {a0 a1 a2} (h2 : Keeps i a2) : KeepsRes i (execTempSample a0 a1 a2) := by
  unfold execTempSample
  extract_lets z0 z1 z2 z3 z4 z5
  refine keeps_cut (i := i) z4 ?_ (fun hz4 => keeps_cut (i := i) z5 ?_ (fun hz5 => ?_))
  on_goal 1 => unfold z4
  on_goal 2 => unfold z5
  all_goals
    with_reducible repeat' (first
      | assumption | exact KeepsRes.fault | exact KeepsRes.refused | apply keeps_putStack | apply keeps_hubFault | unfold z2 | refine keeps_ite ?_ ?_
      | refine res_ite ?_ ?_ | refine KeepsRes.next ?_ | refine keeps_foldl ?_ (fun _ _ _ => ?_) | split | unfold z0 | unfold z1 | unfold z3
      | dsimp only | fail_if_no_progress (refine keeps_mk ?_ rfl rfl))

theorem keeps_execAvsCurrentRead {a0 a1} (h1 : Keeps i a1) : KeepsRes i (execAvsCurrentRead a0 a1) := by
  unfold execAvsCurrentRead
  extract_lets z0
  with_reducible repeat' (first
    | assumption | exact KeepsRes.fault | exact KeepsRes.refused | refine keeps_ite ?_ ?_ | refine res_ite ?_ ?_ | refine KeepsRes.next ?_ | split
    | unfold z0 | dsimp only | fail_if_no_progress (refine keeps_mk ?_ rfl rfl))

theorem keeps_execAvsTimeout {a0} (h0 : Keeps i a0) : KeepsRes i (execAvsTimeout a0) := by
  unfold execAvsTimeout
  extract_lets z0
  with_reducible repeat' (first
    | assumption | exact KeepsRes.fault | exact KeepsRes.refused | apply keeps_logEvent | refine keeps_ite ?_ ?_ | refine res_ite ?_ ?_
    | refine KeepsRes.next ?_ | split | unfold z0 | dsimp only | fail_if_no_progress (refine keeps_mk ?_ rfl rfl))

theorem keeps_limiter {a0 a1} (h0 : Keeps i a0) : Keeps i (limiter a0 a1) := by
  unfold limiter
  extract_lets z0 z1 z2 z3 z4 z5 z6 z7
  refine keeps_cut (i := i) z6 ?_ (fun hz6 => ?_)
  on_goal 1 => unfold z6
  all_goals
    with_reducible repeat' (first
      | assumption | apply keeps_logEvent | unfold z7 | refine keeps_ite ?_ ?_ | split | unfold z0 | unfold z1 | unfold z2 | unfold z3 | unfold z4
      | unfold z5 | dsimp only | fail_if_no_progress (refine keeps_mk ?_ rfl rfl))

/-! ### Sys2Proof.Machine.DictCheck -/

theorem keeps_layReg {a0 a1 a2} (h0 : Keeps i a0) : Keeps i (layReg a0 a1 a2) := by
  unfold layReg
  with_reducible repeat' (first
    | assumption | apply keeps_regSetBits | refine keeps_ite ?_ ?_ | refine keeps_foldl ?_ (fun _ _ _ => ?_) | split | dsimp only)

theorem keeps_layPart {a0 a1 a2 a3} (h0 : Keeps i a0) : Keeps i (layPart a0 a1 a2 a3) := by
  unfold layPart
  extract_lets z0 z1 z2 z3 z4
  refine keeps_cut (i := i) z3 ?_ (fun hz3 => ?_)
  on_goal 1 => unfold z3
  all_goals
    with_reducible repeat' (first
      | assumption | apply keeps_putPart | refine keeps_foldl ?_ (fun _ _ _ => ?_) | split | unfold z0 | unfold z1 | unfold z2 | unfold z4 | dsimp only
      | fail_if_no_progress (refine keeps_mk ?_ rfl rfl))

theorem keeps_keepVal {a0 a1 a2 a3} (h0 : Keeps i a0) : Keeps i (keepVal a0 a1 a2 a3) := by
  unfold keepVal
  extract_lets z0
  with_reducible repeat' (first
    | assumption | unfold z0 | dsimp only | fail_if_no_progress (refine keeps_mk ?_ rfl rfl))

theorem keeps_layObj {a0 a1 a2 a3} (h0 : Keeps i a0) : Keeps i (layObj a0 a1 a2 a3) := by
  unfold layObj
  extract_lets z0
  with_reducible repeat' (first
    | assumption | apply keeps_regSetBits | apply keeps_layPart | apply keeps_layReg | apply keeps_keepVal | refine keeps_ite ?_ ?_ | split | unfold z0
    | dsimp only)

theorem keeps_layValue {a0 a1} (h0 : Keeps i a0) : Keeps i (layValue a0 a1) := by
  unfold layValue
  with_reducible repeat' (first
    | assumption | apply keeps_layObj | apply keeps_regSetBits | split | dsimp only)

theorem keeps_laySet {a0 a1} (h0 : Keeps i a0) : Keeps i (laySet a0 a1) := by
  unfold laySet
  with_reducible repeat' (first
    | assumption | apply keeps_layValue | refine keeps_foldl ?_ (fun _ _ _ => ?_) | dsimp only)

theorem keeps_layMembers {a0} (h0 : Keeps i a0) : Keeps i (layMembers a0) := by
  unfold layMembers
  with_reducible repeat' (first
    | assumption | apply keeps_putDomain | refine keeps_foldl ?_ (fun _ _ _ => ?_) | dsimp only)

/-! ### Sys2Proof.Machine.DictApply -/

theorem keeps_dropGranule {a0 a1} (h0 : Keeps i a0) : Keeps i (dropGranule a0 a1) := by
  unfold dropGranule
  extract_lets z0
  with_reducible repeat' (first
    | assumption | split | unfold z0 | dsimp only | fail_if_no_progress (refine keeps_mk ?_ rfl rfl))

theorem keeps_undefGranule {a0 a1} (h0 : Keeps i a0) : Keeps i (undefGranule a0 a1) := by
  unfold undefGranule
  with_reducible repeat' (first
    | assumption | apply keeps_hbmLine | apply keeps_hbmPoison | apply keeps_hbmSectors | apply keeps_hbmZero | apply keeps_hbmUndef
    | apply keeps_hbmFilter | apply keeps_hbmPoisonSet | apply keeps_hbmEmpty | apply keeps_draw | refine of_snd (by assumption) ?_ | split | dsimp only)

theorem keeps_granuleMoved {a0 a1} (h0 : Keeps i a0) : Keeps i (granuleMoved a0 a1) := by
  unfold granuleMoved
  with_reducible repeat' (first
    | assumption | apply keeps_undefGranule | apply keeps_dropGranule)

theorem keeps_recallGranule {a0 a1} (h0 : Keeps i a0) : Keeps i (recallGranule a0 a1) := by
  unfold recallGranule
  extract_lets z0
  with_reducible repeat' (first
    | assumption | apply keeps_recallNow | refine keeps_ite ?_ ?_ | refine keeps_foldl ?_ (fun _ _ _ => ?_) | split | unfold z0 | dsimp only)

theorem keeps_granuleOwned {a0 a1 a2} (h0 : Keeps i a0) : Keeps i (granuleOwned a0 a1 a2) := by
  unfold granuleOwned
  extract_lets z0 z1 z2 z3
  refine keeps_cut (i := i) z1 ?_ (fun hz1 => keeps_cut (i := i) z2 ?_ (fun hz2 => ?_))
  on_goal 1 => unfold z1
  on_goal 2 => unfold z2
  all_goals
    with_reducible repeat' (first
      | assumption | apply keeps_dropGranule | apply keeps_recallGranule | apply keeps_undefGranule | refine keeps_ite ?_ ?_ | split | unfold z0
      | unfold z3 | dsimp only | fail_if_no_progress (refine keeps_mk ?_ rfl rfl))

theorem keeps_unlockWay {a0 a1} (h0 : Keeps i a0) : Keeps i (unlockWay a0 a1) := by
  unfold unlockWay
  extract_lets z0
  with_reducible repeat' (first
    | assumption | refine keeps_ite ?_ ?_ | split | unfold z0 | dsimp only | fail_if_no_progress (refine keeps_mk ?_ rfl rfl))

theorem keeps_trimKeep {a0} (h0 : Keeps i a0) : Keeps i (trimKeep a0) := by
  unfold trimKeep
  with_reducible repeat' (first
    | assumption | apply keeps_keepRoom | refine keeps_ite ?_ ?_ | refine keeps_foldl ?_ (fun _ _ _ => ?_) | split | dsimp only)

theorem keeps_tileMoved {a0 a1} (h0 : Keeps i a0) : Keeps i (tileMoved a0 a1) := by
  unfold tileMoved
  extract_lets z0
  with_reducible repeat' (first
    | assumption | intro _ | apply keeps_zeroUserWindows | apply keeps_breakSteps | unfold z0 | refine keeps_foldl ?_ (fun _ _ _ => ?_) | split
    | dsimp only)

theorem keeps_zeroBank {a0 a1 a2} (h0 : Keeps i a0) : Keeps i (zeroBank a0 a1 a2) := by
  unfold zeroBank
  with_reducible repeat' (first
    | assumption | intro _ | apply keeps_modEngine | dsimp only)

theorem keeps_bankMoved {a0 a1 a2 a3} (h0 : Keeps i a0) : Keeps i (bankMoved a0 a1 a2 a3) := by
  unfold bankMoved
  extract_lets z0
  with_reducible repeat' (first
    | assumption | intro _ | apply keeps_zeroBank | apply keeps_breakSteps | refine keeps_ite ?_ ?_ | split | unfold z0 | dsimp only)

theorem keeps_memberships {a0 a1} (h0 : Keeps i a0) (h1 : Keeps i a1) : Keeps i (memberships a0 a1) := by
  unfold memberships
  extract_lets z0
  refine keeps_cut (i := i) z0 ?_ (fun hz0 => ?_)
  on_goal 1 => unfold z0
  all_goals
    with_reducible repeat' (first
      | assumption | apply keeps_layMembers | apply keeps_putDomain | refine keeps_ite ?_ ?_ | refine keeps_foldl ?_ (fun _ _ _ => ?_) | split
      | dsimp only)

theorem keeps_reconfigure {a0 a1} (h0 : Keeps i a0) (h1 : Keeps i a1) : Keeps i (reconfigure a0 a1) := by
  unfold reconfigure
  extract_lets z0 z1 z2 z3 z4 z5 z6 z7 z8 z9
  refine keeps_cut (i := i) z1 ?_ (fun hz1 => keeps_cut (i := i) z2 ?_ (fun hz2 => keeps_cut (i := i) z5 ?_ (fun hz5 => keeps_cut (i := i) z6 ?_ (fun hz6 => keeps_cut (i := i) z7 ?_ (fun hz7 => keeps_cut (i := i) z8 ?_ (fun hz8 => keeps_cut (i := i) z9 ?_ (fun hz9 => ?_)))))))
  on_goal 1 => unfold z1
  on_goal 2 => unfold z2
  on_goal 3 => unfold z5
  on_goal 4 => unfold z6
  on_goal 5 => unfold z7
  on_goal 6 => unfold z8
  on_goal 7 => unfold z9
  all_goals
    with_reducible repeat' (first
      | assumption | apply keeps_granuleMoved | apply keeps_granuleOwned | apply keeps_unlockWay | apply keeps_tileMoved | apply keeps_trimKeep
      | apply keeps_bankMoved | apply keeps_memberships | refine keeps_ite ?_ ?_ | refine keeps_foldl ?_ (fun _ _ _ => ?_) | split | unfold z0
      | unfold z3 | unfold z4 | dsimp only | fail_if_no_progress (refine keeps_mk ?_ rfl rfl))

theorem keeps_reportApplied {a0 a1 a2} (h0 : Keeps i a0) : Keeps i (reportApplied a0 a1 a2) := by
  unfold reportApplied
  extract_lets z0 z1 z2
  refine keeps_cut (i := i) z2 ?_ (fun hz2 => ?_)
  on_goal 1 => unfold z2
  all_goals
    with_reducible repeat' (first
      | assumption | apply keeps_putAcc | apply keeps_logEvent | refine keeps_ite ?_ ?_ | split | unfold z0 | unfold z1 | dsimp only)

theorem keeps_applySets {a0 a1} (h0 : Keeps i a0) : Keeps i (applySets a0 a1) := by
  unfold applySets
  extract_lets z0 z1 z2 z3
  refine keeps_cut (i := i) z2 ?_ (fun hz2 => keeps_cut (i := i) z3 ?_ (fun hz3 => ?_))
  on_goal 1 => unfold z2
  on_goal 2 => unfold z3
  all_goals
    with_reducible repeat' (first
      | assumption | apply keeps_laySet | apply keeps_reportApplied | apply keeps_reconfigure | refine keeps_ite ?_ ?_
      | refine keeps_foldl ?_ (fun _ _ _ => ?_) | split | unfold z0 | unfold z1 | dsimp only | fail_if_no_progress (refine keeps_mk ?_ rfl rfl))

theorem keeps_execCommitCheck {a0} (h0 : Keeps i a0) : KeepsRes i (execCommitCheck a0) := by
  unfold execCommitCheck
  extract_lets z0 z1
  refine keeps_cut (i := i) z0 ?_ (fun hz0 => ?_)
  on_goal 1 => unfold z0
  all_goals
    with_reducible repeat' (first
      | assumption | exact KeepsRes.fault | exact KeepsRes.refused | apply keeps_laySet | apply keeps_layMembers | apply keeps_logEvent
      | apply keeps_putAcc | refine keeps_ite ?_ ?_ | refine res_ite ?_ ?_ | refine KeepsRes.next ?_ | refine keeps_foldl ?_ (fun _ _ _ => ?_) | split
      | unfold z1 | dsimp only | fail_if_no_progress (refine keeps_mk ?_ rfl rfl))

/-! ### Sys2Proof.Machine.Pair -/

theorem keeps_putPair {a0 a1} (h0 : Keeps i a0) : Keeps i (putPair a0 a1) := by
  unfold putPair
  with_reducible repeat' (first
    | assumption | dsimp only | fail_if_no_progress (refine keeps_mk ?_ rfl rfl))

theorem keeps_relaySend {a0 a1 a2} (h0 : Keeps i a0) : Keeps i (relaySend a0 a1 a2) := by
  unfold relaySend
  extract_lets z0 z1 z2
  refine keeps_cut (i := i) z0 ?_ (fun hz0 => keeps_cut (i := i) z1 ?_ (fun hz1 => ?_))
  on_goal 1 => unfold z0
  on_goal 2 => unfold z1
  all_goals
    with_reducible repeat' (first
      | assumption | apply keeps_charge | apply keeps_bump | apply keeps_emit | apply keeps_putPair | refine keeps_ite ?_ ?_ | split | unfold z2
      | dsimp only)

theorem keeps_sendRole {a0} (h0 : Keeps i a0) : Keeps i (sendRole a0) := by
  unfold sendRole
  with_reducible repeat' (first
    | assumption | apply keeps_relaySend)

theorem keeps_sendDelta {a0 a1 a2 a3} (h0 : Keeps i a0) : Keeps i (sendDelta a0 a1 a2 a3) := by
  unfold sendDelta
  with_reducible repeat' (first
    | assumption | apply keeps_draw | apply keeps_putPair | apply keeps_emit | refine keeps_ite ?_ ?_ | refine keeps_foldl ?_ (fun _ _ _ => ?_)
    | refine of_snd (by assumption) ?_ | split | dsimp only)

theorem keeps_resyncGo {a0} (h0 : Keeps i a0) : Keeps i (resyncGo a0) := by
  unfold resyncGo
  extract_lets z0 z1 z2 z3 z4
  refine keeps_cut (i := i) z3 ?_ (fun hz3 => ?_)
  on_goal 1 => unfold z3
  all_goals
    with_reducible repeat' (first
      | assumption | apply keeps_sendDelta | apply keeps_putPair | refine keeps_ite ?_ ?_ | split | unfold z0 | unfold z1 | unfold z2 | unfold z4
      | dsimp only)

theorem keeps_resyncStart {a0} (h0 : Keeps i a0) : Keeps i (resyncStart a0) := by
  unfold resyncStart
  extract_lets z0
  with_reducible repeat' (first
    | assumption | apply keeps_resyncGo | apply keeps_putPair | unfold z0 | dsimp only)

theorem keeps_mirrorSnapshot {a0} (h0 : Keeps i a0) : Keeps i (mirrorSnapshot a0) := by
  unfold mirrorSnapshot
  extract_lets z0
  with_reducible repeat' (first
    | assumption | apply keeps_logEvent | apply keeps_putPair | apply keeps_resyncGo | apply keeps_sendDelta | refine keeps_ite ?_ ?_ | split
    | unfold z0 | dsimp only)

theorem keeps_execDeltaSent {a0} (h0 : Keeps i a0) : KeepsRes i (execDeltaSent a0) := by
  unfold execDeltaSent
  with_reducible repeat' (first
    | assumption | exact KeepsRes.fault | exact KeepsRes.refused | apply keeps_gate | apply keeps_bump | apply keeps_putPair | apply keeps_resyncGo
    | apply keeps_relaySend | refine keeps_ite ?_ ?_ | refine res_ite ?_ ?_ | refine KeepsRes.next ?_ | refine of_fst (by assumption) ?_ | split
    | dsimp only)

theorem keeps_ackArrives {a0 a1} (h0 : Keeps i a0) : Keeps i (ackArrives a0 a1) := by
  unfold ackArrives
  extract_lets z0
  with_reducible repeat' (first
    | assumption | apply keeps_resyncStart | apply keeps_putPair | apply keeps_resyncGo | refine keeps_ite ?_ ?_ | split | unfold z0 | dsimp only)

theorem keeps_roleArrives {a0 a1 a2} (h0 : Keeps i a0) : Keeps i (roleArrives a0 a1 a2) := by
  unfold roleArrives
  extract_lets z0 z1 z2
  refine keeps_cut (i := i) z2 ?_ (fun hz2 => ?_)
  on_goal 1 => unfold z2
  all_goals
    with_reducible repeat' (first
      | assumption | apply keeps_putPair | apply keeps_resyncStart | refine keeps_ite ?_ ?_ | split | unfold z0 | unfold z1 | dsimp only)

theorem keeps_execRelayWrite {a0 a1 a2 a3} (h3 : Keeps i a3) : KeepsRes i (execRelayWrite a0 a1 a2 a3) := by
  unfold execRelayWrite
  extract_lets z0
  refine keeps_cut (i := i) z0 ?_ (fun hz0 => ?_)
  on_goal 1 => unfold z0
  all_goals
    with_reducible repeat' (first
      | assumption | exact KeepsRes.fault | exact KeepsRes.refused | apply keeps_bump | apply keeps_emit | apply keeps_gate | apply keeps_homePut
      | apply keeps_putPair | apply keeps_ackArrives | apply keeps_roleArrives | refine keeps_ite ?_ ?_ | refine res_ite ?_ ?_ | refine KeepsRes.next ?_
      | refine of_fst (by assumption) ?_ | split | dsimp only)

theorem keeps_applyRecords {a0 a1 a2} (h1 : Keeps i a1) : Keeps i (applyRecords a0 a1 a2) := by
  induction a0 generalizing a1 a2 with
  | zero => exact h1
  | succ n ih =>
    unfold applyRecords
    split
    · exact h1
    · dsimp only
      apply ih
      split
      · exact keeps_homePut h1
      · exact h1

theorem keeps_askResync {a0} (h0 : Keeps i a0) : Keeps i (askResync a0) := by
  unfold askResync
  extract_lets z0
  with_reducible repeat' (first
    | assumption | apply keeps_relaySend | apply keeps_putPair | unfold z0 | dsimp only)

theorem keeps_execDeltaApply {a0 a1 a2} (h2 : Keeps i a2) : KeepsRes i (execDeltaApply a0 a1 a2) := by
  unfold execDeltaApply
  extract_lets z0 z1
  with_reducible repeat' (first
    | assumption | exact KeepsRes.fault | exact KeepsRes.refused | apply keeps_askResync | apply keeps_putPair | apply keeps_applyRecords
    | apply keeps_relaySend | refine keeps_ite ?_ ?_ | refine res_ite ?_ ?_ | refine KeepsRes.next ?_ | split | unfold z0 | unfold z1 | dsimp only)

theorem keeps_execResyncDone {a0} (h0 : Keeps i a0) : KeepsRes i (execResyncDone a0) := by
  unfold execResyncDone
  extract_lets z0
  with_reducible repeat' (first
    | assumption | exact KeepsRes.fault | exact KeepsRes.refused | apply keeps_sendRole | apply keeps_logEvent | apply keeps_putPair
    | refine keeps_ite ?_ ?_ | refine res_ite ?_ ?_ | refine KeepsRes.next ?_ | split | unfold z0 | dsimp only)

theorem keeps_becomeStandby {a0} (h0 : Keeps i a0) : Keeps i (becomeStandby a0) := by
  unfold becomeStandby
  extract_lets z0
  with_reducible repeat' (first
    | assumption | apply keeps_sendRole | apply keeps_putPair | unfold z0 | dsimp only)

theorem keeps_becomeActive {a0} (h0 : Keeps i a0) : Keeps i (becomeActive a0) := by
  unfold becomeActive
  extract_lets z0 z1 z2
  refine keeps_cut (i := i) z1 ?_ (fun hz1 => keeps_cut (i := i) z2 ?_ (fun hz2 => ?_))
  on_goal 1 => unfold z1
  on_goal 2 => unfold z2
  all_goals
    with_reducible repeat' (first
      | assumption | apply keeps_putPair | apply keeps_sendRole | apply keeps_resyncStart | refine keeps_ite ?_ ?_ | split | unfold z0 | dsimp only)

theorem keeps_becomeFenced {a0} (h0 : Keeps i a0) : Keeps i (becomeFenced a0) := by
  unfold becomeFenced
  extract_lets z0 z1
  refine keeps_cut (i := i) z1 ?_ (fun hz1 => ?_)
  on_goal 1 => unfold z1
  all_goals
    with_reducible repeat' (first
      | assumption | intro _ | apply keeps_putPair | apply keeps_sendRole | apply keeps_logEvent | apply keeps_breakSteps | unfold z0 | dsimp only)

theorem keeps_execRelayLinkUp {a0 a1 a2 a3 a4 a5} (h5 : Keeps i a5) : KeepsRes i (execRelayLinkUp a0 a1 a2 a3 a4 a5) := by
  unfold execRelayLinkUp
  extract_lets z0 z1 z2 z3 z4 z5 z6
  refine keeps_cut (i := i) z2 ?_ (fun hz2 => keeps_cut (i := i) z4 ?_ (fun hz4 => keeps_cut (i := i) z6 ?_ (fun hz6 => ?_)))
  on_goal 1 => unfold z2
  on_goal 2 => unfold z4
  on_goal 3 => unfold z6
  all_goals
    with_reducible repeat' (first
      | assumption | exact KeepsRes.fault | exact KeepsRes.refused | apply keeps_putPair | apply keeps_okT | apply keeps_becomeFenced
      | apply keeps_resyncStart | apply keeps_becomeActive | apply keeps_sendRole | apply keeps_resyncGo | refine keeps_ite ?_ ?_ | refine res_ite ?_ ?_
      | refine KeepsRes.next ?_ | split | unfold z0 | unfold z1 | unfold z3 | unfold z5 | dsimp only | fail_if_no_progress (refine keeps_mk ?_ rfl rfl))

theorem keeps_relayDown {a0} (h0 : Keeps i a0) : Keeps i (relayDown a0) := by
  unfold relayDown
  extract_lets z0 z1 z2 z3
  refine keeps_cut (i := i) z2 ?_ (fun hz2 => ?_)
  on_goal 1 => unfold z2
  all_goals
    with_reducible repeat' (first
      | assumption | apply keeps_putPair | unfold z0 | unfold z1 | unfold z3 | dsimp only | fail_if_no_progress (refine keeps_mk ?_ rfl rfl))

theorem keeps_execRelayLinkDown {a0} (h0 : Keeps i a0) : KeepsRes i (execRelayLinkDown a0) := by
  unfold execRelayLinkDown
  with_reducible repeat' (first
    | assumption | exact KeepsRes.fault | exact KeepsRes.refused | apply keeps_relayDown | refine keeps_ite ?_ ?_ | refine res_ite ?_ ?_
    | refine KeepsRes.next ?_ | split)

theorem keeps_pairRequest {a0 a1} (h0 : Keeps i a0) : Keeps i (pairRequest a0 a1) := by
  unfold pairRequest
  extract_lets z0
  with_reducible repeat' (first
    | assumption | apply keeps_putPair | refine keeps_ite ?_ ?_ | refine keeps_foldl ?_ (fun _ _ _ => ?_) | split | unfold z0 | dsimp only
    | fail_if_no_progress (refine keeps_mk ?_ rfl rfl))

theorem keeps_execRequestActive {a0} (h0 : Keeps i a0) : KeepsRes i (execRequestActive a0) := by
  unfold execRequestActive
  with_reducible repeat' (first
    | assumption | exact KeepsRes.fault | exact KeepsRes.refused | apply keeps_pairRequest | refine KeepsRes.next ?_)

theorem keeps_execRequestStandby {a0} (h0 : Keeps i a0) : KeepsRes i (execRequestStandby a0) := by
  unfold execRequestStandby
  with_reducible repeat' (first
    | assumption | exact KeepsRes.fault | exact KeepsRes.refused | apply keeps_pairRequest | refine KeepsRes.next ?_)

theorem keeps_restoreRegs {a0 a1} (h0 : Keeps i a0) : Keeps i (restoreRegs a0 a1) := by
  unfold restoreRegs
  extract_lets z0
  refine keeps_cut (i := i) z0 ?_ (fun hz0 => ?_)
  on_goal 1 => unfold z0
  all_goals
    with_reducible repeat' (first
      | assumption | apply keeps_layReg | refine keeps_foldl ?_ (fun _ _ _ => ?_) | split | dsimp only)

theorem keeps_restoreConfig {a0 a1} (h0 : Keeps i a0) : Keeps i (restoreConfig a0 a1) := by
  unfold restoreConfig
  extract_lets z0 z1 z2 z3 z4 z5 z6 z7 z8 z9
  refine keeps_cut (i := i) z2 ?_ (fun hz2 => keeps_cut (i := i) z6 ?_ (fun hz6 => keeps_cut (i := i) z7 ?_ (fun hz7 => keeps_cut (i := i) z8 ?_ (fun hz8 => ?_))))
  on_goal 1 => unfold z2
  on_goal 2 => unfold z6
  on_goal 3 => unfold z7
  on_goal 4 => unfold z8
  all_goals
    with_reducible repeat' (first
      | assumption | apply keeps_hbmLine | apply keeps_hbmPoison | apply keeps_hbmSectors | apply keeps_hbmZero | apply keeps_hbmUndef
      | apply keeps_hbmFilter | apply keeps_hbmPoisonSet | apply keeps_hbmEmpty | apply keeps_restoreRegs | apply keeps_reconfigure
      | refine keeps_foldl ?_ (fun _ _ _ => ?_) | unfold z0 | unfold z1 | unfold z3 | unfold z4 | unfold z5 | unfold z9 | dsimp only
      | fail_if_no_progress (refine keeps_mk ?_ rfl rfl))

theorem keeps_promote {a0} (h0 : Keeps i a0) : Keeps i (promote a0) := by
  unfold promote
  extract_lets z0 z1 z2 z3 z4 z5
  refine keeps_cut (i := i) z1 ?_ (fun hz1 => keeps_cut (i := i) z3 ?_ (fun hz3 => keeps_cut (i := i) z4 ?_ (fun hz4 => ?_)))
  on_goal 1 => unfold z1
  on_goal 2 => unfold z3
  on_goal 3 => unfold z4
  all_goals
    with_reducible repeat' (first
      | assumption | apply keeps_restoreConfig | apply keeps_putPair | apply keeps_becomeActive | apply keeps_logEvent | refine keeps_ite ?_ ?_
      | refine keeps_foldl ?_ (fun _ _ _ => ?_) | split | unfold z0 | unfold z2 | unfold z5 | dsimp only
      | fail_if_no_progress (refine keeps_mk ?_ rfl rfl))

theorem keeps_pairMark {a0 a1} (h0 : Keeps i a0) : Keeps i (pairMark a0 a1) := by
  unfold pairMark
  extract_lets z0 z1 z2 z3 z4 z5 z6 z7 z8
  refine keeps_cut (i := i) z1 ?_ (fun hz1 => keeps_cut (i := i) z4 ?_ (fun hz4 => keeps_cut (i := i) z5 ?_ (fun hz5 => keeps_cut (i := i) z7 ?_ (fun hz7 => ?_))))
  on_goal 1 => unfold z1
  on_goal 2 => unfold z4
  on_goal 3 => unfold z5
  on_goal 4 => unfold z7
  all_goals
    with_reducible repeat' (first
      | assumption | apply keeps_putPair | apply keeps_becomeActive | apply keeps_becomeStandby | apply keeps_promote | apply keeps_logEvent
      | refine keeps_ite ?_ ?_ | split | unfold z0 | unfold z2 | unfold z3 | unfold z6 | unfold z8 | dsimp only)

theorem keeps_pairMarkZero {a0} (h0 : Keeps i a0) : Keeps i (pairMarkZero a0) := by
  unfold pairMarkZero
  with_reducible repeat' (first
    | assumption | apply keeps_becomeActive | refine keeps_ite ?_ ?_ | split | dsimp only)

theorem keeps_heartbeat {a0} (h0 : Keeps i a0) : Keeps i (heartbeat a0) := by
  unfold heartbeat
  extract_lets z0 z1 z2
  refine keeps_cut (i := i) z1 ?_ (fun hz1 => ?_)
  on_goal 1 => unfold z1
  all_goals
    with_reducible repeat' (first
      | assumption | apply keeps_relaySend | apply keeps_putPair | refine keeps_ite ?_ ?_ | split | unfold z0 | unfold z2 | dsimp only)

theorem keeps_restoreLine {a0 a1 a2} (h0 : Keeps i a0) : Keeps i (restoreLine a0 a1 a2) := by
  unfold restoreLine
  with_reducible repeat' (first
    | assumption | apply keeps_hbmLine | apply keeps_hbmPoison | apply keeps_hbmSectors | apply keeps_hbmZero | apply keeps_hbmUndef
    | apply keeps_hbmFilter | apply keeps_hbmPoisonSet | apply keeps_hbmEmpty | apply keeps_homePut | split | dsimp only)

theorem keeps_restoreRegions {a0} (h0 : Keeps i a0) : Keeps i (restoreRegions a0) := by
  unfold restoreRegions
  with_reducible repeat' (first
    | assumption | apply keeps_restoreLine | refine keeps_foldl ?_ (fun _ _ _ => ?_) | dsimp only)

theorem keeps_restoreContext {a0 a1 a2} (h0 : Keeps i a0) : Keeps i (restoreContext a0 a1 a2) := by
  unfold restoreContext
  extract_lets z0 z1 z2
  refine keeps_cut (i := i) z1 ?_ (fun hz1 => keeps_cut (i := i) z2 ?_ (fun hz2 => ?_))
  on_goal 1 => unfold z1
  on_goal 2 => unfold z2
  all_goals
    with_reducible repeat' (first
      | assumption | intro _ | apply keeps_putContext | apply keeps_scanRecord | apply keeps_newRecord | apply keeps_modFn | refine keeps_ite ?_ ?_
      | refine keeps_foldl ?_ (fun _ _ _ => ?_) | split | unfold z0 | dsimp only)

theorem keeps_execPromotionRestoreDone {a0} (h0 : Keeps i a0) : KeepsRes i (execPromotionRestoreDone a0) := by
  unfold execPromotionRestoreDone
  extract_lets z0
  with_reducible repeat' (first
    | assumption | exact KeepsRes.fault | exact KeepsRes.refused | apply keeps_restoreRegions | apply keeps_restoreConfig | apply keeps_restoreContext
    | apply keeps_okT | apply keeps_putPair | unfold z0 | refine keeps_ite ?_ ?_ | refine res_ite ?_ ?_ | refine KeepsRes.next ?_
    | refine keeps_foldl ?_ (fun _ _ _ => ?_) | split | dsimp only | fail_if_no_progress (refine keeps_mk ?_ rfl rfl))

end Sys2Proof.Machine
end

