-- ==== Sys2Proof/Laws/KeepBring.lean ====
section
/-! SUPPORT. One lemma per function that carries a State, for stage, Customs, bring-up, Pelxel and BAR0:
what `Keep.lean` calls kept (the queue of commands, the canonical form of the stores, the well-formed
cores) stays kept through it. Later proofs cite these lemmas and unfold no function again. -/

namespace Sys2Proof.Machine
variable {i : Held} {s t : State}

/-! ### Sys2Proof.Machine.Waybill -/

theorem keeps_rewriteWaybill {a0} (h0 : Keeps i a0) : Keeps i (rewriteWaybill a0) := by
  unfold rewriteWaybill
  extract_lets z0 z1
  with_reducible repeat' (first
    | assumption | refine keeps_ite ?_ ?_ | split | unfold z0 | unfold z1 | dsimp only | fail_if_no_progress (refine keeps_mk ?_ rfl rfl))

/-! ### Sys2Proof.Machine.Stage -/

theorem keeps_execArmSend {a0} (h0 : Keeps i a0) : KeepsRes i (execArmSend a0) := by
  unfold execArmSend
  extract_lets z0 z1
  refine keeps_cut (i := i) z0 ?_ (fun hz0 => ?_)
  on_goal 1 => unfold z0
  all_goals
    with_reducible repeat' (first
      | assumption | exact KeepsRes.fault | exact KeepsRes.refused | apply keeps_advance | refine keeps_ite ?_ ?_ | refine res_ite ?_ ?_
      | refine KeepsRes.next ?_ | split | unfold z1 | dsimp only | fail_if_no_progress (refine keeps_mk ?_ rfl rfl))

theorem keeps_execArmReceive {a0 a1} (h1 : Keeps i a1) : KeepsRes i (execArmReceive a0 a1) := by
  unfold execArmReceive
  extract_lets z0
  with_reducible repeat' (first
    | assumption | exact KeepsRes.fault | exact KeepsRes.refused | refine keeps_ite ?_ ?_ | refine res_ite ?_ ?_ | refine KeepsRes.next ?_ | split
    | unfold z0 | dsimp only | fail_if_no_progress (refine keeps_mk ?_ rfl rfl))

theorem keeps_readmitOne {a0 a1} (h0 : Keeps i a0) : Keeps i (readmitOne a0 a1) := by
  unfold readmitOne
  extract_lets z0
  with_reducible repeat' (first
    | assumption | apply keeps_admitPieces | apply keeps_forward | apply keeps_charge | unfold z0 | refine keeps_ite ?_ ?_
    | refine of_fst (by assumption) ?_ | split | dsimp only | fail_if_no_progress (refine keeps_mk ?_ rfl rfl))

theorem keeps_readmit {a0} (h0 : Keeps i a0) : Keeps i (readmit a0) := by
  unfold readmit
  extract_lets z0
  with_reducible repeat' (first
    | assumption | apply keeps_readmitOne | refine keeps_foldl ?_ (fun _ _ _ => ?_) | unfold z0 | dsimp only
    | fail_if_no_progress (refine keeps_mk ?_ rfl rfl))

theorem keeps_windowEnd {a0 a1} (h0 : Keeps i a0) : Keeps i (windowEnd a0 a1) := by
  unfold windowEnd
  with_reducible repeat' (first
    | assumption | apply keeps_heartbeat | apply keeps_limiter | apply keeps_windowMisses)

theorem keeps_windowBegin {a0} (h0 : Keeps i a0) : Keeps i (windowBegin a0) := by
  unfold windowBegin
  with_reducible repeat' (first
    | assumption | apply keeps_readmit | apply keeps_newWindowIrq | apply keeps_resetTolls)

theorem keeps_windowStep {a0 a1} (h0 : Keeps i a0) : Keeps i (windowStep a0 a1) := by
  unfold windowStep
  extract_lets z0 z1
  refine keeps_cut (i := i) z0 ?_ (fun hz0 => ?_)
  on_goal 1 => unfold z0
  all_goals
    with_reducible repeat' (first
      | assumption | apply keeps_windowEnd | apply keeps_advance | apply keeps_pumpHost | apply keeps_slotBoundary | apply keeps_windowBegin | unfold z1
      | dsimp only | fail_if_no_progress (refine keeps_mk ?_ rfl rfl))

theorem keeps_execTollWindow {a0 a1} (h1 : Keeps i a1) : KeepsRes i (execTollWindow a0 a1) := by
  unfold execTollWindow
  with_reducible repeat' (first
    | assumption | exact KeepsRes.fault | exact KeepsRes.refused | apply keeps_okT | apply keeps_windowStep | refine keeps_ite ?_ ?_
    | refine res_ite ?_ ?_ | refine KeepsRes.next ?_ | split)

theorem keeps_lateSteps {a0} (h0 : Keeps i a0) : Keeps i (lateSteps a0) := by
  unfold lateSteps
  with_reducible repeat' (first
    | assumption | apply keeps_breakStep | apply keeps_bump | refine keeps_ite ?_ ?_ | refine keeps_foldl ?_ (fun _ _ _ => ?_) | split | dsimp only)

theorem keeps_domainMark {a0} (h0 : Keeps i a0) : Keeps i (domainMark a0) := by
  unfold domainMark
  with_reducible repeat' (first
    | assumption | apply keeps_setStatus | apply keeps_putDomain | apply keeps_logEvent | apply keeps_domainResetBegin | refine keeps_ite ?_ ?_
    | refine keeps_foldl ?_ (fun _ _ _ => ?_) | split | dsimp only | fail_if_no_progress (refine keeps_mk ?_ rfl rfl))

theorem keeps_armMisses {a0} (h0 : Keeps i a0) : Keeps i (armMisses a0) := by
  unfold armMisses
  extract_lets z0
  with_reducible repeat' (first
    | assumption | apply keeps_setStatus | unfold z0 | refine keeps_foldl ?_ (fun _ _ _ => ?_) | dsimp only)

theorem keeps_skewCheck {a0 a1} (h0 : Keeps i a0) : Keeps i (skewCheck a0 a1) := by
  unfold skewCheck
  extract_lets z0 z1 z2 z3
  refine keeps_cut (i := i) z0 ?_ (fun hz0 => keeps_cut (i := i) z2 ?_ (fun hz2 => ?_))
  on_goal 1 => unfold z0
  on_goal 2 => unfold z2
  all_goals
    with_reducible repeat' (first
      | assumption | apply keeps_bumpMax | apply keeps_setStatus | refine keeps_ite ?_ ?_ | split | unfold z1 | unfold z3 | dsimp only
      | fail_if_no_progress (refine keeps_mk ?_ rfl rfl))

theorem keeps_sendMark {a0 a1} (h0 : Keeps i a0) : Keeps i (sendMark a0 a1) := by
  unfold sendMark
  extract_lets z0
  with_reducible repeat' (first
    | assumption | apply keeps_emit | apply keeps_sendEhp | refine keeps_ite ?_ ?_ | refine keeps_foldl ?_ (fun _ _ _ => ?_) | split | unfold z0
    | dsimp only | fail_if_no_progress (refine keeps_mk ?_ rfl rfl))

theorem keeps_sendMarks {a0} (h0 : Keeps i a0) : Keeps i (sendMarks a0) := by
  unfold sendMarks
  with_reducible repeat' (first
    | assumption | apply keeps_sendMark | refine keeps_ite ?_ ?_ | refine keeps_foldl ?_ (fun _ _ _ => ?_) | split | dsimp only
    | fail_if_no_progress (refine keeps_mk ?_ rfl rfl))

theorem keeps_wakeCores {a0} (h0 : Keeps i a0) : Keeps i (wakeCores a0) := by
  unfold wakeCores
  with_reducible repeat' (first
    | assumption | apply keeps_wakeCore | refine keeps_foldl ?_ (fun _ _ _ => ?_) | dsimp only)

theorem keeps_markConfig {a0 a1} (h0 : Keeps i a0) : Keeps i (markConfig a0 a1) := by
  unfold markConfig
  with_reducible repeat' (first
    | assumption | apply keeps_pairMark | apply keeps_domainMark | apply keeps_applyCaps | apply keeps_applySteps | apply keeps_applySets)

theorem keeps_fireMark {a0 a1 a2 a3} (h0 : Keeps i a0) : Keeps i (fireMark a0 a1 a2 a3) := by
  unfold fireMark
  extract_lets z0 z1 z2 z3 z4 z5 z6 z7 z8 z9 z10 z11 z12
  refine keeps_cut (i := i) z2 ?_ (fun hz2 => keeps_cut (i := i) z3 ?_ (fun hz3 => keeps_cut (i := i) z4 ?_ (fun hz4 => keeps_cut (i := i) z5 ?_ (fun hz5 => keeps_cut (i := i) z6 ?_ (fun hz6 => keeps_cut (i := i) z8 ?_ (fun hz8 => keeps_cut (i := i) z9 ?_ (fun hz9 => keeps_cut (i := i) z10 ?_ (fun hz10 => keeps_cut (i := i) z11 ?_ (fun hz11 => keeps_cut (i := i) z12 ?_ (fun hz12 => ?_))))))))))
  on_goal 1 => unfold z2
  on_goal 2 => unfold z3
  on_goal 3 => unfold z4
  on_goal 4 => unfold z5
  on_goal 5 => unfold z6
  on_goal 6 => unfold z8
  on_goal 7 => unfold z9
  on_goal 8 => unfold z10
  on_goal 9 => unfold z11
  on_goal 10 => unfold z12
  all_goals
    with_reducible repeat' (first
      | assumption | apply keeps_armMisses | apply keeps_lateSteps | apply keeps_markConfig | apply keeps_windowBegin | apply keeps_mirrorSnapshot
      | apply keeps_sendMarks | apply keeps_wakeCores | apply keeps_replan | apply keeps_rewriteWaybill | apply keeps_pumpHost
      | apply keeps_slotBoundary | apply keeps_setHealth | apply keeps_skewCheck | refine keeps_ite ?_ ?_ | split | unfold z0 | unfold z1 | unfold z7
      | dsimp only | fail_if_no_progress (refine keeps_mk ?_ rfl rfl))

theorem keeps_finishWindows {a0 a1} (h0 : Keeps i a0) : Keeps i (finishWindows a0 a1) := by
  unfold finishWindows
  with_reducible repeat' (first
    | assumption | apply keeps_windowEnd | apply keeps_windowStep | refine keeps_foldl ?_ (fun _ _ _ => ?_) | dsimp only)

theorem keeps_execStageMark {a0 a1 a2 a3} (h3 : Keeps i a3) : KeepsRes i (execStageMark a0 a1 a2 a3) := by
  unfold execStageMark
  extract_lets z0 z1
  refine keeps_cut (i := i) z0 ?_ (fun hz0 => keeps_cut (i := i) z1 ?_ (fun hz1 => ?_))
  on_goal 1 => unfold z0
  on_goal 2 => unfold z1
  all_goals
    with_reducible repeat' (first
      | assumption | exact KeepsRes.fault | exact KeepsRes.refused | apply keeps_finishWindows | apply keeps_fireMark | apply keeps_advance
      | apply keeps_hubFault | apply keeps_okT | refine keeps_ite ?_ ?_ | refine res_ite ?_ ?_ | refine KeepsRes.next ?_ | split | dsimp only)

/-! ### Sys2Proof.Machine.Customs -/

theorem keeps_putCus {a0 a1} (h0 : Keeps i a0) : Keeps i (putCus a0 a1) := by
  unfold putCus
  with_reducible repeat' (first
    | assumption | dsimp only | fail_if_no_progress (refine keeps_mk ?_ rfl rfl))

theorem keeps_newNonce {a0} (h0 : Keeps i a0) : Keeps i (newNonce a0) := by
  unfold newNonce
  with_reducible repeat' (first
    | assumption | apply keeps_draw | apply keeps_putCus | refine of_snd (by assumption) ?_ | split | dsimp only)

theorem keeps_refuseToken {a0 a1} (h0 : Keeps i a0) : Keeps i (refuseToken a0 a1) := by
  unfold refuseToken
  extract_lets z0
  with_reducible repeat' (first
    | assumption | apply keeps_logEvent | apply keeps_putCus | unfold z0 | dsimp only)

theorem keeps_burnStart {a0 a1} (h0 : Keeps i a0) : Keeps i (burnStart a0 a1) := by
  unfold burnStart
  extract_lets z0
  with_reducible repeat' (first
    | assumption | apply keeps_putCus | refine keeps_ite ?_ ?_ | refine keeps_foldl ?_ (fun _ _ _ => ?_) | split | unfold z0 | dsimp only
    | fail_if_no_progress (refine keeps_mk ?_ rfl rfl))

theorem keeps_submitToken {a0 a1 a2} (h0 : Keeps i a0) : Keeps i (submitToken a0 a1 a2) := by
  unfold submitToken
  extract_lets z0
  with_reducible repeat' (first
    | assumption | apply keeps_newNonce | apply keeps_refuseToken | apply keeps_burnStart | apply keeps_putCus | refine keeps_ite ?_ ?_
    | refine keeps_foldl ?_ (fun _ _ _ => ?_) | split | unfold z0 | dsimp only | fail_if_no_progress (refine keeps_mk ?_ rfl rfl))

theorem keeps_execToken {a0 a1 a2} (h2 : Keeps i a2) : KeepsRes i (execToken a0 a1 a2) := by
  unfold execToken
  with_reducible repeat' (first
    | assumption | exact KeepsRes.fault | exact KeepsRes.refused | apply keeps_submitToken | refine KeepsRes.next ?_)

theorem keeps_enrol {a0 a1} (h0 : Keeps i a0) : Keeps i (enrol a0 a1) := by
  unfold enrol
  with_reducible repeat' (first
    | assumption | apply keeps_burnStart | refine keeps_ite ?_ ?_ | refine keeps_foldl ?_ (fun _ _ _ => ?_) | split | dsimp only
    | fail_if_no_progress (refine keeps_mk ?_ rfl rfl))

theorem keeps_execOwnerEnrol {a0 a1} (h1 : Keeps i a1) : KeepsRes i (execOwnerEnrol a0 a1) := by
  unfold execOwnerEnrol
  with_reducible repeat' (first
    | assumption | exact KeepsRes.fault | exact KeepsRes.refused | apply keeps_enrol | refine KeepsRes.next ?_)

theorem keeps_svnAdvance {a0 a1} (h0 : Keeps i a0) : Keeps i (svnAdvance a0 a1) := by
  unfold svnAdvance
  extract_lets z0
  with_reducible repeat' (first
    | assumption | apply keeps_burnStart | refine keeps_ite ?_ ?_ | refine keeps_foldl ?_ (fun _ _ _ => ?_) | split | unfold z0 | dsimp only
    | fail_if_no_progress (refine keeps_mk ?_ rfl rfl))

theorem keeps_execSvnAdvance {a0 a1} (h1 : Keeps i a1) : KeepsRes i (execSvnAdvance a0 a1) := by
  unfold execSvnAdvance
  with_reducible repeat' (first
    | assumption | exact KeepsRes.fault | exact KeepsRes.refused | apply keeps_svnAdvance | refine KeepsRes.next ?_)

theorem keeps_burnDone {a0 a1} (h0 : Keeps i a0) : Keeps i (burnDone a0 a1) := by
  unfold burnDone
  extract_lets z0
  with_reducible repeat' (first
    | assumption | apply keeps_logEvent | apply keeps_putCus | split | unfold z0 | dsimp only)

theorem keeps_execFuseBurnDone {a0 a1} (h1 : Keeps i a1) : KeepsRes i (execFuseBurnDone a0 a1) := by
  unfold execFuseBurnDone
  with_reducible repeat' (first
    | assumption | exact KeepsRes.fault | exact KeepsRes.refused | apply keeps_notDue | apply keeps_burnDone | apply keeps_cutBurn | apply keeps_draw
    | apply keeps_putCus | apply keeps_ok | apply keeps_warmNow | refine res_ite ?_ ?_ | refine KeepsRes.next ?_ | refine keeps_ite ?_ ?_
    | refine keeps_foldl ?_ (fun _ _ _ => ?_) | refine of_next (by assumption) ?_ | refine of_snd (by assumption) ?_ | split | dsimp only
    | fail_if_no_progress (refine keeps_mk ?_ rfl rfl))

theorem keeps_select {a0 a1 a2} (h0 : Keeps i a0) : Keeps i (select a0 a1 a2) := by
  unfold select
  extract_lets z0 z1 z2
  with_reducible repeat' (first
    | assumption | apply keeps_flashPut | refine keeps_ite ?_ ?_ | split | unfold z0 | unfold z1 | unfold z2 | dsimp only)

theorem keeps_checkLicences {a0} (h0 : Keeps i a0) : Keeps i (checkLicences a0) := by
  unfold checkLicences
  extract_lets z0 z1 z2 z3 z4
  refine keeps_cut (i := i) z4 ?_ (fun hz4 => ?_)
  on_goal 1 => unfold z4
  all_goals
    with_reducible repeat' (first
      | assumption | apply keeps_putCus | apply keeps_logEvent | refine keeps_ite ?_ ?_ | refine keeps_foldl ?_ (fun _ _ _ => ?_) | split | unfold z0
      | unfold z1 | unfold z2 | unfold z3 | dsimp only | fail_if_no_progress (refine keeps_mk ?_ rfl rfl))

theorem keeps_flashStart {a0 a1} (h0 : Keeps i a0) : KeepsOpt i (flashStart a0 a1) := by
  unfold flashStart
  extract_lets z0
  with_reducible repeat' (first
    | assumption | exact KeepsOpt.none | apply keeps_putCus | refine keeps_ite ?_ ?_ | refine opt_ite ?_ ?_ | refine KeepsOpt.some ?_ | split
    | unfold z0 | dsimp only)

theorem keeps_flashRow {a0 a1} (h0 : Keeps i a0) : KeepsRes i (flashRow a0 a1) := by
  unfold flashRow
  with_reducible repeat' (first
    | assumption | exact KeepsRes.fault | exact KeepsRes.refused | apply keeps_flashStart | refine keeps_ite ?_ ?_ | refine opt_ite ?_ ?_
    | refine KeepsOpt.some ?_ | refine res_ite ?_ ?_ | refine KeepsRes.next ?_ | refine keeps_getD ?_ ?_ | split | dsimp only)

theorem keeps_execErase4k {a0} (h0 : Keeps i a0) : KeepsRes i (execErase4k a0) := by
  unfold execErase4k
  with_reducible repeat' (first
    | assumption | exact KeepsRes.fault | exact KeepsRes.refused | apply keeps_flashRow | refine KeepsRes.next ?_)

theorem keeps_execErase64k {a0} (h0 : Keeps i a0) : KeepsRes i (execErase64k a0) := by
  unfold execErase64k
  with_reducible repeat' (first
    | assumption | exact KeepsRes.fault | exact KeepsRes.refused | apply keeps_flashRow | refine KeepsRes.next ?_)

theorem keeps_execProgram {a0} (h0 : Keeps i a0) : KeepsRes i (execProgram a0) := by
  unfold execProgram
  with_reducible repeat' (first
    | assumption | exact KeepsRes.fault | exact KeepsRes.refused | apply keeps_flashRow | refine KeepsRes.next ?_)

theorem keeps_execFlashRead {a0} (h0 : Keeps i a0) : KeepsRes i (execFlashRead a0) := by
  unfold execFlashRead
  with_reducible repeat' (first
    | assumption | exact KeepsRes.fault | exact KeepsRes.refused | apply keeps_flashRow | refine KeepsRes.next ?_)

theorem keeps_execActivate {a0} (h0 : Keeps i a0) : KeepsRes i (execActivate a0) := by
  unfold execActivate
  with_reducible repeat' (first
    | assumption | exact KeepsRes.fault | exact KeepsRes.refused | apply keeps_flashRow | refine KeepsRes.next ?_)

theorem keeps_flashEnd {a0 a1 a2} (h0 : Keeps i a0) : Keeps i (flashEnd a0 a1 a2) := by
  unfold flashEnd
  extract_lets z0 z1
  refine keeps_cut (i := i) z1 ?_ (fun hz1 => ?_)
  on_goal 1 => unfold z1
  all_goals
    with_reducible repeat' (first
      | assumption | apply keeps_putCus | apply keeps_logEvent | split | unfold z0 | dsimp only)

theorem keeps_flashFails {a0 a1 a2} (h0 : Keeps i a0) : Keeps i (flashFails a0 a1 a2) := by
  unfold flashFails
  with_reducible repeat' (first
    | assumption | apply keeps_draw | apply keeps_flashEnd | apply keeps_flashPut | refine of_snd (by assumption) ?_ | split | dsimp only)

theorem keeps_execFlashCommandDone {a0 a1} (h1 : Keeps i a1) : KeepsRes i (execFlashCommandDone a0 a1) := by
  unfold execFlashCommandDone
  extract_lets z0 z1
  with_reducible repeat' (first
    | assumption | exact KeepsRes.fault | exact KeepsRes.refused | apply keeps_flashEnd | apply keeps_flashPut | apply keeps_flashFails
    | apply keeps_putCus | apply keeps_select | unfold z0 | refine keeps_ite ?_ ?_ | refine res_ite ?_ ?_ | refine KeepsRes.next ?_ | split | unfold z1
    | dsimp only)

theorem keeps_execSpdmRequest {a0 a1 a2} (h2 : Keeps i a2) : KeepsRes i (execSpdmRequest a0 a1 a2) := by
  unfold execSpdmRequest
  with_reducible repeat' (first
    | assumption | exact KeepsRes.fault | exact KeepsRes.refused | apply keeps_draw | apply keeps_emit | apply keeps_putCus | refine keeps_ite ?_ ?_
    | refine res_ite ?_ ?_ | refine KeepsRes.next ?_ | refine of_snd (by assumption) ?_ | split | dsimp only)

/-! ### Sys2Proof.Machine.BringUp -/

theorem keeps_putBring {a0 a1} (h0 : Keeps i a0) : Keeps i (putBring a0 a1) := by
  unfold putBring
  with_reducible repeat' (first
    | assumption | dsimp only | fail_if_no_progress (refine keeps_mk ?_ rfl rfl))

theorem keeps_execSupplyGood {a0} (h0 : Keeps i a0) : KeepsRes i (execSupplyGood a0) := by
  unfold execSupplyGood
  extract_lets z0
  with_reducible repeat' (first
    | assumption | exact KeepsRes.fault | exact KeepsRes.refused | apply keeps_putBring | refine keeps_ite ?_ ?_ | refine res_ite ?_ ?_
    | refine KeepsRes.next ?_ | split | unfold z0 | dsimp only)

theorem keeps_execPowerOnResetRelease {a0 a1 a2 a3 a4} (h4 : Keeps i a4) : KeepsRes i (execPowerOnResetRelease a0 a1 a2 a3 a4) := by
  unfold execPowerOnResetRelease
  extract_lets z0 z1 z2 z3 z4 z5 z6 z7 z8 z9
  refine keeps_cut (i := i) z2 ?_ (fun hz2 => keeps_cut (i := i) z5 ?_ (fun hz5 => keeps_cut (i := i) z7 ?_ (fun hz7 => ?_)))
  on_goal 1 => unfold z2
  on_goal 2 => unfold z5
  on_goal 3 => unfold z7
  all_goals
    with_reducible repeat' (first
      | assumption | exact KeepsRes.fault | exact KeepsRes.refused | apply keeps_putBring | unfold z3 | refine keeps_ite ?_ ?_ | refine res_ite ?_ ?_
      | refine KeepsRes.next ?_ | split | unfold z0 | unfold z1 | unfold z4 | unfold z6 | unfold z8 | unfold z9 | dsimp only
      | fail_if_no_progress (refine keeps_mk ?_ rfl rfl))

theorem keeps_execSupplyOutOfBand {a0} (h0 : Keeps i a0) : KeepsRes i (execSupplyOutOfBand a0) := by
  unfold execSupplyOutOfBand
  with_reducible repeat' (first
    | assumption | exact KeepsRes.fault | exact KeepsRes.refused | apply keeps_powerOn | refine keeps_ite ?_ ?_ | refine res_ite ?_ ?_
    | refine KeepsRes.next ?_ | split)

theorem keeps_modStage {a0 a1 a2} (h0 : Keeps i a0) : Keeps i (modStage a0 a1 a2) := by
  unfold modStage
  extract_lets z0
  with_reducible repeat' (first
    | assumption | apply keeps_putBring | unfold z0 | dsimp only)

theorem keeps_startNext {a0} (h0 : Keeps i a0) : Keeps i (startNext a0) := by
  unfold startNext
  with_reducible repeat' (first
    | assumption | intro _ | apply keeps_modStage | refine keeps_ite ?_ ?_ | refine keeps_foldl ?_ (fun _ _ _ => ?_) | split | dsimp only)

theorem keeps_stageFatal {a0 a1 a2 a3} (h0 : Keeps i a0) : Keeps i (stageFatal a0 a1 a2 a3) := by
  unfold stageFatal
  extract_lets z0 z1 z2
  refine keeps_cut (i := i) z0 ?_ (fun hz0 => keeps_cut (i := i) z2 ?_ (fun hz2 => ?_))
  on_goal 1 => unfold z0
  on_goal 2 => unfold z2
  all_goals
    with_reducible repeat' (first
      | assumption | intro _ | apply keeps_modStage | apply keeps_modFn | apply keeps_putBring | apply keeps_logEvent | unfold z1 | dsimp only)

theorem keeps_stageEnd {a0 a1 a2} (h0 : Keeps i a0) : Keeps i (stageEnd a0 a1 a2) := by
  unfold stageEnd
  extract_lets z0 z1
  refine keeps_cut (i := i) z1 ?_ (fun hz1 => ?_)
  on_goal 1 => unfold z1
  all_goals
    with_reducible repeat' (first
      | assumption | intro _ | apply keeps_modStage | apply keeps_logEvent | apply keeps_startNext | split | unfold z0 | dsimp only)

theorem keeps_execRom {a0 a1} (h1 : Keeps i a1) : KeepsRes i (execRom a0 a1) := by
  unfold execRom
  extract_lets z0 z1 z2 z3 z4 z5 z6 z7
  refine keeps_cut (i := i) z0 ?_ (fun hz0 => keeps_cut (i := i) z4 ?_ (fun hz4 => keeps_cut (i := i) z5 ?_ (fun hz5 => keeps_cut (i := i) z7 ?_ (fun hz7 => ?_))))
  on_goal 1 => unfold z0
  on_goal 2 => unfold z4
  on_goal 3 => unfold z5
  on_goal 4 => unfold z7
  all_goals
    with_reducible repeat' (first
      | assumption | exact KeepsRes.fault | exact KeepsRes.refused | apply keeps_advance | apply keeps_putCus | apply keeps_stageFatal
      | apply keeps_newNonce | apply keeps_emit | apply keeps_stageEnd | refine keeps_ite ?_ ?_ | refine res_ite ?_ ?_ | refine KeepsRes.next ?_ | split
      | unfold z1 | unfold z2 | unfold z3 | unfold z6 | dsimp only | fail_if_no_progress (refine keeps_mk ?_ rfl rfl))

theorem keeps_execClocks {a0 a1 a2 a3 a4 a5} (h5 : Keeps i a5) : KeepsRes i (execClocks a0 a1 a2 a3 a4 a5) := by
  unfold execClocks
  extract_lets z0 z1 z2
  refine keeps_cut (i := i) z0 ?_ (fun hz0 => keeps_cut (i := i) z1 ?_ (fun hz1 => keeps_cut (i := i) z2 ?_ (fun hz2 => ?_)))
  on_goal 1 => unfold z0
  on_goal 2 => unfold z1
  on_goal 3 => unfold z2
  all_goals
    with_reducible repeat' (first
      | assumption | exact KeepsRes.fault | exact KeepsRes.refused | apply keeps_advance | apply keeps_stageFatal | apply keeps_measureSites
      | apply keeps_sendTarget | apply keeps_stageEnd | refine keeps_ite ?_ ?_ | refine res_ite ?_ ?_ | refine KeepsRes.next ?_ | split | dsimp only)

theorem keeps_imageEvent {a0 a1 a2 a3 a4 a5} (h0 : Keeps i a0) : Keeps i (imageEvent a0 a1 a2 a3 a4 a5) := by
  unfold imageEvent
  with_reducible repeat' (first
    | assumption | apply keeps_logEvent)

theorem keeps_chooseImage {a0 a1} (h0 : Keeps i a0) : Keeps i (chooseImage a0 a1).1 := by
  unfold chooseImage
  extract_lets z0 z1 z2 z3 z4 z5
  refine keeps_cut (i := i) z2 ?_ (fun hz2 => ?_)
  on_goal 1 => unfold z2
  all_goals
    with_reducible repeat' (first
      | assumption | apply keeps_imageEvent | apply keeps_putCus | refine keeps_ite ?_ ?_ | split | unfold z0 | unfold z1 | unfold z3 | unfold z4
      | unfold z5 | dsimp only)

theorem keeps_execFirmware {a0 a1 a2} (h2 : Keeps i a2) : KeepsRes i (execFirmware a0 a1 a2) := by
  unfold execFirmware
  extract_lets z0
  refine keeps_cut (i := i) z0 ?_ (fun hz0 => ?_)
  on_goal 1 => unfold z0
  all_goals
    with_reducible repeat' (first
      | assumption | intro _ | exact KeepsRes.fault | exact KeepsRes.refused | apply keeps_advance | apply keeps_stageFatal | apply keeps_chooseImage
      | apply keeps_putCus | apply keeps_checkLicences | apply keeps_modSite | apply keeps_stageEnd | apply keeps_rewriteWaybill
      | refine keeps_ite ?_ ?_ | refine res_ite ?_ ?_ | refine KeepsRes.next ?_ | refine keeps_foldl ?_ (fun _ _ _ => ?_)
      | refine of_fst (by assumption) ?_ | split | dsimp only)

theorem keeps_bringRow {a0 a1 a2} (h0 : Keeps i a0) : Keeps i (bringRow a0 a1 a2).1 := by
  unfold bringRow
  extract_lets z0
  with_reducible repeat' (first
    | assumption | apply keeps_rowFails | apply keeps_disableWay | unfold z0 | refine keeps_ite ?_ ?_ | split | dsimp only)

theorem keeps_bringRows {a0 a1} (h1 : Keeps i a1) : Keeps i (bringRows a0 a1).1 := by
  induction a0 generalizing a1 with
  | nil => exact h1
  | cons p l ih =>
    unfold bringRows
    split
    · next e => exact ih (of_fst e (keeps_bringRow h1))
    · next e => exact of_fst e (keeps_bringRow h1)

theorem keeps_loadImage {a0 a1} (h0 : Keeps i a0) : Keeps i (loadImage a0 a1) := by
  unfold loadImage
  with_reducible repeat' (first
    | assumption | apply keeps_seraiSetLine | refine keeps_ite ?_ ?_ | refine keeps_foldl ?_ (fun _ _ _ => ?_) | split | dsimp only)

theorem keeps_startFetch {a0} (h0 : Keeps i a0) : Keeps i (startFetch a0) := by
  unfold startFetch
  extract_lets z0 z1 z2
  with_reducible repeat' (first
    | assumption | refine keeps_ite ?_ ?_ | split | unfold z0 | unfold z1 | unfold z2 | dsimp only | fail_if_no_progress (refine keeps_mk ?_ rfl rfl))

theorem keeps_execSerai {a0 a1 a2} (h2 : Keeps i a2) : KeepsRes i (execSerai a0 a1 a2) := by
  unfold execSerai
  extract_lets z0
  refine keeps_cut (i := i) z0 ?_ (fun hz0 => ?_)
  on_goal 1 => unfold z0
  all_goals
    with_reducible repeat' (first
      | assumption | exact KeepsRes.fault | exact KeepsRes.refused | apply keeps_advance | apply keeps_bringRows | apply keeps_stageFatal
      | apply keeps_okT | apply keeps_chooseImage | apply keeps_putCus | apply keeps_startFetch | apply keeps_loadImage | apply keeps_stageEnd
      | refine keeps_ite ?_ ?_ | refine res_ite ?_ ?_ | refine KeepsRes.next ?_ | refine of_fst (by assumption) ?_ | split | dsimp only
      | fail_if_no_progress (refine keeps_mk ?_ rfl rfl))

theorem keeps_execPorter {a0 a1} (h1 : Keeps i a1) : KeepsRes i (execPorter a0 a1) := by
  unfold execPorter
  extract_lets z0 z1 z2
  refine keeps_cut (i := i) z0 ?_ (fun hz0 => keeps_cut (i := i) z1 ?_ (fun hz1 => ?_))
  on_goal 1 => unfold z0
  on_goal 2 => unfold z1
  all_goals
    with_reducible repeat' (first
      | assumption | exact KeepsRes.fault | exact KeepsRes.refused | apply keeps_execWaveRelease | apply keeps_advance | apply keeps_stageEnd
      | refine keeps_ite ?_ ?_ | refine res_ite ?_ ?_ | refine KeepsRes.next ?_ | refine keeps_foldl ?_ (fun _ _ _ => ?_)
      | refine of_next (by assumption) ?_ | split | unfold z2 | dsimp only)

theorem keeps_stacksOut {a0 a1} (h0 : Keeps i a0) : Keeps i (stacksOut a0 a1) := by
  unfold stacksOut
  extract_lets z0 z1 z2
  refine keeps_cut (i := i) z0 ?_ (fun hz0 => ?_)
  on_goal 1 => unfold z0
  all_goals
    with_reducible repeat' (first
      | assumption | apply keeps_putStack | unfold z1 | refine keeps_ite ?_ ?_ | refine keeps_foldl ?_ (fun _ _ _ => ?_) | split | unfold z2
      | dsimp only | fail_if_no_progress (refine keeps_mk ?_ rfl rfl))

theorem keeps_hbmUndefined {a0} (h0 : Keeps i a0) : Keeps i (hbmUndefined a0) := by
  unfold hbmUndefined
  with_reducible repeat' (first
    | assumption | apply keeps_hbmLine | apply keeps_hbmPoison | apply keeps_hbmSectors | apply keeps_hbmZero | apply keeps_hbmUndef
    | apply keeps_hbmFilter | apply keeps_hbmPoisonSet | apply keeps_hbmEmpty | apply keeps_draw | refine of_snd (by assumption) ?_ | split | dsimp only)

theorem keeps_firstMap {a0} (h0 : Keeps i a0) : Keeps i (firstMap a0) := by
  unfold firstMap
  extract_lets z0 z1 z2
  with_reducible repeat' (first
    | assumption | unfold z1 | refine keeps_ite ?_ ?_ | split | unfold z0 | unfold z2 | dsimp only | fail_if_no_progress (refine keeps_mk ?_ rfl rfl))

theorem keeps_dropConfig {a0} (h0 : Keeps i a0) : Keeps i (dropConfig a0) := by
  unfold dropConfig
  extract_lets z0 z1 z2 z3
  refine keeps_cut (i := i) z2 ?_ (fun hz2 => keeps_cut (i := i) z3 ?_ (fun hz3 => ?_))
  on_goal 1 => unfold z2
  on_goal 2 => unfold z3
  all_goals
    with_reducible repeat' (first
      | assumption | apply keeps_putStack | apply keeps_hbmUndefined | apply keeps_firstMap | refine keeps_foldl ?_ (fun _ _ _ => ?_) | unfold z0
      | unfold z1 | dsimp only | fail_if_no_progress (refine keeps_mk ?_ rfl rfl))

theorem keeps_hardRepair {a0 a1} (h0 : Keeps i a0) : Keeps i (hardRepair a0 a1) := by
  unfold hardRepair
  extract_lets z0
  with_reducible repeat' (first
    | assumption | apply keeps_putStack | unfold z0 | dsimp only)

theorem keeps_execHbmInit {a0 a1 a2 a3 a4} (h4 : Keeps i a4) : KeepsRes i (execHbmInit a0 a1 a2 a3 a4) := by
  unfold execHbmInit
  extract_lets z0 z1 z2 z3 z4 z5 z6 z7 z8 z9 z10 z11 z12 z13 z14 z15 z16 z17
  refine keeps_cut (i := i) z0 ?_ (fun hz0 => keeps_cut (i := i) z1 ?_ (fun hz1 => keeps_cut (i := i) z10 ?_ (fun hz10 => keeps_cut (i := i) z11 ?_ (fun hz11 => keeps_cut (i := i) z13 ?_ (fun hz13 => keeps_cut (i := i) z14 ?_ (fun hz14 => keeps_cut (i := i) z15 ?_ (fun hz15 => keeps_cut (i := i) z17 ?_ (fun hz17 => ?_))))))))
  on_goal 1 => unfold z0
  on_goal 2 => unfold z1
  on_goal 3 => unfold z10
  on_goal 4 => unfold z11
  on_goal 5 => unfold z13
  on_goal 6 => unfold z14
  on_goal 7 => unfold z15
  on_goal 8 => unfold z17
  all_goals
    with_reducible repeat' (first
      | assumption | exact KeepsRes.fault | exact KeepsRes.refused | apply keeps_notDue | apply keeps_advance | apply keeps_ok
      | apply keeps_stageFatal | apply keeps_putStack | apply keeps_stacksOut | apply keeps_hardRepair | apply keeps_hbmUndefined
      | apply keeps_firstMap | apply keeps_dropConfig | apply keeps_putBring | apply keeps_stageEnd | refine res_ite ?_ ?_ | refine KeepsRes.next ?_
      | refine keeps_ite ?_ ?_ | refine keeps_foldl ?_ (fun _ _ _ => ?_) | refine of_next (by assumption) ?_ | split | unfold z2 | unfold z3
      | unfold z4 | unfold z5 | unfold z6 | unfold z7 | unfold z8 | unfold z9 | unfold z12 | unfold z16 | dsimp only
      | fail_if_no_progress (refine keeps_mk ?_ rfl rfl))

theorem keeps_testRow {a0 a1 a2 a3} (h0 : Keeps i a0) : Keeps i (testRow a0 a1 a2 a3).1 := by
  unfold testRow
  extract_lets z0 z1 z2 z3 z4
  refine keeps_cut (i := i) z0 ?_ (fun hz0 => keeps_cut (i := i) z2 ?_ (fun hz2 => keeps_cut (i := i) z3 ?_ (fun hz3 => keeps_cut (i := i) z4 ?_ (fun hz4 => ?_))))
  on_goal 1 => unfold z0
  on_goal 2 => unfold z2
  on_goal 3 => unfold z3
  on_goal 4 => unfold z4
  all_goals
    with_reducible repeat' (first
      | assumption | apply keeps_logEvent | apply keeps_putStack | apply keeps_regSetBits | apply keeps_setStatus | refine keeps_ite ?_ ?_ | split
      | unfold z1 | dsimp only)

theorem keeps_testRows {a0 a1} (h0 : Keeps i a0) : Keeps i (testRows a0 a1).1 := by
  unfold testRows
  with_reducible repeat' (first
    | assumption | apply keeps_testRow | refine keeps_ite ?_ ?_ | refine keeps_foldl ?_ (fun _ _ _ => ?_)
    | refine keeps_foldl_fst ?_ (fun _ _ _ _ => ?_) | refine of_fst (by assumption) ?_ | split | dsimp only)

theorem keeps_clearStacks {a0 a1} (h0 : Keeps i a0) : Keeps i (clearStacks a0 a1) := by
  unfold clearStacks
  extract_lets z0 z1
  with_reducible repeat' (first
    | assumption | apply keeps_hbmLine | apply keeps_hbmPoison | apply keeps_hbmSectors | apply keeps_hbmZero | apply keeps_hbmUndef
    | apply keeps_hbmFilter | apply keeps_hbmPoisonSet | apply keeps_hbmEmpty | unfold z0 | refine keeps_ite ?_ ?_ | split | unfold z1 | dsimp only)

theorem keeps_execMemtest {a0 a1 a2} (h2 : Keeps i a2) : KeepsRes i (execMemtest a0 a1 a2) := by
  unfold execMemtest
  with_reducible repeat' (first
    | assumption | exact KeepsRes.fault | exact KeepsRes.refused | apply keeps_hbmLine | apply keeps_hbmPoison | apply keeps_hbmSectors
    | apply keeps_hbmZero | apply keeps_hbmUndef | apply keeps_hbmFilter | apply keeps_hbmPoisonSet | apply keeps_hbmEmpty | apply keeps_testRows
    | apply keeps_advance | apply keeps_clearStacks | apply keeps_stacksOut | apply keeps_stageFatal | apply keeps_firstMap | apply keeps_dropConfig
    | apply keeps_putBring | apply keeps_stageEnd | refine keeps_ite ?_ ?_ | refine res_ite ?_ ?_ | refine KeepsRes.next ?_
    | refine of_fst (by assumption) ?_ | split | dsimp only)

theorem keeps_execEngines {a0 a1 a2} (h2 : Keeps i a2) : KeepsRes i (execEngines a0 a1 a2) := by
  unfold execEngines
  extract_lets z0 z1
  refine keeps_cut (i := i) z0 ?_ (fun hz0 => ?_)
  on_goal 1 => unfold z0
  all_goals
    with_reducible repeat' (first
      | assumption | exact KeepsRes.fault | exact KeepsRes.refused | apply keeps_remapColumn | apply keeps_engineOut | apply keeps_advance
      | apply keeps_okT | apply keeps_stageEnd | refine keeps_ite ?_ ?_ | refine opt_ite ?_ ?_ | refine KeepsOpt.some ?_
      | refine opt_foldl ?_ (fun _ _ _ => ?_) | refine res_ite ?_ ?_ | refine KeepsRes.next ?_ | refine keeps_foldl ?_ (fun _ _ _ => ?_)
      | refine of_some (by assumption) ?_ | split | unfold z1 | dsimp only)

theorem keeps_recordMap {a0} (h0 : Keeps i a0) : Keeps i (recordMap a0) := by
  unfold recordMap
  with_reducible repeat' (first
    | assumption | intro _ | apply keeps_modSite | apply keeps_putCus | refine keeps_ite ?_ ?_ | refine keeps_foldl ?_ (fun _ _ _ => ?_) | split
    | dsimp only)

theorem keeps_execSites {a0 a1} (h1 : Keeps i a1) : KeepsRes i (execSites a0 a1) := by
  unfold execSites
  extract_lets z0 z1 z2 z3 z4
  refine keeps_cut (i := i) z0 ?_ (fun hz0 => keeps_cut (i := i) z2 ?_ (fun hz2 => keeps_cut (i := i) z3 ?_ (fun hz3 => ?_)))
  on_goal 1 => unfold z0
  on_goal 2 => unfold z2
  on_goal 3 => unfold z3
  all_goals
    with_reducible repeat' (first
      | assumption | exact KeepsRes.fault | exact KeepsRes.refused | apply keeps_advance | apply keeps_putBring | apply keeps_recordMap
      | apply keeps_stageEnd | refine keeps_ite ?_ ?_ | refine res_ite ?_ ?_ | refine KeepsRes.next ?_ | split | unfold z1 | unfold z4 | dsimp only)

theorem keeps_execStart {a0} (h0 : Keeps i a0) : KeepsRes i (execStart a0) := by
  unfold execStart
  extract_lets z0
  with_reducible repeat' (first
    | assumption | exact KeepsRes.fault | exact KeepsRes.refused | apply keeps_notDue | apply keeps_ok | refine res_ite ?_ ?_
    | refine KeepsRes.next ?_ | refine keeps_ite ?_ ?_ | refine keeps_foldl ?_ (fun _ _ _ => ?_) | refine of_next (by assumption) ?_ | split
    | unfold z0 | dsimp only | fail_if_no_progress (refine keeps_mk ?_ rfl rfl))

theorem keeps_domainsZero {a0} (h0 : Keeps i a0) : Keeps i (domainsZero a0) := by
  unfold domainsZero
  extract_lets z0
  refine keeps_cut (i := i) z0 ?_ (fun hz0 => ?_)
  on_goal 1 => unfold z0
  all_goals
    with_reducible repeat' (first
      | assumption | apply keeps_layMembers | apply keeps_recordMap | apply keeps_setStatus | apply keeps_putDomain | refine keeps_ite ?_ ?_
      | refine keeps_foldl ?_ (fun _ _ _ => ?_) | split | dsimp only)

theorem keeps_setReady {a0} (h0 : Keeps i a0) : Keeps i (setReady a0) := by
  unfold setReady
  with_reducible repeat' (first
    | assumption | intro _ | apply keeps_setStatus | apply keeps_modFn | refine keeps_foldl ?_ (fun _ _ _ => ?_) | dsimp only)

theorem keeps_markZero {a0 a1 a2} (h0 : Keeps i a0) : Keeps i (markZero a0 a1 a2) := by
  unfold markZero
  extract_lets z0 z1 z2 z3 z4 z5 z6 z7 z8 z9 z10 z11 z12 z13
  refine keeps_cut (i := i) z1 ?_ (fun hz1 => keeps_cut (i := i) z2 ?_ (fun hz2 => keeps_cut (i := i) z3 ?_ (fun hz3 => keeps_cut (i := i) z5 ?_ (fun hz5 => keeps_cut (i := i) z6 ?_ (fun hz6 => keeps_cut (i := i) z8 ?_ (fun hz8 => keeps_cut (i := i) z9 ?_ (fun hz9 => keeps_cut (i := i) z11 ?_ (fun hz11 => keeps_cut (i := i) z12 ?_ (fun hz12 => keeps_cut (i := i) z13 ?_ (fun hz13 => ?_))))))))))
  on_goal 1 => unfold z1
  on_goal 2 => unfold z2
  on_goal 3 => unfold z3
  on_goal 4 => unfold z5
  on_goal 5 => unfold z6
  on_goal 6 => unfold z8
  on_goal 7 => unfold z9
  on_goal 8 => unfold z11
  on_goal 9 => unfold z12
  on_goal 10 => unfold z13
  all_goals
    with_reducible repeat' (first
      | assumption | apply keeps_pairMarkZero | apply keeps_domainsZero | apply keeps_applySets | apply keeps_armMisses | apply keeps_mirrorSnapshot
      | apply keeps_windowBegin | apply keeps_sendMarks | apply keeps_rewriteWaybill | apply keeps_applySteps | apply keeps_replan
      | apply keeps_wakeCores | apply keeps_putCus | apply keeps_modStage | apply keeps_putBring | apply keeps_logEvent | apply keeps_setReady
      | apply keeps_pumpHost | apply keeps_slotBoundary | apply keeps_setHealth | apply keeps_skewCheck | refine keeps_ite ?_ ?_
      | refine keeps_foldl ?_ (fun _ _ _ => ?_) | split | unfold z0 | unfold z4 | unfold z7 | unfold z10 | dsimp only
      | fail_if_no_progress (refine keeps_mk ?_ rfl rfl))

theorem keeps_execMarkZero {a0 a1 a2} (h2 : Keeps i a2) : KeepsRes i (execMarkZero a0 a1 a2) := by
  unfold execMarkZero
  with_reducible repeat' (first
    | assumption | exact KeepsRes.fault | exact KeepsRes.refused | apply keeps_okT | apply keeps_markZero | apply keeps_advance | refine keeps_ite ?_ ?_
    | refine res_ite ?_ ?_ | refine KeepsRes.next ?_ | split)

theorem keeps_execHpfBringupUpdate {a0 a1 a2} (h2 : Keeps i a2) : KeepsRes i (execHpfBringupUpdate a0 a1 a2) := by
  unfold execHpfBringupUpdate
  extract_lets z0
  with_reducible repeat' (first
    | assumption | exact KeepsRes.fault | exact KeepsRes.refused | apply keeps_putBring | refine keeps_ite ?_ ?_ | refine res_ite ?_ ?_
    | refine KeepsRes.next ?_ | split | unfold z0 | dsimp only)

/-! ### Sys2Proof.Machine.Pelxel -/

theorem keeps_refuse {a0 a1} (h0 : Keeps i a0) : Keeps i (refuse a0 a1).1 := by
  unfold refuse
  with_reducible repeat' (first
    | assumption | refine keeps_ite ?_ ?_ | refine keeps_foldl ?_ (fun _ _ _ => ?_) | split | dsimp only
    | fail_if_no_progress (refine keeps_mk ?_ rfl rfl))

theorem keeps_pxlRead {a0 a1 a2 a3} (h0 : Keeps i a0) : Keeps i (pxlRead a0 a1 a2 a3).1 := by
  unfold pxlRead
  extract_lets z0 z1 z2 z3 z4 z5
  with_reducible repeat' (first
    | assumption | apply keeps_refuse | refine keeps_ite ?_ ?_ | refine keeps_foldl ?_ (fun _ _ _ => ?_) | refine of_fst (by assumption) ?_ | split
    | unfold z0 | unfold z1 | unfold z2 | unfold z3 | unfold z4 | unfold z5 | dsimp only | fail_if_no_progress (refine keeps_mk ?_ rfl rfl))

theorem keeps_pxlInfo {a0 a1 a2} (h0 : Keeps i a0) : Keeps i (pxlInfo a0 a1 a2).1 := by
  unfold pxlInfo
  extract_lets z0 z1 z2
  with_reducible repeat' (first
    | assumption | apply keeps_refuse | refine keeps_ite ?_ ?_ | refine keeps_foldl ?_ (fun _ _ _ => ?_) | refine of_fst (by assumption) ?_ | split
    | unfold z0 | unfold z1 | unfold z2 | dsimp only | fail_if_no_progress (refine keeps_mk ?_ rfl rfl))

theorem keeps_commitSet {a0 a1 a2} (h0 : Keeps i a0) : KeepsOpt i (commitSet a0 a1 a2) := by
  unfold commitSet
  extract_lets z0 z1 z2
  refine keeps_cut (i := i) z1 ?_ (fun hz1 => ?_)
  on_goal 1 => unfold z1
  all_goals
    with_reducible repeat' (first
      | assumption | exact KeepsOpt.none | apply keeps_putAcc | refine keeps_ite ?_ ?_ | refine opt_ite ?_ ?_ | refine KeepsOpt.some ?_ | split
      | unfold z0 | unfold z2 | dsimp only | fail_if_no_progress (refine keeps_mk ?_ rfl rfl))

theorem keeps_discardSet {a0 a1 a2} (h0 : Keeps i a0) : Keeps i (discardSet a0 a1 a2) := by
  unfold discardSet
  extract_lets z0
  with_reducible repeat' (first
    | assumption | apply keeps_putAcc | unfold z0 | dsimp only)

theorem keeps_execActionCommit {a0 a1} (h1 : Keeps i a1) : KeepsRes i (execActionCommit a0 a1) := by
  unfold execActionCommit
  with_reducible repeat' (first
    | assumption | exact KeepsRes.fault | exact KeepsRes.refused | apply keeps_commitSet | refine KeepsRes.next ?_ | refine keeps_getD ?_ ?_
    | dsimp only)

theorem keeps_execActionDiscard {a0 a1} (h1 : Keeps i a1) : KeepsRes i (execActionDiscard a0 a1) := by
  unfold execActionDiscard
  with_reducible repeat' (first
    | assumption | exact KeepsRes.fault | exact KeepsRes.refused | apply keeps_discardSet | refine KeepsRes.next ?_)

theorem keeps_pxlCommit {a0 a1 a2} (h0 : Keeps i a0) : Keeps i (pxlCommit a0 a1 a2).1 := by
  unfold pxlCommit
  extract_lets z0
  with_reducible repeat' (first
    | assumption | apply keeps_refuse | apply keeps_commitSet | apply keeps_discardSet | refine keeps_ite ?_ ?_
    | refine keeps_foldl ?_ (fun _ _ _ => ?_) | refine of_fst (by assumption) ?_ | refine of_some (by assumption) ?_ | refine keeps_getD ?_ ?_ | split
    | unfold z0 | dsimp only | fail_if_no_progress (refine keeps_mk ?_ rfl rfl))

theorem keeps_hostEnable {a0 a1} (h0 : Keeps i a0) : Keeps i (hostEnable a0 a1) := by
  unfold hostEnable
  extract_lets z0
  with_reducible repeat' (first
    | assumption | apply keeps_putColl | refine keeps_ite ?_ ?_ | split | unfold z0 | dsimp only)

theorem keeps_execHostEnableWrite {a0 a1} (h1 : Keeps i a1) : KeepsRes i (execHostEnableWrite a0 a1) := by
  unfold execHostEnableWrite
  with_reducible repeat' (first
    | assumption | exact KeepsRes.fault | exact KeepsRes.refused | apply keeps_hostEnable | refine KeepsRes.next ?_)

theorem keeps_clearDrops {a0} (h0 : Keeps i a0) : Keeps i (clearDrops a0) := by
  unfold clearDrops
  extract_lets z0
  with_reducible repeat' (first
    | assumption | apply keeps_putColl | unfold z0 | dsimp only)

theorem keeps_execLogDropsClear {a0} (h0 : Keeps i a0) : KeepsRes i (execLogDropsClear a0) := by
  unfold execLogDropsClear
  with_reducible repeat' (first
    | assumption | exact KeepsRes.fault | exact KeepsRes.refused | apply keeps_clearDrops | refine KeepsRes.next ?_)

theorem keeps_clearBox {a0} (h0 : Keeps i a0) : Keeps i (clearBox a0) := by
  unfold clearBox
  extract_lets z0
  with_reducible repeat' (first
    | assumption | apply keeps_putColl | unfold z0 | dsimp only)

theorem keeps_execBlackBoxClear {a0} (h0 : Keeps i a0) : KeepsRes i (execBlackBoxClear a0) := by
  unfold execBlackBoxClear
  with_reducible repeat' (first
    | assumption | exact KeepsRes.fault | exact KeepsRes.refused | apply keeps_clearBox | refine KeepsRes.next ?_)

theorem keeps_clearLosses {a0} (h0 : Keeps i a0) : Keeps i (clearLosses a0) := by
  unfold clearLosses
  extract_lets z0
  with_reducible repeat' (first
    | assumption | unfold z0 | dsimp only | fail_if_no_progress (refine keeps_mk ?_ rfl rfl))

theorem keeps_execScrubLossClear {a0} (h0 : Keeps i a0) : KeepsRes i (execScrubLossClear a0) := by
  unfold execScrubLossClear
  with_reducible repeat' (first
    | assumption | exact KeepsRes.fault | exact KeepsRes.refused | apply keeps_clearLosses | refine KeepsRes.next ?_)

theorem keeps_objReset {a0 a1} (h0 : Keeps i a0) : Keeps i (objReset a0 a1) := by
  unfold objReset
  with_reducible repeat' (first
    | assumption | apply keeps_partitionReset | refine keeps_ite ?_ ?_ | split)

theorem keeps_writeLogControl {a0 a1 a2} (h0 : Keeps i a0) : Keeps i (writeLogControl a0 a1 a2).1 := by
  unfold writeLogControl
  extract_lets z0
  with_reducible repeat' (first
    | assumption | apply keeps_hostEnable | apply keeps_putColl | refine keeps_ite ?_ ?_ | split | unfold z0 | dsimp only)

theorem keeps_writeAtOnce {a0 a1 a2 a3 a4} (h0 : Keeps i a0) : Keeps i (writeAtOnce a0 a1 a2 a3 a4).1 := by
  unfold writeAtOnce
  extract_lets z0 z1 z2 z3
  with_reducible repeat' (first
    | assumption | apply keeps_discardSet | apply keeps_commitSet | apply keeps_putAcc | apply keeps_writeLogControl | apply keeps_clearDrops
    | apply keeps_clearBox | apply keeps_clearLosses | apply keeps_pairRequest | apply keeps_submitToken | apply keeps_enrol | apply keeps_svnAdvance
    | apply keeps_flashStart | apply keeps_putCus | apply keeps_warmReset | apply keeps_domainDown | apply keeps_domainResetBegin | apply keeps_objReset
    | apply keeps_keepVal | unfold z1 | refine keeps_ite ?_ ?_ | refine opt_ite ?_ ?_ | refine KeepsOpt.some ?_ | refine of_some (by assumption) ?_
    | refine of_fst (by assumption) ?_ | split | unfold z0 | unfold z2 | unfold z3 | dsimp only | fail_if_no_progress (refine keeps_mk ?_ rfl rfl))

theorem keeps_writeValue {a0 a1 a2 a3 a4 a5} (h0 : Keeps i a0) : Keeps i (writeValue a0 a1 a2 a3 a4 a5).1 := by
  unfold writeValue
  with_reducible repeat' (first
    | assumption | apply keeps_stagePut | apply keeps_refuse | apply keeps_putAcc | apply keeps_writeAtOnce | refine keeps_ite ?_ ?_
    | refine keeps_foldl ?_ (fun _ _ _ => ?_) | refine of_some (by assumption) ?_ | refine keeps_getD ?_ ?_ | refine of_fst (by assumption) ?_ | split
    | dsimp only | fail_if_no_progress (refine keeps_mk ?_ rfl rfl))

theorem keeps_pxlWrite {a0 a1 a2 a3} (h0 : Keeps i a0) : Keeps i (pxlWrite a0 a1 a2 a3).1 := by
  unfold pxlWrite
  extract_lets z0 z1 z2 z3 z4
  with_reducible repeat' (first
    | assumption | apply keeps_refuse | apply keeps_writeValue | refine keeps_ite ?_ ?_ | refine keeps_foldl ?_ (fun _ _ _ => ?_)
    | refine of_fst (by assumption) ?_ | split | unfold z0 | unfold z1 | unfold z2 | unfold z3 | unfold z4 | dsimp only
    | fail_if_no_progress (refine keeps_mk ?_ rfl rfl))

theorem keeps_pxlEventGet {a0 a1 a2} (h0 : Keeps i a0) : Keeps i (pxlEventGet a0 a1 a2).1 := by
  unfold pxlEventGet
  extract_lets z0
  with_reducible repeat' (first
    | assumption | apply keeps_refuse | apply keeps_putColl | refine keeps_ite ?_ ?_ | refine keeps_foldl ?_ (fun _ _ _ => ?_)
    | refine of_fst (by assumption) ?_ | split | unfold z0 | dsimp only | fail_if_no_progress (refine keeps_mk ?_ rfl rfl))

theorem keeps_pxlRegRead {a0 a1 a2} (h0 : Keeps i a0) : Keeps i (pxlRegRead a0 a1 a2).1 := by
  unfold pxlRegRead
  with_reducible repeat' (first
    | assumption | apply keeps_refuse | apply keeps_readReg | refine keeps_ite ?_ ?_ | refine keeps_foldl ?_ (fun _ _ _ => ?_)
    | refine of_fst (by assumption) ?_ | refine of_snd (by assumption) ?_ | split | dsimp only | fail_if_no_progress (refine keeps_mk ?_ rfl rfl))

theorem keeps_pxlRegWrite {a0 a1 a2} (h0 : Keeps i a0) : Keeps i (pxlRegWrite a0 a1 a2).1 := by
  unfold pxlRegWrite
  with_reducible repeat' (first
    | assumption | apply keeps_refuse | apply keeps_writeBlockReg | refine keeps_ite ?_ ?_ | refine keeps_foldl ?_ (fun _ _ _ => ?_)
    | refine of_fst (by assumption) ?_ | refine of_some (by assumption) ?_ | refine keeps_getD ?_ ?_ | split | dsimp only
    | fail_if_no_progress (refine keeps_mk ?_ rfl rfl))

theorem keeps_pelxel {a0 a1 a2 a3 a4 a5 a6} (h0 : Keeps i a0) : Keeps i (pelxel a0 a1 a2 a3 a4 a5 a6).1 := by
  unfold pelxel
  with_reducible repeat' (first
    | assumption | apply keeps_refuse | apply keeps_pxlRead | apply keeps_pxlWrite | apply keeps_pxlCommit | apply keeps_pxlInfo
    | apply keeps_pxlEventGet | apply keeps_pxlRegRead | apply keeps_pxlRegWrite | refine keeps_ite ?_ ?_ | refine keeps_foldl ?_ (fun _ _ _ => ?_)
    | refine of_fst (by assumption) ?_ | split | dsimp only | fail_if_no_progress (refine keeps_mk ?_ rfl rfl))

theorem keeps_putRequests {a0 a1 a2} (h0 : Keeps i a0) : Keeps i (putRequests a0 a1 a2) := by
  unfold putRequests
  extract_lets z0
  with_reducible repeat' (first
    | assumption | refine keeps_ite ?_ ?_ | split | unfold z0 | dsimp only | fail_if_no_progress (refine keeps_mk ?_ rfl rfl))

theorem keeps_pxlAnswer {a0 a1 a2} {r : Reply} (h : Keeps i r.1) : Keeps i (pxlAnswer a0 a1 a2 r) := by
  unfold pxlAnswer
  exact keeps_emit h

theorem keeps_answerUnknown {a0 a1 a2} (h0 : Keeps i a0) : Keeps i (answerUnknown a0 a1 a2) := by
  induction a2 generalizing a0 with
  | zero => exact h0
  | succ n ih =>
    unfold answerUnknown
    split
    · split
      · exact h0
      · exact ih (keeps_pxlAnswer (keeps_pelxel (keeps_putRequests h0)))
    · exact h0

theorem keeps_execMctpMessage {a0 a1 a2 a3} (h3 : Keeps i a3) : KeepsRes i (execMctpMessage a0 a1 a2 a3) := by
  unfold execMctpMessage
  extract_lets z0 z1 z2 z3 z4 z5 z6 z7
  refine keeps_cut (i := i) z5 ?_ (fun hz5 => ?_)
  on_goal 1 => unfold z5
  all_goals
    with_reducible repeat' (first
      | assumption | exact KeepsRes.fault | exact KeepsRes.refused | apply keeps_putColl | apply keeps_emit | apply keeps_okT
      | apply keeps_answerUnknown | apply keeps_putRequests | unfold z1 | refine keeps_ite ?_ ?_ | refine res_ite ?_ ?_ | refine KeepsRes.next ?_
      | split | unfold z0 | unfold z2 | unfold z3 | unfold z4 | unfold z6 | unfold z7 | dsimp only)

theorem keeps_runRequest {a0 a1 a2 a3 a4 a5} (h5 : Keeps i a5) : KeepsRes i (runRequest a0 a1 a2 a3 a4 a5) := by
  unfold runRequest
  with_reducible repeat' (first
    | assumption | exact KeepsRes.fault | exact KeepsRes.refused | apply keeps_illFormed | apply keeps_notDue | apply keeps_okT | apply keeps_answerUnknown
    | apply keeps_pxlAnswer | apply keeps_pelxel | apply keeps_putRequests | refine res_ite ?_ ?_ | split | dsimp only)

theorem keeps_execRead {a0 a1 a2 a3 a4} (h4 : Keeps i a4) : KeepsRes i (execRead a0 a1 a2 a3 a4) := by
  unfold execRead
  with_reducible repeat' (first
    | assumption | exact KeepsRes.fault | exact KeepsRes.refused | apply keeps_runRequest | refine KeepsRes.next ?_)

theorem keeps_execWrite {a0 a1 a2 a3 a4} (h4 : Keeps i a4) : KeepsRes i (execWrite a0 a1 a2 a3 a4) := by
  unfold execWrite
  with_reducible repeat' (first
    | assumption | exact KeepsRes.fault | exact KeepsRes.refused | apply keeps_runRequest | refine KeepsRes.next ?_)

theorem keeps_execCommit {a0 a1 a2 a3 a4} (h4 : Keeps i a4) : KeepsRes i (execCommit a0 a1 a2 a3 a4) := by
  unfold execCommit
  with_reducible repeat' (first
    | assumption | exact KeepsRes.fault | exact KeepsRes.refused | apply keeps_runRequest | refine KeepsRes.next ?_)

theorem keeps_execInfo {a0 a1 a2 a3 a4} (h4 : Keeps i a4) : KeepsRes i (execInfo a0 a1 a2 a3 a4) := by
  unfold execInfo
  with_reducible repeat' (first
    | assumption | exact KeepsRes.fault | exact KeepsRes.refused | apply keeps_runRequest | refine KeepsRes.next ?_)

theorem keeps_execEventGet {a0 a1 a2 a3 a4} (h4 : Keeps i a4) : KeepsRes i (execEventGet a0 a1 a2 a3 a4) := by
  unfold execEventGet
  with_reducible repeat' (first
    | assumption | exact KeepsRes.fault | exact KeepsRes.refused | apply keeps_runRequest | refine KeepsRes.next ?_)

theorem keeps_execRegRead {a0 a1 a2 a3 a4} (h4 : Keeps i a4) : KeepsRes i (execRegRead a0 a1 a2 a3 a4) := by
  unfold execRegRead
  with_reducible repeat' (first
    | assumption | exact KeepsRes.fault | exact KeepsRes.refused | apply keeps_runRequest | refine KeepsRes.next ?_)

theorem keeps_execRegWrite {a0 a1 a2 a3 a4} (h4 : Keeps i a4) : KeepsRes i (execRegWrite a0 a1 a2 a3 a4) := by
  unfold execRegWrite
  with_reducible repeat' (first
    | assumption | exact KeepsRes.fault | exact KeepsRes.refused | apply keeps_runRequest | refine KeepsRes.next ?_)

theorem keeps_mailboxEnd {a0 a1 a2} (h0 : Keeps i a0) : Keeps i (mailboxEnd a0 a1 a2) := by
  unfold mailboxEnd
  extract_lets z0 z1
  refine keeps_cut (i := i) z0 ?_ (fun hz0 => keeps_cut (i := i) z1 ?_ (fun hz1 => ?_))
  on_goal 1 => unfold z0
  on_goal 2 => unfold z1
  all_goals
    with_reducible repeat' (first
      | assumption | intro _ | apply keeps_modFn | apply keeps_regSetBits | apply keeps_raiseVector | refine keeps_foldl ?_ (fun _ _ _ => ?_)
      | dsimp only)

theorem keeps_mailboxGo {a0 a1} (h0 : Keeps i a0) : Keeps i (mailboxGo a0 a1) := by
  unfold mailboxGo
  extract_lets z0 z1 z2 z3 z4 z5 z6 z7
  with_reducible repeat' (first
    | assumption | apply keeps_mailboxEnd | apply keeps_pelxel | unfold z7 | refine keeps_ite ?_ ?_ | split | unfold z6 | dsimp only)

theorem keeps_execMailboxGo {a0 a1} (h1 : Keeps i a1) : KeepsRes i (execMailboxGo a0 a1) := by
  unfold execMailboxGo
  with_reducible repeat' (first
    | assumption | exact KeepsRes.fault | exact KeepsRes.refused | apply keeps_okT | apply keeps_mailboxGo | refine keeps_ite ?_ ?_
    | refine res_ite ?_ ?_ | refine KeepsRes.next ?_ | split)

/-! ### Sys2Proof.Machine.Bar0 -/

theorem keeps_bar0Read {a0 a1 a2 a3 a4} (h0 : Keeps i a0) : Keeps i (bar0Read a0 a1 a2 a3 a4).2 := by
  unfold bar0Read
  extract_lets z0
  with_reducible repeat' (first
    | assumption | apply keeps_readAperture | apply keeps_clearRc | refine keeps_ite ?_ ?_ | refine keeps_foldl ?_ (fun _ _ _ => ?_)
    | refine keeps_foldl_snd ?_ (fun _ _ _ _ => ?_) | split | unfold z0 | dsimp only)

theorem keeps_after {a0 a1} (h0 : Keeps i a0) (h1 : KeepsRes i a1) : Keeps i (after a0 a1) := by
  cases h1 with
  | next h => exact h
  | fault => exact h0
  | refused => exact h0

theorem keeps_fnCommand {a0 a1 a2} (h0 : Keeps i a0) : Keeps i (fnCommand a0 a1 a2) := by
  unfold fnCommand
  with_reducible repeat' (first
    | assumption | intro _ | apply keeps_after | apply keeps_execCtxCreate | apply keeps_execCtxTeardown | apply keeps_execQueueBind
    | apply keeps_execQueueUnbind | apply keeps_execSlotConfig | apply keeps_execSlotFree | apply keeps_execAbort | apply keeps_execCtxQuery
    | apply keeps_execPartQuery | apply keeps_execPartReset | apply keeps_startCmd | apply keeps_cmdEnd | refine KeepsRes.next ?_
    | refine of_next (by assumption) ?_ | split | dsimp only)

theorem keeps_writeHpf {a0 a1 a2} (h0 : Keeps i a0) : Keeps i (writeHpf a0 a1 a2) := by
  unfold writeHpf
  extract_lets z0 z1 z2
  with_reducible repeat' (first
    | assumption | apply keeps_writeFields | apply keeps_post | apply keeps_after | apply keeps_execAdopt | apply keeps_execAttachDiscard
    | apply keeps_execTcInv | apply keeps_fnCommand | apply keeps_mailboxGo | apply keeps_enableWritten | unfold z1 | unfold z2 | refine keeps_ite ?_ ?_
    | refine opt_ite ?_ ?_ | refine KeepsOpt.some ?_ | refine res_ite ?_ ?_ | refine KeepsRes.next ?_ | refine keeps_getD ?_ ?_
    | refine of_some (by assumption) ?_ | refine of_next (by assumption) ?_ | split | unfold z0 | dsimp only)

theorem keeps_writeMsix {a0 a1 a2 a3} (h0 : Keeps i a0) : Keeps i (writeMsix a0 a1 a2 a3) := by
  unfold writeMsix
  extract_lets z0
  with_reducible repeat' (first
    | assumption | intro _ | apply keeps_sendPending | apply keeps_modFn | unfold z0 | refine keeps_foldl ?_ (fun _ _ _ => ?_) | dsimp only)

theorem keeps_writeMbx {a0 a1 a2 a3} (h0 : Keeps i a0) : Keeps i (writeMbx a0 a1 a2 a3) := by
  unfold writeMbx
  extract_lets z0
  with_reducible repeat' (first
    | assumption | intro _ | apply keeps_modFn | refine keeps_foldl ?_ (fun _ _ _ => ?_) | unfold z0 | dsimp only)

theorem keeps_bar0Write {a0 a1 a2 a3 a4} (h0 : Keeps i a0) : Keeps i (bar0Write a0 a1 a2 a3 a4) := by
  unfold bar0Write
  extract_lets z0
  with_reducible repeat' (first
    | assumption | apply keeps_writeAperture | apply keeps_writeMsix | apply keeps_writeMbx | apply keeps_post | apply keeps_writeHpf | unfold z0
    | refine keeps_ite ?_ ?_ | refine keeps_foldl ?_ (fun _ _ _ => ?_) | split | dsimp only)

theorem keeps_execRcRead {a0 a1 a2} (h2 : Keeps i a2) : KeepsRes i (execRcRead a0 a1 a2) := by
  unfold execRcRead
  with_reducible repeat' (first
    | assumption | exact KeepsRes.fault | exact KeepsRes.refused | apply keeps_emit | apply keeps_bar0Read | apply keeps_okT | refine keeps_ite ?_ ?_
    | refine res_ite ?_ ?_ | refine KeepsRes.next ?_ | refine of_snd (by assumption) ?_ | split | dsimp only)

theorem keeps_execRegisterWrite {a0 a1 a2} (h2 : Keeps i a2) : KeepsRes i (execRegisterWrite a0 a1 a2) := by
  unfold execRegisterWrite
  with_reducible repeat' (first
    | assumption | intro _ | exact KeepsRes.fault | exact KeepsRes.refused | apply keeps_okT | apply keeps_bar0Write | apply keeps_modFn
    | apply keeps_sendPending | apply keeps_pumpHost | refine keeps_ite ?_ ?_ | refine res_ite ?_ ?_ | refine KeepsRes.next ?_ | split | dsimp only)

theorem keeps_ioRequest {a0 a1 a2 a3 a4 a5 a6} (h5 : ∀ x0 x1 x2, Keeps i x0 → KeepsRes i (a5 x0 x1 x2)) (h6 : Keeps i a6) :
    KeepsRes i (ioRequest a0 a1 a2 a3 a4 a5 a6) := by
  unfold ioRequest
  extract_lets z0 z1 z2
  refine keeps_cut (i := i) z1 ?_ (fun hz1 => ?_)
  on_goal 1 => unfold z1
  all_goals
    with_reducible repeat' (first
      | assumption | apply keeps_received | apply keeps_illFormed | apply keeps_notDue | apply keeps_ok | apply keeps_okT | apply keeps_refuseMalformed
      | apply keeps_refuseAddress | apply keeps_takeRequest | apply h5 | refine res_ite ?_ ?_ | refine of_fst (by assumption) (keeps_gateCls ?_)
      | exact keeps_mk hz1 rfl rfl | split | dsimp only)

theorem keeps_execIoRd {a0 a1 a2 a3} (h3 : Keeps i a3) : KeepsRes i (execIoRd a0 a1 a2 a3) := by
  unfold execIoRd
  with_reducible repeat' (first
    | assumption | intro _ | exact KeepsRes.fault | exact KeepsRes.refused | apply keeps_ioRequest | apply keeps_okT | apply keeps_sendReply
    | apply keeps_bar0Read | apply keeps_readAperture | refine KeepsRes.next ?_ | refine of_snd (by assumption) ?_ | split | dsimp only)

theorem keeps_execIoWr {a0 a1 a2 a3 a4} (h4 : Keeps i a4) : KeepsRes i (execIoWr a0 a1 a2 a3 a4) := by
  unfold execIoWr
  with_reducible repeat' (first
    | assumption | intro _ | exact KeepsRes.fault | exact KeepsRes.refused | apply keeps_ioRequest | apply keeps_returnCredit | apply keeps_okT
    | apply keeps_sendReply | apply keeps_bar0Write | apply keeps_writeAperture | refine keeps_ite ?_ ?_ | refine res_ite ?_ ?_
    | refine KeepsRes.next ?_ | split | dsimp only)

end Sys2Proof.Machine
end

