-- ==== Sys2Proof/Laws/KeepExec.lean ====
section
/-! SUPPORT. Every command keeps what `Keep.lean` calls kept, whichever arm of `exec` it takes. -/

namespace Sys2Proof.Machine
variable {i : Held} {s : State}

/-- A command takes none from the queue and puts none there, and keeps HBM and the cores in their canonical forms. -/
theorem keeps_exec (c : Instr) (h : Keeps i s) : KeepsRes i (exec c s) := by
  cases c with
  | supplyGood => exact keeps_execSupplyGood h
  | powerOnResetRelease => exact keeps_execPowerOnResetRelease h
  | supplyOutOfBand => exact keeps_execSupplyOutOfBand h
  | perstAssert => exact keeps_execPerstAssert h
  | perstDeassert => exact keeps_execPerstDeassert h
  | hotReset => exact keeps_execHotReset h
  | flr => exact keeps_execFlr h
  | flrComplete => exact keeps_execFlrComplete h
  | d3hotEntry => exact keeps_execD3hotEntry h
  | armSend => exact keeps_execArmSend h
  | armReceive => exact keeps_execArmReceive h
  | stageMark => exact keeps_execStageMark h
  | stepCancelDone => exact keeps_execStepCancelDone h
  | granuleZeroingDone => exact keeps_execGranuleZeroingDone h
  | waySweepDone => exact keeps_execWaySweepDone h
  | tollWindow => exact keeps_execTollWindow h
  | deadlineExpiry => exact keeps_execDeadlineExpiry h
  | descriptorFetch => exact keeps_execDescriptorFetch h
  | planeLoadDone => exact keeps_execPlaneLoadDone h
  | descriptorEnd => exact keeps_execDescriptorEnd h
  | guardCheckDone => exact keeps_execGuardCheckDone h
  | ladderRerunDone => exact keeps_execLadderRerunDone h
  | engineStepCommit => exact keeps_execEngineStepCommit h
  | mecDrain => exact keeps_execMecDrain h
  | mecEnable => exact keeps_execMecEnable h
  | add => exact keeps_execAdd h
  | sub => exact keeps_execSub h
  | andC => exact keeps_execAndC h
  | orC => exact keeps_execOrC h
  | xorC => exact keeps_execXorC h
  | sll => exact keeps_execSll h
  | srl => exact keeps_execSrl h
  | sra => exact keeps_execSra h
  | slt => exact keeps_execSlt h
  | sltu => exact keeps_execSltu h
  | mul => exact keeps_execMul h
  | mulhs => exact keeps_execMulhs h
  | mulhu => exact keeps_execMulhu h
  | divs => exact keeps_execDivs h
  | divu => exact keeps_execDivu h
  | rems => exact keeps_execRems h
  | remu => exact keeps_execRemu h
  | clz => exact keeps_execClz h
  | popc => exact keeps_execPopc h
  | min => exact keeps_execMin h
  | max => exact keeps_execMax h
  | addi => exact keeps_execAddi h
  | andi => exact keeps_execAndi h
  | ori => exact keeps_execOri h
  | xori => exact keeps_execXori h
  | shi => exact keeps_execShi h
  | slti => exact keeps_execSlti h
  | ldhi => exact keeps_execLdhi h
  | pcadd => exact keeps_execPcadd h
  | ld8u => exact keeps_execLd8u h
  | ld16u => exact keeps_execLd16u h
  | ld32u => exact keeps_execLd32u h
  | ld64 => exact keeps_execLd64 h
  | ld8s => exact keeps_execLd8s h
  | ld16s => exact keeps_execLd16s h
  | ld32s => exact keeps_execLd32s h
  | st8 => exact keeps_execSt8 h
  | st16 => exact keeps_execSt16 h
  | st32 => exact keeps_execSt32 h
  | st64 => exact keeps_execSt64 h
  | vld => exact keeps_execVld h
  | vst => exact keeps_execVst h
  | beq => exact keeps_execBeq h
  | bne => exact keeps_execBne h
  | blt => exact keeps_execBlt h
  | bge => exact keeps_execBge h
  | bltu => exact keeps_execBltu h
  | bgeu => exact keeps_execBgeu h
  | jlk => exact keeps_execJlk h
  | jlkr => exact keeps_execJlkr h
  | rcall => exact keeps_execRcall h
  | tret => exact keeps_execTret h
  | sleep => exact keeps_execSleep h
  | stepDone => exact keeps_execStepDone h
  | iclr => exact keeps_execIclr h
  | dbgstop => exact keeps_execDbgstop h
  | ccrr => exact keeps_execCcrr h
  | ccrw => exact keeps_execCcrw h
  | vadd32 => exact keeps_execVadd32 h
  | vsub32 => exact keeps_execVsub32 h
  | vmul32 => exact keeps_execVmul32 h
  | fadd => exact keeps_execFadd h
  | fsub => exact keeps_execFsub h
  | fmul => exact keeps_execFmul h
  | fma => exact keeps_execFma h
  | fmin => exact keeps_execFmin h
  | fmax => exact keeps_execFmax h
  | vand => exact keeps_execVand h
  | vor => exact keeps_execVor h
  | vxor => exact keeps_execVxor h
  | vins => exact keeps_execVins h
  | vext => exact keeps_execVext h
  | vsplat => exact keeps_execVsplat h
  | cvtI2f => exact keeps_execCvtI2f h
  | cvtF2i => exact keeps_execCvtF2i h
  | ndot => exact keeps_execNdot h
  | ncvt => exact keeps_execNcvt h
  | nexp => exact keeps_execNexp h
  | bmove => exact keeps_execBmove h
  | tallyRead => exact keeps_execTallyRead h
  | tallyAdd => exact keeps_execTallyAdd h
  | tallyWaitGe => exact keeps_execTallyWaitGe h
  | tallyWaitRelease => exact keeps_execTallyWaitRelease h
  | flush => exact keeps_execFlush h
  | acq => exact keeps_execAcq h
  | cmaIssue => exact keeps_execCmaIssue h
  | cmaWait => exact keeps_execCmaWait h
  | cmaWaitRelease => exact keeps_execCmaWaitRelease h
  | cmaPoll => exact keeps_execCmaPoll h
  | cmaCommandDone => exact keeps_execCmaCommandDone h
  | takeInterrupt => exact keeps_execTakeInterrupt h
  | timerExpiry => exact keeps_execTimerExpiry h
  | l0FillReturn => exact keeps_execL0FillReturn h
  | writeAccepted => exact keeps_execWriteAccepted h
  | softRaise => exact keeps_execSoftRaise h
  | coreFault => exact keeps_execCoreFault h
  | waveRelease => exact keeps_execWaveRelease h
  | homeRead => exact keeps_execHomeRead h
  | homeWrite => exact keeps_execHomeWrite h
  | lineUnbusy => exact keeps_execLineUnbusy h
  | missFillReturn => exact keeps_execMissFillReturn h
  | writebackBufferFree => exact keeps_execWritebackBufferFree h
  | baleFillDone => exact keeps_execBaleFillDone h
  | baleWritebackDone => exact keeps_execBaleWritebackDone h
  | baleMoveDone => exact keeps_execBaleMoveDone h
  | prefetch => exact keeps_execPrefetch h
  | writeback => exact keeps_execWriteback h
  | tierEvict => exact keeps_execTierEvict h
  | tierDiscard => exact keeps_execTierDiscard h
  | moveC => exact keeps_execMoveC h
  | initC => exact keeps_execInitC h
  | advise => exact keeps_execAdvise h
  | donate => exact keeps_execDonate h
  | tierStepCommit => exact keeps_execTierStepCommit h
  | clean => exact keeps_execClean h
  | inv => exact keeps_execInv h
  | cleanInv => exact keeps_execCleanInv h
  | preloadLock => exact keeps_execPreloadLock h
  | unlock => exact keeps_execUnlock h
  | maintDone => exact keeps_execMaintDone h
  | seraiRowFail => exact keeps_execSeraiRowFail h
  | hbmRequest => exact keeps_execHbmRequest h
  | hbmReadIssue => exact keeps_execHbmReadIssue h
  | hbmModeSwitch => exact keeps_execHbmModeSwitch h
  | hbmReadData => exact keeps_execHbmReadData h
  | hbmRefresh => exact keeps_execHbmRefresh h
  | patrolScrubRead => exact keeps_execPatrolScrubRead h
  | rowRepair => exact keeps_execRowRepair h
  | rowRepairDone => exact keeps_execRowRepairDone h
  | rdCur => exact keeps_execRdCur h
  | rdShared => exact keeps_execRdShared h
  | rdOwn => exact keeps_execRdOwn h
  | upgrade => exact keeps_execUpgrade h
  | wbDirty => exact keeps_execWbDirty h
  | evict => exact keeps_execEvict h
  | wrFull => exact keeps_execWrFull h
  | wrPart => exact keeps_execWrPart h
  | rspI => exact keeps_execRspI h
  | rspS => exact keeps_execRspS h
  | rspIData => exact keeps_execRspIData h
  | rspSData => exact keeps_execRspSData h
  | rspFwd => exact keeps_execRspFwd h
  | rspFwdData => exact keeps_execRspFwdData h
  | rspFwdMiss => exact keeps_execRspFwdMiss h
  | fwdAck => exact keeps_execFwdAck h
  | holdExpiry => exact keeps_execHoldExpiry h
  | snoopTimeout => exact keeps_execSnoopTimeout h
  | linkGraceExpiry => exact keeps_execLinkGraceExpiry h
  | domainDownCommand => exact keeps_execDomainDownCommand h
  | domainSweepDone => exact keeps_execDomainSweepDone h
  | domainReset => exact keeps_execDomainReset h
  | domainResetCompare => exact keeps_execDomainResetCompare h
  | pull => exact keeps_execPull h
  | packetError => exact keeps_execPacketError h
  | responseTimeout => exact keeps_execResponseTimeout h
  | nocHistSelWrite => exact keeps_execNocHistSelWrite h
  | siteReset => exact keeps_execSiteReset h
  | moduleTrainingDone => exact keeps_execModuleTrainingDone h
  | descriptor => exact keeps_execDescriptor h
  | identifyTimeout => exact keeps_execIdentifyTimeout h
  | moduleRetrain => exact keeps_execModuleRetrain h
  | moduleLinkDown => exact keeps_execModuleLinkDown h
  | ioRd => exact keeps_execIoRd h
  | ioWr => exact keeps_execIoWr h
  | baleRd => exact keeps_execBaleRd h
  | baleWr => exact keeps_execBaleWr h
  | baleData => exact keeps_execBaleData h
  | baleTimeout => exact keeps_execBaleTimeout h
  | ehpTally => exact keeps_execEhpTally h
  | fatal k m r => exact keeps_execFatal (a2 := r) h
  | credit => exact keeps_execCredit h
  | trCpl => exact keeps_execTrCpl h
  | trReqTimeout => exact keeps_execTrReqTimeout h
  | invReq => exact keeps_execInvReq h
  | invCpl => exact keeps_execInvCpl h
  | hostRead => exact keeps_execHostRead h
  | hostWrite => exact keeps_execHostWrite h
  | hostReadCompletion => exact keeps_execHostReadCompletion h
  | fenceWrite => exact keeps_execFenceWrite h
  | fenceRead => exact keeps_execFenceRead h
  | doorbellTailWrite => exact keeps_execDoorbellTailWrite h
  | evtHeadWrite => exact keeps_execEvtHeadWrite h
  | tallyWindowAdd => exact keeps_execTallyWindowAdd h
  | apertureAccess => exact keeps_execApertureAccess h
  | bmeClear => exact keeps_execBmeClear h
  | bmeSet => exact keeps_execBmeSet h
  | msixUnmask => exact keeps_execMsixUnmask h
  | atsInvalidationRequest => exact keeps_execAtsInvalidationRequest h
  | atsInvalidationCompletion => exact keeps_execAtsInvalidationCompletion h
  | atsEnableClear => exact keeps_execAtsEnableClear h
  | translationCompletion => exact keeps_execTranslationCompletion h
  | adopt => exact keeps_execAdopt h
  | attachDiscard => exact keeps_execAttachDiscard h
  | tcInv => exact keeps_execTcInv h
  | tcInvComplete => exact keeps_execTcInvComplete h
  | relayWrite => exact keeps_execRelayWrite h
  | relayLinkUp => exact keeps_execRelayLinkUp h
  | resyncDone => exact keeps_execResyncDone h
  | deltaSent => exact keeps_execDeltaSent h
  | deltaApply => exact keeps_execDeltaApply h
  | promotionRestoreDone => exact keeps_execPromotionRestoreDone h
  | requestActive => exact keeps_execRequestActive h
  | requestStandby => exact keeps_execRequestStandby h
  | ctxCreate => exact keeps_execCtxCreate h
  | ctxCreateDone => exact keeps_execCtxCreateDone h
  | ctxTeardown => exact keeps_execCtxTeardown h
  | ctxTeardownDone => exact keeps_execCtxTeardownDone h
  | queueBind => exact keeps_execQueueBind h
  | queueUnbind => exact keeps_execQueueUnbind h
  | slotConfig => exact keeps_execSlotConfig h
  | slotFree => exact keeps_execSlotFree h
  | abort => exact keeps_execAbort h
  | abortDone => exact keeps_execAbortDone h
  | ctxQuery => exact keeps_execCtxQuery h
  | partQuery => exact keeps_execPartQuery h
  | partReset => exact keeps_execPartReset h
  | partitionResetDone => exact keeps_execPartitionResetDone h
  | queueStepRead => exact keeps_execQueueStepRead h
  | stepDispatch => exact keeps_execStepDispatch h
  | copyStepCommit => exact keeps_execCopyStepCommit h
  | mctpMessage => exact keeps_execMctpMessage h
  | mailboxGo => exact keeps_execMailboxGo h
  | read => exact keeps_execRead h
  | write => exact keeps_execWrite h
  | commit => exact keeps_execCommit h
  | info => exact keeps_execInfo h
  | eventGet => exact keeps_execEventGet h
  | regRead => exact keeps_execRegRead h
  | regWrite => exact keeps_execRegWrite h
  | actionCommit => exact keeps_execActionCommit h
  | actionDiscard => exact keeps_execActionDiscard h
  | commitCheck => exact keeps_execCommitCheck h
  | eventOccurrence => exact keeps_execEventOccurrence h
  | coalesceWindowEnd => exact keeps_execCoalesceWindowEnd h
  | notifyRepeat => exact keeps_execNotifyRepeat h
  | hostEnableWrite => exact keeps_execHostEnableWrite h
  | logDropsClear => exact keeps_execLogDropsClear h
  | blackBoxClear => exact keeps_execBlackBoxClear h
  | scrubLossClear => exact keeps_execScrubLossClear h
  | token => exact keeps_execToken h
  | fuseBurnDone => exact keeps_execFuseBurnDone h
  | ownerEnrol => exact keeps_execOwnerEnrol h
  | svnAdvance => exact keeps_execSvnAdvance h
  | erase4k => exact keeps_execErase4k h
  | erase64k => exact keeps_execErase64k h
  | program => exact keeps_execProgram h
  | flashRead => exact keeps_execFlashRead h
  | activate => exact keeps_execActivate h
  | flashCommandDone => exact keeps_execFlashCommandDone h
  | spdmRequest => exact keeps_execSpdmRequest h
  | rom => exact keeps_execRom h
  | clocks => exact keeps_execClocks h
  | firmware => exact keeps_execFirmware h
  | serai => exact keeps_execSerai h
  | hbmInit => exact keeps_execHbmInit h
  | memtest => exact keeps_execMemtest h
  | porter => exact keeps_execPorter h
  | engines => exact keeps_execEngines h
  | sites => exact keeps_execSites h
  | start => exact keeps_execStart h
  | markZero => exact keeps_execMarkZero h
  | hpfBringupUpdate => exact keeps_execHpfBringupUpdate h
  | warmReset => exact keeps_execWarmReset h
  | hubFault => exact keeps_execHubFault h
  | replanNow => exact keeps_execReplanNow h
  | replanInterval => exact keeps_execReplanInterval h
  | ageingMeasure => exact keeps_execAgeingMeasure h
  | tempSample => exact keeps_execTempSample h
  | avsCurrentRead => exact keeps_execAvsCurrentRead h
  | avsTimeout => exact keeps_execAvsTimeout h
  | rcRead => exact keeps_execRcRead h
  | registerWrite => exact keeps_execRegisterWrite h
  | relayLinkDown => exact keeps_execRelayLinkDown h
  | hostRefclkLoss => exact keeps_execHostRefclkLoss h
  | hostLinkUp => exact keeps_execHostLinkUp h
  | hostCompletionTimeout => exact keeps_execHostCompletionTimeout h
  | d0Entry => exact keeps_execD0Entry h
  | ucieLowPowerRequest => exact keeps_execUcieLowPowerRequest h

end Sys2Proof.Machine
end

