-- ==== Sys2Proof/Laws/State.lean ====
section
/-!
SUPPORT. What each update of the state changes and what it leaves alone: one lemma for each field and each update, and what is read
back after an update.
-/
namespace Sys2Proof.Machine

variable (s : State)

/-! ### regPut -/

@[simp] theorem regPut_pending (r : Reg) (v : Nat) : (regPut s r v).pending = s.pending := rfl
@[simp] theorem regPut_free (r : Reg) (v : Nat) : (regPut s r v).free = s.free := rfl
@[simp] theorem regPut_regs (r : Reg) (v : Nat) : (regPut s r v).regs = smSet (regReset r) s.regs (regKey r) v := rfl
@[simp] theorem regPut_licences (r : Reg) (v : Nat) : (regPut s r v).licences = s.licences := rfl
@[simp] theorem regPut_stage (r : Reg) (v : Nat) : (regPut s r v).stage = s.stage := rfl
@[simp] theorem regPut_mem (r : Reg) (v : Nat) : (regPut s r v).mem = s.mem := rfl
@[simp] theorem regPut_tier (r : Reg) (v : Nat) : (regPut s r v).tier = s.tier := rfl
@[simp] theorem regPut_work (r : Reg) (v : Nat) : (regPut s r v).work = s.work := rfl
@[simp] theorem regPut_dict (r : Reg) (v : Nat) : (regPut s r v).dict = s.dict := rfl
@[simp] theorem regPut_host (r : Reg) (v : Nat) : (regPut s r v).host = s.host := rfl
@[simp] theorem regPut_eng (r : Reg) (v : Nat) : (regPut s r v).eng = s.eng := rfl
@[simp] theorem regPut_prt (r : Reg) (v : Nat) : (regPut s r v).prt = s.prt := rfl
@[simp] theorem regPut_ucs (r : Reg) (v : Nat) : (regPut s r v).ucs = s.ucs := rfl
@[simp] theorem regPut_flt (r : Reg) (v : Nat) : (regPut s r v).flt = s.flt := rfl
@[simp] theorem regPut_age (r : Reg) (v : Nat) : (regPut s r v).age = s.age := rfl
@[simp] theorem regPut_pair (r : Reg) (v : Nat) : (regPut s r v).pair = s.pair := rfl
@[simp] theorem regPut_cus (r : Reg) (v : Nat) : (regPut s r v).cus = s.cus := rfl
@[simp] theorem regPut_bring (r : Reg) (v : Nat) : (regPut s r v).bring = s.bring := rfl
@[simp] theorem regPut_out (r : Reg) (v : Nat) : (regPut s r v).out = s.out := rfl

/-! ### emit -/

@[simp] theorem emit_pending (o : Output) : (emit s o).pending = s.pending := rfl
@[simp] theorem emit_free (o : Output) : (emit s o).free = s.free := rfl
@[simp] theorem emit_regs (o : Output) : (emit s o).regs = s.regs := rfl
@[simp] theorem emit_licences (o : Output) : (emit s o).licences = s.licences := rfl
@[simp] theorem emit_stage (o : Output) : (emit s o).stage = s.stage := rfl
@[simp] theorem emit_mem (o : Output) : (emit s o).mem = s.mem := rfl
@[simp] theorem emit_tier (o : Output) : (emit s o).tier = s.tier := rfl
@[simp] theorem emit_work (o : Output) : (emit s o).work = s.work := rfl
@[simp] theorem emit_dict (o : Output) : (emit s o).dict = s.dict := rfl
@[simp] theorem emit_host (o : Output) : (emit s o).host = s.host := rfl
@[simp] theorem emit_eng (o : Output) : (emit s o).eng = s.eng := rfl
@[simp] theorem emit_prt (o : Output) : (emit s o).prt = s.prt := rfl
@[simp] theorem emit_ucs (o : Output) : (emit s o).ucs = s.ucs := rfl
@[simp] theorem emit_flt (o : Output) : (emit s o).flt = s.flt := rfl
@[simp] theorem emit_age (o : Output) : (emit s o).age = s.age := rfl
@[simp] theorem emit_pair (o : Output) : (emit s o).pair = s.pair := rfl
@[simp] theorem emit_cus (o : Output) : (emit s o).cus = s.cus := rfl
@[simp] theorem emit_bring (o : Output) : (emit s o).bring = s.bring := rfl
@[simp] theorem emit_out (o : Output) : (emit s o).out = o :: s.out := rfl

/-! ### putFn -/

@[simp] theorem putFn_pending (fn : Nat) (h : HostFn) : (putFn s fn h).pending = s.pending := rfl
@[simp] theorem putFn_free (fn : Nat) (h : HostFn) : (putFn s fn h).free = s.free := rfl
@[simp] theorem putFn_regs (fn : Nat) (h : HostFn) : (putFn s fn h).regs = s.regs := rfl
@[simp] theorem putFn_licences (fn : Nat) (h : HostFn) : (putFn s fn h).licences = s.licences := rfl
@[simp] theorem putFn_stage (fn : Nat) (h : HostFn) : (putFn s fn h).stage = s.stage := rfl
@[simp] theorem putFn_mem (fn : Nat) (h : HostFn) : (putFn s fn h).mem = s.mem := rfl
@[simp] theorem putFn_tier (fn : Nat) (h : HostFn) : (putFn s fn h).tier = s.tier := rfl
@[simp] theorem putFn_work (fn : Nat) (h : HostFn) : (putFn s fn h).work = s.work := rfl
@[simp] theorem putFn_dict (fn : Nat) (h : HostFn) : (putFn s fn h).dict = s.dict := rfl
@[simp] theorem putFn_eng (fn : Nat) (h : HostFn) : (putFn s fn h).eng = s.eng := rfl
@[simp] theorem putFn_prt (fn : Nat) (h : HostFn) : (putFn s fn h).prt = s.prt := rfl
@[simp] theorem putFn_ucs (fn : Nat) (h : HostFn) : (putFn s fn h).ucs = s.ucs := rfl
@[simp] theorem putFn_flt (fn : Nat) (h : HostFn) : (putFn s fn h).flt = s.flt := rfl
@[simp] theorem putFn_age (fn : Nat) (h : HostFn) : (putFn s fn h).age = s.age := rfl
@[simp] theorem putFn_pair (fn : Nat) (h : HostFn) : (putFn s fn h).pair = s.pair := rfl
@[simp] theorem putFn_cus (fn : Nat) (h : HostFn) : (putFn s fn h).cus = s.cus := rfl
@[simp] theorem putFn_bring (fn : Nat) (h : HostFn) : (putFn s fn h).bring = s.bring := rfl
@[simp] theorem putFn_out (fn : Nat) (h : HostFn) : (putFn s fn h).out = s.out := rfl

/-! ### putPort -/

@[simp] theorem putPort_pending (p : Nat) (x : PortState) : (putPort s p x).pending = s.pending := rfl
@[simp] theorem putPort_free (p : Nat) (x : PortState) : (putPort s p x).free = s.free := rfl
@[simp] theorem putPort_regs (p : Nat) (x : PortState) : (putPort s p x).regs = s.regs := rfl
@[simp] theorem putPort_licences (p : Nat) (x : PortState) : (putPort s p x).licences = s.licences := rfl
@[simp] theorem putPort_stage (p : Nat) (x : PortState) : (putPort s p x).stage = s.stage := rfl
@[simp] theorem putPort_mem (p : Nat) (x : PortState) : (putPort s p x).mem = s.mem := rfl
@[simp] theorem putPort_tier (p : Nat) (x : PortState) : (putPort s p x).tier = s.tier := rfl
@[simp] theorem putPort_work (p : Nat) (x : PortState) : (putPort s p x).work = s.work := rfl
@[simp] theorem putPort_dict (p : Nat) (x : PortState) : (putPort s p x).dict = s.dict := rfl
@[simp] theorem putPort_eng (p : Nat) (x : PortState) : (putPort s p x).eng = s.eng := rfl
@[simp] theorem putPort_prt (p : Nat) (x : PortState) : (putPort s p x).prt = s.prt := rfl
@[simp] theorem putPort_ucs (p : Nat) (x : PortState) : (putPort s p x).ucs = s.ucs := rfl
@[simp] theorem putPort_flt (p : Nat) (x : PortState) : (putPort s p x).flt = s.flt := rfl
@[simp] theorem putPort_age (p : Nat) (x : PortState) : (putPort s p x).age = s.age := rfl
@[simp] theorem putPort_pair (p : Nat) (x : PortState) : (putPort s p x).pair = s.pair := rfl
@[simp] theorem putPort_cus (p : Nat) (x : PortState) : (putPort s p x).cus = s.cus := rfl
@[simp] theorem putPort_bring (p : Nat) (x : PortState) : (putPort s p x).bring = s.bring := rfl
@[simp] theorem putPort_out (p : Nat) (x : PortState) : (putPort s p x).out = s.out := rfl

/-! ### putLink -/

@[simp] theorem putLink_pending (l : Nat) (x : LinkState) : (putLink s l x).pending = s.pending := rfl
@[simp] theorem putLink_free (l : Nat) (x : LinkState) : (putLink s l x).free = s.free := rfl
@[simp] theorem putLink_regs (l : Nat) (x : LinkState) : (putLink s l x).regs = s.regs := rfl
@[simp] theorem putLink_licences (l : Nat) (x : LinkState) : (putLink s l x).licences = s.licences := rfl
@[simp] theorem putLink_stage (l : Nat) (x : LinkState) : (putLink s l x).stage = s.stage := rfl
@[simp] theorem putLink_mem (l : Nat) (x : LinkState) : (putLink s l x).mem = s.mem := rfl
@[simp] theorem putLink_tier (l : Nat) (x : LinkState) : (putLink s l x).tier = s.tier := rfl
@[simp] theorem putLink_work (l : Nat) (x : LinkState) : (putLink s l x).work = s.work := rfl
@[simp] theorem putLink_dict (l : Nat) (x : LinkState) : (putLink s l x).dict = s.dict := rfl
@[simp] theorem putLink_eng (l : Nat) (x : LinkState) : (putLink s l x).eng = s.eng := rfl
@[simp] theorem putLink_prt (l : Nat) (x : LinkState) : (putLink s l x).prt = s.prt := rfl
@[simp] theorem putLink_ucs (l : Nat) (x : LinkState) : (putLink s l x).ucs = s.ucs := rfl
@[simp] theorem putLink_flt (l : Nat) (x : LinkState) : (putLink s l x).flt = s.flt := rfl
@[simp] theorem putLink_age (l : Nat) (x : LinkState) : (putLink s l x).age = s.age := rfl
@[simp] theorem putLink_pair (l : Nat) (x : LinkState) : (putLink s l x).pair = s.pair := rfl
@[simp] theorem putLink_cus (l : Nat) (x : LinkState) : (putLink s l x).cus = s.cus := rfl
@[simp] theorem putLink_bring (l : Nat) (x : LinkState) : (putLink s l x).bring = s.bring := rfl
@[simp] theorem putLink_out (l : Nat) (x : LinkState) : (putLink s l x).out = s.out := rfl

/-! ### putQueue -/

@[simp] theorem putQueue_pending (q : Nat) (x : Option Queue) : (putQueue s q x).pending = s.pending := rfl
@[simp] theorem putQueue_free (q : Nat) (x : Option Queue) : (putQueue s q x).free = s.free := rfl
@[simp] theorem putQueue_regs (q : Nat) (x : Option Queue) : (putQueue s q x).regs = s.regs := rfl
@[simp] theorem putQueue_licences (q : Nat) (x : Option Queue) : (putQueue s q x).licences = s.licences := rfl
@[simp] theorem putQueue_stage (q : Nat) (x : Option Queue) : (putQueue s q x).stage = s.stage := rfl
@[simp] theorem putQueue_mem (q : Nat) (x : Option Queue) : (putQueue s q x).mem = s.mem := rfl
@[simp] theorem putQueue_tier (q : Nat) (x : Option Queue) : (putQueue s q x).tier = s.tier := rfl
@[simp] theorem putQueue_dict (q : Nat) (x : Option Queue) : (putQueue s q x).dict = s.dict := rfl
@[simp] theorem putQueue_host (q : Nat) (x : Option Queue) : (putQueue s q x).host = s.host := rfl
@[simp] theorem putQueue_eng (q : Nat) (x : Option Queue) : (putQueue s q x).eng = s.eng := rfl
@[simp] theorem putQueue_prt (q : Nat) (x : Option Queue) : (putQueue s q x).prt = s.prt := rfl
@[simp] theorem putQueue_ucs (q : Nat) (x : Option Queue) : (putQueue s q x).ucs = s.ucs := rfl
@[simp] theorem putQueue_flt (q : Nat) (x : Option Queue) : (putQueue s q x).flt = s.flt := rfl
@[simp] theorem putQueue_age (q : Nat) (x : Option Queue) : (putQueue s q x).age = s.age := rfl
@[simp] theorem putQueue_pair (q : Nat) (x : Option Queue) : (putQueue s q x).pair = s.pair := rfl
@[simp] theorem putQueue_cus (q : Nat) (x : Option Queue) : (putQueue s q x).cus = s.cus := rfl
@[simp] theorem putQueue_bring (q : Nat) (x : Option Queue) : (putQueue s q x).bring = s.bring := rfl
@[simp] theorem putQueue_out (q : Nat) (x : Option Queue) : (putQueue s q x).out = s.out := rfl

/-! ### putHbm -/

@[simp] theorem putHbm_pending (m : HbmMem) : (putHbm s m).pending = s.pending := rfl
@[simp] theorem putHbm_free (m : HbmMem) : (putHbm s m).free = s.free := rfl
@[simp] theorem putHbm_regs (m : HbmMem) : (putHbm s m).regs = s.regs := rfl
@[simp] theorem putHbm_licences (m : HbmMem) : (putHbm s m).licences = s.licences := rfl
@[simp] theorem putHbm_stage (m : HbmMem) : (putHbm s m).stage = s.stage := rfl
@[simp] theorem putHbm_mem (m : HbmMem) : (putHbm s m).mem = { s.mem with hbm := m } := rfl
@[simp] theorem putHbm_tier (m : HbmMem) : (putHbm s m).tier = s.tier := rfl
@[simp] theorem putHbm_work (m : HbmMem) : (putHbm s m).work = s.work := rfl
@[simp] theorem putHbm_dict (m : HbmMem) : (putHbm s m).dict = s.dict := rfl
@[simp] theorem putHbm_host (m : HbmMem) : (putHbm s m).host = s.host := rfl
@[simp] theorem putHbm_eng (m : HbmMem) : (putHbm s m).eng = s.eng := rfl
@[simp] theorem putHbm_prt (m : HbmMem) : (putHbm s m).prt = s.prt := rfl
@[simp] theorem putHbm_ucs (m : HbmMem) : (putHbm s m).ucs = s.ucs := rfl
@[simp] theorem putHbm_flt (m : HbmMem) : (putHbm s m).flt = s.flt := rfl
@[simp] theorem putHbm_age (m : HbmMem) : (putHbm s m).age = s.age := rfl
@[simp] theorem putHbm_pair (m : HbmMem) : (putHbm s m).pair = s.pair := rfl
@[simp] theorem putHbm_cus (m : HbmMem) : (putHbm s m).cus = s.cus := rfl
@[simp] theorem putHbm_bring (m : HbmMem) : (putHbm s m).bring = s.bring := rfl
@[simp] theorem putHbm_out (m : HbmMem) : (putHbm s m).out = s.out := rfl

/-! ### putStack -/

@[simp] theorem putStack_pending (h : Nat) (x : HbmStack) : (putStack s h x).pending = s.pending := rfl
@[simp] theorem putStack_free (h : Nat) (x : HbmStack) : (putStack s h x).free = s.free := rfl
@[simp] theorem putStack_regs (h : Nat) (x : HbmStack) : (putStack s h x).regs = s.regs := rfl
@[simp] theorem putStack_licences (h : Nat) (x : HbmStack) : (putStack s h x).licences = s.licences := rfl
@[simp] theorem putStack_stage (h : Nat) (x : HbmStack) : (putStack s h x).stage = s.stage := rfl
@[simp] theorem putStack_tier (h : Nat) (x : HbmStack) : (putStack s h x).tier = s.tier := rfl
@[simp] theorem putStack_work (h : Nat) (x : HbmStack) : (putStack s h x).work = s.work := rfl
@[simp] theorem putStack_dict (h : Nat) (x : HbmStack) : (putStack s h x).dict = s.dict := rfl
@[simp] theorem putStack_host (h : Nat) (x : HbmStack) : (putStack s h x).host = s.host := rfl
@[simp] theorem putStack_eng (h : Nat) (x : HbmStack) : (putStack s h x).eng = s.eng := rfl
@[simp] theorem putStack_prt (h : Nat) (x : HbmStack) : (putStack s h x).prt = s.prt := rfl
@[simp] theorem putStack_ucs (h : Nat) (x : HbmStack) : (putStack s h x).ucs = s.ucs := rfl
@[simp] theorem putStack_flt (h : Nat) (x : HbmStack) : (putStack s h x).flt = s.flt := rfl
@[simp] theorem putStack_age (h : Nat) (x : HbmStack) : (putStack s h x).age = s.age := rfl
@[simp] theorem putStack_pair (h : Nat) (x : HbmStack) : (putStack s h x).pair = s.pair := rfl
@[simp] theorem putStack_cus (h : Nat) (x : HbmStack) : (putStack s h x).cus = s.cus := rfl
@[simp] theorem putStack_bring (h : Nat) (x : HbmStack) : (putStack s h x).bring = s.bring := rfl
@[simp] theorem putStack_out (h : Nat) (x : HbmStack) : (putStack s h x).out = s.out := rfl

/-! ### putDomain -/

@[simp] theorem putDomain_pending (d : Nat) (x : Domain) : (putDomain s d x).pending = s.pending := rfl
@[simp] theorem putDomain_free (d : Nat) (x : Domain) : (putDomain s d x).free = s.free := rfl
@[simp] theorem putDomain_regs (d : Nat) (x : Domain) : (putDomain s d x).regs = s.regs := rfl
@[simp] theorem putDomain_licences (d : Nat) (x : Domain) : (putDomain s d x).licences = s.licences := rfl
@[simp] theorem putDomain_stage (d : Nat) (x : Domain) : (putDomain s d x).stage = s.stage := rfl
@[simp] theorem putDomain_tier (d : Nat) (x : Domain) : (putDomain s d x).tier = s.tier := rfl
@[simp] theorem putDomain_work (d : Nat) (x : Domain) : (putDomain s d x).work = s.work := rfl
@[simp] theorem putDomain_dict (d : Nat) (x : Domain) : (putDomain s d x).dict = s.dict := rfl
@[simp] theorem putDomain_host (d : Nat) (x : Domain) : (putDomain s d x).host = s.host := rfl
@[simp] theorem putDomain_eng (d : Nat) (x : Domain) : (putDomain s d x).eng = s.eng := rfl
@[simp] theorem putDomain_prt (d : Nat) (x : Domain) : (putDomain s d x).prt = s.prt := rfl
@[simp] theorem putDomain_ucs (d : Nat) (x : Domain) : (putDomain s d x).ucs = s.ucs := rfl
@[simp] theorem putDomain_flt (d : Nat) (x : Domain) : (putDomain s d x).flt = s.flt := rfl
@[simp] theorem putDomain_age (d : Nat) (x : Domain) : (putDomain s d x).age = s.age := rfl
@[simp] theorem putDomain_pair (d : Nat) (x : Domain) : (putDomain s d x).pair = s.pair := rfl
@[simp] theorem putDomain_cus (d : Nat) (x : Domain) : (putDomain s d x).cus = s.cus := rfl
@[simp] theorem putDomain_bring (d : Nat) (x : Domain) : (putDomain s d x).bring = s.bring := rfl
@[simp] theorem putDomain_out (d : Nat) (x : Domain) : (putDomain s d x).out = s.out := rfl

/-! ### putPart -/

@[simp] theorem putPart_pending (p : Nat) (x : Part) : (putPart s p x).pending = s.pending := rfl
@[simp] theorem putPart_free (p : Nat) (x : Part) : (putPart s p x).free = s.free := rfl
@[simp] theorem putPart_regs (p : Nat) (x : Part) : (putPart s p x).regs = s.regs := rfl
@[simp] theorem putPart_licences (p : Nat) (x : Part) : (putPart s p x).licences = s.licences := rfl
@[simp] theorem putPart_stage (p : Nat) (x : Part) : (putPart s p x).stage = s.stage := rfl
@[simp] theorem putPart_mem (p : Nat) (x : Part) : (putPart s p x).mem = s.mem := rfl
@[simp] theorem putPart_tier (p : Nat) (x : Part) : (putPart s p x).tier = s.tier := rfl
@[simp] theorem putPart_dict (p : Nat) (x : Part) : (putPart s p x).dict = s.dict := rfl
@[simp] theorem putPart_host (p : Nat) (x : Part) : (putPart s p x).host = s.host := rfl
@[simp] theorem putPart_eng (p : Nat) (x : Part) : (putPart s p x).eng = s.eng := rfl
@[simp] theorem putPart_prt (p : Nat) (x : Part) : (putPart s p x).prt = s.prt := rfl
@[simp] theorem putPart_ucs (p : Nat) (x : Part) : (putPart s p x).ucs = s.ucs := rfl
@[simp] theorem putPart_flt (p : Nat) (x : Part) : (putPart s p x).flt = s.flt := rfl
@[simp] theorem putPart_age (p : Nat) (x : Part) : (putPart s p x).age = s.age := rfl
@[simp] theorem putPart_pair (p : Nat) (x : Part) : (putPart s p x).pair = s.pair := rfl
@[simp] theorem putPart_cus (p : Nat) (x : Part) : (putPart s p x).cus = s.cus := rfl
@[simp] theorem putPart_bring (p : Nat) (x : Part) : (putPart s p x).bring = s.bring := rfl
@[simp] theorem putPart_out (p : Nat) (x : Part) : (putPart s p x).out = s.out := rfl

/-! ### putContext -/

@[simp] theorem putContext_pending (c : Nat) (x : Option Context) : (putContext s c x).pending = s.pending := rfl
@[simp] theorem putContext_free (c : Nat) (x : Option Context) : (putContext s c x).free = s.free := rfl
@[simp] theorem putContext_regs (c : Nat) (x : Option Context) : (putContext s c x).regs = s.regs := rfl
@[simp] theorem putContext_licences (c : Nat) (x : Option Context) : (putContext s c x).licences = s.licences := rfl
@[simp] theorem putContext_stage (c : Nat) (x : Option Context) : (putContext s c x).stage = s.stage := rfl
@[simp] theorem putContext_mem (c : Nat) (x : Option Context) : (putContext s c x).mem = s.mem := rfl
@[simp] theorem putContext_tier (c : Nat) (x : Option Context) : (putContext s c x).tier = s.tier := rfl
@[simp] theorem putContext_dict (c : Nat) (x : Option Context) : (putContext s c x).dict = s.dict := rfl
@[simp] theorem putContext_host (c : Nat) (x : Option Context) : (putContext s c x).host = s.host := rfl
@[simp] theorem putContext_eng (c : Nat) (x : Option Context) : (putContext s c x).eng = s.eng := rfl
@[simp] theorem putContext_prt (c : Nat) (x : Option Context) : (putContext s c x).prt = s.prt := rfl
@[simp] theorem putContext_ucs (c : Nat) (x : Option Context) : (putContext s c x).ucs = s.ucs := rfl
@[simp] theorem putContext_flt (c : Nat) (x : Option Context) : (putContext s c x).flt = s.flt := rfl
@[simp] theorem putContext_age (c : Nat) (x : Option Context) : (putContext s c x).age = s.age := rfl
@[simp] theorem putContext_pair (c : Nat) (x : Option Context) : (putContext s c x).pair = s.pair := rfl
@[simp] theorem putContext_cus (c : Nat) (x : Option Context) : (putContext s c x).cus = s.cus := rfl
@[simp] theorem putContext_bring (c : Nat) (x : Option Context) : (putContext s c x).bring = s.bring := rfl
@[simp] theorem putContext_out (c : Nat) (x : Option Context) : (putContext s c x).out = s.out := rfl

/-! ### putSlot -/

@[simp] theorem putSlot_pending (k : Nat) (x : Slot) : (putSlot s k x).pending = s.pending := rfl
@[simp] theorem putSlot_free (k : Nat) (x : Slot) : (putSlot s k x).free = s.free := rfl
@[simp] theorem putSlot_regs (k : Nat) (x : Slot) : (putSlot s k x).regs = s.regs := rfl
@[simp] theorem putSlot_licences (k : Nat) (x : Slot) : (putSlot s k x).licences = s.licences := rfl
@[simp] theorem putSlot_stage (k : Nat) (x : Slot) : (putSlot s k x).stage = s.stage := rfl
@[simp] theorem putSlot_mem (k : Nat) (x : Slot) : (putSlot s k x).mem = s.mem := rfl
@[simp] theorem putSlot_tier (k : Nat) (x : Slot) : (putSlot s k x).tier = s.tier := rfl
@[simp] theorem putSlot_dict (k : Nat) (x : Slot) : (putSlot s k x).dict = s.dict := rfl
@[simp] theorem putSlot_host (k : Nat) (x : Slot) : (putSlot s k x).host = s.host := rfl
@[simp] theorem putSlot_eng (k : Nat) (x : Slot) : (putSlot s k x).eng = s.eng := rfl
@[simp] theorem putSlot_prt (k : Nat) (x : Slot) : (putSlot s k x).prt = s.prt := rfl
@[simp] theorem putSlot_ucs (k : Nat) (x : Slot) : (putSlot s k x).ucs = s.ucs := rfl
@[simp] theorem putSlot_flt (k : Nat) (x : Slot) : (putSlot s k x).flt = s.flt := rfl
@[simp] theorem putSlot_age (k : Nat) (x : Slot) : (putSlot s k x).age = s.age := rfl
@[simp] theorem putSlot_pair (k : Nat) (x : Slot) : (putSlot s k x).pair = s.pair := rfl
@[simp] theorem putSlot_cus (k : Nat) (x : Slot) : (putSlot s k x).cus = s.cus := rfl
@[simp] theorem putSlot_bring (k : Nat) (x : Slot) : (putSlot s k x).bring = s.bring := rfl
@[simp] theorem putSlot_out (k : Nat) (x : Slot) : (putSlot s k x).out = s.out := rfl

/-! ### putCmd -/

@[simp] theorem putCmd_pending (fn : Nat) (c : Option FnCmd) : (putCmd s fn c).pending = s.pending := rfl
@[simp] theorem putCmd_free (fn : Nat) (c : Option FnCmd) : (putCmd s fn c).free = s.free := rfl
@[simp] theorem putCmd_regs (fn : Nat) (c : Option FnCmd) : (putCmd s fn c).regs = s.regs := rfl
@[simp] theorem putCmd_licences (fn : Nat) (c : Option FnCmd) : (putCmd s fn c).licences = s.licences := rfl
@[simp] theorem putCmd_stage (fn : Nat) (c : Option FnCmd) : (putCmd s fn c).stage = s.stage := rfl
@[simp] theorem putCmd_mem (fn : Nat) (c : Option FnCmd) : (putCmd s fn c).mem = s.mem := rfl
@[simp] theorem putCmd_tier (fn : Nat) (c : Option FnCmd) : (putCmd s fn c).tier = s.tier := rfl
@[simp] theorem putCmd_dict (fn : Nat) (c : Option FnCmd) : (putCmd s fn c).dict = s.dict := rfl
@[simp] theorem putCmd_host (fn : Nat) (c : Option FnCmd) : (putCmd s fn c).host = s.host := rfl
@[simp] theorem putCmd_eng (fn : Nat) (c : Option FnCmd) : (putCmd s fn c).eng = s.eng := rfl
@[simp] theorem putCmd_prt (fn : Nat) (c : Option FnCmd) : (putCmd s fn c).prt = s.prt := rfl
@[simp] theorem putCmd_ucs (fn : Nat) (c : Option FnCmd) : (putCmd s fn c).ucs = s.ucs := rfl
@[simp] theorem putCmd_flt (fn : Nat) (c : Option FnCmd) : (putCmd s fn c).flt = s.flt := rfl
@[simp] theorem putCmd_age (fn : Nat) (c : Option FnCmd) : (putCmd s fn c).age = s.age := rfl
@[simp] theorem putCmd_pair (fn : Nat) (c : Option FnCmd) : (putCmd s fn c).pair = s.pair := rfl
@[simp] theorem putCmd_cus (fn : Nat) (c : Option FnCmd) : (putCmd s fn c).cus = s.cus := rfl
@[simp] theorem putCmd_bring (fn : Nat) (c : Option FnCmd) : (putCmd s fn c).bring = s.bring := rfl
@[simp] theorem putCmd_out (fn : Nat) (c : Option FnCmd) : (putCmd s fn c).out = s.out := rfl

/-! ### modStep -/

@[simp] theorem modStep_pending (id : Nat) (f : Step → Step) : (modStep s id f).pending = s.pending := rfl
@[simp] theorem modStep_free (id : Nat) (f : Step → Step) : (modStep s id f).free = s.free := rfl
@[simp] theorem modStep_regs (id : Nat) (f : Step → Step) : (modStep s id f).regs = s.regs := rfl
@[simp] theorem modStep_licences (id : Nat) (f : Step → Step) : (modStep s id f).licences = s.licences := rfl
@[simp] theorem modStep_stage (id : Nat) (f : Step → Step) : (modStep s id f).stage = s.stage := rfl
@[simp] theorem modStep_mem (id : Nat) (f : Step → Step) : (modStep s id f).mem = s.mem := rfl
@[simp] theorem modStep_tier (id : Nat) (f : Step → Step) : (modStep s id f).tier = s.tier := rfl
@[simp] theorem modStep_dict (id : Nat) (f : Step → Step) : (modStep s id f).dict = s.dict := rfl
@[simp] theorem modStep_host (id : Nat) (f : Step → Step) : (modStep s id f).host = s.host := rfl
@[simp] theorem modStep_eng (id : Nat) (f : Step → Step) : (modStep s id f).eng = s.eng := rfl
@[simp] theorem modStep_prt (id : Nat) (f : Step → Step) : (modStep s id f).prt = s.prt := rfl
@[simp] theorem modStep_ucs (id : Nat) (f : Step → Step) : (modStep s id f).ucs = s.ucs := rfl
@[simp] theorem modStep_flt (id : Nat) (f : Step → Step) : (modStep s id f).flt = s.flt := rfl
@[simp] theorem modStep_age (id : Nat) (f : Step → Step) : (modStep s id f).age = s.age := rfl
@[simp] theorem modStep_pair (id : Nat) (f : Step → Step) : (modStep s id f).pair = s.pair := rfl
@[simp] theorem modStep_cus (id : Nat) (f : Step → Step) : (modStep s id f).cus = s.cus := rfl
@[simp] theorem modStep_bring (id : Nat) (f : Step → Step) : (modStep s id f).bring = s.bring := rfl
@[simp] theorem modStep_out (id : Nat) (f : Step → Step) : (modStep s id f).out = s.out := rfl

/-! ### delStep -/

@[simp] theorem delStep_pending (id : Nat) : (delStep s id).pending = s.pending := rfl
@[simp] theorem delStep_free (id : Nat) : (delStep s id).free = s.free := rfl
@[simp] theorem delStep_regs (id : Nat) : (delStep s id).regs = s.regs := rfl
@[simp] theorem delStep_licences (id : Nat) : (delStep s id).licences = s.licences := rfl
@[simp] theorem delStep_stage (id : Nat) : (delStep s id).stage = s.stage := rfl
@[simp] theorem delStep_mem (id : Nat) : (delStep s id).mem = s.mem := rfl
@[simp] theorem delStep_tier (id : Nat) : (delStep s id).tier = s.tier := rfl
@[simp] theorem delStep_dict (id : Nat) : (delStep s id).dict = s.dict := rfl
@[simp] theorem delStep_host (id : Nat) : (delStep s id).host = s.host := rfl
@[simp] theorem delStep_eng (id : Nat) : (delStep s id).eng = s.eng := rfl
@[simp] theorem delStep_prt (id : Nat) : (delStep s id).prt = s.prt := rfl
@[simp] theorem delStep_ucs (id : Nat) : (delStep s id).ucs = s.ucs := rfl
@[simp] theorem delStep_flt (id : Nat) : (delStep s id).flt = s.flt := rfl
@[simp] theorem delStep_age (id : Nat) : (delStep s id).age = s.age := rfl
@[simp] theorem delStep_pair (id : Nat) : (delStep s id).pair = s.pair := rfl
@[simp] theorem delStep_cus (id : Nat) : (delStep s id).cus = s.cus := rfl
@[simp] theorem delStep_bring (id : Nat) : (delStep s id).bring = s.bring := rfl
@[simp] theorem delStep_out (id : Nat) : (delStep s id).out = s.out := rfl

/-! ### putEngine -/

@[simp] theorem putEngine_pending (e : Nat) (x : Engine) : (putEngine s e x).pending = s.pending := rfl
@[simp] theorem putEngine_free (e : Nat) (x : Engine) : (putEngine s e x).free = s.free := rfl
@[simp] theorem putEngine_regs (e : Nat) (x : Engine) : (putEngine s e x).regs = s.regs := rfl
@[simp] theorem putEngine_licences (e : Nat) (x : Engine) : (putEngine s e x).licences = s.licences := rfl
@[simp] theorem putEngine_stage (e : Nat) (x : Engine) : (putEngine s e x).stage = s.stage := rfl
@[simp] theorem putEngine_mem (e : Nat) (x : Engine) : (putEngine s e x).mem = s.mem := rfl
@[simp] theorem putEngine_tier (e : Nat) (x : Engine) : (putEngine s e x).tier = s.tier := rfl
@[simp] theorem putEngine_work (e : Nat) (x : Engine) : (putEngine s e x).work = s.work := rfl
@[simp] theorem putEngine_dict (e : Nat) (x : Engine) : (putEngine s e x).dict = s.dict := rfl
@[simp] theorem putEngine_host (e : Nat) (x : Engine) : (putEngine s e x).host = s.host := rfl
@[simp] theorem putEngine_eng (e : Nat) (x : Engine) : (putEngine s e x).eng = { s.eng with engines := smSet {} s.eng.engines e x } := rfl
@[simp] theorem putEngine_prt (e : Nat) (x : Engine) : (putEngine s e x).prt = s.prt := rfl
@[simp] theorem putEngine_ucs (e : Nat) (x : Engine) : (putEngine s e x).ucs = s.ucs := rfl
@[simp] theorem putEngine_flt (e : Nat) (x : Engine) : (putEngine s e x).flt = s.flt := rfl
@[simp] theorem putEngine_age (e : Nat) (x : Engine) : (putEngine s e x).age = s.age := rfl
@[simp] theorem putEngine_pair (e : Nat) (x : Engine) : (putEngine s e x).pair = s.pair := rfl
@[simp] theorem putEngine_cus (e : Nat) (x : Engine) : (putEngine s e x).cus = s.cus := rfl
@[simp] theorem putEngine_bring (e : Nat) (x : Engine) : (putEngine s e x).bring = s.bring := rfl
@[simp] theorem putEngine_out (e : Nat) (x : Engine) : (putEngine s e x).out = s.out := rfl

/-! ### putCluster -/

@[simp] theorem putCluster_pending (k : Nat) (x : Cluster) : (putCluster s k x).pending = s.pending := rfl
@[simp] theorem putCluster_free (k : Nat) (x : Cluster) : (putCluster s k x).free = s.free := rfl
@[simp] theorem putCluster_regs (k : Nat) (x : Cluster) : (putCluster s k x).regs = s.regs := rfl
@[simp] theorem putCluster_licences (k : Nat) (x : Cluster) : (putCluster s k x).licences = s.licences := rfl
@[simp] theorem putCluster_stage (k : Nat) (x : Cluster) : (putCluster s k x).stage = s.stage := rfl
@[simp] theorem putCluster_mem (k : Nat) (x : Cluster) : (putCluster s k x).mem = s.mem := rfl
@[simp] theorem putCluster_tier (k : Nat) (x : Cluster) : (putCluster s k x).tier = s.tier := rfl
@[simp] theorem putCluster_work (k : Nat) (x : Cluster) : (putCluster s k x).work = s.work := rfl
@[simp] theorem putCluster_dict (k : Nat) (x : Cluster) : (putCluster s k x).dict = s.dict := rfl
@[simp] theorem putCluster_host (k : Nat) (x : Cluster) : (putCluster s k x).host = s.host := rfl
@[simp] theorem putCluster_eng (k : Nat) (x : Cluster) : (putCluster s k x).eng = s.eng := rfl
@[simp] theorem putCluster_prt (k : Nat) (x : Cluster) : (putCluster s k x).prt = { s.prt with clusters := smSet {} s.prt.clusters k x } := rfl
@[simp] theorem putCluster_ucs (k : Nat) (x : Cluster) : (putCluster s k x).ucs = s.ucs := rfl
@[simp] theorem putCluster_flt (k : Nat) (x : Cluster) : (putCluster s k x).flt = s.flt := rfl
@[simp] theorem putCluster_age (k : Nat) (x : Cluster) : (putCluster s k x).age = s.age := rfl
@[simp] theorem putCluster_pair (k : Nat) (x : Cluster) : (putCluster s k x).pair = s.pair := rfl
@[simp] theorem putCluster_cus (k : Nat) (x : Cluster) : (putCluster s k x).cus = s.cus := rfl
@[simp] theorem putCluster_bring (k : Nat) (x : Cluster) : (putCluster s k x).bring = s.bring := rfl
@[simp] theorem putCluster_out (k : Nat) (x : Cluster) : (putCluster s k x).out = s.out := rfl

/-! ### putCore -/

@[simp] theorem putCore_pending (n : Nat) (x : Core) : (putCore s n x).pending = s.pending := rfl
@[simp] theorem putCore_free (n : Nat) (x : Core) : (putCore s n x).free = s.free := rfl
@[simp] theorem putCore_regs (n : Nat) (x : Core) : (putCore s n x).regs = s.regs := rfl
@[simp] theorem putCore_licences (n : Nat) (x : Core) : (putCore s n x).licences = s.licences := rfl
@[simp] theorem putCore_stage (n : Nat) (x : Core) : (putCore s n x).stage = s.stage := rfl
@[simp] theorem putCore_mem (n : Nat) (x : Core) : (putCore s n x).mem = s.mem := rfl
@[simp] theorem putCore_tier (n : Nat) (x : Core) : (putCore s n x).tier = s.tier := rfl
@[simp] theorem putCore_work (n : Nat) (x : Core) : (putCore s n x).work = s.work := rfl
@[simp] theorem putCore_dict (n : Nat) (x : Core) : (putCore s n x).dict = s.dict := rfl
@[simp] theorem putCore_host (n : Nat) (x : Core) : (putCore s n x).host = s.host := rfl
@[simp] theorem putCore_eng (n : Nat) (x : Core) : (putCore s n x).eng = s.eng := rfl
@[simp] theorem putCore_prt (n : Nat) (x : Core) : (putCore s n x).prt = { s.prt with cores := smSet {} s.prt.cores n x } := rfl
@[simp] theorem putCore_ucs (n : Nat) (x : Core) : (putCore s n x).ucs = s.ucs := rfl
@[simp] theorem putCore_flt (n : Nat) (x : Core) : (putCore s n x).flt = s.flt := rfl
@[simp] theorem putCore_age (n : Nat) (x : Core) : (putCore s n x).age = s.age := rfl
@[simp] theorem putCore_pair (n : Nat) (x : Core) : (putCore s n x).pair = s.pair := rfl
@[simp] theorem putCore_cus (n : Nat) (x : Core) : (putCore s n x).cus = s.cus := rfl
@[simp] theorem putCore_bring (n : Nat) (x : Core) : (putCore s n x).bring = s.bring := rfl
@[simp] theorem putCore_out (n : Nat) (x : Core) : (putCore s n x).out = s.out := rfl

/-! ### putSite -/

@[simp] theorem putSite_pending (k : Nat) (x : Site) : (putSite s k x).pending = s.pending := rfl
@[simp] theorem putSite_free (k : Nat) (x : Site) : (putSite s k x).free = s.free := rfl
@[simp] theorem putSite_regs (k : Nat) (x : Site) : (putSite s k x).regs = s.regs := rfl
@[simp] theorem putSite_licences (k : Nat) (x : Site) : (putSite s k x).licences = s.licences := rfl
@[simp] theorem putSite_stage (k : Nat) (x : Site) : (putSite s k x).stage = s.stage := rfl
@[simp] theorem putSite_mem (k : Nat) (x : Site) : (putSite s k x).mem = s.mem := rfl
@[simp] theorem putSite_tier (k : Nat) (x : Site) : (putSite s k x).tier = s.tier := rfl
@[simp] theorem putSite_work (k : Nat) (x : Site) : (putSite s k x).work = s.work := rfl
@[simp] theorem putSite_dict (k : Nat) (x : Site) : (putSite s k x).dict = s.dict := rfl
@[simp] theorem putSite_host (k : Nat) (x : Site) : (putSite s k x).host = s.host := rfl
@[simp] theorem putSite_eng (k : Nat) (x : Site) : (putSite s k x).eng = s.eng := rfl
@[simp] theorem putSite_prt (k : Nat) (x : Site) : (putSite s k x).prt = s.prt := rfl
@[simp] theorem putSite_ucs (k : Nat) (x : Site) : (putSite s k x).ucs = { s.ucs with sites := smSet {} s.ucs.sites k x } := rfl
@[simp] theorem putSite_flt (k : Nat) (x : Site) : (putSite s k x).flt = s.flt := rfl
@[simp] theorem putSite_age (k : Nat) (x : Site) : (putSite s k x).age = s.age := rfl
@[simp] theorem putSite_pair (k : Nat) (x : Site) : (putSite s k x).pair = s.pair := rfl
@[simp] theorem putSite_cus (k : Nat) (x : Site) : (putSite s k x).cus = s.cus := rfl
@[simp] theorem putSite_bring (k : Nat) (x : Site) : (putSite s k x).bring = s.bring := rfl
@[simp] theorem putSite_out (k : Nat) (x : Site) : (putSite s k x).out = s.out := rfl

/-! ### putAcc -/

@[simp] theorem putAcc_pending (a : Nat) (x : AccState) : (putAcc s a x).pending = s.pending := rfl
@[simp] theorem putAcc_free (a : Nat) (x : AccState) : (putAcc s a x).free = s.free := rfl
@[simp] theorem putAcc_regs (a : Nat) (x : AccState) : (putAcc s a x).regs = s.regs := rfl
@[simp] theorem putAcc_licences (a : Nat) (x : AccState) : (putAcc s a x).licences = s.licences := rfl
@[simp] theorem putAcc_stage (a : Nat) (x : AccState) : (putAcc s a x).stage = s.stage := rfl
@[simp] theorem putAcc_mem (a : Nat) (x : AccState) : (putAcc s a x).mem = s.mem := rfl
@[simp] theorem putAcc_tier (a : Nat) (x : AccState) : (putAcc s a x).tier = s.tier := rfl
@[simp] theorem putAcc_work (a : Nat) (x : AccState) : (putAcc s a x).work = s.work := rfl
@[simp] theorem putAcc_host (a : Nat) (x : AccState) : (putAcc s a x).host = s.host := rfl
@[simp] theorem putAcc_eng (a : Nat) (x : AccState) : (putAcc s a x).eng = s.eng := rfl
@[simp] theorem putAcc_prt (a : Nat) (x : AccState) : (putAcc s a x).prt = s.prt := rfl
@[simp] theorem putAcc_ucs (a : Nat) (x : AccState) : (putAcc s a x).ucs = s.ucs := rfl
@[simp] theorem putAcc_flt (a : Nat) (x : AccState) : (putAcc s a x).flt = s.flt := rfl
@[simp] theorem putAcc_age (a : Nat) (x : AccState) : (putAcc s a x).age = s.age := rfl
@[simp] theorem putAcc_pair (a : Nat) (x : AccState) : (putAcc s a x).pair = s.pair := rfl
@[simp] theorem putAcc_cus (a : Nat) (x : AccState) : (putAcc s a x).cus = s.cus := rfl
@[simp] theorem putAcc_bring (a : Nat) (x : AccState) : (putAcc s a x).bring = s.bring := rfl
@[simp] theorem putAcc_out (a : Nat) (x : AccState) : (putAcc s a x).out = s.out := rfl

/-! ### putColl -/

@[simp] theorem putColl_pending (c : Collector) : (putColl s c).pending = s.pending := rfl
@[simp] theorem putColl_free (c : Collector) : (putColl s c).free = s.free := rfl
@[simp] theorem putColl_regs (c : Collector) : (putColl s c).regs = s.regs := rfl
@[simp] theorem putColl_licences (c : Collector) : (putColl s c).licences = s.licences := rfl
@[simp] theorem putColl_stage (c : Collector) : (putColl s c).stage = s.stage := rfl
@[simp] theorem putColl_mem (c : Collector) : (putColl s c).mem = s.mem := rfl
@[simp] theorem putColl_tier (c : Collector) : (putColl s c).tier = s.tier := rfl
@[simp] theorem putColl_work (c : Collector) : (putColl s c).work = s.work := rfl
@[simp] theorem putColl_dict (c : Collector) : (putColl s c).dict = { s.dict with coll := c } := rfl
@[simp] theorem putColl_host (c : Collector) : (putColl s c).host = s.host := rfl
@[simp] theorem putColl_eng (c : Collector) : (putColl s c).eng = s.eng := rfl
@[simp] theorem putColl_prt (c : Collector) : (putColl s c).prt = s.prt := rfl
@[simp] theorem putColl_ucs (c : Collector) : (putColl s c).ucs = s.ucs := rfl
@[simp] theorem putColl_flt (c : Collector) : (putColl s c).flt = s.flt := rfl
@[simp] theorem putColl_age (c : Collector) : (putColl s c).age = s.age := rfl
@[simp] theorem putColl_pair (c : Collector) : (putColl s c).pair = s.pair := rfl
@[simp] theorem putColl_cus (c : Collector) : (putColl s c).cus = s.cus := rfl
@[simp] theorem putColl_bring (c : Collector) : (putColl s c).bring = s.bring := rfl
@[simp] theorem putColl_out (c : Collector) : (putColl s c).out = s.out := rfl

/-! ### logEvent -/

@[simp] theorem logEvent_pending (code i p d : Nat) : (logEvent s code i p d).pending = s.pending := rfl
@[simp] theorem logEvent_free (code i p d : Nat) : (logEvent s code i p d).free = s.free := rfl
@[simp] theorem logEvent_regs (code i p d : Nat) : (logEvent s code i p d).regs = s.regs := rfl
@[simp] theorem logEvent_licences (code i p d : Nat) : (logEvent s code i p d).licences = s.licences := rfl
@[simp] theorem logEvent_stage (code i p d : Nat) : (logEvent s code i p d).stage = s.stage := rfl
@[simp] theorem logEvent_mem (code i p d : Nat) : (logEvent s code i p d).mem = s.mem := rfl
@[simp] theorem logEvent_tier (code i p d : Nat) : (logEvent s code i p d).tier = s.tier := rfl
@[simp] theorem logEvent_work (code i p d : Nat) : (logEvent s code i p d).work = s.work := rfl
@[simp] theorem logEvent_host (code i p d : Nat) : (logEvent s code i p d).host = s.host := rfl
@[simp] theorem logEvent_eng (code i p d : Nat) : (logEvent s code i p d).eng = s.eng := rfl
@[simp] theorem logEvent_prt (code i p d : Nat) : (logEvent s code i p d).prt = s.prt := rfl
@[simp] theorem logEvent_ucs (code i p d : Nat) : (logEvent s code i p d).ucs = s.ucs := rfl
@[simp] theorem logEvent_flt (code i p d : Nat) : (logEvent s code i p d).flt = s.flt := rfl
@[simp] theorem logEvent_age (code i p d : Nat) : (logEvent s code i p d).age = s.age := rfl
@[simp] theorem logEvent_pair (code i p d : Nat) : (logEvent s code i p d).pair = s.pair := rfl
@[simp] theorem logEvent_cus (code i p d : Nat) : (logEvent s code i p d).cus = s.cus := rfl
@[simp] theorem logEvent_bring (code i p d : Nat) : (logEvent s code i p d).bring = s.bring := rfl
@[simp] theorem logEvent_out (code i p d : Nat) : (logEvent s code i p d).out = s.out := rfl

/-! ### putBring -/

@[simp] theorem putBring_pending (b : BringState) : (putBring s b).pending = s.pending := rfl
@[simp] theorem putBring_free (b : BringState) : (putBring s b).free = s.free := rfl
@[simp] theorem putBring_regs (b : BringState) : (putBring s b).regs = s.regs := rfl
@[simp] theorem putBring_licences (b : BringState) : (putBring s b).licences = s.licences := rfl
@[simp] theorem putBring_stage (b : BringState) : (putBring s b).stage = s.stage := rfl
@[simp] theorem putBring_mem (b : BringState) : (putBring s b).mem = s.mem := rfl
@[simp] theorem putBring_tier (b : BringState) : (putBring s b).tier = s.tier := rfl
@[simp] theorem putBring_work (b : BringState) : (putBring s b).work = s.work := rfl
@[simp] theorem putBring_dict (b : BringState) : (putBring s b).dict = s.dict := rfl
@[simp] theorem putBring_host (b : BringState) : (putBring s b).host = s.host := rfl
@[simp] theorem putBring_eng (b : BringState) : (putBring s b).eng = s.eng := rfl
@[simp] theorem putBring_prt (b : BringState) : (putBring s b).prt = s.prt := rfl
@[simp] theorem putBring_ucs (b : BringState) : (putBring s b).ucs = s.ucs := rfl
@[simp] theorem putBring_flt (b : BringState) : (putBring s b).flt = s.flt := rfl
@[simp] theorem putBring_age (b : BringState) : (putBring s b).age = s.age := rfl
@[simp] theorem putBring_pair (b : BringState) : (putBring s b).pair = s.pair := rfl
@[simp] theorem putBring_cus (b : BringState) : (putBring s b).cus = s.cus := rfl
@[simp] theorem putBring_bring (b : BringState) : (putBring s b).bring = b := rfl
@[simp] theorem putBring_out (b : BringState) : (putBring s b).out = s.out := rfl

/-! ### putCus -/

@[simp] theorem putCus_pending (c : CustomsState) : (putCus s c).pending = s.pending := rfl
@[simp] theorem putCus_free (c : CustomsState) : (putCus s c).free = s.free := rfl
@[simp] theorem putCus_regs (c : CustomsState) : (putCus s c).regs = s.regs := rfl
@[simp] theorem putCus_licences (c : CustomsState) : (putCus s c).licences = s.licences := rfl
@[simp] theorem putCus_stage (c : CustomsState) : (putCus s c).stage = s.stage := rfl
@[simp] theorem putCus_mem (c : CustomsState) : (putCus s c).mem = s.mem := rfl
@[simp] theorem putCus_tier (c : CustomsState) : (putCus s c).tier = s.tier := rfl
@[simp] theorem putCus_work (c : CustomsState) : (putCus s c).work = s.work := rfl
@[simp] theorem putCus_dict (c : CustomsState) : (putCus s c).dict = s.dict := rfl
@[simp] theorem putCus_host (c : CustomsState) : (putCus s c).host = s.host := rfl
@[simp] theorem putCus_eng (c : CustomsState) : (putCus s c).eng = s.eng := rfl
@[simp] theorem putCus_prt (c : CustomsState) : (putCus s c).prt = s.prt := rfl
@[simp] theorem putCus_ucs (c : CustomsState) : (putCus s c).ucs = s.ucs := rfl
@[simp] theorem putCus_flt (c : CustomsState) : (putCus s c).flt = s.flt := rfl
@[simp] theorem putCus_age (c : CustomsState) : (putCus s c).age = s.age := rfl
@[simp] theorem putCus_pair (c : CustomsState) : (putCus s c).pair = s.pair := rfl
@[simp] theorem putCus_cus (c : CustomsState) : (putCus s c).cus = c := rfl
@[simp] theorem putCus_bring (c : CustomsState) : (putCus s c).bring = s.bring := rfl
@[simp] theorem putCus_out (c : CustomsState) : (putCus s c).out = s.out := rfl

/-! ### putPair -/

@[simp] theorem putPair_pending (x : PairState) : (putPair s x).pending = s.pending := rfl
@[simp] theorem putPair_free (x : PairState) : (putPair s x).free = s.free := rfl
@[simp] theorem putPair_regs (x : PairState) : (putPair s x).regs = s.regs := rfl
@[simp] theorem putPair_licences (x : PairState) : (putPair s x).licences = s.licences := rfl
@[simp] theorem putPair_stage (x : PairState) : (putPair s x).stage = s.stage := rfl
@[simp] theorem putPair_mem (x : PairState) : (putPair s x).mem = s.mem := rfl
@[simp] theorem putPair_tier (x : PairState) : (putPair s x).tier = s.tier := rfl
@[simp] theorem putPair_work (x : PairState) : (putPair s x).work = s.work := rfl
@[simp] theorem putPair_dict (x : PairState) : (putPair s x).dict = s.dict := rfl
@[simp] theorem putPair_host (x : PairState) : (putPair s x).host = s.host := rfl
@[simp] theorem putPair_eng (x : PairState) : (putPair s x).eng = s.eng := rfl
@[simp] theorem putPair_prt (x : PairState) : (putPair s x).prt = s.prt := rfl
@[simp] theorem putPair_ucs (x : PairState) : (putPair s x).ucs = s.ucs := rfl
@[simp] theorem putPair_flt (x : PairState) : (putPair s x).flt = s.flt := rfl
@[simp] theorem putPair_age (x : PairState) : (putPair s x).age = s.age := rfl
@[simp] theorem putPair_pair (x : PairState) : (putPair s x).pair = x := rfl
@[simp] theorem putPair_cus (x : PairState) : (putPair s x).cus = s.cus := rfl
@[simp] theorem putPair_bring (x : PairState) : (putPair s x).bring = s.bring := rfl
@[simp] theorem putPair_out (x : PairState) : (putPair s x).out = s.out := rfl

/-! ### draw -/

@[simp] theorem draw_fst : (draw s).1 = s.free := rfl
@[simp] theorem draw_pending : (draw s).2.pending = s.pending := rfl
@[simp] theorem draw_free : (draw s).2.free = s.free + 1 := rfl
@[simp] theorem draw_regs : (draw s).2.regs = s.regs := rfl
@[simp] theorem draw_licences : (draw s).2.licences = s.licences := rfl
@[simp] theorem draw_stage : (draw s).2.stage = s.stage := rfl
@[simp] theorem draw_mem : (draw s).2.mem = s.mem := rfl
@[simp] theorem draw_tier : (draw s).2.tier = s.tier := rfl
@[simp] theorem draw_work : (draw s).2.work = s.work := rfl
@[simp] theorem draw_dict : (draw s).2.dict = s.dict := rfl
@[simp] theorem draw_host : (draw s).2.host = s.host := rfl
@[simp] theorem draw_eng : (draw s).2.eng = s.eng := rfl
@[simp] theorem draw_prt : (draw s).2.prt = s.prt := rfl
@[simp] theorem draw_ucs : (draw s).2.ucs = s.ucs := rfl
@[simp] theorem draw_flt : (draw s).2.flt = s.flt := rfl
@[simp] theorem draw_age : (draw s).2.age = s.age := rfl
@[simp] theorem draw_pair : (draw s).2.pair = s.pair := rfl
@[simp] theorem draw_cus : (draw s).2.cus = s.cus := rfl
@[simp] theorem draw_bring : (draw s).2.bring = s.bring := rfl
@[simp] theorem draw_out : (draw s).2.out = s.out := rfl

/-! ### What is read back -/

theorem core_putCore_ne {n m : Nat} (x : Core) (h : m ≠ n) : core (putCore s n x) m = core s m := smGet_smSet_ne _ _ _ h
theorem core_putCore_self {n : Nat} {x : Core} (h : x ≠ {}) : core (putCore s n x) n = x := smGet_smSet_self _ _ _ _ h
theorem cluster_putCluster_ne {k j : Nat} (x : Cluster) (h : j ≠ k) : cluster (putCluster s k x) j = cluster s j := smGet_smSet_ne _ _ _ h
theorem cluster_putCluster_self {k : Nat} {x : Cluster} (h : x ≠ {}) : cluster (putCluster s k x) k = x := smGet_smSet_self _ _ _ _ h
theorem slotAt_putSlot_ne {k j : Nat} (x : Slot) (h : j ≠ k) : slotAt (putSlot s k x) j = slotAt s j := smGet_smSet_ne _ _ _ h
theorem slotAt_putSlot_self {k : Nat} {x : Slot} (h : x ≠ .free) : slotAt (putSlot s k x) k = x := smGet_smSet_self _ _ _ _ h
theorem part_putPart_ne {p q : Nat} (x : Part) (h : q ≠ p) : part (putPart s p x) q = part s q := smGet_smSet_ne _ _ _ h
theorem part_putPart_self {p : Nat} {x : Part} (h : x ≠ {}) : part (putPart s p x) p = x := smGet_smSet_self _ _ _ _ h
theorem context_putContext_ne {c d : Nat} (x : Option Context) (h : d ≠ c) : context (putContext s c x) d = context s d :=
  smGet_smSet_ne _ _ _ h
theorem site_putSite_ne {k j : Nat} (x : Site) (h : j ≠ k) : site (putSite s k x) j = site s j := smGet_smSet_ne _ _ _ h
theorem engine_putEngine_ne {e f : Nat} (x : Engine) (h : f ≠ e) : engine (putEngine s e x) f = engine s f := smGet_smSet_ne _ _ _ h
theorem regRaw_regPut_ne {r q : Reg} (v : Nat) (h : regKey q ≠ regKey r) : regRaw (regPut s r v) q = regRaw s q := by
  unfold regRaw regPut smGet smSet
  dsimp only
  split
  · rw [smFind_smErase_ne _ h]
  · rw [smFind_smInsert_ne _ _ h]
@[simp] theorem hbm_putHbm (m : HbmMem) : hbm (putHbm s m) = m := rfl

end Sys2Proof.Machine
end

