-- ==== Sys2Proof/Tests/Slice0.lean ====
section
/-!
SUPPORT. Tests: commands that WellFormed refuses, words of commands, and for each statement states and operands that meet its
hypotheses, clause by clause, at the ends of their ranges.
-/
namespace Sys2Proof.Tests
set_option Elab.async false
open Sys2Proof Sys2Proof.Machine Sys2Proof.Machine.Claims

/-! ### Small states -/

/-- The hub of a Route product with cluster 0 loaded and core 0 holding `x`. -/
def hubWith (x : Core) (k : Cluster := {}) : State :=
  { State.reset with licences := 2, prt := { State.reset.prt with cores := [(0, x)], clusters := [(0, { k with loaded := true })] } }

/-! ### The queue -/

theorem test_front_command : ({ State.reset with pending := [.armSend] } : State).pending = .armSend :: [] := by decide
theorem test_queue_empty : State.reset.pending = [] := by decide

/-! ### Porter cores -/

theorem test_runs : Runs (hubWith {}) 0 := by unfold Runs; decide +kernel
theorem test_runs_user_last_core : Runs ({ State.reset with licences := 2, prt := { State.reset.prt with
    cores := [(25599, { pc := 0x800000000001FFFC#64, user := true, uwinLimit := 0x20000 })], clusters := [(1599, { loaded := true })] } }) 25599 := by
  unfold Runs; decide +kernel
theorem test_divide_by_zero : gNow (hubWith { g := [(1, 7)] }) 0 2 = 0 := by decide +kernel
theorem test_divide_overflow : gNow (hubWith { g := [(1, BitVec.intMin 64), (2, BitVec.allOnes 64)] }) 0 1 = BitVec.intMin 64 ∧
    gNow (hubWith { g := [(1, BitVec.intMin 64), (2, BitVec.allOnes 64)] }) 0 2 = BitVec.allOnes 64 := by decide +kernel
theorem test_shi_kinds : (0x3F#8).extractLsb' 6 2 = 0#2 ∧ (0x40#8).extractLsb' 6 2 = 1#2 ∧ (0xBF#8).extractLsb' 6 2 = 2#2 ∧
    (0xFF#8).extractLsb' 6 2 = 3#2 := by decide
theorem test_min_not_open : minOpen 0x3F800000 0x40000000 = false := by decide +kernel
/-- N4I weights and N8I activations in the format words of NDOT, at the highest groups that fit. -/
theorem test_ndot_formats : ∃ f h, fmtOf (bitsOf 0x100070000 15 0) = some f ∧ fmtOf (bitsOf 0x100070000 31 16) = some h ∧
    f.elem.isWeight = true ∧ h.elem.isAct = true ∧ 16 * bitsOf 0x100070000 35 32 + 16 ≤ vElems f.elem ∧
    16 * bitsOf 0x100070000 39 36 + 16 ≤ vElems h.elem := by
  refine ⟨_, _, rfl, rfl, ?_⟩; decide +kernel
theorem test_ncvt_format : ∃ f, fmtOf (bitsOf 0x30007 15 0) = some f ∧ groupFits f.elem (bitsOf 0x30007 23 16) = true ∧ f.scale = 0 ∧
    f.mx = false := by
  refine ⟨_, rfl, ?_⟩; decide +kernel
/-- FP32 add of 1 and 2 (IEEE 754): 3. -/
theorem test_fadd : f32add 0x3F800000 0x40000000 = 0x40400000 := by decide +kernel
/-- R129: the first state of the LFSR from 1. -/
theorem test_lfsr : lfsrStep 1 = 0x80200003 := by decide
theorem test_format_good : fmtOf 0x0007 ≠ none ∧ fmtOf 0xFFFF = none ∧ bitsOf 0x8007 15 14 ≠ 0 ∧ bitsOf 0x0207 9 9 ≠ 0 := by decide +kernel

/-! ### Loads and stores -/

/-- The hub with two stacks of HBM, whose first granule is that of partition 0, and core 0 in a step of that partition. -/
def hubHbm (x : Core := {}) : State :=
  { hubWith { x with ctxPart := 0 } with
    mem := { State.reset.mem with westGib := 24, eastGib := 24, gmap := [(0, some { mode := 0, slabA := 0, slabB := 1 })],
                                  stackSt := [(0, { cap := 1, inService := true }), (4, { cap := 1, inService := true })] }
    work := { State.reset.work with parts := [(0, { enable := true, granules := [{ granule := 0, slabA := 0, slabB := 1, mode := 0 }],
                                                    meSlots := 2 ^ 128 - 1, seraiWays := 0xFFFF, contextMax := 4, queueBlocks := 1, syncBlocks := 1, domain := 0 })] } }

/-- Core 0 carries out a load or store with its address in G2 that meets a condition on the access, the core and the hub. -/
def formAt (y : Core) (ea : BitVec 64) (p : MemOp → Core → State → Bool) : Bool :=
  let s := hubHbm { y with g := [(1, 5), (2, ea)] }
  coreActive s 0 && decide ((Machine.core s 0).wait = .none) && !coreTakes s (Machine.core s 0) && fetchOk s (Machine.core s 0) &&
    (memTable s 0 1 2 0).any (fun e => decide (e.2.addr % e.2.size = 0) && p e.2 (begun s 0) (during s 0))

/-- A core in user mode that fetches from its window of the cluster store. -/
def userCore : Core := { pc := 0x8000000000000000#64, user := true, uwinLimit := 0x1FFFF }

theorem test_form_misaligned : Runs (hubHbm { g := [(2, 1)] }) 0 ∧
    (memTable (hubHbm { g := [(2, 1)] }) 0 1 2 0).any (fun e => decide (e.2.addr % e.2.size ≠ 0)) = true := by unfold Runs; decide +kernel
theorem test_form_nothing : formAt {} 0x10000000000000#64 (fun _ _ _ => decide (placeOf 0x10000000000000#64 = .nothing)) = true ∧
    formAt {} 0x8000000000020100#64 (fun _ _ _ => decide (placeOf 0x8000000000020100#64 = .nothing)) = true := by decide +kernel
theorem test_form_store_denied : formAt userCore 0x800000000001FFF8#64 (fun o x _ => o.size == 8 && !storeOk x 0x1FFF8 8) = true := by decide +kernel
theorem test_form_store_load : formAt {} 0x800000000001FFF0#64 (fun o x _ => o.size == 16 && o.store.isNone && storeOk x 0x1FFF0 16) = true := by
  decide +kernel
theorem test_form_store_store : formAt {} 0x800000000001FFFF#64 (fun o x _ => o.size == 1 && o.store.isSome && storeOk x 0x1FFFF 1) = true := by
  decide +kernel
theorem test_form_regs_user : formAt userCore 0x8000000000020000#64 (fun _ x _ => x.user && decide (placeOf 0x8000000000020000#64 = .regs 0)) = true := by
  decide +kernel
theorem test_form_regs_load : formAt {} 0x80000000000200FF#64 (fun o x _ => !x.user && o.store.isNone && o.size == 1) = true := by decide +kernel
theorem test_form_regs_store : formAt {} 0x8000000000020038#64 (fun o x _ => !x.user && o.store.isSome && o.size == 8) = true := by decide +kernel
theorem test_form_soft : formAt {} 0x8000000000020038#64 (fun o x _ => !x.user && o.store.isSome && o.size == 4) = true := by decide +kernel
theorem test_form_rom_user : formAt userCore 0x8000000000033FFF#64 (fun o x _ => x.user && o.store.isNone) = true := by decide +kernel
theorem test_form_rom_store : formAt {} 0x8000000000030000#64 (fun o _ _ => o.store.isSome) = true := by decide +kernel
theorem test_form_rom_load : formAt {} 0x8000000000033FFF#64 (fun o x _ => !x.user && o.store.isNone) = true := by decide +kernel
theorem test_form_ha_denied : formAt {} 0x40000000#64 (fun o x u => o.store.isSome && !windowOk u x (2 ^ 30) o.size) = true := by decide +kernel
theorem test_form_ha_tracked : formAt { tracker := [{ lo := 2 ^ 30 - 1, len := 1, writes := [] }] } 0x3FFFFFF8#64
    (fun o x u => o.store.isNone && o.size == 8 && readOk u x (2 ^ 30 - 8) 8 && trackedAt x (2 ^ 30 - 8) 8) = true := by decide +kernel
theorem test_form_ha_miss : formAt {} 0x0#64 (fun o x u => o.store.isSome && windowOk u x 0 o.size && !trackedAt x 0 o.size && (l0Find x 0).isNone) = true := by
  decide +kernel
theorem test_form_ha_hit : formAt { l0d := [(0, some { line := 0, data := 1 })] } 0x38#64
    (fun o x u => o.size == 8 && readOk u x 0x38 8 && windowOk u x 0x38 8 && !trackedAt x 0x38 8 && (l0Find x 0).isSome) = true := by decide +kernel
theorem test_vector_load_illegal : Runs (hubHbm {}) 0 ∧ 16 ≤ (16 : Fin 32).val ∧ 16 ≤ (31 : Fin 32).val := by unfold Runs; decide +kernel
theorem test_store_canonical : smWf {} (hubHbm).prt.clusters = true ∧ smWf 0 (Machine.cluster hubHbm 0).store = true := by decide +kernel

/-! ### System instructions -/

/-- The L0 caches and the tracker are empty, so nothing is to be written back. -/
theorem test_clean : clean (hubHbm {}) 0 0 0 true ∧ clean (hubHbm {}) 0 0 128 false := by unfold clean; decide +kernel
theorem test_flush_kinds : BitVec.ofNat 9 (2 * b2n true + b2n true) = 3#9 ∧ BitVec.ofNat 9 (2 * b2n true) = 2#9 ∧ 4 ≤ (4#9).toNat ∧
    4 ≤ (511#9).toNat ∧ (1#9) ≠ 0 ∧ (1#9) ≠ 2 := by decide
theorem test_step_done_user : (begun (hubWith { pc := 0x8000000000000000#64, user := true, uwinLimit := 64 }) 0).user = true ∧
    (begun (hubWith {}) 0).tags.contains .pending = false ∧ (begun (hubWith {}) 0).tracker = [] := by decide +kernel
theorem test_fetch_fault : coreActive (hubWith { pc := 0x10000000000000#64 }) 0 = true ∧
    coreTakes (hubWith { pc := 0x10000000000000#64 }) (Machine.core (hubWith { pc := 0x10000000000000#64 }) 0) = false ∧
    fetchOk (hubWith { pc := 0x10000000000000#64 }) (Machine.core (hubWith { pc := 0x10000000000000#64 }) 0) = false ∧
    ∀ h, placeOf (pcNow (hubWith { pc := 0x10000000000000#64 }) 0) ≠ .ha h := by
  refine ⟨by decide +kernel, by decide +kernel, by decide +kernel, fun h => ?_⟩
  have : placeOf (pcNow (hubWith { pc := 0x10000000000000#64 }) 0) = .nothing := by decide +kernel
  rw [this]; exact fun e => nomatch e
theorem test_tret : ({ retpc := 0x8000000000000004#64 } : Core).retpc.toNat % 4 = 0 ∧ ({ retpc := 0x8000000000000003#64 } : Core).retpc.toNat % 4 ≠ 0 := by
  decide
theorem test_sleep : coreReady (hubWith {}) {} = 0#5 ∧ coreReady (hubWith { pending := 1#5 }) { pending := 1#5 } ≠ 0#5 := by decide +kernel
theorem test_control_registers : ccVal (hubWith {}) 0 {} 0 = some 0 ∧ ccVal (hubWith {}) 0 {} 0x3FFF = none ∧ ccAllowed {} 0x010 true = true ∧
    ccAllowed { user := true } 0x001 false = false ∧ ccAllowed { user := true } 0x010 true = false := by decide +kernel
theorem test_interrupt : coreActive (hubWith { ie := true, pending := 1#5 }) 0 = true ∧
    coreTakes (hubWith { ie := true, pending := 1#5 }) (Machine.core (hubWith { ie := true, pending := 1#5 }) 0) = true ∧
    (Machine.core (hubWith { ie := true, pending := 1#5 }) 0).wait = .none := by decide +kernel
theorem test_timer : coreActive (hubWith {}) 0 = true ∧ (Machine.core (hubWith {}) 0).pending.getLsbD 3 = false := by decide +kernel

/-- Slot 0 is a tally of partition 0. -/
def hubTally (v : Nat) (x : Core := {}) : State := let s := hubHbm x; { s with work := { s.work with slots := [(0, .tally v none)] } }
theorem test_tally : isTally (hubTally 0) 0 0 = true ∧ isTally (hubTally 0) 0 1 = false ∧ isTally (hubTally 0) 0xF 0 = false := by decide +kernel
theorem test_tally_runs : Runs (hubTally 7 {}) 0 ∧ (begun (hubTally 7 {}) 0).ctxPart ≠ 0xF ∧
    (BitVec.ofNat 32 (2 ^ 32 - 1) - BitVec.ofNat 32 (2 ^ 31 - 1)).toInt < 0 ∧ (BitVec.ofNat 32 0 - BitVec.ofNat 32 0).toInt ≥ 0 := by
  unfold Runs; decide +kernel
theorem test_tally_wait_ends : (Machine.core (hubTally 7 { wait := .tally 0 1 7 true }) 0).wait = .tally 0 1 7 true ∧
    tallyGe (tallyValue (hubTally 7 {}) 0) 7 = true := by decide +kernel

/-- BMOVE from 0 to 256 bytes further within the cluster store, and from HA. -/
theorem test_move : rangesMeet 0 256 256 256 = false ∧ moveReach (hubHbm) {} 0x8000000000000000#64 256 false = true ∧
    moveReach hubHbm {} 0x800000000001FF00#64 256 true = true ∧ moveReach hubHbm { ctxPart := 0 } 0x100#64 256 false = true ∧
    moveReach hubHbm {} 0x8000000000020000#64 256 true = false := by decide +kernel
theorem test_cma : freeBuffer {} = some 0 ∧ freeBuffer { tags := [.pending, .done] } ≠ none ∧ freeBuffer { tags := [.pending, .pending] } = none ∧
    tagStatus { tags := [.pending, .none] } 15 30 = .pending ∧ tagStatus {} 0 0 ≠ .pending := by decide +kernel
theorem test_cma_offsets : 0x1FFC0 % 64 = 0 ∧ 0x1FFC0 < 0x20000 ∧ 0x20 % 64 ≠ 0 := by decide
theorem test_cma_ends : (cluster (hubWith {} { cma := [⟨0, 0⟩] }) 0).cma = ⟨0, 0⟩ :: [] ∧ cmaOf ((span 0 64).map (fun _ => 255)) = none := by decide +kernel
theorem test_cma_wait_ends : (Machine.core (hubWith { wait := .cma 1 0, tags := [.done, .none] }) 0).wait = .cma 1 0 ∧
    tagStatus (Machine.core (hubWith { wait := .cma 1 0, tags := [.done, .none] }) 0) 0 0 ≠ .pending := by decide +kernel

/-! ### Events of the clusters -/

/-- Core 0 waits for line 0, whose data has come. -/
def hubFill : State :=
  let s := hubHbm { wait := .fill { reg := 1, addr := 0, size := 8, signed := false, vec := false, store := none }, sent := true }
  { s with mem := { s.mem with answers := [{ who := .core 0, line := 0, data := 1, status := .complete }] } }
theorem test_fill : awaitedRead (Machine.core hubFill 0) = some (0, 0, 0) ∧ (answerOf hubFill 0 0 false).isSome = true ∧
    passed (dropAnswer hubFill { who := .core 0, line := 0, data := 1, status := .complete }) 0 = false ∧
    (l0Install (dropAnswer hubFill { who := .core 0, line := 0, data := 1, status := .complete }) (Machine.core hubFill 0)
      { line := 0, data := 1 }).isSome = true := by decide +kernel
theorem test_write_accepted : ({ hubHbm with mem := { State.reset.mem with answers := [{ who := .core 0, line := 0, data := 0, status := .complete, write := true }] } } :
    State).mem.answers.find? (fun a => a.who == .core 0 && a.write) = some { who := .core 0, line := 0, data := 0, status := .complete, write := true } := by
  decide +kernel
theorem test_core_fault : (Machine.core (hubWith { ie := true }) 0).halted = false ∧
    ((Machine.core (hubWith { ie := true }) 0).user || (Machine.core (hubWith { ie := true }) 0).ie) = true ∧
    l0Find { l0d := [(0, some { line := 0, data := 1 })] } 0 = some (0, { line := 0, data := 1 }) := by decide +kernel
/-- The last wave of 100 with its cluster licensed and not loaded. -/
def hubWaves : State := { State.reset with licences := 2, prt := { State.reset.prt with fetchAt := some 0 } }
theorem test_wave : hubWaves.prt.fetchAt = some 0 ∧ 99 < hubWaves.prt.waves ∧ hubWaves.prt.released.contains 99 = false ∧
    tileLicensed hubWaves 9 = true ∧ (cluster hubWaves 99).loaded = false := by decide +kernel
theorem test_core_frame : (hubWith { g := [(1, 5)] }).coresOk = true := by decide +kernel
theorem test_computes : computes (.add 0 1 2 3) = some (0, some 1, none) ∧ computes (.vadd32 0 15 2 3) = some (0, none, some 15) ∧
    computes (.beq 25599 1 2 0) = some (25599, none, none) ∧ computes .armSend = none := by decide

/-! ### The home of a line and HBM -/

/-- A read of line 0 by core 0 with a deadline at the hub time 1. -/
def read0 : Req := { who := .core 0, op := .rdCur, line := 0, deadline := 1 }
/-- The hub with one transaction. -/
def hubTxn (t : Txn) : State := { hubHbm with mem := { hubHbm.mem with txns := [t] } }

theorem test_home_read : awaitedRead (Machine.core { hubFill with prt := { hubFill.prt with cores := [(0, { Machine.core hubFill 0 with sent := false })] } } 0)
    = some (0, 0, 0) := by decide +kernel
theorem test_home_write : nextWrite { tracker := [{ lo := 0, len := 128, writes := [{ line := 0, data := 0, mask := BitVec.allOnes 128, hint := 0 }] }] } 0 =
    some { line := 0, data := 0, mask := BitVec.allOnes 128, hint := 0 } := by decide +kernel
theorem test_admission : admissionHeld hubHbm 0 (initPart hubHbm 0) = false ∧ admission hubHbm 0 (initPart hubHbm 0) 0 ≠ .held ∧
    admissionHeld { hubHbm with stage := { hubHbm.stage with held := [{ init := 0, part := 0, cls := 0, bytes := 128, req := read0 }] } } 0 0 = true := by
  decide +kernel
theorem test_held : (nextHeld (hubTxn { line := 0, req := none, merged := [read0] }) 0).isSome = true ∧
    (nextHeld (hubTxn { line := 0, req := none }) 0).isSome = true := by decide +kernel
theorem test_miss_failed : txnFind (hubTxn { line := 0, req := some read0, missing := true, hbmDone := some .uncorrectable }) 0 =
    some { line := 0, req := some read0, missing := true, hbmDone := some .uncorrectable } ∧ isHbm (lineHa 0) = true := by decide +kernel
theorem test_miss_poisoned : (lowerLine { hubHbm with mem := { hubHbm.mem with hbm := { poison := [1] } } } 0).2 = true := by decide +kernel
theorem test_miss_filled : (lowerLine (hubTxn { line := 0, req := some read0, missing := true, hbmDone := some .complete }) 0).2 = false ∧
    (match seraiAlloc (hubTxn { line := 0, req := some read0, missing := true, hbmDone := some .complete }) 0 0 0 false false with
      | .way _ _ => true | _ => false) = true := by decide +kernel
theorem test_deadline : ({ hubHbm with stage := { hubHbm.stage with held := [{ init := 0, part := 0, cls := 0, bytes := 128, req := read0 }] } } : State).stage.held.find?
    (fun h => !h.instant && h.req.isLate (.core 0) 0) = some { init := 0, part := 0, cls := 0, bytes := 128, req := read0 } := by decide +kernel
theorem test_packet : (replaceAnswer hubFill 0 0 false .uncorrectable).isSome = true := by decide +kernel
theorem test_lost : (lostRequest (hubTxn { line := 0, req := some read0 }) (.core 0) 0).isSome = true ∧ read0.isWrite = false := by decide +kernel
theorem test_sweep : ({ hubHbm with mem := { hubHbm.mem with sweep := [15] } } : State).mem.sweep ≠ [] := by decide
theorem test_zeroing : smGet none [(191, some 0)] 191 = some 0 := by decide

theorem test_hbm_place : isHbm (lineHa 0) = true ∧ (hbmPlace hubHbm 0).isSome = true ∧ (pcEntries hubHbm 0 0).length < 32 ∧
    (stackOf hubHbm 0).inService = true ∧ (stackOf hubHbm 0).selfRefresh = false := by decide +kernel
theorem test_hbm_request : ((hubTxn { line := 0, req := some read0, missing := true }).mem.txns.map (fun t => t.missing && !t.hbmSent)) = [true] ∧
    (([] : List HbmEntry).length < ([{ tile := 0, line := 0, data := 0 }] : List WbBuf).length) := by decide
/-- An entry of line 0 in controller 0, and the hub with it. -/
def entry0 (w i : Bool) : HbmEntry := { stack := 0, pc := 0, bank := 0, row := 0, line := 0, isWrite := w, arrived := 0, issued := i }
def hubEntry (w i : Bool) (n : Nat) : State := { hubHbm with mem := { hubHbm.mem with
  entries := [entry0 w i], txns := [{ line := 0, req := some read0, missing := true }], wbBufs := [{ tile := 0, line := 0, data := 5 }],
  stackSt := [(0, { cap := 1, inService := true, writing := [(0, n)] })] } }
theorem test_read_issue : smGet 0 (stackOf (hubEntry false false 0) 0).writing 0 = 0 ∧
    nextEntry (hubEntry false false 0) ((pcEntries (hubEntry false false 0) 0 0).filter (fun e => !e.isWrite && !e.issued && !bankHeld (hubEntry false false 0) e)) =
      some (entry0 false false) ∧
    (entryReqs (dropPassed (hubEntry false false 0) 0) (entry0 false false)).all (fun r => r.isRead && r.dropped) = false := by decide +kernel
theorem test_mode_switch : ((List.replicate 12 (entry0 true false)).filter (fun e => e.isWrite)).length = 12 ∧ 13 ≤ smGet 0 [(63, 13)] 63 ∧
    smGet 0 [(63, 13)] 63 ≠ 0 := by decide
theorem test_read_data : (hubEntry false true 0).mem.entries.find? (fun e => e.line == 0 && !e.isWrite && e.issued) = some (entry0 false true) ∧
    (txnFind (hubEntry false true 0) 0).isSome = true ∧ sectorEnd (hubEntry false true 0) (lineHa 0) .good = .good ∧
    sectorEnd (hubEntry false true 0) (lineHa 0 + 64) .good = .good := by decide +kernel
theorem test_writeback : (hubEntry true false 12).mem.entries.find? (fun e => e.line == 0 && e.isWrite) = some (entry0 true false) ∧
    (hubEntry true false 12).mem.wbBufs.find? (fun b => b.line == 0) = some { tile := 0, line := 0, data := 5 } ∧
    smGet 0 (stackOf (hubEntry true false 12) 0).writing 0 = 12 ∧ bankHeld (hubEntry true false 12) (entry0 true false) = false := by decide +kernel
/-- A stack in service with the scrub and repair enabled, and rows. -/
def hubStack (x : HbmStack) : State := { hubHbm with
  regs := (regPut (regPut hubHbm ⟨.hbcScrubCtrl, 0, 0⟩ (2 ^ 31)) ⟨.hbcRepairCtrl, 0, 0⟩ 0x108).regs
  mem := { hubHbm.mem with stackSt := [(0, { x with cap := 1, inService := true })] } }
theorem test_scrub : (stackOf (hubStack {}) 0).inService = true ∧ regBits (hubStack {}) ⟨.hbcScrubCtrl, 0, 0⟩ 31 31 = 1 ∧
    rowsOf (stackOf (hubStack {}) 0).cap ≠ 0 ∧ (stackOf (hubStack {}) 0).repairing = none ∧
    (placeHa (hubStack {}) 0 (scrubPlace 1 0).1 (scrubPlace 1 0).2.1).isSome = true ∧
    (placeHa (hubStack {}) 0 (scrubPlace 1 (sectorsOf 1 - 1)).1 (scrubPlace 1 (sectorsOf 1 - 1)).2.1) = none := by decide +kernel
theorem test_repair : (stackOf (hubStack { due := [⟨0, 0, 0⟩] }) 0).due = ⟨0, 0, 0⟩ :: [] ∧ regBits (hubStack { due := [⟨0, 0, 0⟩] }) ⟨.hbcRepairCtrl, 0, 0⟩ 8 8 ≠ 0 ∧
    (stackOf (hubStack { due := [⟨0, 0, 0⟩] }) 0).repairing = none ∧ (List.replicate 1023 (⟨0, 0, 0⟩ : HbmRow)).length < 1024 ∧
    1024 ≤ (List.replicate 1024 (⟨0, 0, 0⟩ : HbmRow)).length := by decide +kernel
theorem test_repair_done : (stackOf (hubStack { repairing := some ⟨63, 15, 0⟩ }) 0).repairing = some ⟨63, 15, 0⟩ := by decide +kernel

/-! ### Tier commands and maintenance -/

/-- A context of partition 0 with four bales at the base of its tier block. -/
def ctx0 : Context := { fn := 0, pasid := 0, ownerTag := 0, tier := { base := tierBase, bales := 4, poolSlots := 4, parkSlots := 4 } }
/-- A step of queue 0 with its body. -/
def step0 (b : StepBody) (p : StepPhase := .begun) : Step :=
  { id := 0, prev := none, queue := 0, ctx := 0, part := 0, recAddr := 0, span := 1, flags := 0, sealSlot := 0, cookie := 0, wait := 0, signal := 0,
    waitValue := 0, signalAdd := 0, body := b, phase := p }
/-- A TIER step of one command at HA 0 (R296). -/
def hubTier (op flags count : Nat) : State := { hubHbm with
  mem := { hubHbm.mem with hbm := memPutBytes {} 0 (toBytes 1 op ++ toBytes 1 flags ++ toBytes 2 0 ++ toBytes 4 count ++ toBytes 8 tierBase) }
  work := { hubHbm.work with ctxs := [(0, some ctx0)], steps := [step0 (.tier 0 1)] } }
/-- The command of the TIER step is read, and is the operation `op`, malformed or not. -/
def tierReads (s : State) (op : Nat) (bad : Bool) : Bool :=
  match tierStepOf s 0, context s 0, readNow s 0 32 0 with
  | some x, some c, .done u b => decide (x.body = .tier 0 1) && inWindows s 0 0 0 32 && (tierCmdOf b).malformed u c == bad && (tierCmdOf b).op == op
  | _, _, _ => false
theorem test_tier_malformed : tierReads (hubTier 0 0 1) 0 true = true ∧ tierReads (hubTier 9 0 1) 9 true = true ∧
    tierReads (hubTier 1 0 5) 1 true = true := by decide +kernel
theorem test_tier_lines : tierReads (hubTier 1 0 4) 1 false = true ∧ tierReads (hubTier 2 0 1) 2 false = true ∧
    tierReads (hubTier 3 0 1) 3 false = true ∧ tierReads (hubTier 4 0 1) 4 false = true := by decide +kernel
theorem test_tier_slots : tierReads (hubTier 5 4 4) 5 false = true ∧ tierReads (hubTier 6 8 1) 6 false = true := by decide +kernel
theorem test_tier_tables : tierReads (hubTier 7 0 0) 7 false = true ∧ tierReads (hubTier 8 0 4) 8 false = true := by decide +kernel

/-- An operation on bale 0 that has begun. -/
def op0 (k : TierKind) : TierOp := { tile := 0, fn := 0, bale := 0, ctx := 0, kind := k, step := none, started := true }
def hubOp (k : TierKind) : State := { hubTier 1 0 1 with tier := { State.reset.tier with ops := [op0 k] } }
theorem test_tier_ends : runningOp (hubOp (.fill 0)) 0 0 = some (op0 (.fill 0)) ∧ context (hubOp (.fill 0)) 0 = some ctx0 ∧
    (parkResult (hubOp (.fill 0)) (op0 (.fill 0))).isSome = true ∧ (parkResult (hubOp (.move 3 1)) (op0 (.move 3 1))).isSome = true ∧
    runningOp (hubOp .writeback) 0 0 = some (op0 .writeback) ∧ runningOp (hubOp .evict) 0 0 = some (op0 .evict) ∧
    runningOp (hubOp .replace) 0 0 = some (op0 .replace) ∧ baleBusy (hubOp .evict) 0 0 = false := by decide +kernel
theorem test_tier_commit : (hubTier 1 0 1).work.steps.map (fun x => x.begun) = [true] ∧
    (({ hubTier 1 0 1 with work := { (hubTier 1 0 1).work with steps := [{ step0 (.tier 0 1) with progress := 1 }] } } : State).work.steps.find?
      (fun x => x.queue == 0 && x.begun && match x.body with
        | .tier _ n => decide (n ≤ x.progress) && !(hubTier 1 0 1).tier.ops.any (fun o => o.step == some x.id) | _ => false)).isSome = true := by decide +kernel
theorem test_maintenance : (maintWaits { hubHbm with mem := { hubHbm.mem with maint := [(8, some { op := 1, setWay := false, lo := 0, hi := 0, ways := 0, tile := 0 })] } } 8
    { op := 1, setWay := false, lo := 0, hi := 0, ways := 0, tile := 0 }) = false ∧ bitOf (smGet 0 hubHbm.mem.wayOff 159) 15 = false ∧
    hubHbm.flt.halted = false := by decide +kernel

/-! ### Chiplets -/

/-- The hub with a chiplet at site 0, its module 0 trained, in domain 0 with partition 0. -/
def hubSite (x : Site := {}) (st : DomSt := .up) : State := { hubTier 1 0 1 with
  ucs := { sites := [(0, { x with present := true, modules := [(0, { width := 1 })], reqCr := 4, dataCr := 16, msgCr := 2 })] }
  mem := { hubHbm.mem with domains := [(0, { sites := 1, parts := 1, st := st })] } }
/-- The header of a message: class, opcode, DSLOTS, INIT 0, tag 0, bits above 41 from `hi`. -/
def hdr (cls op slots : Nat) (hi : Nat := 0) : BitVec 128 := BitVec.ofNat 128 (op + 256 * cls + 2048 * slots + 2 ^ 41 * hi)
def takenIn (s : State) (h : BitVec 128) (slots align : Nat) : Bool := match takeIn s 0 h slots align with | .taken _ _ => true | .refused _ => false

theorem test_chiplet_receives : canReceive (hubSite) 0 0 = true ∧ creditsFor hubSite (chipSite hubSite 0) 9 = true := by decide +kernel
theorem test_chiplet_request : isMessage (hdr 0 1 0) 0 1 = true ∧ takenIn hubSite (hdr 0 1 0) 0 128 = true ∧ isMessage (hdr 0 8 9) 0 8 = true ∧
    takenIn hubSite (hdr 0 8 9) 9 128 = true ∧ isMessage (hdr 0 9 0) 0 8 = false := by decide +kernel
theorem test_chiplet_refused : takenIn (hubSite {} .down) (hdr 0 1 0) 0 128 = false ∧ takenIn hubSite (hdr 0 1 1) 0 128 = false ∧
    takenIn hubSite (hdr 0 1 0 (2 ^ 39)) 0 128 = false := by decide +kernel

/-- The hub with the chiplet snooped for line 0. -/
def hubSnoop (k : Snoop) (issued : Bool) : State := { hubSite with
  mem := { (hubSite).mem with txns := [{ line := 0, req := none, snoops := [{ site := 0, kind := k, issued := issued, time := 0 }] }] } }
def snooped (k : Snoop) : Bool := match txnFind (received (hubSnoop k true) 0) 0 with | some t => (t.snoopTo (chipSite (hubSnoop k true) 0)).isSome | none => false
theorem test_snoop : (site (hubSnoop .inv true) 0).present = true ∧ (site (hubSnoop .inv true) 0).inReset = false ∧ snooped .inv = true ∧ snooped .share = true ∧
    plainSnoop .inv = true ∧ plainSnoop .share = true := by decide +kernel
theorem test_snoop_forward : snooped .fwdS = true ∧ forwardSnoop .fwdS = true ∧ snooped .fwdX = true ∧ forwardSnoop .fwdX = true ∧
    (List.range 4).any (fun st => stateFits st .fwdS) = true ∧ (List.range 4).any (fun st => stateFits st .fwdX) = true := by decide +kernel
theorem test_fwd_ack : txnFind (received { hubSite with mem := { (hubSite).mem with txns := [{ line := 0, req := some read0, fwdAck := some 0 }] } } 0) 0 =
    some { line := 0, req := some read0, fwdAck := some 0 } ∧ txnFind (received hubSite 0) 0 = none := by decide +kernel
theorem test_hold : txnFind (hubSnoop .inv false) 0 = some { line := 0, req := none, snoops := [{ site := 0, kind := .inv, issued := false, time := 0 }] } ∧
    ([{ site := 0, kind := .inv, issued := false, time := 0 }] : List OpenSnoop).find? (fun o => o.site == 0 && !o.issued) =
      some { site := 0, kind := .inv, issued := false, time := 0 } := by decide +kernel
theorem test_snoop_timeout : chipTrained (hubSnoop .inv true) 0 = true := by decide +kernel
theorem test_grace : (site (hubSite { graceFrom := some 0 }) 0).graceFrom = some 0 ∧ (site hubSite 0).msgCr ≠ 0 := by decide +kernel
theorem test_domain : (domain hubSite 0).st ≠ .unused ∧ (domain hubSite 0).st ≠ .recovering ∧ (domain (hubSite {} .down) 0).st = .down ∧
    (domain (hubSite {} .down) 0).st ≠ .up ∧ (domain (hubSite {} .down) 0).swept = false ∧ (domain (hubSite {} .recovering) 0).st = .recovering ∧
    (domain (hubSite {} .recovering) 0).upNext = false := by decide +kernel

/-- The hub with the modules of site 0 as given, enabled and with half width allowed. -/
def hubModule (x : Module) (b : Nat := 3) : State := let s := hubSite
  { s with regs := (regPut s ⟨.ucsCtrl, 0, 0⟩ (b + 0x300)).regs
           ucs := { sites := [(0, { site s 0 with modules := [(0, x)] })] } }
theorem test_training : regBits (hubModule {}) ⟨.ucsCtrl, 0, 0⟩ 0 0 ≠ 0 ∧ (moduleOf (hubModule {}) 0 0).width = 0 ∧ 3 ≤ maxRate (hubModule {}) 0 0 ∧
    regBits (hubModule {} 1) ⟨.ucsCtrl, 0, 0⟩ 1 1 = 0 ∧ (site (modSite (hubModule {}) 0 (fun t => { t with inReset := false })) 0).present = true := by decide +kernel
theorem test_descriptor : (moduleOf (hubModule { width := 1, asked := true }) 0 0).trained = true ∧ (moduleOf (hubModule { width := 1, asked := true }) 0 0).asked = true ∧
    (moduleOf (hubModule { width := 2 }) 0 0).asked = false ∧ (site (hubModule {}) 0).inReset = false ∧ (site (hubModule {}) 0).msgCr ≠ 0 ∧
    4 ≤ (site (hubModule {}) 0).dataCr ∧ (List.replicate 64 (0 : BitVec 8)).length = 64 := by decide +kernel
theorem test_retrain : (moduleOf (hubModule { width := 1 }) 0 0).trained = true ∧ (moduleOf (hubModule { width := 1 }) 0 0).width = 1 ∧
    (moduleOf (hubModule { width := 2 }) 0 0).trained = true ∧ (moduleOf (hubModule { width := 2 }) 0 0).width ≠ 1 ∧
    regBits (bump (bump (hubModule { width := 1 }) ⟨.ucsRetry, 0, 0⟩ 1) ⟨.ucsRetrain, 0, 0⟩ 1) ⟨.ucsCtrl, 0, 0⟩ 1 1 = 1 := by decide +kernel

/-! ### The seam -/

theorem test_bale_write : isMessage (hdr 2 2 0) 2 2 = true ∧ takenIn (hubSite) (hdr 2 2 0) 0 65536 = true := by decide +kernel
theorem test_tally_message : isMessage (hdr 3 6 0) 3 6 = true ∧ hBits (hdr 3 6 0) 17 16 < 2 ∧ 2 ≤ hBits (hdr 3 6 64) 17 16 ∧ hSlots (hdr 3 6 0) = 0 ∧
    hBits (hdr 3 6 0) 56 41 = 0 ∧ initFits (received hubSite 0) 0 (hdr 3 6 0) = true ∧ tagOpen (received hubSite 0) 0 0 = false := by decide +kernel
/-- The hub with the chiplet and with slot 0 a tally of partition 0. -/
def hubSiteTally : State := let s := hubSite
  { s with work := { s.work with slots := [(0, .tally 7 none)] } }
theorem test_tally_answered : let u := takeRequest (received hubSiteTally 0) (hdr 3 6 0) 0
    siteDomain u 0 = some 0 ∧ (domain u 0).st = .up ∧ slotPart u 0 = some 0 ∧ bitOf (domain u 0).parts 0 = true ∧ isTally u 0 0 = true := by decide +kernel
/-- A bale write that has its first 510 lines. -/
def bale0 : BaleWrite := { tag := 0, init := 0, ha := 0, got := [], endAt := 0, hint := 0, cls := 1 }
theorem test_bale_data_discarded : 8 ≤ (site hubSite 0).dataCr ∧ (site hubSite 0).bales.find? (fun b => b.tag == 4095 && b.init == 0) = none := by decide +kernel
theorem test_bale_data : (site (hubSite { bales := [bale0] }) 0).bales.find? (fun b => b.tag == 0 && b.init == 0) = some bale0 ∧ bale0.got.contains 0 = false ∧
    (gate (hubSite { bales := [bale0] }) (.chiplet 0 0) 0 0 (initPart (hubSite) 0) 128).2 = true ∧ (setAdd bale0.got 0).length < 512 ∧
    (match lineWriteNow (received (hubSite) 0) 0 0 0 (BitVec.allOnes 128) with | .done _ _ => true | _ => false) = true := by decide +kernel
theorem test_bale_timeout : (site (hubSite { bales := [bale0] }) 0).bales.find? (fun b => b.tag == 0) = some bale0 := by decide +kernel
/-- IO_RD and IO_WR of 16 bytes at the Waybill. -/
theorem test_io : isMessage (hdr 1 1 0) 1 1 = true ∧ malformedHdr (received hubSite 0) 0 (hdr 1 1 0 ((waybillBase / 16) * 2 ^ 39)) 0 (ioBytes 0) = false ∧
    (ioPlace (takeRequest (received hubSite 0) (hdr 1 1 0 ((waybillBase / 16) * 2 ^ 39)) 0) 0 waybillBase (ioBytes 0) ≠ .fault) ∧
    ioPlace hubSite 0 0 (ioBytes 0) = .fault := by decide +kernel
theorem test_io_write : isMessage (hdr 1 2 1) 1 2 = true ∧ (List.replicate 16 (0 : BitVec 8)).length = 16 * ioSlots 0 ∧
    malformedHdr (received hubSite 0) 0 (hdr 1 2 1) 1 (ioBytes 0) = false := by decide +kernel

/-! ### Translation over the seam -/

/-- The hub with a translation request of partition 1 to the agent at site 0, and an invalidation by it. -/
def hubAgent : State := let s := hubSite
  { s with host := { s.host with trans := [{ fn := 1, pasid := 0, va := 0, agent := some 0, tag := 0, sent := 0 }]
                                 fns := [(1, { invals := [{ by_ := .agent 0 0, waits := [] }] })] } }
theorem test_translation_answer : canReceive hubAgent 0 0 = true ∧
    (received hubAgent 0).host.trans.find? (fun r => r.agent == some (chipSite (received hubAgent 0) 0) && r.tag == 0) =
      some { fn := 1, pasid := 0, va := 0, agent := some 0, tag := 0, sent := 0 } ∧
    (received hubAgent 0).host.trans.find? (fun r => r.agent == some 0 && r.tag == 4095) = none ∧
    [List.replicate 16 (0 : BitVec 8)].all (fun e => e.length == 16) = true := by decide +kernel
theorem test_agent_invalidates : (site hubAgent 0).msgCr ≠ 0 ∧ (12 ≤ 12 ∧ 52 ≤ 52) ∧
    (span 0 9).filter (fun fn => (hostFn hubAgent fn).invals.any (fun v => v.by_ == .agent 0 0)) = [1] ∧
    ([1].foldl (fun (o : Option State) fn => o.bind (fun s => endInval s fn (.agent 0 0))) (some hubAgent)).isSome = true := by decide +kernel

/-! ### Host ports -/

/-- The hub with link A of port 0 trained and function 0 as given. -/
def hubHost (h : HostFn := {}) : State := let s := hubHbm
  { s with host := { s.host with fns := [(0, h)], ports := [(0, { perst := false, linkA := { trained := true, configOk := true } })] } }
/-- A function that is open and ready. -/
def open0 : HostFn := { mse := true, ready := true }
theorem test_host_up : fnUp hubHost 0 = true ∧ fnUp (hubHost open0) 0 = true ∧ fnOpen hubHost 0 = false ∧ fnOpen (hubHost { mse := true }) 0 = true ∧
    (hostFn (hubHost { mse := true }) 0).ready = false ∧ fnOpen (hubHost open0) 0 = true ∧ (hostFn (hubHost open0) 0).ready = true := by decide +kernel
theorem test_host_window : windowReq 2 0xFFF 1 = true ∧ windowReq 4 0 4096 = true ∧ windowReq 4 1 4096 = false ∧ postedBytes hubHost 0 + 512 ≤ 2 ^ 21 := by
  decide +kernel
theorem test_host_read : (hostFn (runPosted (hubHost open0) 0) 0).posted.any (fun p => !p.ro) = false ∧ barHa (hubHost open0) 0 2 0 = some 0 ∧
    barHa (hubHost open0) 0 2 (2 ^ 28) = none ∧ mapped (hubHost open0) 0 = true ∧
    (gate (hubHost open0) (.host 0) (2 ^ 50) (initHost 0 0) 0 64).2 = true ∧ (match readNow (hubHost open0) 0 64 0 with | .done _ _ => true | _ => false) = true := by
  decide +kernel
theorem test_host_posted : (hostFn (hubHost { open0 with posted := [{ op := .fence 0, ro := false }] }) 0).posted ≠ [] ∧
    (hostFn (runPosted (hubHost { open0 with posted := [{ op := .fence 0, ro := false }] }) 0) 0).posted = [] := by decide +kernel
theorem test_register_ranges : 4095 + 1 ≤ 4096 ∧ 0xFFFFC0 + 64 ≤ 0x1000000 ∧ 0xFFFFC0 % 4096 + 64 ≤ 4096 ∧ 0x2FFFFF + 1 ≤ 0x300000 := by decide
theorem test_ports : (hostPort hubHost 0).perst = false ∧ (hostPort hubHost 1).perst = true ∧ (hostPort hubHost 0).refclk = true ∧ linkUsed hubHost 0 = true ∧
    linkTrained hubHost 0 = true ∧ linkUsed { hubHost with host := { hubHost.host with ports := [(1, { perst := false, bifurc := true })] } } 3 = true ∧
    linkTrained { hubHost with host := { hubHost.host with ports := [(1, { perst := false, bifurc := true })] } } 3 = false := by decide +kernel
theorem test_functions : (hostFn hubHost 0).d3hot = false ∧ (hostFn (hubHost { d3hot := true }) 0).d3hot = true ∧ (hostFn hubHost 0).inFlr = false ∧
    (hostFn (hubHost { inFlr := true }) 0).inFlr = true ∧ (part hubHost 0).phase ≠ .resetting ∧ (hostFn (hubHost { detached := true }) 0).detached = true ∧
    (hostFn hubHost 0).detached = false ∧ (hostFn hubHost 0).preserved = false := by decide +kernel
/-- A PF0 view and a partition's function are up. -/
theorem test_functions_up : fnUp { hubHost with host := { hubHost.host with ports := [(0, { linkA := { trained := true } }), (1, { linkA := { trained := true } })] } } 10 = true ∧
    fnUp { hubHost with work := { hubHost.work with parts := [(1, { enable := true })] } } 1 = true := by decide +kernel
theorem test_translation : (hostFn hubHost 0).invals.any (fun v => v.by_ == .ats 31) = false ∧ (hostFn hubHost 0).invals.any (fun v => v.by_ == .own) = false ∧
    (hostFn (hubHost { invals := [{ by_ := .own, waits := [] }] }) 0).invals.any (fun v => v.by_ == .own) = true ∧
    (endInval (hubHost { invals := [{ by_ := .own, waits := [] }] }) 0 .own).isSome = true ∧
    (endInval (hubHost { invals := [{ by_ := .ats 31, waits := [] }] }) 0 (.ats 31)).isSome = true := by decide +kernel
theorem test_translation_completion : ({ hubHost with host := { hubHost.host with trans := [{ fn := 0, pasid := 2 ^ 20 - 1, va := 4096, agent := none, tag := 0, sent := 0 }] } } :
    State).host.trans.any (fun r => r.fn == 0 && r.pasid == 2 ^ 20 - 1 && r.va == 8191 / 4096 * 4096 && r.agent.isNone) = true := by decide +kernel

/-! ### Queues -/

/-- Queue 0 of context 0 in hand, at a manifest's step or at a ring entry. -/
def queue0 (n : Nat) : Queue := { page := 0, ctx := 0, fn := 0, flags := 0, ringBase := 0, ringLog2 := 4, evtLog2 := 4, vector := 0, intrInit := 0, evtBase := 0, evtTail := 0, head := 0, tail := 1, manBase := 0, manCount := n }
def hubQueue (n : Nat) (x : List Step := []) : State := let s := hubSite
  { s with
    stage := { s.stage with running := true }
    work := { s.work with queues := [(0, some (queue0 n))], steps := x } }
def queueReads (s : State) (n : Nat) (f : Fetched) : Nat := match readQueue s 0 (queue0 n) 0 (if n = 0 then 16 else 64) f with
  | .got _ _ => 1 | .halt _ _ => 2 | _ => 3
theorem test_queue : queueOf (hubQueue 0) 0 = some (queue0 0) ∧ (queue0 0).head ≠ (queue0 0).tail ∧ aheadOf (hubQueue 0) 0 < 16 ∧ roleNow (hubQueue 0) ≠ .fenced ∧
    (hubQueue 0).flt.halted = false ∧ queueReads (hubQueue 0) 0 (.data []) = 1 ∧ queueReads (hubQueue 1) 1 (.data []) = 1 := by decide +kernel
theorem test_queue_outside : (match readQueue (hubQueue 0) 0 { queue0 0 with flags := 0, ringBase := 2 ^ 40 } (2 ^ 40) 16 (.data []) with | .halt _ _ => true | _ => false) = true := by
  decide +kernel
theorem test_queue_seal : (stepOf (hubQueue 1) 0 (queue0 1) 0 (List.replicate 64 0)).sealEn = false ∧ isSeal (hubQueue 1) 0 0 = false ∧
    ({ step0 .signal with flags := 2 ^ 32 - 1 } : Step).sealEn = true := by decide +kernel
theorem test_dispatch : (hubQueue 1 [step0 .malformed .waiting]).work.steps.find? (fun x => x.queue == 0 && x.phase == .waiting) = some (step0 .malformed .waiting) ∧
    prevDone (hubQueue 1 [step0 .signal .waiting]) (step0 .signal .waiting) = true ∧ licensed (hubQueue 1) = true ∧
    maskDenied (hubQueue 1) (step0 .signal .waiting) = false ∧ domainUp (hubQueue 1) 0 = true ∧ dispatchOpen (hubQueue 1) = true ∧
    (step0 .signal .waiting).waitEn = false ∧ licensed State.reset = false := by decide +kernel
theorem test_dispatch_bodies : (match engineFor (hubQueue 1) 0 0xFF with | .to _ => true | _ => false) = true ∧
    (stepFind (beginStep (hubQueue 1 [step0 .signal .waiting]) 0 0) 0).isSome = true := by decide +kernel
theorem test_copy : (stepFind (copyGo (hubQueue 1 [step0 (.copy 0 0 0 0)]) (step0 (.copy 0 0 0 0))) 0).isSome = true ∧
    copyOut (copyGo (hubQueue 1 [step0 (.copy 0 0 0 0)]) (step0 (.copy 0 0 0 0))) 0 = 0 := by decide +kernel
theorem test_host_tag : smGet none (hostPort { hubHost with host := { hubHost.host with ports := [(1, { tags := [(4095, some (.parkRead 0 0 0 512))] })] } } 1).tags 4095 =
    some (.parkRead 0 0 0 512) := by decide +kernel

/-! ### The relay and the pair -/

/-- The hub with the relay's link and licence, and the pair state. -/
def hubPair (x : PairState) (up : Bool := true) : State := let s := hubSite
  { s with
    licences := 6
    pair := x
    host := { s.host with relay := { linkUp := up, width := 8, rate := 3 } } }
theorem test_pair_role : roleNow (hubPair { role := .standby, sync := .resyncing, lastSeq := some 0 }) = .standby ∧ (hubPair {}).host.relay.linkUp = true ∧
    licRelay (hubPair {}) = true ∧ (hubPair {} false).host.relay.linkUp = false ∧ (hubPair {}).flt.halted = false := by decide +kernel
theorem test_relay_write : (gate (hubPair {}) .relay (2 ^ 33 - 1) 0x85A 0 1).2 = true ∧ 2 ^ 32 - 1 + 1 ≤ 2 ^ 32 := by decide +kernel
theorem test_delta_sent : (hubPair { sending := some ⟨1, 64, false⟩ }).pair.sending = some ⟨1, 64, false⟩ ∧
    (gate (hubPair {}) .relay 1 0x85A 0 64).2 = true := by decide +kernel
/-- A delta of KIND `k` and SEQ `n` with no record (R669, R670). -/
def deltaOf (k n : Nat) : List Byte :=
  let h := toBytes 4 0x544C444B ++ toBytes 8 k ++ toBytes 4 n ++ toBytes 8 0 ++ toBytes 4 64 ++ toBytes 4 (crc32c []) ++ List.replicate 28 0
  h ++ toBytes 4 (crc32c h)
def hubDelta (x : PairState) (k n : Nat) : State := let s := hubPair x
  { s with mem := { s.mem with hbm := memPutBytes (memPutBytes {} (mirrorBase s + ringOff) (deltaOf k n)) (mirrorBase s + hdrDoneSeq) (toBytes 4 n) } }
theorem test_delta_none : deltaAt (hubPair {}) (ringSize - 64) = none ∧ (ringSize - 64) % 64 = 0 := by decide +kernel
theorem test_delta : deltaAt (hubDelta { lastSeq := some 6 } 0 7) 0 = some (deltaOf 0 7) ∧ fieldOf (deltaOf 0 7) 0x0C 4 = 7 ∧ fieldOf (deltaOf 0 7) 4 1 ≠ 1 ∧
    (homeBytes (hubDelta {} 0 7) (mirrorBase (hubDelta {} 0 7) + hdrDoneSeq) 4).map ofBytes = some 7 ∧
    (hubDelta { lastSeq := some 6 } 0 7).pair.lossSeen = mirrorLosses (hubDelta { lastSeq := some 6 } 0 7) ∧ (2 ^ 32 - 1 + 1) % 2 ^ 32 = 0 := by decide +kernel
/-- A control image with no context and no queue. -/
def image0 : Snapshot := { parts := [], vals := [], regs := [], ctxs := [], queues := [], slots := [] }
theorem test_restore : (hubPair { image := some image0, restoring := true }).pair.image = some image0 ∧ image0.queues = [] ∧ image0.ctxs = [] := by decide +kernel

/-! ### Objects -/

/-- Function 0 ready, with its command buffer. -/
def hubCmd (b : List Byte) : State := let s := hubQueue 0
  { s with
    regs := (putBuf s 0 b).regs
    work := { s.work with queues := [], parts := [(0, { part s 0 with contextMax := 4 })] }
    host := { s.host with fns := [(0, open0)] } }
theorem test_commands : (hostFn (hubCmd []) 0).ready = true ∧ fnCmd (hubCmd []) 0 = none ∧ licensed (hubCmd []) = true ∧ (part (hubCmd []) 0).phase ≠ .resetting ∧
    roleNow (hubCmd []) ≠ .standby ∧ (hostFn State.reset 12).ready = false ∧ licensed State.reset = false := by decide +kernel
/-- CTX_CREATE's buffer: PASID 1, four bales in the pool behind the bales of context 0 (R272, R548). -/
def createBuf : List Byte := toBytes 4 1 ++ toBytes 60 0 ++ toBytes 8 (tierBase + 4 * 65536) ++ toBytes 4 4 ++ toBytes 4 0 ++ toBytes 8 0 ++ toBytes 8 65536 ++ toBytes 4 4
theorem test_create : let s := hubCmd createBuf
    fieldOf (cmdBuf s 0) 0 4 < 2 ^ 20 ∧ fieldOf (cmdBuf s 0) 4 4 + fieldOf (cmdBuf s 0) 0x10 48 = 0 ∧
    (span 0 4096).find? (fun c => (context s c).isNone) = some 1 ∧ ctxCount s 0 < (part s 0).contextMax ∧
    s.work.ctxs.any (fun p => match p.2 with | some x => x.fn == 0 && x.pasid == fieldOf (cmdBuf s 0) 0 4 | none => false) = false ∧
    tierRefused s 0 (tierDescOf (cmdBuf s 0)) (fieldOf (cmdBuf s 0) 0x70 16) = false := by decide +kernel
theorem test_create_refused : 2 ^ 20 ≤ fieldOf (cmdBuf (hubCmd (toBytes 4 (2 ^ 20))) 0) 0 4 ∧ 4096 ≤ fieldOf (cmdBuf (hubCmd (toBytes 2 4096)) 0) 0 2 := by
  decide +kernel
/-- QUEUE_BIND of queue 63 at page 1023 with a ring of 2^16 entries. -/
theorem test_bind : let b := toBytes 2 63 ++ toBytes 2 1023 ++ toBytes 12 0 ++ toBytes 2 16 ++ toBytes 14 0
    (span 0 1).all (fun _ => fieldOf (cmdBuf (hubCmd b) 0) 0 2 == 63 && fieldOf (cmdBuf (hubCmd b) 0) 2 2 == 1023 && fieldOf (cmdBuf (hubCmd b) 0) 0x10 1 == 16 &&
      fieldOf (cmdBuf (hubCmd b) 0) 0x11 1 == 0 && fieldOf (cmdBuf (hubCmd b) 0) 8 8 == 0) = true ∧
    queuePart (hubCmd b) 63 = some 0 ∧ (ownContext (hubCmd b) 0 0).isSome = true ∧ queueOf (hubCmd b) 63 = none := by decide +kernel
theorem test_teardown : cmdWord (hubCmd []) 0 0 = 0 ∧ (ownContext (hubCmd []) 0 0).isSome = true ∧ ownContext (hubCmd []) 0 4095 = none ∧
    bitsOf (65536 + 4095) 15 12 = 0 ∧ bitsOf (65536 + 4095) 31 17 = 0 := by decide +kernel
theorem test_unbind : (queueOf (hubQueue 0) 0).map (fun y => y.fn) = some 0 ∧ (hubQueue 0).work.steps.any (fun x => x.queue == 0) = false := by decide +kernel
theorem test_slots : slotPart (hubCmd []) 0 = some 0 ∧ slotAt (hubCmd []) 0 = .free ∧ bitsOf (2 ^ 16) 17 16 = 1 ∧ bitsOf (2 ^ 17) 17 16 = 2 ∧ bitOf (2 ^ 31) 31 = true ∧
    (hubCmd []).work.steps = [] := by decide +kernel
theorem test_partition_reset : partLicensed (hubCmd []) 8 = true ∧ ({ (hubCmd []) with work := { parts := [(0, { phase := .resetting })] } } : State).work.ctxs = [] ∧
    smWf {} ([(0, { phase := .resetting })] : SMap Part) = true := by decide +kernel
/-- A function command that runs. -/
def hubRuns (k : FnCmd) (x : Context) : State := let s := hubCmd []
  { s with work := { s.work with cmds := [(0, some k)], ctxs := [(0, some x)] } }
theorem test_command_ends : fnCmd (hubRuns ⟨1, 0, 0⟩ { ctx0 with tier := {}, phase := .creating }) 0 = some ⟨1, 0, 0⟩ ∧
    context (hubRuns ⟨1, 0, 0⟩ { ctx0 with tier := {}, phase := .creating }) 0 = some { ctx0 with tier := {}, phase := .creating } ∧
    tearReady (hubRuns ⟨2, 0, 0⟩ { ctx0 with tier := {}, phase := .tearing }) 0 = true := by decide +kernel

/-! ### Pelxel and the dictionary -/

/-- The hub out of power-on reset, with requests of MCTP over I3C. -/
def hubPelxel (l : List PxlReq) : State := putRequests { hubHbm with bring := { State.reset.bring with supply := .released } } .mI3c l
/-- A message of MCTP that carries a request of Pelxel with number 31. -/
def mctp : List Byte := [0x7E, 0x1F, 0x7A, 1, 1, 0x9F, 0, 0]
theorem test_mctp : mctp.length ≤ 1088 ∧ (hubPelxel []).bring.supply = .released ∧ fieldOf mctp 0 1 = 0x7E ∧ fieldOf mctp 1 1 = 0x1F ∧ fieldOf mctp 2 1 = 0x7A ∧
    128 ≤ fieldOf mctp 5 1 ∧ fieldOf [0] 0 1 ≠ 0x7E ∧ (requests (hubPelxel []) .mI3c).length < 8 ∧
    8 ≤ (requests (hubPelxel (List.replicate 8 ⟨1, 0, [], false, false⟩)) .mI3c).length := by decide +kernel
theorem test_pelxel : isMgmt .mI3c = true ∧ isMgmt (.d 0) = false ∧ requests (hubPelxel [⟨1, 31, [], false, false⟩]) .mI3c = ⟨1, 31, [], false, false⟩ :: [] ∧
    (List.replicate (roomOf .mI3c) (0 : BitVec 8)).length ≤ roomOf .mI3c ∧ fnPresent hubHost 0 = true ∧ fnPresent hubHost 8 = true := by decide +kernel
/-- Accessor 0 has staged nothing, and has one set that waits for its check. -/
def hubCheck (c : List Staged) : State := let s := hubHbm
  { s with dict := { s.dict with checks := [{ acc := 0, tag := 1, set := c }], accs := [(0, { result := { res := .checking, tag := 1 } })] } }
theorem test_check : (hubCheck []).dict.checks = { acc := 0, tag := 1, set := [] } :: [] ∧ (hubCheck []).flt.halted = false ∧
    (accOf (hubCheck []) 0).result.res = .checking ∧ (accOf (hubCheck []) 0).result.tag = 1 ∧
    worst (checkSet (hubCheck []) (layMembers (hubCheck [])) []) = none := by decide +kernel
theorem test_check_fails : (worst (checkSet hubHbm (layMembers (laySet hubHbm [{ key := .obj 0x5041 1, bytes := [0] }])) [{ key := .obj 0x5041 1, bytes := [0] }])).isSome = true := by
  decide +kernel
theorem test_commit : (commitSet (hubCheck []) 0 (accOf (hubCheck []) 0).tag).isNone = true ∧
    (commitSet hubHbm 8 0).isSome = true := by decide +kernel
theorem test_events : (coll { hubHbm with dict := { hubHbm.dict with coll := { intake := [⟨0x0DE0, 0, 1, 0, 0, 0, 1⟩] } } }).intake = ⟨0x0DE0, 0, 1, 0, 0, 0, 1⟩ :: [] ∧
    ({ code := 0x0DE0, inst := 0, prio := 1, count := 0, endAt := 0, first := none } : CollRec).isFor 0x0DE0 0 = true := by decide +kernel
theorem test_notice : (coll { hubHbm with dict := { hubHbm.dict with coll := { lastBinding := some .mI3c, mgmt := [⟨0x0DE0, 1, false, 0, 1, 0, 0, 0, 0⟩] } } }).mgmt ≠ [] := by decide

/-! ### Customs -/

theorem test_customs : romOnly State.reset = false ∧ State.reset.cus.recovery = false ∧ State.reset.flt.halted = false ∧ State.reset.cus.burn = none ∧
    State.reset.cus.lc = 2 ∧ ownerFull State.reset 1 = false ∧ (List.replicate 48 (1 : BitVec 8)).length = 48 ∧ State.reset.cus.cfwSvn ≤ State.reset.cus.minCfw ∧
    romOnly { State.reset with cus := { lc := 5 } } = true := by decide +kernel
/-- Customs with firmware and payload of an SVN above the fused ones. -/
def hubCus (x : CustomsState := {}) : State := { hubHbm with cus := { x with cfwSvn := 1, pplSvn := 1 } }
theorem test_svn : hubCus.cus.minCfw < hubCus.cus.cfwSvn ∧ hubCus.cus.minPpl < hubCus.cus.pplSvn := by decide
theorem test_burn : (hubCus { burn := some (.group 1) }).cus.burn = some (.group 1) ∧ (hubCus { burn := some (.group 1) }).cus.result ≠ 1 ∧
    (hubCus { burn := some (.group 1) }).cus.resetDue = false := by decide
theorem test_flash : (flashStart hubCus 1).isSome = true ∧ flashStart (hubCus { cmd := some ⟨1, 0, []⟩ }) 1 = none := by decide +kernel
theorem test_flash_erase : flashProtected hubCus 0 4096 = true ∧ flashProtected hubCus 0x10000 4096 = false ∧ 0xFFF % 4096 ≠ 0 ∧ 0x10000 % 4096 = 0 := by decide +kernel
theorem test_flash_program : flashProtected hubCus 0x100FF 1 = false ∧ (flashBytes hubCus 0x100FF 1).all (fun b => b == 0xFF) = true ∧
    0x100FF / 256 = (0x100FF + 1 - 1) / 256 ∧ (List.replicate 256 (0 : BitVec 8)).length ≤ 256 := by decide +kernel
theorem test_spdm : spdmOpen hubHost (.doe 0) = true ∧ romOnly (draw hubHost).2 = false ∧ (draw hubHost).2.cus.sessions.length < 4 ∧
    4 ≤ (draw { hubHost with cus := { sessions := [.doe 0, .doe 0, .doe 0, .doe 0] } }).2.cus.sessions.length := by decide +kernel

/-! ### Bring-up -/

/-- Bring-up with one stage running. -/
def hubBring (id : Nat) (x : BringState := {}) : State := { hubCus with
  stage := {}
  bring := { x with supply := .released, recs := [(id, { res := .running })] } }
theorem test_supply : State.reset.bring.supply = .bad ∧ ({ State.reset with bring := { supply := .hold } } : State).bring.supply = .hold ∧
    (hubBring 2).bring.supply ≠ .bad := by decide
theorem test_rom : stageOpen (hubBring 2 { path := 1 }) 2 = true ∧ (hubBring 2 { path := 1 }).bring.path = 1 ∧ lcOf 0xFFFF = 2 ∧ lcOf 0x1234 = 15 ∧
    (hubBring 2 { path := 2 }).bring.path = 2 := by decide +kernel
theorem test_clocks : (List.replicate 184 900).length = 184 ∧ ([183] : List Nat).any (fun k => decide (184 ≤ k)) = false ∧ stageOpen (hubBring 3 { path := 2 }) 3 = true ∧
    (measureSites (advance (hubBring 3 { path := 2 }) 0) (List.replicate 184 900) [183]).bring.path = 2 := by decide +kernel
theorem test_stages_open : stageOpen (hubBring 4) 4 = true ∧ stageOpen (hubBring 6 { path := 1 }) 6 = true ∧ stageOpen (hubBring 7) 7 = true ∧
    stageOpen (hubBring 9) 9 = true ∧ stageOpen (hubBring 10) 10 = true ∧ stageOpen (hubBring 11) 11 = true := by decide +kernel
theorem test_serai : stageOpen (hubBring 5) 5 = true ∧ (bringRows [] (advance (hubBring 5) 0)).2 = none ∧ (bringRows [] (advance (hubBring 5) 0)).1.flt.halted = false ∧
    (bringRows [(159, 15)] { advance (hubBring 5) 0 with mem := { (hubBring 5).mem with rowsUsed := [(159, 15)], wayOff := [(159, 2 ^ 14)] } }).2 = some 159 := by decide +kernel
theorem test_hbm_init : let u := advance (hubBring 6 { path := 1 }) 0
    (span 0 8).filter (stackLicensed u) = span 0 8 ∧ emptyHalf hubHbm = none ∧ emptyHalf State.reset = none ∧
    emptyHalf { hubHbm with mem := { hubHbm.mem with stackSt := [] } } = some 0 := by decide +kernel
theorem test_memtest : let s : State := { hubBring 7 { path := 2 } with mem := { hubHbm.mem with stackSt := [(0, { cap := 1, inService := true, retained := true }), (4, { cap := 1, inService := true, retained := true })] } }
    (testLevel s).1 = 0 ∧ emptyHalf (clearStacks (advance s 0) 0) = none := by decide +kernel
theorem test_porter : let s := { hubBring 8 with bring := { (hubBring 8).bring with recs := [(5, { res := .pass }), (8, { res := .running })] } }
    stageOpen s 8 = true ∧ stageEnded s 5 = true := by decide +kernel
theorem test_sites : (span 0 8).any (fun k => (span 0 4).any (fun m => (moduleOf (hubBring 10) k m).asked)) = false := by decide +kernel
theorem test_start : (hubBring 11).stage.nextMark = 0 ∧ (List.replicate 32 100).length = 32 ∧ (hubBring 11).bring.done = false := by decide

/-! ### Resets, ageing and the stage -/

theorem test_reset_halted : ({ State.reset with flt := { State.reset.flt with halted := true } } : State).flt.halted = true := by decide
/-- A stage that runs, with the next mark at 64 µs. -/
def hubStage (x : StageState := {}) : State := { hubHbm with stage := { x with running := true, nextMark := 64000 } }
theorem test_replan : hubStage.age.lastReplan + objVal hubStage 0x5041 1 24 * 3600000000000 ≤ ({ hubStage.stage with nextMark := 24 * 3600000000000 } : StageState).nextMark := by
  decide +kernel
theorem test_avs : State.reset.age.avsSilent = false ∧ 0xFFFF < 2 ^ 16 ∧ (List.replicate 160 0).length = 160 ∧ (List.replicate 8 0).length = 8 := by decide +kernel
theorem test_arm : hubStage.stage.arm = none ∧ hubStage.stage.nextMark ≠ 0 ∧ (hubStage { arm := some ⟨1, 64000⟩ }).stage.arm = some ⟨1, 64000⟩ ∧
    (hubStage { arm := some ⟨1, 64000⟩ }).stage.armed.contains (HubUnit.tile 159).num = false := by decide +kernel
theorem test_window : (hubStage { window := 14 }).stage.running = true ∧ (hubStage { window := 14 }).stage.window < 15 := by decide
theorem test_mark : (fireMark (advance hubStage 64000) 1 20 (List.replicate 32 100)).flt.skewRun < 3 := by decide +kernel
theorem test_mark_fault : 3 ≤ (fireMark (advance { hubStage with flt := { hubStage.flt with skewRun := 2 } } 64000) 1 21 (List.replicate 32 100)).flt.skewRun := by decide +kernel

/-! ### Matrix engines -/

/-- A descriptor of one vector of one element (R159, R160): N4I weights in the bale at 64 KiB, N8I activations, F32 output; weights at `w`. -/
def desc0 (w : Nat) : List Byte := [1, 2, 0, 0] ++ toBytes 2 1 ++ toBytes 2 1 ++ toBytes 2 1 ++ toBytes 2 0 ++ toBytes 2 0 ++ toBytes 2 7 ++ toBytes 2 0xB ++
  toBytes 6 0 ++ toBytes 8 w ++ toBytes 8 0 ++ toBytes 8 0 ++ toBytes 8 0x1000 ++ toBytes 4 256 ++ toBytes 4 0 ++ toBytes 8 0 ++ toBytes 8 0x2000 ++
  toBytes 4 256 ++ toBytes 4 0 ++ toBytes 8 0 ++ toBytes 4 0x3F800000 ++ toBytes 4 0x3F800000 ++ toBytes 4 0x3F800000 ++ toBytes 20 0
/-- Engine 0 with a step of partition 0 whose descriptor stands at HA 0. -/
def hubEngine (x : Engine) (w : Nat := tierBase) : State := let s := hubTier 1 0 1
  { s with
    regs := (regPut s ⟨.mecCtrl, 0, 0⟩ 1).regs
    stage := { s.stage with running := true }
    mem := { s.mem with hbm := memPutBytes {} 0 (desc0 w) }
    eng := { engines := [(0, x)] }
    work := { s.work with parts := [(0, { part s 0 with meBanks := 0xFF })], steps := [step0 (.engine 0 1 1)] } }
/-- The run of that descriptor. -/
def run0 : EngRun := { step := 0, part := 0, ctx := 0, index := 0, ha := 0, bytes := desc0 tierBase }
theorem test_fetch : (engine (hubEngine { intake := [{ step := 0, part := 0 }] }) 0).next = none ∧ engineOpen (hubEngine { intake := [{ step := 0, part := 0 }] }) 0 = true ∧
    fetchNext (hubEngine { intake := [{ step := 0, part := 0 }] }) 0 = some ({ step := 0, part := 0 }, 0) ∧
    stepFind (hubEngine {}) 0 = some (step0 (.engine 0 1 1)) ∧ inWindows (hubEngine {}) 0 0 0 128 = true ∧ inWindows (hubEngine {}) 0 0 (2 ^ 30) 128 = false ∧
    (gate (hubEngine {}) (.engine 0) 0 (initEngine 0) 0 128).2 = true := by decide +kernel
theorem test_descriptor_read : (match readNow (hubEngine {}) 0 128 0 with | .done _ b => (engDescOf b).isSome | _ => false) = true ∧ run0.desc.isSome = true := by decide +kernel
theorem test_descriptor_check : checkDesc (hubEngine {}) 0 0 0 0 (desc0 tierBase) = .complete ∧ checkDesc (hubEngine {}) 0 0 0 0 (desc0 (tierBase + 2 ^ 40)) = .translationFault := by
  decide +kernel
theorem test_plane : (engine (hubEngine { next := some run0, loading := some ⟨0, 0, 0, 0, 0, 0⟩ }) 0).loading.isSome = true ∧
    (match run0.desc with | some d => (gate (hubEngine {}) (.engine 0) 1 (initEngine 0) 0 (rangeBytes (planeRanges d))).2 | none => false) = true := by decide +kernel
/-- The tile of the descriptor, with a zero plane. -/
def tileOf (x : Engine) (h : HbmMem) : Option Bool := let s := hubEngine { x with run := some run0 }
  run0.desc.bind (fun d => match tileInputs { s with mem := { s.mem with hbm := h } } 0 d 0 with | .done _ _ => some true | .bad _ _ => some false | .wait _ => none)
theorem test_tile : tileOf {} {} = some true ∧ tileOf {} { poison := [0x40] } = some false ∧ run0.desc.any (fun d => decide (0 < d.tiles) && !d.narrow) = true := by decide +kernel
theorem test_ladder : ({ run0 with ladder := some ⟨2, none⟩ } : EngRun).ladder = some ⟨2, none⟩ ∧ run0.desc.any (fun d => decide (0 < d.n)) = true := by decide +kernel
theorem test_descriptor_end : run0.desc.any (fun d => decide (d.tiles ≤ 1)) = true ∧ 3 * run0.start + 2 * 3 ≤ 3 * 2 := by decide +kernel
theorem test_engine_commit : let w : EngStep := { step := 0, part := 0, next := 1, begun := true }
    (engine (hubEngine { intake := [w] }) 0).intake.find? (fun w => w.part == 0) = some w ∧ descCount (hubEngine { intake := [w] }) 0 ≤ w.next := by decide +kernel
theorem test_cancel_done : (engine { hubEngine { cancelling := true } with work := {} } 0).cancelling = true := by decide +kernel

/-! ### Cores: where the statements of O9 to O23 hold -/

/-- A word of NDOT whose first format is no weight's (N8I), and groups that do not lie in a register. -/
theorem test_ndot_illegal : (fmtOf (bitsOf 0x70007 15 0)).any (fun f => !f.elem.isWeight) = true ∧
    (fmtOf (bitsOf 0xF00070000 15 0)).any (fun f => decide (vElems f.elem < 16 * bitsOf 0xF00070000 35 32 + 16)) = true := by decide +kernel
theorem test_ncvt_clauses : (fmtOf 0x0807).any (fun f => f.round == 2 && f.scale == 0 && !f.mx && decide (4 * 3 + 4 ≤ vElems f.elem)) = true ∧
    (fmtOf 0x0007).any (fun f => decide (vElems f.elem < 4 * 255 + 4)) = true ∧ (fmtOf 0x0057).any (fun f => f.scale != 0) = true := by decide +kernel
theorem test_core_words : coreInstrOf 25599 (BitVec.allOnes 32) = none ∧ coreWordOf (.add 25599 31 31 31) = some (25599, 0x01FFFE00#32) ∧
    coreWordOf .armSend = none := by decide +kernel
theorem test_core_word_illegal : Runs (hubWith {}) 0 ∧ coreInstrOf 0 0xFFFFFFFF#32 = none := by unfold Runs; decide +kernel
/-- A trap: the instruction's own, and the first and the last interrupt, in a wait that each may break. -/
theorem test_trap_entry : cancelDue (hubWith {}) (Machine.core (hubWith {}) 0) = false ∧ fetchOk (hubWith {}) (Machine.core (hubWith {}) 0) = true ∧
    coreWordOf (.dbgstop 0) ≠ none ∧ (coreReady (hubWith {}) { pending := 1#5 }).getLsbD 0 = true ∧
    (coreReady (hubWith {}) { pending := 0b10000#5, enables := 0b11111#5 }).getLsbD 4 = true ∧
    (span 0 4).all (fun i => !(coreReady (hubWith {}) { pending := 0b10000#5, enables := 0b11111#5 }).getLsbD i) = true := by decide +kernel
theorem test_interrupt_breaks : CoreWait.none.breaks false = true ∧ (CoreWait.tally 0 0 0 false).breaks true = true ∧
    (CoreWait.move { d := 0, a := 0, b := 0, src := 0, dst := 0, len := 256, moved := 0, srcHint := 0, dstHint := 0, piece := [] }).breaks false = true ∧
    coreTakes (hubWith { user := true, enables := 0b10001#5, pending := 0b10000#5 }) { user := true, enables := 0b10001#5, pending := 0b10000#5 } = true := by
  decide +kernel
theorem test_fetch_fault_any : coreWordOf (.ld64 0 1 2 0) = some (0, 0x13088000#32) ∧ cancelDue (hubWith { pc := 0x10000000000000#64 })
    (Machine.core (hubWith { pc := 0x10000000000000#64 }) 0) = false := by decide +kernel
/-- FLUSH and ACQ over a range, with a write of another line in the tracker, and with a dirty line in the range. -/
theorem test_flush_range : trackedAt { tracker := [{ lo := 0, len := 128, writes := [] }] } 128 64 = false ∧
    clean (hubHbm { l0d := [(0, some { line := 0, data := 1, dirty := 1 })] }) 0 64 64 false ∧
    ¬ clean (hubHbm { l0d := [(0, some { line := 0, data := 1, dirty := 1 })] }) 0 0 64 false := by unfold clean; decide +kernel
theorem test_flush_illegal : (1 : Fin 32) ≠ 0 ∧ 4 ≤ (4#9).toNat ∧ (3#9) ≠ 0 ∧ (3#9) ≠ 2 ∧ (BitVec.ofNat 9 (2 * b2n false) = 0#9) := by decide
theorem test_tally_flags : BitVec.ofNat 7 (2 * b2n true + b2n true) = 3#7 ∧ BitVec.ofNat 7 (2 * b2n false + b2n true) = 1#7 ∧ 4 ≤ (4#7).toNat ∧
    clean (hubTally 7) 0 0 0 true ∧ (begun (hubTally 7) 0).tracker = [] := by unfold clean; decide +kernel
/-- The places of a BMOVE: from `src` to `dst` of `len` bytes by core 0 as `y`. Numbers the clause that holds. -/
def moveCase (y : Core) (src dst : BitVec 64) (len : Nat) : Nat :=
  let s := hubHbm y
  let x := begun s 0
  let u := during s 0
  if len = 0 then 0
  else if ¬(src.toNat % 256 = 0 ∧ dst.toNat % 256 = 0 ∧ len % 256 = 0 ∧ rangesMeet src.toNat len dst.toNat len = false) then 1
  else if ¬(moveReach u x src len false = true ∧ moveReach u x dst len true = true) then 2
  else if trackedAt x src.toNat len then 3
  else if trackedAt x dst.toNat len then 4
  else if (l0In x src.toNat len false).any (fun l => l.dirty != 0) then 5
  else if 2 ^ 52 ≤ dst.toNat then (match placeOf src with | .store _ => 6 | _ => 7)
  else if 8 ≤ x.tracker.length then 8
  else (match placeOf src with | .store _ => 9 | _ => 10)
def track0 (lo : Nat) : Track := { lo := lo, len := 256, writes := [] }
theorem test_move_cases : moveCase {} 0#64 0x100#64 256 = 10 ∧ moveCase {} 0x800000000001FF00#64 0x3FFFFF00#64 256 = 9 ∧
    moveCase { tracker := List.replicate 8 (track0 0) } 0x8000000000000000#64 0x1000#64 256 = 8 ∧ moveCase {} 0x0#64 0x8000000000000000#64 256 = 7 ∧
    moveCase {} 0x8000000000000000#64 0x8000000000000100#64 256 = 6 ∧
    moveCase { l0d := [(0, some { line := 0, data := 1, dirty := 1 })] } 0x0#64 0x8000000000000000#64 256 = 5 := by decide +kernel
theorem test_move_waits : moveCase { tracker := [track0 0x1FF] } 0x0#64 0x100#64 256 = 4 ∧ moveCase { tracker := [track0 0xFF] } 0x0#64 0x200#64 256 = 3 ∧
    moveCase {} 0x40000000#64 0x8000000000000000#64 256 = 2 ∧ moveCase {} 0x8000000000020000#64 0x8000000000000000#64 256 = 2 ∧
    moveCase {} 0x0#64 0x0#64 256 = 1 ∧ moveCase {} 0x1#64 0x1000#64 256 = 1 ∧ moveCase {} 0x0#64 0x1000#64 255 = 1 ∧ 16 ≤ (16#9).toNat := by decide +kernel
theorem test_cma_full : freeBuffer (begun (hubWith { tags := [.pending, .pending] }) 0) = none ∧ 0x1FFC0 < 0x20000 ∧
    tagStatus (begun (hubWith { tags := [.pending, .done] }) 0) 0 0 = .pending := by decide +kernel

/-! ### The home, HBM and the tier: boundary cases -/

/-- A CMA command of one element (R253): N4I weights and N8I activations at 0x100 and 0x200 of the cluster store, F32 output at 0x400. -/
def cma0 : List Byte := [1, 0] ++ toBytes 2 1 ++ toBytes 2 0 ++ toBytes 2 7 ++ toBytes 2 0xB ++ toBytes 6 0 ++ toBytes 4 0x100 ++ toBytes 4 0x200 ++
  toBytes 4 0x400 ++ toBytes 4 0 ++ toBytes 2 16 ++ toBytes 2 16 ++ toBytes 2 64 ++ toBytes 26 0
theorem test_cma_good : cma0.length = 64 ∧ (cmaOf cma0).isSome = true := by decide +kernel
/-- Core 0 moves 256 bytes from HA 0 and waits for a line, whose answer is `a`. -/
def hubMove (n : Nat) (a : Answer) : State :=
  let s := hubHbm { wait := .move { d := 1, a := 2, b := 3, src := 0, dst := 0x8000000000000000, len := 256, moved := 0, srcHint := 0, dstHint := 0,
                                    piece := List.replicate n 0 }, sent := true }
  { s with mem := { s.mem with answers := [a] } }
def answer0 (line : Nat) (st : Status) : Answer := { who := .core 0, line := line, data := 1, status := st }
theorem test_fill_failed : awaitedRead (Machine.core (hubMove 0 (answer0 0 .uncorrectable)) 0) = some (0, 0, 0) ∧
    answerOf (hubMove 0 (answer0 0 .uncorrectable)) 0 0 false = some (answer0 0 .uncorrectable) := by decide +kernel
theorem test_fill_piece : awaitedRead (Machine.core (hubMove 128 (answer0 1 .complete)) 0) = some (1, 0, 0) ∧
    answerOf (hubMove 128 (answer0 1 .complete)) 0 1 false = some (answer0 1 .complete) ∧ (List.replicate 128 (0 : Byte) ++ lineBytes 1).length = 256 ∧
    ((lineBytes 1).length < 256) := by decide +kernel
theorem test_fill_late : Status.uncorrectable ≠ .late ∧ (answer0 0 .late).status ≠ .complete := by decide
theorem test_core_fault_lines : (Machine.core (hubWith { l0i := [7] }) 0).l0i.contains 7 = true ∧
    l0Find { l0d := [(0, some { line := 0, data := 1, dirty := 1 })] } 0 = some (0, { line := 0, data := 1, dirty := 1 }) ∧
    (cluster (State.reset) 1599).loaded = false ∧ cancelDue (hubWith { user := true, pending := 1#5 }) { user := true, pending := 1#5 } = true ∧
    (({} : Core).user || ({} : Core).ie) = false ∧ cancelDue (hubWith { ie := true }) { ie := true } = false := by decide +kernel

/-- The hub with one transaction whose requests are reads by core 0 with a deadline; and with such a read held at the slice input. -/
theorem test_deadline_places : ({ hubHbm with mem := { hubHbm.mem with heldIn := [read0] } } : State).mem.heldIn.find? (fun r => r.isLate (.core 0) 0) = some read0 ∧
    (txnFind (hubTxn { line := 0, req := none, merged := [read0] }) 0).bind (fun t => t.merged.find? (fun r => r.isLate (.core 0) 0)) = some read0 ∧
    (txnFind (hubTxn { line := 0, req := some read0, missing := true }) 0).any (fun t => t.missing && t.merged.isEmpty && t.req == some read0) = true ∧
    read0.isLate (.core 0) 0 = true ∧ hubHbm.stage.held = [] ∧ hubHbm.mem.heldIn = [] := by decide +kernel
/-- Every way of partition 0 is a lock way: its lines find no way; and a set whose way 0 holds a tier line under replacement. -/
def hubLocked : State := { hubHbm with work := { hubHbm.work with parts := [(0, { part hubHbm 0 with lockWays := 0x7FFF })] } }
theorem test_miss_bypass : bypasses hubLocked 0 = true ∧ (match seraiAlloc hubLocked 0 0 0 false false with | .noWay => true | _ => false) = true := by
  decide +kernel
theorem test_miss_bale :
    let ways := (span 0 15).map (fun w => (w, ({ line := tierBase / 128 + w, data := 0, cls := .normal, dirty := false, locked := false, used := 0 } : SeraiLine)))
    let s := ways.foldl (fun s e => seraiPut s (homeTile s 0) (homeSet 0) e.1 (some e.2)) hubHbm
    (match seraiAlloc s 0 0 0 false false with | .bale _ => true | _ => false) = true := by decide +kernel
theorem test_packet_places : placeOccurs ⟨1, 1, 5, 159, 1⟩ = true ∧ placeOccurs ⟨0, 0, 0, 0, 0⟩ = true ∧ placeOccurs ⟨2, 0, 0, 0, 0⟩ = false ∧
    (replaceAnswer { hubFill with mem := { hubFill.mem with answers := [{ answer0 0 .complete with write := true }] } } 0 0 true .uncorrectable).isSome = true := by
  decide +kernel
theorem test_lost_write : (lostRequest (hubTxn { line := 0, req := some { read0 with op := .wrFull } }) (.core 0) 0).isSome = true ∧
    ({ read0 with op := .wrFull } : Req).isWrite = true ∧
    (match applyWrite hubHbm { read0 with op := .wrFull } with | .done _ => true | _ => false) = true := by decide +kernel
/-- The pseudo-channel has no room, and requests wait there already; a read whose requests were all dropped. -/
theorem test_hbm_room : ((List.replicate 32 (entry0 false false)).length < 32) = False ∧ ((pcEntries hubHbm 0 0).length < 32) ∧
    ([entry0 false false].any (fun x => x.stack == 0 && x.pc == 0)) = true ∧ hubHbm.mem.hbmHeld = [] := by
  refine ⟨by simp, by decide +kernel, by decide, by decide⟩
theorem test_read_dropped : (entryReqs (dropPassed (hubEntry false false 0) 0) (entry0 false false)).all (fun r => r.dropped) = false ∧
    (entryReqs { hubEntry false false 0 with mem := { (hubEntry false false 0).mem with txns := [{ line := 0, req := some { read0 with dropped := true } }] } }
      (entry0 false false)).all (fun r => r.dropped) = true := by decide +kernel
theorem test_mode_turns : smGet 0 (stackOf (hubEntry false false 0) 0).writing 0 = 0 ∧ ([] : List HbmEntry) = [] ∧
    ((pcEntries (hubEntry true false 0) 0 0).filter (fun e => e.isWrite)).length = 1 ∧
    ((pcEntries (hubEntry true false 0) 0 0).filter (fun e => !e.isWrite && !e.issued)) = [] ∧
    [entry0 false false].any (fun e => entryDeadline (hubEntry false false 1) e != 0) = true := by decide +kernel
/-- Outcomes of a scrub: corrected, and bad at a sector that has an HA and at one that has none. -/
theorem test_scrub_outcomes : sectorEnd (hubStack {}) 0 .corrected = .corrected ∧ sectorEnd (hubStack {}) 0 .bad = .bad ∧ sectorEnd (hubStack {}) 0 .good = .good ∧
    (stackOf (hubStack { repairing := some ⟨63, 15, 0⟩ }) 0).repairing.all (fun q => !(q.pc == 0 && q.bank == 0)) = true := by decide +kernel

/-! ### Tier records, context and chiplets: boundary cases -/

theorem test_tier_outside : inWindows { hubTier 1 0 1 with work := { (hubTier 1 0 1).work with steps := [step0 (.tier (2 ^ 30) 1)] } } 0 0 (2 ^ 30) 32 = false ∧
    (gate (hubTier 1 0 1) (.tier 0) (listKey 0) (initTier 0) 0 32).2 = true ∧
    (match readNow { hubTier 1 0 1 with mem := { (hubTier 1 0 1).mem with hbm := { poison := [0] } } } 0 32 0 with | .bad _ _ => true | _ => false) = true ∧
    (hubTier 8 0 4).tier.ops.any (fun o => o.step == some 0) = false := by decide +kernel
/-- A record of bale 0, and the hub that holds it with an operation on the bale. -/
def rec0 (tier units slot : Nat) (poison : Bool) : Rec :=
  { state := 0, tier := tier, poison := poison, err := 0, codec := 1, units := units, slot := slot, payLen := 2048 * units, fill := 0, newTier := 0, fmt := 0,
    lengths := 0, dataCrc := 0, gen := 0, newSlot := 0 }
def hubRec (k : TierKind) (r : Rec) (x : Context := ctx0) : State := let s := hubOp k
  writeRec { s with work := { s.work with ctxs := [(0, some x)] }, mem := { s.mem with hbm := {} } } x 0 r
def recReads (s : State) (x : Context) : Nat := match readRec s x 0 with | .good _ => 1 | .badField _ => 2 | .badCrc => 3
theorem test_fill_records : recReads (hubOp (.fill 0)) ctx0 = 3 ∧ recReads (hubRec (.fill 0) (rec0 1 1 4 false)) ctx0 = 2 ∧
    recReads (hubRec (.fill 0) (rec0 1 0 3 false)) ctx0 = 1 ∧ recReads (hubRec (.fill 0) (rec0 1 32 3 false)) ctx0 = 1 ∧
    recReads (hubRec (.fill 0) (rec0 2 1 3 true)) ctx0 = 1 := by decide +kernel
theorem test_fill_slot : (slotBytes (hubRec (.fill 0) (rec0 1 1 0 false)) ctx0 0 1).2.isSome = true ∧
    parkOpen (hubRec (.fill 0) (rec0 2 1 0 false)) ctx0 = false ∧ ({ ctx0 with parkRevoked := true } : Context).parkRevoked = true := by decide +kernel
theorem test_writeback_writes : let s := hubRec .writeback (rec0 1 0 3 false)
    recReads s ctx0 = 1 ∧ (slotWrites s ctx0 (op0 .writeback) 1 3 (2048 * (choosePacking s ctx0 [] [] (baleBytes s 0 0)).units)).2 = true := by decide +kernel
theorem test_move_ends : (parkResult (hubOp (.move 3 2)) (op0 (.move 3 2))).isSome = true ∧ runningOp (hubOp (.move 3 2)) 0 0 = some (op0 (.move 3 2)) := by decide +kernel
/-- A maintenance command on the first granule: it starts, is refused, or is turned away while one runs. -/
def hubMaint (len : Nat) : State := { hubHbm with regs := (regPut hubHbm ⟨.sriMaintLen, 0, 0⟩ len).regs }
theorem test_maint_go : (List.range 6).all (fun op => (maintRefusal (hubMaint 128) 0 op false).isNone == (op != 0)) = true ∧
    (maintRefusal (hubMaint 1) 0 1 false).isSome = true ∧ maintRefusal (hubMaint 0) 8 7 true = some 2 ∧
    maintBales (hubMaint 128) (maintScope (hubMaint 128) 0 1 false) = [] ∧ smGet none (hubMaint 128).mem.maint 0 = none ∧
    (smGet none ({ hubHbm.mem with maint := [(8, some { op := 1, setWay := false, lo := 0, hi := 0, ways := 0, tile := 0 })] } : MemState).maint 8).isSome = true := by
  decide +kernel
theorem test_row_fails : smGet 0 ({ hubHbm.mem with rowsUsed := [(159, 15)] } : MemState).rowsUsed 159 = 15 ∧ smGet 0 hubHbm.mem.rowsUsed 0 < 15 := by decide

/-! ### Chiplets, seam, host, queues, objects: boundary cases -/

/-- A toll rule of a partition, rule 0, with a ceiling of 0 for every initiator. -/
def shut (s : State) (p : Nat) : State :=
  { s with regs := (regPut (regPut s ⟨.tolRuleMatch, 0, 64 * p⟩ (2 ^ 31 + 0xFFF * 2 ^ 12)) ⟨.tolRuleBudget, 0, 64 * p⟩ 0).regs }
theorem test_gate_holds : (gate (shut (hubTier 1 0 1) 0) (.engine 0) 0 (initEngine 0) 0 128).2 = false ∧
    (gate (shut (hubTier 1 0 1) 0) (.tier 0) 0 (initTier 0) 0 128).2 = false ∧
    (gateCls (shut hubSite 0) (.chiplet 0 0) 0 0 (initPart (shut hubSite 0) 0) 1 128).2 = false ∧
    (gate (shut hubHost 0) (.host 0) 0 (initHost 0 0) 0 64).2 = false ∧
    (gate (shut hubHost 0) .relay 0 0x85A 0 64).2 = false := by decide +kernel
theorem test_chiplet_places : isMessage (hdr 0 2 0) 0 1 = false ∧ malformedHdr (received hubSite 0) 0 (hdr 0 1 1) 0 128 = true ∧
    malformedHdr (received hubSite 0) 0 (hdr 0 1 0) 0 128 = false ∧ siteDomain (received hubSite 0) 0 = some 0 ∧
    siteDomain { hubSite with mem := { (hubSite).mem with domains := [] } } 0 = none ∧ domainHolds hubSite 0 0 = true ∧ domainHolds hubSite 0 (2 ^ 30) = false ∧
    mapped hubSite 0 = true ∧ (domain (received (hubSite {} .down) 0) 0).st ≠ .up := by decide +kernel
theorem test_chiplet_codes : (List.range 8).all (fun n => isMessage (hdr 0 (n + 1) 0) 0 (n + 1)) = true ∧ dataSlots .wrPart = 9 ∧
    creditsFor hubSite (chipSite hubSite 0) 17 = false := by decide +kernel
/-- Snoops that a response does not fit. -/
theorem test_snoop_misfit : plainSnoop .fwdS = false ∧ plainSnoop .fwdX = false ∧ Snoop.inv ≠ .share ∧ stateFits 2 .fwdS = false ∧ stateFits 1 .fwdX = false ∧
    stateFits 3 .inv = false ∧ forwardSnoop .share = false ∧ stateFits 1 .fwdS = true ∧ stateFits 0 .fwdX = true := by decide
theorem test_ack_due : let t : Txn := { line := 0, req := some read0, fwdAck := some 0 }
    let s : State := { hubSite with mem := { (hubSite).mem with txns := [t] } }
    txnFind (received s 0) 0 = some t ∧ t.fwdAck = some (chipSite s 0) ∧ t.fwdAck ≠ some 1 ∧ txnFind (received hubSite 0) 0 = none ∧
    t.snoopTo (chipSite s 0) = none := by decide +kernel
theorem test_hold_read : read0.isRead = true ∧ read0.dropped = false ∧ passed (advance (hubSnoop .inv false) 1) read0.deadline = true ∧
    passed (advance (hubSnoop .inv false) 0) read0.deadline = false := by decide +kernel
theorem test_snoop_late : let u := received (hubSnoop .inv true) 0
    (txnFind u 0).any (fun t => (t.snoopTo 0).isSome) = true ∧ chipTrained (hubSnoop .inv true) 0 = true := by decide +kernel
theorem test_modules : (0 : Fin 3) = 0 ∧ siteTrained (hubModule {}) 0 = false ∧
    (site { hubModule {} with ucs := { sites := [(0, { modules := [(0, {})] })] } } 0).present = false ∧
    (moduleOf (hubModule { width := 1, asked := true }) 0 0).asked = true ∧ (moduleOf (hubModule { width := 1 }) 0 0).trained = true ∧
    regBits (bump (bump (hubModule { width := 1 } 1) ⟨.ucsRetry, 0, 0⟩ 1) ⟨.ucsRetrain, 0, 0⟩ 1) ⟨.ucsCtrl, 0, 0⟩ 1 1 ≠ 1 := by decide +kernel
/-- BALE_RD at HA 0: taken, and refused at an address out of the domain. -/
theorem test_bale_read : isMessage (hdr 2 1 0) 2 1 = true ∧ takenIn hubSite (hdr 2 1 0) 0 65536 = true ∧ takenIn hubSite (hdr 2 1 0 (2 ^ 39)) 0 65536 = false ∧
    (gateCls hubSite (.chiplet 0 0) 0 0 (initPart hubSite 0) 0 65536).2 = true := by decide +kernel
theorem test_tally_wrong : (tagOpen { hubSite with ucs := { sites := [(0, { tags := [0] })] } } 0 0) = true ∧ initFits (received hubSite 0) 0 (hdr 3 6 0 (2 ^ 85)) = true ∧
    2 ≤ hBits (hdr 3 6 64) 17 16 ∧ slotPart (takeRequest (received hubSite 0) (hdr 3 6 0) 0) 0 = some 0 ∧
    isTally (takeRequest (received hubSite 0) (hdr 3 6 0) 0) 0 0 = false ∧ slotPart hubSite 65535 = none := by decide +kernel
theorem test_bale_lines : bale0.got.length ≠ 512 ∧
    (match lineWriteNow { hubSite with mem := { (hubSite).mem with txns := [{ line := 0, req := none }] } } 0 0 0 (BitVec.allOnes 128) with | .wait _ => true | _ => false) = true ∧
    (match lineWriteNow { hubSite with work := {} } (tierBase / 128) 0 0 (BitVec.allOnes 128) with | .bad _ _ => true | _ => false) = true := by decide +kernel
theorem test_bale_last : (setAdd (span 0 511) 511).length = 512 := by decide +kernel
/-- The chiplet of site 0 is the driver's (R532): a Waybill mode of 1, its processor of role 0 in the device descriptor. -/
def hubDriver : State := let s := hubSite { desc := (List.replicate 64 (0 : Byte)).set 6 2 }
  { s with dict := { s.dict with vals := [(0x201001, some [1])] } }
theorem test_io_places : (match ioPlace hubSite 0 (0xF_FF10_0000_0000) 4 with | .copy 0 0 => true | _ => false) = true ∧
    (match ioPlace hubSite 0 (waybillBase + 0xFFF0) 16 with | .waybill 0xFFF0 => true | _ => false) = true ∧
    (match ioPlace hubDriver 0 (mmioBase + 0x2FFFF0) 16 with | .block 0x2FFFF0 => true | _ => false) = true ∧
    (match ioPlace hubSite 0 (0xF_FF10_0000_0000 + 9 * 0x0100_0000) 4 with | .fault => true | _ => false) = true := by decide +kernel
theorem test_agent_no_function : (agentFns hubSite 0).isEmpty = true ∧ [List.replicate 16 (0 : BitVec 8)] ≠ [] ∧
    (coveringEntry 0 [List.replicate 16 (0 : BitVec 8)]).isSome = false := by decide +kernel
theorem test_agent_times_out : hubAgent.host.trans.find? (fun r => r.agent == some 0 && r.tag == 0) =
    some { fn := 1, pasid := 0, va := 0, agent := some 0, tag := 0, sent := 0 } := by decide +kernel
/-- A posted write that must wait: its line is taken by a transaction. -/
def hubWaits : State := let s := hubHost { open0 with posted := [{ op := .window 2 0 [0], ro := false }] }
  { s with mem := { s.mem with txns := [{ line := 0, req := none }] } }
theorem test_host_read_behind : (hostFn (runPosted hubWaits 0) 0).posted.any (fun p => !p.ro) = true := by decide +kernel
theorem test_host_read_ends : (match readNow { hubHost open0 with mem := { (hubHost open0).mem with hbm := { poison := [0] } } } 0 64 0 with | .bad _ _ => true | _ => false) = true ∧
    (match readNow { hubHost open0 with mem := { (hubHost open0).mem with txns := [{ line := 0, req := none }] } } 0 64 0 with | .wait _ => true | _ => false) = true ∧
    (match barHa (hubHost open0) 0 4 0 with | some ha => mapped (hubHost open0) ha | none => false) = false ∧ (hostFn hubWaits 0).posted ≠ [] := by decide +kernel
theorem test_host_views : 9 ≤ (12 : Fin 13).val ∧ (8 : Fin 13).val < 9 ∧ fnOpen (hubHost { mse := true }) 0 = true ∧ windowReq 2 (2 ^ 28 - 512) 512 = true := by decide +kernel
theorem test_flr_clauses : (part { hubHost with work := { parts := [(0, { phase := .resetting })] } } 0).phase = .resetting ∧
    (hostFn (hubHost { preserved := true }) 0).preserved = true ∧ (hostFn (hubHost { inFlr := true }) 0).inFlr = true ∧
    fnUp { hubHost with host := { hubHost.host with ports := [(1, { linkA := { trained := true } })] } } 10 = true := by decide +kernel
theorem test_translation_cases : (hostFn (hubHost { invals := [{ by_ := .ats 31, waits := [] }] }) 0).invals.any (fun v => v.by_ == .ats 0) = false ∧
    (12 ≤ 12 ∧ 64 ≤ 64) ∧ fnUp hubHost 8 = true := by decide +kernel
/-- Queue 0 as read: outside its windows, and at a line that is taken. -/
theorem test_queue_reads : (match readQueue { hubQueue 1 with mem := { (hubQueue 1).mem with txns := [{ line := 0, req := none }] } } 0 (queue0 1) 0 64 (.data []) with
      | .wait _ => true | _ => false) = true ∧
    (match readQueue (hubQueue 1) 0 (queue0 1) (2 ^ 40) 64 (.data []) with | .halt _ _ => true | _ => false) = true ∧ (queue0 1).manCount ≠ 0 ∧
    (queue0 0).manCount = 0 ∧ (queue0 1).halted = false ∧ (queue0 1).closed = false := by decide +kernel
theorem test_queue_entry : fieldOf (toBytes 8 64 ++ toBytes 2 1 ++ toBytes 6 0) 0 8 % 64 = 0 ∧ fieldOf (toBytes 8 64 ++ toBytes 2 1 ++ toBytes 6 0) 8 2 ≠ 0 ∧
    fieldOf (toBytes 8 64 ++ toBytes 2 1 ++ toBytes 6 0) 0xA 6 = 0 ∧ fieldOf (toBytes 8 1 ++ toBytes 8 0) 0 8 % 64 ≠ 0 := by decide +kernel
/-- Slot 1 is a seal of function 0. -/
def hubSeal (posts : Nat) : State := let s := hubQueue 1
  { s with work := { s.work with slots := [(1, .sealObj posts 0 0 0 none)] } }
theorem test_queue_sealed : isSeal (hubSeal 0) 0 1 = true ∧ sealFull (hubSeal 65534) 1 = false ∧ sealFull (hubSeal 65535) 1 = true := by decide +kernel
theorem test_dispatch_ends : (match engineFor (hubQueue 1) 0 0 with | .ends _ => true | _ => false) = true ∧
    (match clusterFor State.reset 0 0 with | .ends _ => true | _ => false) = true ∧
    (match clusterFor (hubQueue 1) 0 0 with | .to 0 => true | _ => false) = true ∧ licensed State.reset = false ∧
    maskDenied State.reset (step0 (.engine 0 1 1) .waiting) = true := by decide +kernel
theorem test_dispatch_step_bodies : ∀ b ∈ [StepBody.malformed, .signal, .tier 0 1, .copy 0 0 0 0, .engine 0 1 1, .porter 0xFFFF 0 0 0],
    (hubQueue 1 [step0 b .waiting]).work.steps.find? (fun x => x.queue == 0 && x.phase == .waiting) = some (step0 b .waiting) ∧
    prevDone (hubQueue 1 [step0 b .waiting]) (step0 b .waiting) = true := by decide +kernel
theorem test_copy_step : (hubQueue 1 [step0 (.copy 0 0 0 0)]).work.steps.find? (fun x => x.copying 0) = some (step0 (.copy 0 0 0 0)) := by decide +kernel
/-- A COPY step and the tags of its reads. -/
def hubCopy (h : TagUse) (p : StepPhase) : State := let s := hubQueue 1 [step0 (.copy 0 0 64 0) p]
  { s with host := { s.host with ports := [(1, { tags := [(4095, some h)] })] } }
theorem test_copy_data : smGet none (hostPort (hubCopy (.stepRead 0 0 0 64) .begun) 1).tags 4095 = some (.stepRead 0 0 0 64) ∧
    (stepFind (dropTag (hubCopy (.stepRead 0 0 0 64) .begun) 1 4095) 0).any (fun x => x.phase == .begun) = true ∧
    (stepFind (dropTag (hubCopy (.stepRead 0 0 0 64) (.cancelling .aborted)) 1 4095) 0).any (fun x => x.phase != .begun) = true ∧
    stepFind (dropTag (hubCopy (.stepRead 0 9 0 64) .begun) 1 4095) 9 = none ∧
    (copyIn (dropTag (hubCopy (.stepRead 0 0 0 64) .begun) 1 4095) (step0 (.copy 0 0 64 0)) 0 (List.replicate 64 1)).2 = true := by decide +kernel
theorem test_copy_waits : (copyIn { hubCopy (.stepRead 0 0 0 64) .begun with mem := { (hubCopy (.stepRead 0 0 0 64) .begun).mem with txns := [{ line := 0, req := none }] } }
    (step0 (.copy 0 0 64 0)) 0 (List.replicate 64 1)).2 = false := by decide +kernel
theorem test_relay_licence : licRelay hubSite = false ∧ licRelay (hubPair {}) = true ∧ (hubPair {} false).host.relay.linkUp = false ∧
    (1 : Fin 5).val = 1 ∧ ((hubPair { role := .active, epoch := 4 }).pair.role = .active ∧ (hubPair { role := .active, epoch := 4 }).pair.epoch < 5) ∧
    (hubPair { role := .solo }).pair.role = .solo ∧ (hubPair { role := .fenced }).pair.role ≠ .solo := by decide +kernel
theorem test_delta_held : (gate (shut (hubPair {}) 0) .relay 1 0x85A 0 64).2 = false ∧ (gate (hubPair {}) .relay (2 ^ 32) 0x85A 0 4096).2 = true ∧
    (List.replicate 4096 (0 : BitVec 8)).length ≤ 4096 ∧ roleNow (hubPair { role := .standby, sync := .resyncing, lastSeq := some 0 }) = .standby := by decide +kernel
theorem test_delta_order : (hubDelta { role := .standby, sync := .synced } 1 7).pair.lastSeq = none ∧ fieldOf (deltaOf 1 7) 4 1 = 1 ∧
    deltaAt (hubDelta { role := .standby } 1 7) 0 = some (deltaOf 1 7) ∧ (7 ≠ (4 + 1) % 2 ^ 32) ∧
    (hubDelta { role := .standby, lossSeen := 0 } 0 7).pair.lossSeen < mirrorLosses { hubDelta { role := .standby } 0 7 with flt := { State.reset.flt with lost := 1 } } + 1 := by
  decide +kernel
theorem test_cmd_refusals : (fnCmd (hubRuns ⟨1, 0, 0⟩ ctx0) 0).isSome = true ∧ (9 : Fin 13).val = 9 ∧
    licensed { hubCmd [] with licences := 0 } = false ∧ (part { hubCmd [] with work := { parts := [(0, { phase := .resetting })] } } 0).phase = .resetting ∧
    roleNow (regPut { hubCmd [] with licences := 6, pair := { role := .standby } } ⟨.hpfCmd, 0, 0⟩ 1) = .standby := by decide +kernel
/-- CTX_CREATE as function 0 with its buffer `b`: no room for a context, a PASID that is taken, a tier descriptor that is refused. -/
theorem test_create_refusals : (part { hubCmd createBuf with work := { (hubCmd createBuf).work with parts := [(0, {})] } } 0).contextMax ≤ 0 ∧
    pasidTaken (hubCmd createBuf) 0 (fieldOf (cmdBuf (hubCmd []) 0) 0 4) = true ∧ pasidTaken (hubCmd createBuf) 0 1 = false ∧
    tierRefused (hubCmd []) 0 (tierDescOf (cmdBuf (hubCmd []) 0)) 0 = true := by decide +kernel
theorem test_teardown_refusals : cmdWord (hubCmd (toBytes 4 0x1000)) 0 0 = 0x1000 ∧ bitsOf 0x1000 15 12 ≠ 0 ∧ bitsOf 0x20000 31 17 ≠ 0 ∧
    ownContext (hubCmd (toBytes 4 1)) 0 1 = none := by decide +kernel
/-- QUEUE_BIND refused: a ring of 8 entries, a queue of another function's, a queue that is bound, a page that is taken. -/
theorem test_bind_refusals : ¬ (4 ≤ fieldOf (toBytes 16 0 ++ toBytes 1 3) 0x10 1) ∧ queuePart (hubCmd []) 4095 ≠ some 0 ∧ (queueOf (hubQueue 0) 0).isSome = true ∧
    pageTaken (hubQueue 0) 0 0 = true ∧ pageTaken (hubQueue 0) 0 1023 = false := by decide +kernel
theorem test_unbind_refusals : 4096 ≤ cmdWord (hubCmd (toBytes 4 4096)) 0 0 ∧ queueOf (hubCmd []) 63 = none ∧ queuePart (hubCmd []) 63 = some 0 ∧
    (hubQueue 0 [step0 .signal .waiting]).work.steps.any (fun x => x.queue == 0) = true ∧ (queueOf (hubQueue 0) 0).any (fun y => y.fn != 1) = true := by decide +kernel
theorem test_slot_refusals : bitsOf (3 * 2 ^ 16) 17 16 = 3 ∧ bitsOf 0 17 16 = 0 ∧ slotPart (hubCmd []) 65535 ≠ some 0 ∧ slotAt (hubSeal 0) 1 ≠ .free ∧
    65536 ≤ cmdWord (hubCmd (toBytes 4 65536)) 0 0 ∧
    [step0 .signal .waiting].any (fun x => (x.sealEn && x.sealSlot == 0) || (x.waitEn && x.wait == 0 && !x.begun)) = false ∧
    [{ step0 .signal with flags := 2 ^ 32 - 1 }].any (fun x : Step => (x.sealEn && x.sealSlot == 0) || (x.waitEn && x.wait == 0 && !x.begun)) = true := by decide +kernel
theorem test_abort : cmdWord (hubCmd (toBytes 4 3)) 0 0 % 4 = 3 ∧ bitsOf 4 15 2 ≠ 0 ∧ abortOwned (hubCmd []) 0 0 = true ∧
    abortOwned (hubQueue 0) 0 1 = true ∧ abortOwned (hubQueue 0) 0 2 = true ∧ abortOwned (hubQueue 0) 0 (4095 * 65536 + 2) = false := by decide +kernel
theorem test_reset_refusals : ¬ (cmdWord (hubCmd (toBytes 4 16)) 0 0 < 16) ∧ ¬ ((15 : Nat) % 16 < 9) ∧ partLicensed { hubCmd [] with licences := 1 } 8 = false ∧
    partLicensed (hubCmd []) 0 = true := by decide +kernel
theorem test_abort_ends : fnCmd (hubRuns ⟨7, 0, 3⟩ ctx0) 0 = some ⟨7, 0, 3⟩ ∧
    (hubRuns ⟨7, 0, 3⟩ ctx0).work.steps.any (fun x => x.part == 0 && abortScope 0 x && x.cancelling) = false ∧
    (context (hubRuns ⟨1, 0, 0⟩ ctx0) 0).isSome = true := by decide +kernel
theorem test_mailbox : fnPresent hubHost 0 = true ∧ fnOpen (hubHost { mse := true }) 0 = true ∧ fnOpen hubHost 0 = false ∧ fnPresent State.reset 1 = false := by
  decide +kernel
theorem test_mctp_link : linkTrained { hubHost with host := { hubHost.host with ports := [(0, { linkA := { trained := true } })] } } 0 = true ∧
    (coll (hubPelxel [])).lastBinding = none := by decide +kernel
/-- A coalescing window that ends with an entry held back, and with none. -/
def hubWindow (f : Option Occ) : State := { hubHbm with dict := { hubHbm.dict with coll :=
  { recs := [{ code := 0x0DE0, inst := 0, prio := 1, count := 1, endAt := 0, first := f }] } } }
theorem test_window_ends : let o : Occ := ⟨0x0DE0, 0, 1, 0, 0, 0, 1⟩
    ((coll (hubWindow (some o))).recs.find? (fun r => r.isFor 0x0DE0 0)).any (fun r => r.first == some o) = true ∧
    ((coll (hubWindow none)).recs.find? (fun r => r.isFor 0x0DE0 0)).any (fun r => r.first.isNone) = true := by decide +kernel
theorem test_commit_check : (hubCheck []).dict.checks.any (fun c => c.acc == 0) = true ∧ (hubCheck []).dict.checks.any (fun c => c.acc == 8) = false := by decide +kernel
/-- A token that Customs refuses for its format, for its serial number, and its burns. -/
theorem test_token_refused : tokenRefusal hubCus [] true = some 3 ∧ (burns (hubCus { burn := some (.revoke 1) })).any Burn.byToken = true ∧
    (burns (hubCus {})).any Burn.byToken = false ∧ romOnly (hubCus { lc := 15 }) = true := by decide +kernel
/-- A token of type `t`, argument 2, signed by slot 0's key, as far as the free signature check says so. -/
def token0 (t arg : Nat) : List Byte := toBytes 4 0x4B4F544B ++ toBytes 1 t ++ toBytes 1 arg ++ toBytes 282 0 ++ toBytes 1 0
def hubToken (lc : Nat) : State := hubCus { lc := lc, rootHash := Config.sha384 (List.replicate 97 0) }
theorem test_token_good (h : Config.ecdsaOk (List.replicate 97 0) ((token0 1 2).take 0x60) (List.replicate 96 0) = true) :
    tokenRefusal (hubToken 1) (token0 1 2) true = none ∧ tokenBurn (token0 1 2) = some (.group 0) ∧ tokenBurn (token0 4 0) = none := by
  refine ⟨?_, by decide +kernel, by decide +kernel⟩
  have hf : tokenFormat (token0 1 2) = true := by decide +kernel
  have hk : (token0 1 2).drop 192 = List.replicate 97 0 := by decide +kernel
  have hs : ((token0 1 2).drop 0x60).take 96 = List.replicate 96 0 := by decide +kernel
  have h1 : fieldOf (token0 1 2) 8 8 = 0 ∧ fieldOf (token0 1 2) 0x10 8 = 0 ∧ fieldOf (token0 1 2) 6 1 = 0 ∧ fieldOf (token0 1 2) 5 1 = 2 ∧ fieldOf (token0 1 2) 4 1 = 1 := by
    decide +kernel
  have h2 : tokenSigned (hubToken 1) (token0 1 2) = true := by
    unfold tokenSigned; rw [h1.2.2.1, hk, hs]; dsimp only; rw [h]; simp [keyHash, hubToken, hubCus]
  have h3 : tokenAllowed (hubToken 1) (token0 1 2) = true := by
    unfold tokenAllowed; rw [h1.2.2.1, h1.2.2.2.1, h1.2.2.2.2]; rfl
  unfold tokenRefusal; rw [hf, h2, h3, h1.1, h1.2.1]; rfl
theorem test_svn_waits : (burns (hubCus { burn := some (.svn 1 1) })).contains (.svn 1 1) = true ∧ (burns hubCus).contains (.svn 2 1) = false ∧
    enrolAllowed State.reset (List.replicate 48 1) = true ∧ enrolAllowed State.reset [] = false := by decide +kernel
theorem test_burn_token : (hubCus { burn := some (.group 1), result := 1 }).cus.result = 1 ∧ (Burn.group 1).byToken = true ∧
    (burnStart (hubCus { burn := some (.group 1) }) (.revoke 1)).cus.burnNext = [.revoke 1] := by decide +kernel
theorem test_flash_ends : (hubCus { cmd := some ⟨5, 1, []⟩ }).cus.cmd = some ⟨5, 1, []⟩ ∧ slotCheck hubCus 1 1 ≠ 0 ∧ ofBytes (toBytes 2 256) ≤ 256 ∧
    256 < ofBytes (toBytes 2 257) ∧ (flashBytes { hubCus with cus := { hubCus.cus with flash := [(0x10000, 0)] } } 0x10000 1).all (fun b => b == 0xFF) = false := by
  decide +kernel
theorem test_spdm_session : (draw { hubHost with cus := { sessions := [.doe 0] } }).2.cus.sessions.contains (.doe 0) = true ∧
    romOnly (draw { hubHost with cus := { lc := 5 } }).2 = true := by decide +kernel

/-! ### Bring-up and matrix engines: boundary cases -/

theorem test_clocks_fatal : stageOpen (hubBring 3 { path := 1 }) 3 = true ∧ (some 187).any (fun u => decide (188 ≤ u)) = false ∧
    (some 159).any (fun r => decide (160 ≤ r)) = false := by decide +kernel
theorem test_serai_clauses : let s := advance (hubBring 5) 0
    (bringRows [(0, 13)] { s with mem := { s.mem with rowsUsed := [(0, 15)], wayOff := [(0, 2 ^ 13 - 1 + 2 ^ 14)] } }).2 = none ∧
    (bringRows [(0, 13)] { s with mem := { s.mem with rowsUsed := [(0, 15)], wayOff := [(0, 2 ^ 13 - 1 + 2 ^ 14)] } }).1.flt.halted = true := by decide +kernel
theorem test_hbm_init_clauses : let u := advance (hubBring 6 { path := 1 }) 0
    (let caps := [1, 1, 1, 1, 1, 1, 1, 4]
     let there := (span 0 8).filter (fun h => caps[h]?.getD 0 != 0)
     maskOf 8 (fun h => there.contains h && caps[h]?.getD 0 != 1) ≠ 0 ∧ ((span 0 8).filter (stackLicensed u)).any (fun h => caps[h]?.getD 0 == 0) = false) ∧
    ((span 0 8).filter (stackLicensed u)).any (fun h => [0, 1, 1, 1, 1, 1, 1, 1][h]?.getD 0 == 0) = true ∧
    (hubBring 6 { path := 2 }).bring.path = 2 := by decide +kernel
theorem test_memtest_rows : [(7, 63, 15, 0, true)].any testRowBad = false ∧
    emptyHalf { hubHbm with mem := { hubHbm.mem with stackSt := [(4, { cap := 1, inService := true })] } } = some 0 := by decide +kernel
theorem test_mark_zero : let s : State := { hubBring 11 with stage := { (hubBring 11).stage with nextMark := 100000 } }
    stageOpen s 11 = true ∧ s.stage.nextMark ≠ 0 ∧ (1000 ≤ 1000 ∧ 16383 < 16384 ∧ s.bring.supply = .released ∧ s.bring.done = false ∧ s.flt.halted = false) := by decide +kernel
theorem test_reset_waits : (hubCus.flt.halted = false ∧ hubCus.cus.burn = none) ∧
    ({ hubCus with cus := { hubCus.cus with burn := some (.group 1) } } : State).cus.burn = some (.group 1) := by decide +kernel
theorem test_fault_causes : State.reset.flt.halted = false ∧ (1 ≤ (1 : Fin 8).val ∧ (3 : Fin 8).val < 4) := by decide
theorem test_flaws : [Flaw.blockSum 515 true 63 31 (-1), .total 515 false 63 1, .checkSum 63 31 1, .checkCell 515 true 63 31 1].all flawOk = true ∧
    flawOk (.blockSum 516 false 0 0 1) = false ∧ flawOk (.checkSum 64 0 1) = false ∧ flawOk (.checkSum 0 32 1) = false ∧
    feedFlawOk ⟨515, true, 31, 1⟩ = true ∧ feedFlawOk ⟨516, true, 31, 1⟩ = false := by decide
/-- What a tile of `desc0` gives under `flaws`: whether its checks trip, and its row trips. -/
def tileTrips (flaws : List Flaw) : Option (Bool × List Nat) :=
  run0.desc.bind (fun d => let s := hubEngine { run := some run0, active := ({ bale0 := [1] } : Plane).checked d }
    match tileInputs s 0 d 0 with | .done u i => let t := tileRun u 0 d flaws i; some (t.tripped, t.rowTrips) | _ => none)
theorem test_tile_trips : tileTrips [] = some (false, []) ∧ tileTrips [.blockSum 0 false 0 0 1] = some (true, []) ∧
    tileTrips [.total 0 false 0 0x40000000] = some (true, [0]) := by decide +kernel
/-- Engine 0 with rung `n` of a tile begun. -/
def hubLadder (n : Nat) (w : Nat := tierBase) : State := hubEngine { run := some { run0 with bytes := desc0 w, ladder := some ⟨n, if n = 3 then some 0 else none⟩ } } w
theorem test_rerun : let s := hubLadder 2
    run0.desc.any (fun d => (gate s (.engine 0) 2 (initEngine 0) 0 (tileBytes (engine s 0).active d 0)).2 &&
      !(gate (shut s 0) (.engine 0) 2 (initEngine 0) 0 (tileBytes (engine s 0).active d 0)).2) = true := by decide +kernel
theorem test_rerun_waits : let s := hubLadder 1
    run0.desc.any (fun d => match planeLoad s 0 run0 d with | .wait _ => true | _ => false) = true := by decide +kernel
theorem test_rung3 : run0.desc.any (fun d => !d.noRemap) = true ∧ ([0].map ({} : Plane).phys).eraseDups = [0] ∧ ([0, 1].map ({} : Plane).phys).eraseDups = [0, 1] ∧
    ([0, 512].map ({} : Plane).phys).eraseDups = [0] ∧ freeSpare (hubLadder 2) 0 = some 0 ∧ (remapColumn (hubLadder 2) 0 511).isSome = true ∧
    freeSpare ((span 0 4).foldl (fun s k => regPut s ⟨.mecSpare, 0, k⟩ (2 ^ 31)) (hubLadder 2)) 0 = none := by decide +kernel
theorem test_descriptor_next : (engine (endRun (bump (advance (hubEngine { run := some run0, next := some run0 }) 0) ⟨.mecDescDone, 0, 0⟩ 1) 0) 0).next = some run0 ∧
    run0.bad = .complete ∧ ({ run0 with bad := .aborted } : EngRun).bad ≠ .complete := by decide +kernel
theorem test_cancel_due : let x := { step0 (.engine 0 1 1) with phase := .cancelling .aborted }
    (x.ofUnit (.engine 0) && x.cancelling) = true ∧ ({ step0 (.porter 0 0 0 0) with phase := .cancelling .aborted }.ofUnit (.cluster 0)) = true ∧
    ({ step0 (.tier 0 1) with phase := .cancelling .aborted }.ofUnit (.queue 0)) = true ∧
    ({ step0 (.tier 0 1) with phase := .cancelling .aborted } : Step).cancelling = true := by decide +kernel

theorem test_relay_config : (({ State.reset with host := { relay := { linkUp := true, endpoint := true } } } : State).host.relay.linkUp = true ∧
    State.reset.flt.halted = false) ∧ (span 0 4).map relayConfigByte = [0x7A, 0x1F, 0x00, 0x77] := by decide

/-! ### Commands that WellFormed refuses -/

def bad (l : List Instr) : Bool := l.all (fun i => !i.wellFormed)
theorem test_illformed_ports : bad [.perstAssert 2, .perstDeassert 2, .hostRefclkLoss 2, .hotReset 4, .hostLinkUp 4] = true := by decide +kernel
theorem test_illformed_functions : bad [.flr 13, .flrComplete 13, .d3hotEntry 13, .d0Entry 13, .bmeClear 13, .bmeSet 13, .adopt 13, .attachDiscard 13, .pull 13,
    .fenceRead 13, .tcInvComplete 13, .ctxCreate 13, .ctxTeardown 13, .queueBind 13, .queueUnbind 13, .slotConfig 13, .slotFree 13, .abort 13, .ctxQuery 13,
    .partQuery 13, .partReset 13, .partitionResetDone 9] = true := by decide +kernel
theorem test_illformed_msix : bad [.msixUnmask 13 .enable, .msixUnmask 0 (.vector 2048), .tcInv 13 true 0, .tcInv 0 true (2 ^ 20)] = true := by decide +kernel
theorem test_illformed_windows : bad [.hostRead 13 2 0 4, .hostRead 0 0 0 4, .hostRead 0 2 0 0, .hostRead 0 2 4095 2, .hostWrite 13 2 0 [0] true, .hostWrite 0 3 0 [0] true,
    .hostWrite 0 2 0 (List.replicate 513 0) true, .fenceWrite 13 0, .fenceWrite 0 (2 ^ 32)] = true := by decide +kernel
theorem test_illformed_doorbells : bad [.doorbellTailWrite 13 0 0, .doorbellTailWrite 0 1024 0, .doorbellTailWrite 0 0 (2 ^ 32), .evtHeadWrite 13 0 0, .evtHeadWrite 0 1024 0,
    .evtHeadWrite 0 0 (2 ^ 32), .tallyWindowAdd 13 0 0, .tallyWindowAdd 0 65536 0, .tallyWindowAdd 0 0 (2 ^ 32)] = true := by decide +kernel
theorem test_illformed_aperture : bad [.apertureAccess 13 0 4 none, .apertureAccess 0 0 0 none, .apertureAccess 0 0 65 none, .apertureAccess 0 0x2FFFFF 2 none,
    .apertureAccess 0 0 4 (some [])] = true := by decide +kernel
theorem test_illformed_translation : bad [.atsInvalidationRequest 9 0 true 0 0 12, .atsInvalidationRequest 0 32 true 0 0 12, .atsInvalidationRequest 0 0 true (2 ^ 20) 0 12,
    .atsInvalidationRequest 0 0 true 0 0 11, .atsInvalidationRequest 0 0 true 0 0 65, .atsInvalidationCompletion 9 0, .atsInvalidationCompletion 0 32,
    .atsEnableClear 9 true, .translationCompletion 9 0 0 none, .translationCompletion 0 (2 ^ 20) 0 none, .invReq 0 0 0 true (2 ^ 20) 0 12, .invReq 0 0 0 true 0 0 11,
    .invReq 0 0 0 true 0 0 53, .trCpl 0 0 0 0 [], .trCpl 0 0 0 0 (List.replicate 9 (List.replicate 16 0)), .trCpl 0 0 0 0 [[0]]] = true := by decide +kernel
theorem test_illformed_tags : bad [.hostReadCompletion 2 0 (.data []), .hostReadCompletion 0 4096 (.data []), .hostCompletionTimeout 2 0, .hostCompletionTimeout 0 4096] = true := by
  decide +kernel
theorem test_illformed_relay : bad [.relayWrite 0 (some []) true, .relayWrite 0 (some (List.replicate 4097 0)) true, .relayWrite (2 ^ 32) (some [0]) true,
    .relayWrite 0 (some [0]) false] = true := by decide +kernel
theorem test_illformed_lists : bad [.stageMark 0 [] 0, .markZero 0 [], .ageingMeasure [] [], .ageingMeasure (List.replicate 184 0) [184], .clocks 0 none none [] [],
    .clocks 0 none none (List.replicate 184 0) [184], .clocks 0 (some 188) none (List.replicate 184 0) [], .clocks 0 none (some 160) (List.replicate 184 0) [],
    .tempSample [] (List.replicate 8 0), .tempSample (List.replicate 160 0) [], .avsCurrentRead (2 ^ 16)] = true := by decide +kernel
theorem test_illformed_stages : bad [.serai 0 [(160, 0)], .serai 0 [(0, 16)], .hbmInit 0 [] 0 0, .hbmInit 0 (List.replicate 8 5) 0 0, .engines 0 [(8, 0)], .engines 0 [(0, 512)],
    .hpfBringupUpdate 1001 0, .hpfBringupUpdate 0 16384, .hbmRequest ⟨tierBase / 128, 0⟩ true] = true := by decide +kernel
theorem test_illformed_memtest : (Instr.memtest 0 [(8, 0, 0, 0, true)]).wellFormed = false ∧ (Instr.memtest 0 [(0, 64, 0, 0, true)]).wellFormed = false ∧
    (Instr.memtest 0 [(0, 0, 16, 0, true)]).wellFormed = false := by decide +kernel
theorem test_illformed_messages : bad [.rdCur 0 0 (hdr 0 2 0), .rdShared 0 0 (hdr 0 1 0), .rdOwn 0 0 (hdr 1 3 0), .upgrade 0 0 0, .wbDirty 0 0 0 0, .evict 0 0 0, .wrFull 0 0 0 0,
    .wrPart 0 0 0 0 0, .ioRd 0 0 0, .ioWr 0 0 0 [], .ioWr 0 0 (hdr 1 2 1) [], .baleRd 0 0 0, .baleWr 0 0 0, .ehpTally 0 0 0, .descriptor 0 0 []] = true := by decide +kernel
theorem test_illformed_pelxel : bad [.mctpMessage false (List.replicate 1089 0) true, .read .mI3c 0 (List.replicate (roomOf .mI3c + 1) 0) false,
    .write .mI3c 0 (List.replicate (roomOf .mI3c + 1) 0) false, .commit (.d 0) 0 (List.replicate (roomOf (.d 0) + 1) 0) false,
    .info .mPcie 0 (List.replicate (roomOf .mPcie + 1) 0) false, .eventGet .mI3c 0 (List.replicate (roomOf .mI3c + 1) 0) false,
    .regRead .mI3c 0 (List.replicate (roomOf .mI3c + 1) 0) false, .regWrite .mI3c 0 (List.replicate (roomOf .mI3c + 1) 0) false] = true := by decide +kernel
theorem test_illformed_registers : bad [.rcRead 0 (.config 4095 2), .rcRead 0 (.relay 0 0), .rcRead 0 (.bar0 0 65), .rcRead 0 (.bar0 0xFFFFFF 2), .registerWrite 0 (.bar0 0 []),
    .registerWrite 0 (.bar0 4095 [0, 0]), .registerWrite 0 (.barBase 1 0), .registerWrite 0 (.barSize 2 40), .registerWrite 0 (.barSize 4 29)] = true := by decide +kernel
theorem test_illformed_example : (Instr.perstAssert 2).wellFormed = false := by decide

/-! ### Single steps -/

/-- G[3] after a command of core 0, from G1 = 7 and G2 = -2. -/
def g3 (i : Instr) : Option (BitVec 64) :=
  match step { hubWith { g := [(1, 7), (2, BitVec.ofInt 64 (-2))] } with pending := [i] } with
  | .next t => some (gGet (Machine.core t 0) 3)
  | _ => none
theorem test_add : g3 (.add 0 3 1 2) = some 5 := by decide +kernel
theorem test_divs : g3 (.divs 0 3 1 2) = some (BitVec.ofInt 64 (-3)) ∧ g3 (.rems 0 3 1 2) = some 1 := by decide +kernel
theorem test_mulhu : g3 (.mulhu 0 3 1 2) = some 6 := by decide +kernel
theorem test_ldhi : g3 (.ldhi 0 3 0x40000) = some 0xFFFFFFFF80000000 := by decide +kernel
/-- A queue of two commands: the first runs, the second waits (see `Obligations.FrontCommandRuns`). -/
theorem test_queue_order : (match step { State.reset with pending := [.replanNow, .requestStandby] } with
    | .next t => decide (t.pending = [.requestStandby]) && t.age.replanDue | _ => false) = true := by decide +kernel
/-- The check value of CRC-32C (RFC 3720): of the digits 1 to 9. -/
theorem test_crc32c : crc32c [0x31, 0x32, 0x33, 0x34, 0x35, 0x36, 0x37, 0x38, 0x39] = 0xE3069283 := by decide +kernel
end Sys2Proof.Tests
end

section
/-!
PROOFS. Narrow number formats (R95 to R111) and the conversion lanes (R129, R130, R236).
-/
namespace Sys2Proof.Machine.Narrow

/-! ### Format words -/

/-- The ELEM field that names an element format (R96): the inverse of `elemOf`. -/
def elemField : Elem → Nat
  | .n4i => 0 | .n4is => 1 | .n4f => 2 | .n3i => 3 | .n3is => 4 | .n2s => 5
  | .nt => 6 | .n8i => 7 | .n8is => 8 | .n8f4 => 9 | .n8f5 => 10 | .f32 => 11

theorem elemField_of_elemOf {c : Nat} {e : Elem} (h : elemOf c = some e) : elemField e = c := by
  unfold elemOf at h
  split at h <;> cases h <;> rfl

theorem elemField_lt (e : Elem) : elemField e < 12 := by
  cases e <;> decide

theorem elemOf_reserved {c : Nat} (h : 12 ≤ c) : elemOf c = none := by
  refine Option.eq_none_iff_forall_ne_some.mpr fun e he => ?_
  have hlt := elemField_lt e
  rw [elemField_of_elemOf he] at hlt
  omega

theorem exists_elemOf {c : Nat} (h : c < 12) : ∃ e, elemOf c = some e := by
  have named : ∀ c : Fin 12, (elemOf c).isSome := by decide
  exact Option.isSome_iff_exists.mp (named ⟨c, h⟩)

theorem bitOf_iff (w i : Nat) : bitOf w i = true ↔ bitsOf w i i = 1 := by
  simp [bitOf, bitsOf]

theorem bitOf_eq_decide (w i : Nat) : bitOf w i = decide (bitsOf w i i = 1) := by
  rw [Bool.eq_iff_iff, bitOf_iff, decide_eq_true_iff]

theorem bitsOf_single_ne_zero_iff (w i : Nat) : bitsOf w i i ≠ 0 ↔ bitsOf w i i = 1 := by
  have : bitsOf w i i = w / 2 ^ i % 2 := by simp [bitsOf]
  omega

/-- The element formats that an MX tensor may have (R97), by their ELEM fields. -/
theorem mxElem_iff (e : Elem) :
    (e == .n4f || e == .n8i || e == .n8is || e == .n8f4 || e == .n8f5) = true ↔ elemField e ∈ [2, 7, 8, 9, 10] := by
  cases e <;> decide

theorem f32_iff (e : Elem) : (e == .f32) = true ↔ elemField e = 11 := by
  cases e <;> decide

/-- The fields of a format word that names the element format `e` (R95). -/
def fieldsOf (w : Nat) (e : Elem) : Fmt :=
  { elem := e, scale := bitsOf w 5 4, block := 16 * 2 ^ bitsOf w 7 6, mx := bitOf w 8, round := bitsOf w 11 10
    sat := bitOf w 12, noClip := bitOf w 13 }

theorem fmtOf_of_reserved {w : Nat} (h : 12 ≤ bitsOf w 3 0) : fmtOf w = none := by
  simp [fmtOf, elemOf_reserved h]

/-- What a format word that names a format stands for, with the checks of R97 and of the reserved bits on its fields. -/
theorem fmtOf_of_elemOf {w : Nat} {e : Elem} (he : elemOf (bitsOf w 3 0) = some e) :
    fmtOf w =
      if bitsOf w 5 4 = 3 ∨ bitsOf w 7 6 = 3 ∨ bitsOf w 11 10 = 3 ∨ bitsOf w 9 9 ≠ 0 ∨ bitsOf w 15 14 ≠ 0 then none
      else if bitsOf w 8 8 = 1 ∧ (bitsOf w 5 4 ≠ 1 ∨ bitsOf w 7 6 ≠ 1 ∨ bitsOf w 3 0 ∉ [2, 7, 8, 9, 10]) then none
      else if bitsOf w 3 0 = 11 ∧ bitsOf w 5 4 ≠ 0 then none
      else some (fieldsOf w e) := by
  have hcode := elemField_of_elemOf he
  have htop : w / 2 ^ 14 % 4 = bitsOf w 15 14 := rfl
  unfold fmtOf
  rw [he]
  dsimp only
  rw [htop, ← hcode]
  refine if_congr ?_ rfl (if_congr ?_ rfl (if_congr ?_ rfl rfl))
  · simp [bitOf_eq_decide, ← bitsOf_single_ne_zero_iff, or_assoc]
  · rw [← mxElem_iff e, Bool.and_eq_true, bitOf_iff, Bool.not_eq_true', Bool.eq_false_iff, Ne, Bool.and_eq_true, Bool.and_eq_true,
      beq_iff_eq, beq_iff_eq]
    tauto
  · rw [Bool.and_eq_true, f32_iff, bne_iff_ne]

/-- Settles O11, by the cases of ELEM and then of the checks on the other fields. -/
theorem formatWords : Obligations.FormatWords := by
  intro w _ elem scale block mx round malformed
  rcases Nat.lt_or_ge elem 12 with hlt | hge
  · obtain ⟨e, he⟩ := exists_elemOf hlt
    rw [fmtOf_of_elemOf he]
    split_ifs with h1 h2 h3
    · exact ⟨fun _ => rfl, fun _ => rfl, fun hm h9 ht => by tauto⟩
    · exact ⟨fun _ => rfl, fun _ => rfl, fun hm => by tauto⟩
    · exact ⟨fun _ => rfl, fun _ => rfl, fun hm => by tauto⟩
    · refine ⟨fun hm => ?_, fun hr => by tauto, fun _ _ _ => ?_⟩
      · have : ¬ 12 ≤ elem := by omega
        tauto
      · exact ⟨_, rfl, he, rfl, rfl, bitOf_eq_decide w 8, rfl, bitOf_eq_decide w 12, bitOf_eq_decide w 13⟩
  · rw [fmtOf_of_reserved hge]
    exact ⟨fun _ => rfl, fun _ => rfl, fun hm => absurd (.inl hge) hm⟩

/-! ### Narrow values -/

theorem scaleVal_s8e_nan : scaleVal 1 255 = .nan := rfl

theorem scaleVal_s8e_of_ge {e : Nat} (hlo : 127 ≤ e) (hhi : e < 255) : scaleVal 1 e = .fin false (2 ^ (e - 127)) 1 := by
  simp [scaleVal, hlo, hhi.ne]

theorem scaleVal_s8e_of_lt {e : Nat} (h : e < 127) : scaleVal 1 e = .fin false 1 (2 ^ (127 - e)) := by
  have hne : e ≠ 255 := by omega
  simp [scaleVal, hne, h.not_ge]

/-- R110: an S8E code below 255 is the power of two 2^(e − 127), written as a fraction. -/
theorem scaleVal_s8e_pow {e : Nat} (h : e < 255) : ∃ p q, scaleVal 1 e = .fin false p q ∧ q ≠ 0 ∧ p * 2 ^ 127 = q * 2 ^ e := by
  rcases Nat.lt_or_ge e 127 with hlt | hge
  · refine ⟨_, _, scaleVal_s8e_of_lt hlt, by positivity, ?_⟩
    rw [one_mul, ← pow_add, Nat.sub_add_cancel hlt.le]
  · refine ⟨_, _, scaleVal_s8e_of_ge hge h, one_ne_zero, ?_⟩
    rw [one_mul, ← pow_add, Nat.sub_add_cancel hge]

theorem scaleVal_s8f_of_lt {b : Nat} (h : b < 127) : scaleVal 2 b = .fin false (floatUnits 3 b) (2 ^ 9) := by
  have hnan : ¬ (b = 127 ∨ 128 ≤ b) := by omega
  simp [scaleVal, hnan]

theorem scaleVal_s8f_of_ge {b : Nat} (h : 127 ≤ b) : scaleVal 2 b = .nan := by
  have hnan : b = 127 ∨ 128 ≤ b := by omega
  simp [scaleVal, hnan]

theorem elemVal_n8f4_of_lt {b : Nat} (h : b < 127) : elemVal .n8f4 b = .fin false (floatUnits 3 b) (2 ^ 9) := by
  have hmod : b % 128 = b := by omega
  have hsign : bitOf b 7 = false := by
    rw [bitOf, Nat.div_eq_of_lt (by omega)]
    rfl
  simp [elemVal, hmod, hsign, h.ne]

/-- R102: the trit of a base-3 digit, as an image and as a value. -/
theorem trit_of_digit {d : Nat} (h : d < 3) :
    elemImage .nt d = (d : Int) - 1 ∧ elemVal .nt d = .fin (decide (d = 0)) (if d = 1 then 0 else 1) 1 := by
  refine ⟨rfl, ?_⟩
  interval_cases d <;> rfl

/-- Settles O12, from the values of the codes of each format. -/
theorem narrowValues : Obligations.NarrowValues :=
  ⟨fun _ => trit_of_digit, fun _ => scaleVal_s8e_pow, scaleVal_s8e_nan,
    fun _ h => (scaleVal_s8f_of_lt h).trans (elemVal_n8f4_of_lt h).symm,
    scaleVal_s8f_of_lt (by decide), scaleVal_s8f_of_lt (by decide), fun _ h _ => scaleVal_s8f_of_ge h⟩

/-! ### Conversion lanes -/

theorem lfsrStep_lt {st : Nat} (h : st < 2 ^ 32) : lfsrStep st < 2 ^ 32 := by
  unfold lfsrStep
  split
  · exact Nat.xor_lt_two_pow (by omega) (by decide)
  · omega

theorem ofNat_half {st : Nat} (h : st < 2 ^ 32) : BitVec.ofNat 32 (st / 2) = BitVec.ofNat 32 st >>> 1 := by
  apply BitVec.eq_of_toNat_eq
  rw [BitVec.toNat_ushiftRight, Nat.shiftRight_eq_div_pow, BitVec.toNat_ofNat, BitVec.toNat_ofNat]
  omega

theorem getLsbD_zero_ofNat (st : Nat) : (BitVec.ofNat 32 st).getLsbD 0 = decide (st % 2 = 1) := by
  rw [BitVec.getLsbD_ofNat, Nat.testBit_zero]
  rfl

/-- R129: the step is that of the manual's code on 32-bit words. -/
theorem ofNat_lfsrStep {st : Nat} (h : st < 2 ^ 32) :
    BitVec.ofNat 32 (lfsrStep st) =
      if (BitVec.ofNat 32 st).getLsbD 0 then (BitVec.ofNat 32 st >>> 1) ^^^ 0x80200003#32 else BitVec.ofNat 32 st >>> 1 := by
  rw [getLsbD_zero_ofNat, ← ofNat_half h, lfsrStep]
  by_cases hodd : st % 2 = 1
  · simp only [hodd, decide_true, if_true]
    exact BitVec.ofNat_xor
  · simp [hodd]

/-- A number of 32 bits is 0 exactly where its word is. -/
theorem ofNat_eq_zero_iff {a : Nat} (h : a < 2 ^ 32) : BitVec.ofNat 32 a = 0 ↔ a = 0 := by
  rw [← BitVec.toNat_inj, BitVec.toNat_ofNat, Nat.mod_eq_of_lt h]
  rfl

/-- The XOR of R130, before the lane is kept off 0. -/
def seedMix (seed n : Nat) : Nat := Nat.xor (seed % 2 ^ 32) (n * 0x9E3779B9 % 2 ^ 32)

theorem laneStart_eq (seed n : Nat) : laneStart seed n = if seedMix seed n = 0 then 1 else seedMix seed n := rfl

theorem seedMix_lt (seed n : Nat) : seedMix seed n < 2 ^ 32 :=
  Nat.xor_lt_two_pow (Nat.mod_lt _ (by decide)) (Nat.mod_lt _ (by decide))

theorem ofNat_seedMix (seed n : Nat) :
    BitVec.ofNat 32 (seedMix seed n) = BitVec.ofNat 32 seed ^^^ (BitVec.ofNat 32 n * 0x9E3779B9#32) := by
  apply BitVec.eq_of_toNat_eq
  rw [BitVec.toNat_ofNat, Nat.mod_eq_of_lt (seedMix_lt seed n), BitVec.toNat_xor, BitVec.toNat_mul, BitVec.toNat_ofNat,
    BitVec.toNat_ofNat, BitVec.toNat_ofNat, ← Nat.mul_mod]
  rfl

theorem laneStart_lt (seed n : Nat) : laneStart seed n < 2 ^ 32 := by
  rw [laneStart_eq]
  split
  · decide
  · exact seedMix_lt seed n

theorem ofNat_laneStart (seed n : Nat) :
    BitVec.ofNat 32 (laneStart seed n) =
      if BitVec.ofNat 32 (seedMix seed n) = 0 then 1 else BitVec.ofNat 32 (seedMix seed n) := by
  rw [laneStart_eq, apply_ite (BitVec.ofNat 32)]
  exact if_congr (ofNat_eq_zero_iff (seedMix_lt seed n)).symm rfl rfl

/-- R236: a write of PRT_C_SEED starts lane j of core n as logical lane 4n + j. -/
theorem lanes_ccSet_seed (s : State) (n : Nat) (x : Core) (v : BitVec 64) {j : Nat} (hj : j < 4) :
    (ccSet s n x 0x00F v).lanes[j]? = some (laneStart (v.toNat % 2 ^ 32) (4 * n + j)) := by
  have hlanes : (ccSet s n x 0x00F v).lanes = [0, 1, 2, 3].map (fun j => laneStart (v.toNat % 2 ^ 32) (4 * n + j)) := rfl
  rw [hlanes]
  interval_cases j <;> rfl

/-- Settles O13, from one step of the LFSR, the XOR that starts a lane and the write of PRT_C_SEED. -/
theorem conversionLanes : Obligations.ConversionLanes := by
  refine ⟨fun st h => ⟨lfsrStep_lt h, ofNat_lfsrStep h⟩, by decide, by decide, by decide, fun seed n _ => ?_,
    fun s n x v j hj => lanes_ccSet_seed s n x v hj⟩
  rw [← ofNat_seedMix]
  exact ⟨laneStart_lt seed n, ofNat_laneStart seed n⟩

end Sys2Proof.Machine.Narrow
end

section
/-!
PROOFS. The meaning of each command: one equation for each arm of `exec`.
-/
namespace Sys2Proof.Machine

theorem exec_supplyGood (s : State) : exec (.supplyGood) s = execSupplyGood s := rfl
theorem exec_powerOnResetRelease quick endpoint bif0 bif1 (s : State) :
    exec (.powerOnResetRelease quick endpoint bif0 bif1) s = execPowerOnResetRelease quick endpoint bif0 bif1 s := rfl
theorem exec_supplyOutOfBand (s : State) : exec (.supplyOutOfBand) s = execSupplyOutOfBand s := rfl
theorem exec_perstAssert port (s : State) : exec (.perstAssert port) s = execPerstAssert port s := rfl
theorem exec_perstDeassert port (s : State) : exec (.perstDeassert port) s = execPerstDeassert port s := rfl
theorem exec_hotReset l (s : State) : exec (.hotReset l) s = execHotReset l s := rfl
theorem exec_flr fn (s : State) : exec (.flr fn) s = execFlr fn s := rfl
theorem exec_flrComplete fn (s : State) : exec (.flrComplete fn) s = execFlrComplete fn s := rfl
theorem exec_d3hotEntry fn (s : State) : exec (.d3hotEntry fn) s = execD3hotEntry fn s := rfl
theorem exec_armSend (s : State) : exec (.armSend) s = execArmSend s := rfl
theorem exec_armReceive u (s : State) : exec (.armReceive u) s = execArmReceive u s := rfl
theorem exec_stageMark skew eyes est (s : State) : exec (.stageMark skew eyes est) s = execStageMark skew eyes est s := rfl
theorem exec_stepCancelDone u (s : State) : exec (.stepCancelDone u) s = execStepCancelDone u s := rfl
theorem exec_granuleZeroingDone g (s : State) : exec (.granuleZeroingDone g) s = execGranuleZeroingDone g s := rfl
theorem exec_waySweepDone (s : State) : exec (.waySweepDone) s = execWaySweepDone s := rfl
theorem exec_tollWindow est (s : State) : exec (.tollWindow est) s = execTollWindow est s := rfl
theorem exec_deadlineExpiry who line (s : State) : exec (.deadlineExpiry who line) s = execDeadlineExpiry who line s := rfl
theorem exec_descriptorFetch e (s : State) : exec (.descriptorFetch e) s = execDescriptorFetch e s := rfl
theorem exec_planeLoadDone e t (s : State) : exec (.planeLoadDone e t) s = execPlaneLoadDone e t s := rfl
theorem exec_descriptorEnd e t (s : State) : exec (.descriptorEnd e t) s = execDescriptorEnd e t s := rfl
theorem exec_guardCheckDone e flaws (s : State) : exec (.guardCheckDone e flaws) s = execGuardCheckDone e flaws s := rfl
theorem exec_ladderRerunDone e flaws feed (s : State) : exec (.ladderRerunDone e flaws feed) s = execLadderRerunDone e flaws feed s := rfl
theorem exec_engineStepCommit e part (s : State) : exec (.engineStepCommit e part) s = execEngineStepCommit e part s := rfl
theorem exec_mecDrain e v (s : State) : exec (.mecDrain e v) s = execMecDrain e v s := rfl
theorem exec_mecEnable e v (s : State) : exec (.mecEnable e v) s = execMecEnable e v s := rfl
theorem exec_add c d a b (s : State) : exec (.add c d a b) s = execAdd c d a b s := rfl
theorem exec_sub c d a b (s : State) : exec (.sub c d a b) s = execSub c d a b s := rfl
theorem exec_andC c d a b (s : State) : exec (.andC c d a b) s = execAndC c d a b s := rfl
theorem exec_orC c d a b (s : State) : exec (.orC c d a b) s = execOrC c d a b s := rfl
theorem exec_xorC c d a b (s : State) : exec (.xorC c d a b) s = execXorC c d a b s := rfl
theorem exec_sll c d a b (s : State) : exec (.sll c d a b) s = execSll c d a b s := rfl
theorem exec_srl c d a b (s : State) : exec (.srl c d a b) s = execSrl c d a b s := rfl
theorem exec_sra c d a b (s : State) : exec (.sra c d a b) s = execSra c d a b s := rfl
theorem exec_slt c d a b (s : State) : exec (.slt c d a b) s = execSlt c d a b s := rfl
theorem exec_sltu c d a b (s : State) : exec (.sltu c d a b) s = execSltu c d a b s := rfl
theorem exec_mul c d a b (s : State) : exec (.mul c d a b) s = execMul c d a b s := rfl
theorem exec_mulhs c d a b (s : State) : exec (.mulhs c d a b) s = execMulhs c d a b s := rfl
theorem exec_mulhu c d a b (s : State) : exec (.mulhu c d a b) s = execMulhu c d a b s := rfl
theorem exec_divs c d a b (s : State) : exec (.divs c d a b) s = execDivs c d a b s := rfl
theorem exec_divu c d a b (s : State) : exec (.divu c d a b) s = execDivu c d a b s := rfl
theorem exec_rems c d a b (s : State) : exec (.rems c d a b) s = execRems c d a b s := rfl
theorem exec_remu c d a b (s : State) : exec (.remu c d a b) s = execRemu c d a b s := rfl
theorem exec_clz c d a b (s : State) : exec (.clz c d a b) s = execClz c d a b s := rfl
theorem exec_popc c d a b (s : State) : exec (.popc c d a b) s = execPopc c d a b s := rfl
theorem exec_min c d a b (s : State) : exec (.min c d a b) s = execMin c d a b s := rfl
theorem exec_max c d a b (s : State) : exec (.max c d a b) s = execMax c d a b s := rfl
theorem exec_addi c d a imm (s : State) : exec (.addi c d a imm) s = execAddi c d a imm s := rfl
theorem exec_andi c d a imm (s : State) : exec (.andi c d a imm) s = execAndi c d a imm s := rfl
theorem exec_ori c d a imm (s : State) : exec (.ori c d a imm) s = execOri c d a imm s := rfl
theorem exec_xori c d a imm (s : State) : exec (.xori c d a imm) s = execXori c d a imm s := rfl
theorem exec_shi c d a imm (s : State) : exec (.shi c d a imm) s = execShi c d a imm s := rfl
theorem exec_slti c d a imm (s : State) : exec (.slti c d a imm) s = execSlti c d a imm s := rfl
theorem exec_ldhi c d imm (s : State) : exec (.ldhi c d imm) s = execLdhi c d imm s := rfl
theorem exec_pcadd c d imm (s : State) : exec (.pcadd c d imm) s = execPcadd c d imm s := rfl
theorem exec_ld8u c d a imm (s : State) : exec (.ld8u c d a imm) s = execLd8u c d a imm s := rfl
theorem exec_ld16u c d a imm (s : State) : exec (.ld16u c d a imm) s = execLd16u c d a imm s := rfl
theorem exec_ld32u c d a imm (s : State) : exec (.ld32u c d a imm) s = execLd32u c d a imm s := rfl
theorem exec_ld64 c d a imm (s : State) : exec (.ld64 c d a imm) s = execLd64 c d a imm s := rfl
theorem exec_ld8s c d a imm (s : State) : exec (.ld8s c d a imm) s = execLd8s c d a imm s := rfl
theorem exec_ld16s c d a imm (s : State) : exec (.ld16s c d a imm) s = execLd16s c d a imm s := rfl
theorem exec_ld32s c d a imm (s : State) : exec (.ld32s c d a imm) s = execLd32s c d a imm s := rfl
theorem exec_st8 c d a imm (s : State) : exec (.st8 c d a imm) s = execSt8 c d a imm s := rfl
theorem exec_st16 c d a imm (s : State) : exec (.st16 c d a imm) s = execSt16 c d a imm s := rfl
theorem exec_st32 c d a imm (s : State) : exec (.st32 c d a imm) s = execSt32 c d a imm s := rfl
theorem exec_st64 c d a imm (s : State) : exec (.st64 c d a imm) s = execSt64 c d a imm s := rfl
theorem exec_vld c d a imm (s : State) : exec (.vld c d a imm) s = execVld c d a imm s := rfl
theorem exec_vst c d a imm (s : State) : exec (.vst c d a imm) s = execVst c d a imm s := rfl
theorem exec_beq c a b off (s : State) : exec (.beq c a b off) s = execBeq c a b off s := rfl
theorem exec_bne c a b off (s : State) : exec (.bne c a b off) s = execBne c a b off s := rfl
theorem exec_blt c a b off (s : State) : exec (.blt c a b off) s = execBlt c a b off s := rfl
theorem exec_bge c a b off (s : State) : exec (.bge c a b off) s = execBge c a b off s := rfl
theorem exec_bltu c a b off (s : State) : exec (.bltu c a b off) s = execBltu c a b off s := rfl
theorem exec_bgeu c a b off (s : State) : exec (.bgeu c a b off) s = execBgeu c a b off s := rfl
theorem exec_jlk c d off (s : State) : exec (.jlk c d off) s = execJlk c d off s := rfl
theorem exec_jlkr c d a imm (s : State) : exec (.jlkr c d a imm) s = execJlkr c d a imm s := rfl
theorem exec_rcall c (s : State) : exec (.rcall c) s = execRcall c s := rfl
theorem exec_tret c (s : State) : exec (.tret c) s = execTret c s := rfl
theorem exec_sleep c (s : State) : exec (.sleep c) s = execSleep c s := rfl
theorem exec_stepDone c a (s : State) : exec (.stepDone c a) s = execStepDone c a s := rfl
theorem exec_iclr c (s : State) : exec (.iclr c) s = execIclr c s := rfl
theorem exec_dbgstop c (s : State) : exec (.dbgstop c) s = execDbgstop c s := rfl
theorem exec_ccrr c d imm (s : State) : exec (.ccrr c d imm) s = execCcrr c d imm s := rfl
theorem exec_ccrw c d a imm (s : State) : exec (.ccrw c d a imm) s = execCcrw c d a imm s := rfl
theorem exec_vadd32 c vd va vb (s : State) : exec (.vadd32 c vd va vb) s = execVadd32 c vd va vb s := rfl
theorem exec_vsub32 c vd va vb (s : State) : exec (.vsub32 c vd va vb) s = execVsub32 c vd va vb s := rfl
theorem exec_vmul32 c vd va vb (s : State) : exec (.vmul32 c vd va vb) s = execVmul32 c vd va vb s := rfl
theorem exec_fadd c vd va vb (s : State) : exec (.fadd c vd va vb) s = execFadd c vd va vb s := rfl
theorem exec_fsub c vd va vb (s : State) : exec (.fsub c vd va vb) s = execFsub c vd va vb s := rfl
theorem exec_fmul c vd va vb (s : State) : exec (.fmul c vd va vb) s = execFmul c vd va vb s := rfl
theorem exec_fma c vd va vb (s : State) : exec (.fma c vd va vb) s = execFma c vd va vb s := rfl
theorem exec_fmin c vd va vb (s : State) : exec (.fmin c vd va vb) s = execFmin c vd va vb s := rfl
theorem exec_fmax c vd va vb (s : State) : exec (.fmax c vd va vb) s = execFmax c vd va vb s := rfl
theorem exec_vand c vd va vb (s : State) : exec (.vand c vd va vb) s = execVand c vd va vb s := rfl
theorem exec_vor c vd va vb (s : State) : exec (.vor c vd va vb) s = execVor c vd va vb s := rfl
theorem exec_vxor c vd va vb (s : State) : exec (.vxor c vd va vb) s = execVxor c vd va vb s := rfl
theorem exec_vins c vd va g (s : State) : exec (.vins c vd va g) s = execVins c vd va g s := rfl
theorem exec_vext c va vb g (s : State) : exec (.vext c va vb g) s = execVext c va vb g s := rfl
theorem exec_vsplat c vd g (s : State) : exec (.vsplat c vd g) s = execVsplat c vd g s := rfl
theorem exec_cvtI2f c vd va (s : State) : exec (.cvtI2f c vd va) s = execCvtI2f c vd va s := rfl
theorem exec_cvtF2i c vd va (s : State) : exec (.cvtF2i c vd va) s = execCvtF2i c vd va s := rfl
theorem exec_ndot c vd va vb g (s : State) : exec (.ndot c vd va vb g) s = execNdot c vd va vb g s := rfl
theorem exec_ncvt c vd va g (s : State) : exec (.ncvt c vd va g) s = execNcvt c vd va g s := rfl
theorem exec_nexp c vd va g (s : State) : exec (.nexp c vd va g) s = execNexp c vd va g s := rfl
theorem exec_bmove c d a b fn (s : State) : exec (.bmove c d a b fn) s = execBmove c d a b fn s := rfl
theorem exec_tallyRead c d a b fl (s : State) : exec (.tallyRead c d a b fl) s = execTallyRead c d a b fl s := rfl
theorem exec_tallyAdd c d a b fl (s : State) : exec (.tallyAdd c d a b fl) s = execTallyAdd c d a b fl s := rfl
theorem exec_tallyWaitGe c d a b fl (s : State) : exec (.tallyWaitGe c d a b fl) s = execTallyWaitGe c d a b fl s := rfl
theorem exec_tallyWaitRelease c (s : State) : exec (.tallyWaitRelease c) s = execTallyWaitRelease c s := rfl
theorem exec_flush c d a b fn (s : State) : exec (.flush c d a b fn) s = execFlush c d a b fn s := rfl
theorem exec_acq c d a b fn (s : State) : exec (.acq c d a b fn) s = execAcq c d a b fn s := rfl
theorem exec_cmaIssue c d a (s : State) : exec (.cmaIssue c d a) s = execCmaIssue c d a s := rfl
theorem exec_cmaWait c d a (s : State) : exec (.cmaWait c d a) s = execCmaWait c d a s := rfl
theorem exec_cmaWaitRelease c (s : State) : exec (.cmaWaitRelease c) s = execCmaWaitRelease c s := rfl
theorem exec_cmaPoll c d a (s : State) : exec (.cmaPoll c d a) s = execCmaPoll c d a s := rfl
theorem exec_cmaCommandDone k (s : State) : exec (.cmaCommandDone k) s = execCmaCommandDone k s := rfl
theorem exec_takeInterrupt c (s : State) : exec (.takeInterrupt c) s = execTakeInterrupt c s := rfl
theorem exec_timerExpiry c (s : State) : exec (.timerExpiry c) s = execTimerExpiry c s := rfl
theorem exec_l0FillReturn c (s : State) : exec (.l0FillReturn c) s = execL0FillReturn c s := rfl
theorem exec_writeAccepted c (s : State) : exec (.writeAccepted c) s = execWriteAccepted c s := rfl
theorem exec_softRaise k mask (s : State) : exec (.softRaise k mask) s = execSoftRaise k mask s := rfl
theorem exec_coreFault c t (s : State) : exec (.coreFault c t) s = execCoreFault c t s := rfl
theorem exec_waveRelease w (s : State) : exec (.waveRelease w) s = execWaveRelease w s := rfl
theorem exec_homeRead c (s : State) : exec (.homeRead c) s = execHomeRead c s := rfl
theorem exec_homeWrite c line (s : State) : exec (.homeWrite c line) s = execHomeWrite c line s := rfl
theorem exec_lineUnbusy line (s : State) : exec (.lineUnbusy line) s = execLineUnbusy line s := rfl
theorem exec_missFillReturn line (s : State) : exec (.missFillReturn line) s = execMissFillReturn line s := rfl
theorem exec_writebackBufferFree line (s : State) : exec (.writebackBufferFree line) s = execWritebackBufferFree line s := rfl
theorem exec_baleFillDone fn bale (s : State) : exec (.baleFillDone fn bale) s = execBaleFillDone fn bale s := rfl
theorem exec_baleWritebackDone fn bale nib byt (s : State) :
    exec (.baleWritebackDone fn bale nib byt) s = execBaleWritebackDone fn bale nib byt s := rfl
theorem exec_baleMoveDone fn bale nib byt (s : State) : exec (.baleMoveDone fn bale nib byt) s = execBaleMoveDone fn bale nib byt s := rfl
theorem exec_prefetch q (s : State) : exec (.prefetch q) s = execPrefetch q s := rfl
theorem exec_writeback q (s : State) : exec (.writeback q) s = execWriteback q s := rfl
theorem exec_tierEvict q (s : State) : exec (.tierEvict q) s = execTierEvict q s := rfl
theorem exec_tierDiscard q (s : State) : exec (.tierDiscard q) s = execTierDiscard q s := rfl
theorem exec_moveC q (s : State) : exec (.moveC q) s = execMoveC q s := rfl
theorem exec_initC q (s : State) : exec (.initC q) s = execInitC q s := rfl
theorem exec_advise q (s : State) : exec (.advise q) s = execAdvise q s := rfl
theorem exec_donate q (s : State) : exec (.donate q) s = execDonate q s := rfl
theorem exec_tierStepCommit q (s : State) : exec (.tierStepCommit q) s = execTierStepCommit q s := rfl
theorem exec_clean fn setWay (s : State) : exec (.clean fn setWay) s = execClean fn setWay s := rfl
theorem exec_inv fn setWay (s : State) : exec (.inv fn setWay) s = execInv fn setWay s := rfl
theorem exec_cleanInv fn setWay (s : State) : exec (.cleanInv fn setWay) s = execCleanInv fn setWay s := rfl
theorem exec_preloadLock fn setWay (s : State) : exec (.preloadLock fn setWay) s = execPreloadLock fn setWay s := rfl
theorem exec_unlock fn setWay (s : State) : exec (.unlock fn setWay) s = execUnlock fn setWay s := rfl
theorem exec_maintDone fn (s : State) : exec (.maintDone fn) s = execMaintDone fn s := rfl
theorem exec_seraiRowFail tile w (s : State) : exec (.seraiRowFail tile w) s = execSeraiRowFail tile w s := rfl
theorem exec_hbmRequest x write (s : State) : exec (.hbmRequest x write) s = execHbmRequest x write s := rfl
theorem exec_hbmReadIssue h pc (s : State) : exec (.hbmReadIssue h pc) s = execHbmReadIssue h pc s := rfl
theorem exec_hbmModeSwitch h pc (s : State) : exec (.hbmModeSwitch h pc) s = execHbmModeSwitch h pc s := rfl
theorem exec_hbmReadData line a b ondie (s : State) : exec (.hbmReadData line a b ondie) s = execHbmReadData line a b ondie s := rfl
theorem exec_hbmRefresh h pc bank (s : State) : exec (.hbmRefresh h pc bank) s = execHbmRefresh h pc bank s := rfl
theorem exec_patrolScrubRead h o (s : State) : exec (.patrolScrubRead h o) s = execPatrolScrubRead h o s := rfl
theorem exec_rowRepair h spare (s : State) : exec (.rowRepair h spare) s = execRowRepair h spare s := rfl
theorem exec_rowRepairDone h (s : State) : exec (.rowRepairDone h) s = execRowRepairDone h s := rfl
theorem exec_rdCur k m h (s : State) : exec (.rdCur k m h) s = execRdCur k m h s := rfl
theorem exec_rdShared k m h (s : State) : exec (.rdShared k m h) s = execRdShared k m h s := rfl
theorem exec_rdOwn k m h (s : State) : exec (.rdOwn k m h) s = execRdOwn k m h s := rfl
theorem exec_upgrade k m h (s : State) : exec (.upgrade k m h) s = execUpgrade k m h s := rfl
theorem exec_wbDirty k m h data (s : State) : exec (.wbDirty k m h data) s = execWbDirty k m h data s := rfl
theorem exec_evict k m h (s : State) : exec (.evict k m h) s = execEvict k m h s := rfl
theorem exec_wrFull k m h data (s : State) : exec (.wrFull k m h data) s = execWrFull k m h data s := rfl
theorem exec_wrPart k m h data mask (s : State) : exec (.wrPart k m h data mask) s = execWrPart k m h data mask s := rfl
theorem exec_rspI k line (s : State) : exec (.rspI k line) s = execRspI k line s := rfl
theorem exec_rspS k line (s : State) : exec (.rspS k line) s = execRspS k line s := rfl
theorem exec_rspIData k line data poison (s : State) : exec (.rspIData k line data poison) s = execRspIData k line data poison s := rfl
theorem exec_rspSData k line data poison (s : State) : exec (.rspSData k line data poison) s = execRspSData k line data poison s := rfl
theorem exec_rspFwd k line state data poison (s : State) : exec (.rspFwd k line state data poison) s = execRspFwd k line state data poison s := rfl
theorem exec_rspFwdData k line state data poison (s : State) :
    exec (.rspFwdData k line state data poison) s = execRspFwdData k line state data poison s := rfl
theorem exec_rspFwdMiss k line (s : State) : exec (.rspFwdMiss k line) s = execRspFwdMiss k line s := rfl
theorem exec_fwdAck k line (s : State) : exec (.fwdAck k line) s = execFwdAck k line s := rfl
theorem exec_holdExpiry k line (s : State) : exec (.holdExpiry k line) s = execHoldExpiry k line s := rfl
theorem exec_snoopTimeout k line (s : State) : exec (.snoopTimeout k line) s = execSnoopTimeout k line s := rfl
theorem exec_linkGraceExpiry k (s : State) : exec (.linkGraceExpiry k) s = execLinkGraceExpiry k s := rfl
theorem exec_domainDownCommand d (s : State) : exec (.domainDownCommand d) s = execDomainDownCommand d s := rfl
theorem exec_domainSweepDone d (s : State) : exec (.domainSweepDone d) s = execDomainSweepDone d s := rfl
theorem exec_domainReset d (s : State) : exec (.domainReset d) s = execDomainReset d s := rfl
theorem exec_domainResetCompare d (s : State) : exec (.domainResetCompare d) s = execDomainResetCompare d s := rfl
theorem exec_pull fn (s : State) : exec (.pull fn) s = execPull fn s := rfl
theorem exec_packetError crc site what (s : State) : exec (.packetError crc site what) s = execPacketError crc site what s := rfl
theorem exec_responseTimeout who line (s : State) : exec (.responseTimeout who line) s = execResponseTimeout who line s := rfl
theorem exec_nocHistSelWrite n v (s : State) : exec (.nocHistSelWrite n v) s = execNocHistSelWrite n v s := rfl
theorem exec_siteReset k (s : State) : exec (.siteReset k) s = execSiteReset k s := rfl
theorem exec_moduleTrainingDone k m width rate repaired half (s : State) :
    exec (.moduleTrainingDone k m width rate repaired half) s = execModuleTrainingDone k m width rate repaired half s := rfl
theorem exec_descriptor k m bytes (s : State) : exec (.descriptor k m bytes) s = execDescriptor k m bytes s := rfl
theorem exec_identifyTimeout k m (s : State) : exec (.identifyTimeout k m) s = execIdentifyTimeout k m s := rfl
theorem exec_moduleRetrain k m retries lanes half (s : State) :
    exec (.moduleRetrain k m retries lanes half) s = execModuleRetrain k m retries lanes half s := rfl
theorem exec_moduleLinkDown k m part (s : State) : exec (.moduleLinkDown k m part) s = execModuleLinkDown k m part s := rfl
theorem exec_ioRd k m h (s : State) : exec (.ioRd k m h) s = execIoRd k m h s := rfl
theorem exec_ioWr k m h data (s : State) : exec (.ioWr k m h data) s = execIoWr k m h data s := rfl
theorem exec_baleRd k m h (s : State) : exec (.baleRd k m h) s = execBaleRd k m h s := rfl
theorem exec_baleWr k m h (s : State) : exec (.baleWr k m h) s = execBaleWr k m h s := rfl
theorem exec_baleData k m tag init line data poison (s : State) :
    exec (.baleData k m tag init line data poison) s = execBaleData k m tag init line data poison s := rfl
theorem exec_baleTimeout k tag (s : State) : exec (.baleTimeout k tag) s = execBaleTimeout k tag s := rfl
theorem exec_ehpTally k m h (s : State) : exec (.ehpTally k m h) s = execEhpTally k m h s := rfl
theorem exec_fatal k m reason (s : State) : exec (.fatal k m reason) s = execFatal k m reason s := rfl
theorem exec_credit k m snoop msg (s : State) : exec (.credit k m snoop msg) s = execCredit k m snoop msg s := rfl
theorem exec_trCpl k m tag status entries (s : State) : exec (.trCpl k m tag status entries) s = execTrCpl k m tag status entries s := rfl
theorem exec_trReqTimeout k tag (s : State) : exec (.trReqTimeout k tag) s = execTrReqTimeout k tag s := rfl
theorem exec_invReq k m tag all pasid va log2 (s : State) : exec (.invReq k m tag all pasid va log2) s = execInvReq k m tag all pasid va log2 s := rfl
theorem exec_invCpl k tag (s : State) : exec (.invCpl k tag) s = execInvCpl k tag s := rfl
theorem exec_hostRead fn bar off len (s : State) : exec (.hostRead fn bar off len) s = execHostRead fn bar off len s := rfl
theorem exec_hostWrite fn bar off bytes ro (s : State) : exec (.hostWrite fn bar off bytes ro) s = execHostWrite fn bar off bytes ro s := rfl
theorem exec_hostReadCompletion port tag d (s : State) : exec (.hostReadCompletion port tag d) s = execHostReadCompletion port tag d s := rfl
theorem exec_fenceWrite fn seq (s : State) : exec (.fenceWrite fn seq) s = execFenceWrite fn seq s := rfl
theorem exec_fenceRead fn (s : State) : exec (.fenceRead fn) s = execFenceRead fn s := rfl
theorem exec_doorbellTailWrite fn page value (s : State) : exec (.doorbellTailWrite fn page value) s = execDoorbellTailWrite fn page value s := rfl
theorem exec_evtHeadWrite fn page value (s : State) : exec (.evtHeadWrite fn page value) s = execEvtHeadWrite fn page value s := rfl
theorem exec_tallyWindowAdd fn slot value (s : State) : exec (.tallyWindowAdd fn slot value) s = execTallyWindowAdd fn slot value s := rfl
theorem exec_apertureAccess fn k n data (s : State) : exec (.apertureAccess fn k n data) s = execApertureAccess fn k n data s := rfl
theorem exec_bmeClear fn (s : State) : exec (.bmeClear fn) s = execBmeClear fn s := rfl
theorem exec_bmeSet fn (s : State) : exec (.bmeSet fn) s = execBmeSet fn s := rfl
theorem exec_msixUnmask fn c (s : State) : exec (.msixUnmask fn c) s = execMsixUnmask fn c s := rfl
theorem exec_atsInvalidationRequest fn itag all pasid va log2 (s : State) :
    exec (.atsInvalidationRequest fn itag all pasid va log2) s = execAtsInvalidationRequest fn itag all pasid va log2 s := rfl
theorem exec_atsInvalidationCompletion fn itag (s : State) :
    exec (.atsInvalidationCompletion fn itag) s = execAtsInvalidationCompletion fn itag s := rfl
theorem exec_atsEnableClear fn pasid (s : State) : exec (.atsEnableClear fn pasid) s = execAtsEnableClear fn pasid s := rfl
theorem exec_translationCompletion fn pasid va ans (s : State) :
    exec (.translationCompletion fn pasid va ans) s = execTranslationCompletion fn pasid va ans s := rfl
theorem exec_adopt fn (s : State) : exec (.adopt fn) s = execAdopt fn s := rfl
theorem exec_attachDiscard fn (s : State) : exec (.attachDiscard fn) s = execAttachDiscard fn s := rfl
theorem exec_tcInv fn all pasid (s : State) : exec (.tcInv fn all pasid) s = execTcInv fn all pasid s := rfl
theorem exec_tcInvComplete fn (s : State) : exec (.tcInvComplete fn) s = execTcInvComplete fn s := rfl
theorem exec_relayWrite off data posted (s : State) : exec (.relayWrite off data posted) s = execRelayWrite off data posted s := rfl
theorem exec_relayLinkUp width rate epoch role sync (s : State) :
    exec (.relayLinkUp width rate epoch role sync) s = execRelayLinkUp width rate epoch role sync s := rfl
theorem exec_resyncDone (s : State) : exec (.resyncDone) s = execResyncDone s := rfl
theorem exec_deltaSent (s : State) : exec (.deltaSent) s = execDeltaSent s := rfl
theorem exec_deltaApply off image (s : State) : exec (.deltaApply off image) s = execDeltaApply off image s := rfl
theorem exec_promotionRestoreDone (s : State) : exec (.promotionRestoreDone) s = execPromotionRestoreDone s := rfl
theorem exec_requestActive (s : State) : exec (.requestActive) s = execRequestActive s := rfl
theorem exec_requestStandby (s : State) : exec (.requestStandby) s = execRequestStandby s := rfl
theorem exec_ctxCreate fn (s : State) : exec (.ctxCreate fn) s = execCtxCreate fn s := rfl
theorem exec_ctxCreateDone fn (s : State) : exec (.ctxCreateDone fn) s = execCtxCreateDone fn s := rfl
theorem exec_ctxTeardown fn (s : State) : exec (.ctxTeardown fn) s = execCtxTeardown fn s := rfl
theorem exec_ctxTeardownDone fn (s : State) : exec (.ctxTeardownDone fn) s = execCtxTeardownDone fn s := rfl
theorem exec_queueBind fn (s : State) : exec (.queueBind fn) s = execQueueBind fn s := rfl
theorem exec_queueUnbind fn (s : State) : exec (.queueUnbind fn) s = execQueueUnbind fn s := rfl
theorem exec_slotConfig fn (s : State) : exec (.slotConfig fn) s = execSlotConfig fn s := rfl
theorem exec_slotFree fn (s : State) : exec (.slotFree fn) s = execSlotFree fn s := rfl
theorem exec_abort fn (s : State) : exec (.abort fn) s = execAbort fn s := rfl
theorem exec_abortDone fn (s : State) : exec (.abortDone fn) s = execAbortDone fn s := rfl
theorem exec_ctxQuery fn (s : State) : exec (.ctxQuery fn) s = execCtxQuery fn s := rfl
theorem exec_partQuery fn (s : State) : exec (.partQuery fn) s = execPartQuery fn s := rfl
theorem exec_partReset fn (s : State) : exec (.partReset fn) s = execPartReset fn s := rfl
theorem exec_partitionResetDone p (s : State) : exec (.partitionResetDone p) s = execPartitionResetDone p s := rfl
theorem exec_queueStepRead q entry rec (s : State) : exec (.queueStepRead q entry rec) s = execQueueStepRead q entry rec s := rfl
theorem exec_stepDispatch q (s : State) : exec (.stepDispatch q) s = execStepDispatch q s := rfl
theorem exec_copyStepCommit q (s : State) : exec (.copyStepCommit q) s = execCopyStepCommit q s := rfl
theorem exec_mctpMessage pcie message secured (s : State) : exec (.mctpMessage pcie message secured) s = execMctpMessage pcie message secured s := rfl
theorem exec_mailboxGo fn (s : State) : exec (.mailboxGo fn) s = execMailboxGo fn s := rfl
theorem exec_read a inst payload secured (s : State) : exec (.read a inst payload secured) s = execRead a inst payload secured s := rfl
theorem exec_write a inst payload secured (s : State) : exec (.write a inst payload secured) s = execWrite a inst payload secured s := rfl
theorem exec_commit a inst payload secured (s : State) : exec (.commit a inst payload secured) s = execCommit a inst payload secured s := rfl
theorem exec_info a inst payload secured (s : State) : exec (.info a inst payload secured) s = execInfo a inst payload secured s := rfl
theorem exec_eventGet a inst payload secured (s : State) : exec (.eventGet a inst payload secured) s = execEventGet a inst payload secured s := rfl
theorem exec_regRead a inst payload secured (s : State) : exec (.regRead a inst payload secured) s = execRegRead a inst payload secured s := rfl
theorem exec_regWrite a inst payload secured (s : State) : exec (.regWrite a inst payload secured) s = execRegWrite a inst payload secured s := rfl
theorem exec_actionCommit a (s : State) : exec (.actionCommit a) s = execActionCommit a s := rfl
theorem exec_actionDiscard a (s : State) : exec (.actionDiscard a) s = execActionDiscard a s := rfl
theorem exec_commitCheck (s : State) : exec (.commitCheck) s = execCommitCheck s := rfl
theorem exec_eventOccurrence (s : State) : exec (.eventOccurrence) s = execEventOccurrence s := rfl
theorem exec_coalesceWindowEnd code inst (s : State) : exec (.coalesceWindowEnd code inst) s = execCoalesceWindowEnd code inst s := rfl
theorem exec_notifyRepeat (s : State) : exec (.notifyRepeat) s = execNotifyRepeat s := rfl
theorem exec_hostEnableWrite on (s : State) : exec (.hostEnableWrite on) s = execHostEnableWrite on s := rfl
theorem exec_logDropsClear (s : State) : exec (.logDropsClear) s = execLogDropsClear s := rfl
theorem exec_blackBoxClear (s : State) : exec (.blackBoxClear) s = execBlackBoxClear s := rfl
theorem exec_scrubLossClear (s : State) : exec (.scrubLossClear) s = execScrubLossClear s := rfl
theorem exec_token value vdd18 (s : State) : exec (.token value vdd18) s = execToken value vdd18 s := rfl
theorem exec_fuseBurnDone worked (s : State) : exec (.fuseBurnDone worked) s = execFuseBurnDone worked s := rfl
theorem exec_ownerEnrol hash (s : State) : exec (.ownerEnrol hash) s = execOwnerEnrol hash s := rfl
theorem exec_svnAdvance kind (s : State) : exec (.svnAdvance kind) s = execSvnAdvance kind s := rfl
theorem exec_erase4k (s : State) : exec (.erase4k) s = execErase4k s := rfl
theorem exec_erase64k (s : State) : exec (.erase64k) s = execErase64k s := rfl
theorem exec_program (s : State) : exec (.program) s = execProgram s := rfl
theorem exec_flashRead (s : State) : exec (.flashRead) s = execFlashRead s := rfl
theorem exec_activate (s : State) : exec (.activate) s = execActivate s := rfl
theorem exec_flashCommandDone device (s : State) : exec (.flashCommandDone device) s = execFlashCommandDone device s := rfl
theorem exec_spdmRequest path req (s : State) : exec (.spdmRequest path req) s = execSpdmRequest path req s := rfl
theorem exec_rom t (s : State) : exec (.rom t) s = execRom t s := rfl
theorem exec_clocks t pll router d slack (s : State) : exec (.clocks t pll router d slack) s = execClocks t pll router d slack s := rfl
theorem exec_firmware t flash (s : State) : exec (.firmware t flash) s = execFirmware t flash s := rfl
theorem exec_serai t rows (s : State) : exec (.serai t rows) s = execSerai t rows s := rfl
theorem exec_hbmInit t caps failed late (s : State) : exec (.hbmInit t caps failed late) s = execHbmInit t caps failed late s := rfl
theorem exec_memtest t rows (s : State) : exec (.memtest t rows) s = execMemtest t rows s := rfl
theorem exec_porter t (s : State) : exec (.porter t) s = execPorter t s := rfl
theorem exec_engines t cols (s : State) : exec (.engines t cols) s = execEngines t cols s := rfl
theorem exec_sites t (s : State) : exec (.sites t) s = execSites t s := rfl
theorem exec_start (s : State) : exec (.start) s = execStart s := rfl
theorem exec_markZero skew eyes (s : State) : exec (.markZero skew eyes) s = execMarkZero skew eyes s := rfl
theorem exec_hpfBringupUpdate progress eta (s : State) : exec (.hpfBringupUpdate progress eta) s = execHpfBringupUpdate progress eta s := rfl
theorem exec_warmReset (s : State) : exec (.warmReset) s = execWarmReset s := rfl
theorem exec_hubFault cause (s : State) : exec (.hubFault cause) s = execHubFault cause s := rfl
theorem exec_replanNow (s : State) : exec (.replanNow) s = execReplanNow s := rfl
theorem exec_replanInterval (s : State) : exec (.replanInterval) s = execReplanInterval s := rfl
theorem exec_ageingMeasure d slack (s : State) : exec (.ageingMeasure d slack) s = execAgeingMeasure d slack s := rfl
theorem exec_tempSample tiles hot (s : State) : exec (.tempSample tiles hot) s = execTempSample tiles hot s := rfl
theorem exec_avsCurrentRead amps (s : State) : exec (.avsCurrentRead amps) s = execAvsCurrentRead amps s := rfl
theorem exec_avsTimeout (s : State) : exec (.avsTimeout) s = execAvsTimeout s := rfl
theorem exec_rcRead fn p (s : State) : exec (.rcRead fn p) s = execRcRead fn p s := rfl
theorem exec_registerWrite fn c (s : State) : exec (.registerWrite fn c) s = execRegisterWrite fn c s := rfl
theorem exec_relayLinkDown (s : State) : exec (.relayLinkDown) s = execRelayLinkDown s := rfl
theorem exec_hostRefclkLoss port (s : State) : exec (.hostRefclkLoss port) s = execHostRefclkLoss port s := rfl
theorem exec_hostLinkUp l (s : State) : exec (.hostLinkUp l) s = execHostLinkUp l s := rfl
theorem exec_hostCompletionTimeout port tag (s : State) : exec (.hostCompletionTimeout port tag) s = execHostCompletionTimeout port tag s := rfl
theorem exec_d0Entry fn (s : State) : exec (.d0Entry fn) s = execD0Entry fn s := rfl
theorem exec_ucieLowPowerRequest k m (s : State) : exec (.ucieLowPowerRequest k m) s = execUcieLowPowerRequest k m s := rfl

end Sys2Proof.Machine
end

section
/-!
PROOFS. The words of the porter cores' instructions (R223 to R227): fields of each format, the word of an instruction and the
instruction of a word.
-/
namespace Sys2Proof.Machine.Words
open Claims

/-! ### The fields of a word that is put together from them -/

section
variable (op : BitVec 8) (d a b : Fin 32) (fn : BitVec 9) (imm : BitVec 14) (far : BitVec 19) (vd va vb : Fin 16) (g : Fin 32) (vfn : BitVec 7)

theorem fields_encRR : cwOp (encRR op d a b fn) = op.toNat ∧ cwD (encRR op d a b fn) = d ∧ cwA (encRR op d a b fn) = a ∧
    cwB (encRR op d a b fn) = b ∧ cwFn (encRR op d a b fn) = fn := by
  simp (disch := decide) only [cwOp, cwD, cwA, cwB, cwFn, encRR, BitVec.extractLsb'_append_eq_of_le, BitVec.extractLsb'_append_eq_of_add_le, Nat.sub_self, Nat.reduceSub, BitVec.extractLsb'_eq_self, and_self]

theorem fields_encRI : cwOp (encRI op d a imm) = op.toNat ∧ cwD (encRI op d a imm) = d ∧ cwA (encRI op d a imm) = a ∧
    cwImm14 (encRI op d a imm) = imm := by
  simp (disch := decide) only [cwOp, cwD, cwA, cwImm14, encRI, BitVec.extractLsb'_append_eq_of_le, BitVec.extractLsb'_append_eq_of_add_le, Nat.sub_self, Nat.reduceSub, BitVec.extractLsb'_eq_self, and_self]

theorem fields_encU : cwOp (encU op d far) = op.toNat ∧ cwD (encU op d far) = d ∧ cwImm19 (encU op d far) = far := by
  simp (disch := decide) only [cwOp, cwD, cwImm19, encU, BitVec.extractLsb'_append_eq_of_le, BitVec.extractLsb'_append_eq_of_add_le, Nat.sub_self, Nat.reduceSub, BitVec.extractLsb'_eq_self, and_self]

theorem fields_encVR : cwOp (encVR op vd va vb g vfn) = op.toNat ∧ cwVd (encVR op vd va vb g vfn) = vd ∧ cwVa (encVR op vd va vb g vfn) = va ∧
    cwVb (encVR op vd va vb g vfn) = vb ∧ cwG (encVR op vd va vb g vfn) = g ∧ cwVfn (encVR op vd va vb g vfn) = vfn.toNat := by
  simp (disch := decide) only [cwOp, cwVd, cwVa, cwVb, cwG, cwVfn, encVR, BitVec.extractLsb'_append_eq_of_le, BitVec.extractLsb'_append_eq_of_add_le, Nat.sub_self, Nat.reduceSub, BitVec.extractLsb'_eq_self, and_self]
end

section
variable {w : CoreWord} {op : BitVec 8} (h : cwOp w = op.toNat)
include h

theorem op_eq_extract : op = w.extractLsb' 24 8 := (BitVec.eq_of_toNat_eq h).symm

theorem encRR_fields : encRR op (cwD w) (cwA w) (cwB w) (cwFn w) = w := by
  simp only [op_eq_extract h, encRR, cwD, cwA, cwB, cwFn, BitVec.ofFin_toFin]
  rw [BitVec.extractLsb'_append_extractLsb'_eq_extractLsb' (show 24 = 19 + 5 from rfl),
    BitVec.extractLsb'_append_extractLsb'_eq_extractLsb' (show 19 = 14 + 5 from rfl),
    BitVec.extractLsb'_append_extractLsb'_eq_extractLsb' (show 14 = 9 + 5 from rfl),
    BitVec.extractLsb'_append_extractLsb'_eq_extractLsb' (show 9 = 0 + 9 from rfl), BitVec.extractLsb'_eq_self]

theorem encRI_fields : encRI op (cwD w) (cwA w) (cwImm14 w) = w := by
  simp only [op_eq_extract h, encRI, cwD, cwA, cwImm14, BitVec.ofFin_toFin]
  rw [BitVec.extractLsb'_append_extractLsb'_eq_extractLsb' (show 24 = 19 + 5 from rfl),
    BitVec.extractLsb'_append_extractLsb'_eq_extractLsb' (show 19 = 14 + 5 from rfl),
    BitVec.extractLsb'_append_extractLsb'_eq_extractLsb' (show 14 = 0 + 14 from rfl), BitVec.extractLsb'_eq_self]

theorem encU_fields : encU op (cwD w) (cwImm19 w) = w := by
  simp only [op_eq_extract h, encU, cwD, cwImm19, BitVec.ofFin_toFin]
  rw [BitVec.extractLsb'_append_extractLsb'_eq_extractLsb' (show 24 = 19 + 5 from rfl),
    BitVec.extractLsb'_append_extractLsb'_eq_extractLsb' (show 19 = 0 + 19 from rfl), BitVec.extractLsb'_eq_self]

theorem encVR_fields {vfn : BitVec 7} (hfn : cwVfn w = vfn.toNat) : encVR op (cwVd w) (cwVa w) (cwVb w) (cwG w) vfn = w := by
  have hv : vfn = w.extractLsb' 0 7 := (BitVec.eq_of_toNat_eq hfn).symm
  simp only [op_eq_extract h, hv, encVR, cwVd, cwVa, cwVb, cwG, BitVec.ofFin_toFin]
  rw [BitVec.extractLsb'_append_extractLsb'_eq_extractLsb' (show 24 = 20 + 4 from rfl),
    BitVec.extractLsb'_append_extractLsb'_eq_extractLsb' (show 20 = 16 + 4 from rfl),
    BitVec.extractLsb'_append_extractLsb'_eq_extractLsb' (show 16 = 12 + 4 from rfl),
    BitVec.extractLsb'_append_extractLsb'_eq_extractLsb' (show 12 = 7 + 5 from rfl),
    BitVec.extractLsb'_append_extractLsb'_eq_extractLsb' (show 7 = 0 + 7 from rfl), BitVec.extractLsb'_eq_self]
end

/-! ### The instruction of a word, by its opcode -/

section
variable (c : Fin 25600) {w : CoreWord}

theorem instrOf_op01 (h : cwOp w = 0x01) : coreInstrOf c w = (aluOps.lookup (cwFn w).toNat).map (fun f => f c (cwD w) (cwA w) (cwB w)) := by
  simp only [coreInstrOf, h]

theorem instrOf_op06 (h : cwOp w = 0x06) :
    coreInstrOf c w = if w.extractLsb' 8 6 = 0 then some (.shi c (cwD w) (cwA w) (w.extractLsb' 0 8)) else none := by
  simp only [coreInstrOf, h]

theorem instrOf_op28 (h : cwOp w = 0x28) : coreInstrOf c w = sysOf c w := by
  simp only [coreInstrOf, h]

theorem instrOf_op29 (h : cwOp w = 0x29) : coreInstrOf c w = if cwA w = 0 then some (.ccrr c (cwD w) (cwImm14 w)) else none := by
  simp only [coreInstrOf, h]

theorem instrOf_op30 (h : cwOp w = 0x30) : coreInstrOf c w = vopOf c w := by
  simp only [coreInstrOf, h]

theorem instrOf_op31 (h : cwOp w = 0x31) : coreInstrOf c w = nsimdOf c w := by
  simp only [coreInstrOf, h]

theorem instrOf_op38 (h : cwOp w = 0x38) : coreInstrOf c w = some (.bmove c (cwD w) (cwA w) (cwB w) (cwFn w)) := by
  simp only [coreInstrOf, h]

theorem instrOf_op39 (h : cwOp w = 0x39) : coreInstrOf c w = tallyOf c w := by
  simp only [coreInstrOf, h]

theorem instrOf_op3A (h : cwOp w = 0x3A) : coreInstrOf c w = some (.flush c (cwD w) (cwA w) (cwB w) (cwFn w)) := by
  simp only [coreInstrOf, h]

theorem instrOf_op3B (h : cwOp w = 0x3B) : coreInstrOf c w = some (.acq c (cwD w) (cwA w) (cwB w) (cwFn w)) := by
  simp only [coreInstrOf, h]

theorem instrOf_op3C (h : cwOp w = 0x3C) : coreInstrOf c w = cmaOpOf c w := by
  simp only [coreInstrOf, h]

/-- The opcodes that a format's table does not list. -/
def ownOps : List Nat := [0x01, 0x06, 0x28, 0x29, 0x30, 0x31, 0x38, 0x39, 0x3A, 0x3B, 0x3C]

/-- The instruction of a word of the formats RI, B, U and J that uses each field whole. -/
def tableInstr (c : Fin 25600) (w : CoreWord) : Option Instr :=
  match riOps.lookup (cwOp w) with
  | some f => some (f c (cwD w) (cwA w) (cwImm14 w))
  | none => match branchOps.lookup (cwOp w) with
    | some f => some (f c (cwD w) (cwA w) (cwImm14 w))
    | none => (wideOps.lookup (cwOp w)).map (fun f => f c (cwD w) (cwImm19 w))

theorem instrOf_table (h : cwOp w ∉ ownOps) : coreInstrOf c w = tableInstr c w := by
  simp only [ownOps, List.mem_cons, List.not_mem_nil, or_false, not_or] at h
  unfold coreInstrOf tableInstr
  split <;> first | rfl | omega
end

/-! ### From the instruction to its word and back -/

section
variable (c : Fin 25600) (d a b : Fin 32) (fn : BitVec 9) (imm : BitVec 14) (far : BitVec 19) (vd va vb : Fin 16) (g : Fin 32) (vfn : BitVec 7)

theorem instrOf_alu : coreInstrOf c (encRR 0x01 d a b fn) = (aluOps.lookup fn.toNat).map (fun f => f c d a b) := by
  obtain ⟨hop, hd, ha, hb, hfn⟩ := fields_encRR 0x01 d a b fn
  rw [instrOf_op01 c hop, hd, ha, hb, hfn]

theorem instrOf_sys : coreInstrOf c (encRR 0x28 0 0 0 fn) =
    if fn = 3 then some (.stepDone c 0) else (sysOps.lookup fn.toNat).map (fun f => f c) := by
  obtain ⟨hop, hd, ha, hb, hfn⟩ := fields_encRR 0x28 0 0 0 fn
  rw [instrOf_op28 c hop, sysOf, hd, ha, hb, hfn, if_pos ⟨rfl, rfl⟩, if_pos rfl]

theorem instrOf_stepDone : coreInstrOf c (encRR 0x28 0 a 0 3) = some (.stepDone c a) := by
  obtain ⟨hop, hd, ha, hb, hfn⟩ := fields_encRR 0x28 0 a 0 3
  rw [instrOf_op28 c hop, sysOf, hd, ha, hb, hfn, if_pos ⟨rfl, rfl⟩, if_pos rfl]

theorem instrOf_bmove : coreInstrOf c (encRR 0x38 d a b fn) = some (.bmove c d a b fn) := by
  obtain ⟨hop, hd, ha, hb, hfn⟩ := fields_encRR 0x38 d a b fn
  rw [instrOf_op38 c hop, hd, ha, hb, hfn]

theorem instrOf_flush : coreInstrOf c (encRR 0x3A d a b fn) = some (.flush c d a b fn) := by
  obtain ⟨hop, hd, ha, hb, hfn⟩ := fields_encRR 0x3A d a b fn
  rw [instrOf_op3A c hop, hd, ha, hb, hfn]

theorem instrOf_acq : coreInstrOf c (encRR 0x3B d a b fn) = some (.acq c d a b fn) := by
  obtain ⟨hop, hd, ha, hb, hfn⟩ := fields_encRR 0x3B d a b fn
  rw [instrOf_op3B c hop, hd, ha, hb, hfn]

/-- The instruction of TALLY's OP field. -/
def tallyInstr (c : Fin 25600) (d a b : Fin 32) (fl : BitVec 7) : Nat → Option Instr
  | 0 => some (.tallyRead c d a b fl)
  | 1 => some (.tallyAdd c d a b fl)
  | 2 => some (.tallyWaitGe c d a b fl)
  | _ => none

theorem tallyOf_eq (w : CoreWord) : tallyOf c w =
    tallyInstr c (cwD w) (cwA w) (cwB w) ((cwFn w).extractLsb' 2 7) ((cwFn w).extractLsb' 0 2).toNat := by
  unfold tallyOf tallyInstr
  rfl

theorem instrOf_tally (fl : BitVec 7) (op : BitVec 2) :
    coreInstrOf c (encRR 0x39 d a b (fl ++ op)) = tallyInstr c d a b fl op.toNat := by
  obtain ⟨hop, hd, ha, hb, hfn⟩ := fields_encRR 0x39 d a b (fl ++ op)
  rw [instrOf_op39 c hop, tallyOf_eq, hd, ha, hb, hfn, BitVec.extractLsb'_append_eq_of_le (Nat.le_refl 2), Nat.sub_self,
    BitVec.extractLsb'_eq_self, BitVec.extractLsb'_append_eq_of_add_le (by decide), BitVec.extractLsb'_eq_self]

/-- The instruction of CMA's FN field. -/
def cmaInstr (c : Fin 25600) (d a : Fin 32) : Nat → Option Instr
  | 0 => some (.cmaIssue c d a)
  | 1 => some (.cmaWait c d a)
  | 2 => some (.cmaPoll c d a)
  | _ => none

theorem cmaOpOf_eq (w : CoreWord) : cmaOpOf c w = if cwB w = 0 then cmaInstr c (cwD w) (cwA w) (cwFn w).toNat else none := by
  unfold cmaOpOf cmaInstr
  rfl

theorem instrOf_cma : coreInstrOf c (encRR 0x3C d a 0 fn) = cmaInstr c d a fn.toNat := by
  obtain ⟨hop, hd, ha, hb, hfn⟩ := fields_encRR 0x3C d a 0 fn
  rw [instrOf_op3C c hop, cmaOpOf_eq, hd, ha, hb, hfn, if_pos rfl]

theorem instrOf_ri {op : BitVec 8} {f} (h : riOps.lookup op.toNat = some f) (hop : op.toNat ∉ ownOps) :
    coreInstrOf c (encRI op d a imm) = some (f c d a imm) := by
  obtain ⟨ho, hd, ha, hi⟩ := fields_encRI op d a imm
  rw [instrOf_table c (by rwa [ho]), tableInstr, ho, hd, ha, hi, h]

theorem instrOf_branch {op : BitVec 8} {f} (hr : riOps.lookup op.toNat = none) (h : branchOps.lookup op.toNat = some f) (hop : op.toNat ∉ ownOps) :
    coreInstrOf c (encRI op d a imm) = some (f c d a imm) := by
  obtain ⟨ho, hd, ha, hi⟩ := fields_encRI op d a imm
  rw [instrOf_table c (by rwa [ho]), tableInstr, ho, hd, ha, hi, hr, h]

theorem instrOf_wide {op : BitVec 8} {f} (hr : riOps.lookup op.toNat = none) (hb : branchOps.lookup op.toNat = none)
    (h : wideOps.lookup op.toNat = some f) (hop : op.toNat ∉ ownOps) : coreInstrOf c (encU op d far) = some (f c d far) := by
  obtain ⟨ho, hd, hi⟩ := fields_encU op d far
  rw [instrOf_table c (by rwa [ho]), tableInstr, ho, hd, hi, hr, hb, h]
  rfl

/-- SHI's immediate has 8 bits of the 14: the rest is reserved (log 136). -/
theorem zeroExtend_eq_append (sh : BitVec 8) : (sh.zeroExtend 14 : BitVec 14) = 0#6 ++ sh :=
  BitVec.eq_of_toNat_eq (by rw [BitVec.toNat_append]; simp; omega)

theorem instrOf_shi (sh : BitVec 8) : coreInstrOf c (encRI 0x06 d a (sh.zeroExtend 14)) = some (.shi c d a sh) := by
  obtain ⟨ho, hd, ha, -⟩ := fields_encRI 0x06 d a (sh.zeroExtend 14)
  rw [instrOf_op06 c ho, hd, ha, zeroExtend_eq_append, encRI]
  simp (disch := decide) only [BitVec.extractLsb'_append_eq_of_le, BitVec.extractLsb'_append_eq_of_add_le, Nat.sub_self,
    BitVec.extractLsb'_eq_self]
  rfl

theorem instrOf_ccrr : coreInstrOf c (encRI 0x29 d 0 imm) = some (.ccrr c d imm) := by
  obtain ⟨ho, hd, ha, hi⟩ := fields_encRI 0x29 d 0 imm
  rw [instrOf_op29 c ho, hd, ha, hi, if_pos rfl]

theorem instrOf_vop {f} (h : vopOps.lookup vfn.toNat = some f) (hfn : vfn.toNat < 0x18) : coreInstrOf c (encVR 0x30 vd va vb 0 vfn) = some (f c vd va vb) := by
  obtain ⟨ho, hd, ha, hb, hg, hv⟩ := fields_encVR 0x30 vd va vb 0 vfn
  rw [instrOf_op30 c ho, vopOf, hv, hd, ha, hb, hg]
  split
  case h_6 => rw [if_pos rfl, h]; rfl
  all_goals omega

end

/-- The word of an instruction stands for it. -/
theorem instrOf_wordOf {i c w} (h : coreWordOf i = some (c, w)) : coreInstrOf c w = some i := by
  cases i <;> simp only [coreWordOf, Option.some.injEq, Prod.mk.injEq, reduceCtorEq] at h
  all_goals obtain ⟨rfl, rfl⟩ := h
  case shi => exact instrOf_shi ..
  case stepDone => exact instrOf_stepDone ..
  case ccrr => exact instrOf_ccrr ..
  case bmove => exact instrOf_bmove ..
  case flush => exact instrOf_flush ..
  case acq => exact instrOf_acq ..
  case tallyRead | tallyAdd | tallyWaitGe => exact instrOf_tally ..
  case cmaIssue | cmaWait | cmaPoll => exact instrOf_cma ..
  case rcall | tret | sleep | iclr | dbgstop => exact instrOf_sys ..
  case beq | bne | blt | bge | bltu | bgeu => exact instrOf_branch _ _ _ _ rfl rfl (by decide)
  case ldhi | pcadd | jlk => exact instrOf_wide _ _ _ rfl rfl rfl (by decide)
  case vadd32 | vsub32 | vmul32 | fadd | fsub | fmul | fma | fmin | fmax | vand | vor | vxor => exact instrOf_vop _ _ _ _ _ rfl (by decide)
  case vins | vext | vsplat | cvtI2f | cvtF2i => simp [coreInstrOf, vopOf, fields_encVR]
  case ndot | ncvt | nexp => simp [coreInstrOf, nsimdOf, fields_encVR]
  case addi | andi | ori | xori | slti | ld8u | ld16u | ld32u | ld64 | ld8s | ld16s | ld32s | st8 | st16 | st32 | st64 | vld | vst | jlkr | ccrw =>
    exact instrOf_ri _ _ _ _ rfl (by decide)
  all_goals exact instrOf_alu ..

/-! ### From the word to its instruction and back -/

theorem mem_of_lookup {β : Type} {l : List (Nat × β)} {n : Nat} {v : β} (h : l.lookup n = some v) : (n, v) ∈ l := by
  obtain ⟨l₁, l₂, rfl, -⟩ := List.lookup_eq_some_iff.mp h
  simp

section
variable (c : Fin 25600) (d a b : Fin 32) (imm : BitVec 14) (far : BitVec 19) (vd va vb : Fin 16)

theorem aluOps_words : ∀ e ∈ aluOps, coreWordOf (e.2 c d a b) = some (c, encRR 0x01 d a b (BitVec.ofNat 9 e.1)) := by
  simp [aluOps, coreWordOf]

theorem sysOps_words : ∀ e ∈ sysOps, coreWordOf (e.2 c) = some (c, encRR 0x28 0 0 0 (BitVec.ofNat 9 e.1)) := by
  simp [sysOps, coreWordOf]

theorem vopOps_words : ∀ e ∈ vopOps, coreWordOf (e.2 c vd va vb) = some (c, encVR 0x30 vd va vb 0 (BitVec.ofNat 7 e.1)) := by
  simp [vopOps, coreWordOf]

theorem riOps_words : ∀ e ∈ riOps, coreWordOf (e.2 c d a imm) = some (c, encRI (BitVec.ofNat 8 e.1) d a imm) := by
  simp [riOps, coreWordOf]

theorem branchOps_words : ∀ e ∈ branchOps, coreWordOf (e.2 c a b imm) = some (c, encRI (BitVec.ofNat 8 e.1) a b imm) := by
  simp [branchOps, coreWordOf]

theorem wideOps_words : ∀ e ∈ wideOps, coreWordOf (e.2 c d far) = some (c, encU (BitVec.ofNat 8 e.1) d far) := by
  simp [wideOps, coreWordOf]
end

theorem cwOp_eq_ofNat (w : CoreWord) : cwOp w = (BitVec.ofNat 8 (cwOp w)).toNat := by
  simp [cwOp]

theorem cwVfn_eq_ofNat (w : CoreWord) : cwVfn w = (BitVec.ofNat 7 (cwVfn w)).toNat := by
  simp [cwVfn]

section
variable {i : Instr} {c : Fin 25600} {w : CoreWord}

theorem wordOf_alu (ho : cwOp w = 0x01) (h : coreInstrOf c w = some i) : coreWordOf i = some (c, w) := by
  rw [instrOf_op01 c ho, Option.map_eq_some_iff] at h
  obtain ⟨f, hf, rfl⟩ := h
  rw [aluOps_words _ _ _ _ _ (mem_of_lookup hf), BitVec.ofNat_toNat, BitVec.setWidth_eq, encRR_fields ho]

theorem wordOf_shi (ho : cwOp w = 0x06) (h : coreInstrOf c w = some i) : coreWordOf i = some (c, w) := by
  rw [instrOf_op06 c ho] at h
  split at h
  · next hz =>
    cases h
    have himm : (w.extractLsb' 0 8).zeroExtend 14 = cwImm14 w := by
      rw [zeroExtend_eq_append, ← show w.extractLsb' 8 6 = 0#6 from hz,
        BitVec.extractLsb'_append_extractLsb'_eq_extractLsb' (show 8 = 0 + 8 from rfl), cwImm14]
    rw [coreWordOf, himm, encRI_fields ho]
  · cases h

theorem wordOf_sys (ho : cwOp w = 0x28) (h : coreInstrOf c w = some i) : coreWordOf i = some (c, w) := by
  rw [instrOf_op28 c ho, sysOf] at h
  split at h
  · next hz =>
    obtain ⟨hd, hb⟩ := hz
    have hw := encRR_fields (op := 0x28) ho
    rw [hd, hb] at hw
    split at h
    · next hfn => cases h; rw [hfn] at hw; exact congrArg (fun v => some (c, v)) hw
    · split at h
      · next ha =>
        rw [ha] at hw
        obtain ⟨f, hf, rfl⟩ := Option.map_eq_some_iff.mp h
        rw [sysOps_words _ _ (mem_of_lookup hf), BitVec.ofNat_toNat, BitVec.setWidth_eq, hw]
      · cases h
  · cases h

theorem wordOf_ccrr (ho : cwOp w = 0x29) (h : coreInstrOf c w = some i) : coreWordOf i = some (c, w) := by
  rw [instrOf_op29 c ho] at h
  split at h
  · next ha => cases h; rw [coreWordOf, ← ha, encRI_fields ho]
  · cases h

theorem wordOf_vop (ho : cwOp w = 0x30) (h : coreInstrOf c w = some i) : coreWordOf i = some (c, w) := by
  have hw := encVR_fields (op := 0x30) ho (cwVfn_eq_ofNat w)
  rw [instrOf_op30 c ho, vopOf] at h
  split at h <;> split at h
  case h_1.isTrue hfn hb => cases h; rw [hfn, hb] at hw; exact congrArg (fun v => some (c, v)) hw
  case h_2.isTrue hfn hd => cases h; rw [hfn, hd] at hw; exact congrArg (fun v => some (c, v)) hw
  case h_3.isTrue hfn hab => cases h; rw [hfn, hab.1, hab.2] at hw; exact congrArg (fun v => some (c, v)) hw
  case h_4.isTrue hfn hbg => cases h; rw [hfn, hbg.1, hbg.2] at hw; exact congrArg (fun v => some (c, v)) hw
  case h_5.isTrue hfn hbg => cases h; rw [hfn, hbg.1, hbg.2] at hw; exact congrArg (fun v => some (c, v)) hw
  case h_6.isTrue hg =>
    obtain ⟨f, hf, rfl⟩ := Option.map_eq_some_iff.mp h
    rw [hg] at hw
    rw [vopOps_words _ _ _ _ _ (mem_of_lookup hf), hw]
  all_goals cases h

theorem wordOf_nsimd (ho : cwOp w = 0x31) (h : coreInstrOf c w = some i) : coreWordOf i = some (c, w) := by
  have hw := encVR_fields (op := 0x31) ho (cwVfn_eq_ofNat w)
  rw [instrOf_op31 c ho, nsimdOf] at h
  split at h
  · next hfn => cases h; rw [hfn] at hw; exact congrArg (fun v => some (c, v)) hw
  · next hfn =>
    split at h
    · next hb => cases h; rw [hfn, hb] at hw; exact congrArg (fun v => some (c, v)) hw
    · cases h
  · next hfn =>
    split at h
    · next hb => cases h; rw [hfn, hb] at hw; exact congrArg (fun v => some (c, v)) hw
    · cases h
  · cases h

theorem wordOf_tally (ho : cwOp w = 0x39) (h : coreInstrOf c w = some i) : coreWordOf i = some (c, w) := by
  have hfn : (cwFn w).extractLsb' 2 7 ++ BitVec.ofNat 2 ((cwFn w).extractLsb' 0 2).toNat = cwFn w := by
    rw [BitVec.ofNat_toNat, BitVec.setWidth_eq, BitVec.extractLsb'_append_extractLsb'_eq_extractLsb' (show 2 = 0 + 2 from rfl),
      BitVec.extractLsb'_eq_self]
  have hw := encRR_fields (op := 0x39) ho
  rw [instrOf_op39 c ho, tallyOf_eq] at h
  unfold tallyInstr at h
  split at h
  all_goals cases h
  all_goals next hop => rw [← hfn, hop] at hw; exact congrArg (fun v => some (c, v)) hw

theorem wordOf_cma (ho : cwOp w = 0x3C) (h : coreInstrOf c w = some i) : coreWordOf i = some (c, w) := by
  have hfn : BitVec.ofNat 9 (cwFn w).toNat = cwFn w := by rw [BitVec.ofNat_toNat, BitVec.setWidth_eq]
  have hw := encRR_fields (op := 0x3C) ho
  rw [instrOf_op3C c ho, cmaOpOf_eq] at h
  unfold cmaInstr at h
  split at h
  · next hb =>
    split at h
    all_goals cases h
    all_goals next hop => rw [← hfn, hop, hb] at hw; exact congrArg (fun v => some (c, v)) hw
  · cases h

theorem wordOf_table (ho : cwOp w ∉ ownOps) (h : coreInstrOf c w = some i) : coreWordOf i = some (c, w) := by
  rw [instrOf_table c ho, tableInstr] at h
  split at h
  · next f hf => cases h; rw [riOps_words _ _ _ _ _ (mem_of_lookup hf), encRI_fields (cwOp_eq_ofNat w)]
  · split at h
    · next f hf => cases h; rw [branchOps_words _ _ _ _ _ (mem_of_lookup hf), encRI_fields (cwOp_eq_ofNat w)]
    · obtain ⟨f, hf, rfl⟩ := Option.map_eq_some_iff.mp h
      rw [wideOps_words _ _ _ _ (mem_of_lookup hf), encU_fields (cwOp_eq_ofNat w)]

/-- A word stands for no instruction but the one whose word it is. -/
theorem wordOf_instrOf (h : coreInstrOf c w = some i) : coreWordOf i = some (c, w) := by
  by_cases ho : cwOp w ∈ ownOps
  · simp only [ownOps, List.mem_cons, List.not_mem_nil, or_false] at ho
    obtain ho | ho | ho | ho | ho | ho | ho | ho | ho | ho | ho := ho
    · exact wordOf_alu ho h
    · exact wordOf_shi ho h
    · exact wordOf_sys ho h
    · exact wordOf_ccrr ho h
    · exact wordOf_vop ho h
    · exact wordOf_nsimd ho h
    · rw [instrOf_op38 c ho] at h; cases h; rw [coreWordOf, encRR_fields ho]
    · exact wordOf_tally ho h
    · rw [instrOf_op3A c ho] at h; cases h; rw [coreWordOf, encRR_fields ho]
    · rw [instrOf_op3B c ho] at h; cases h; rw [coreWordOf, encRR_fields ho]
    · exact wordOf_cma ho h
  · exact wordOf_table ho h
end

/-- Settles O15: the word of an instruction and the instruction of a word are inverse to each other. -/
theorem instructionWords : Obligations.InstructionWords := by
  refine ⟨fun i c w => ⟨instrOf_wordOf, wordOf_instrOf⟩, fun s c w => ⟨fun i h => ?_, fun h hr => ?_⟩, fun c => ?_⟩
  · rw [coreRun, h]
  · rw [coreRun, h]
    dsimp only
    rw [coreDo_runs _ hr, illegal, ok, raise_runs, BitVec.ofNat_toNat]
  · exact ⟨rfl, rfl, rfl, rfl, rfl, rfl, rfl, rfl⟩

end Sys2Proof.Machine.Words
end

section
/-!
PROOFS. The hub as a whole: the queue of commands, the invariants that every step keeps, and what reset leaves.
-/
namespace Sys2Proof.Machine.Whole

theorem step_of_front {s : State} {c : Instr} {rest : List Instr} (h : s.pending = c :: rest) : step s = exec c { s with pending := rest } := by
  unfold step
  rw [h]

/-- Settles O1: a step is the front command, run with the rest of the queue. -/
theorem frontCommandRuns : Obligations.FrontCommandRuns :=
  fun _ _ _ h => ⟨step_of_front h, fun t ht => ⟨t, (step_of_front h).trans ht⟩⟩

theorem step_of_empty {s : State} (h : s.pending = []) : step s = .next s := by
  unfold step
  rw [h]

/-- Settles O2: no command is at the front of an empty queue. -/
theorem emptyQueueIdles : Obligations.EmptyQueueIdles := fun _ h => step_of_empty h

/-- What a state holds that every command is to keep: its queue, and the canonical forms that hold in it. -/
def held (s : State) : Held := { queue := s.pending, mem := s.memOk, cores := s.coresOk }

theorem keeps_held (s : State) : Keeps (held s) s := ⟨rfl, id, id⟩

/-- A step leaves the queue without its front command, and keeps the canonical forms. -/
theorem step_keeps {s t : State} (h : step s = .next t) : Keeps { held s with queue := s.pending.tail } t := by
  cases hq : s.pending with
  | nil =>
    rw [step_of_empty hq] at h
    cases h
    exact ⟨hq, id, id⟩
  | cons c rest =>
    rw [step_of_front hq] at h
    exact of_next h (keeps_exec c (keeps_held { s with pending := rest }))

/-- Settles O59: what waits after a step waited before it. -/
theorem queueKept : Obligations.QueueKept := by
  intro s t h
  have hq : t.pending = s.pending.tail := (step_keeps h).queue
  refine ⟨hq, fun hok => ?_⟩
  unfold State.queueOk at *
  rw [hq, List.all_eq_true]
  exact fun c hc => List.all_eq_true.mp hok c (List.mem_of_mem_tail hc)

/-- Settles O60: every command keeps the canonical forms. -/
theorem canonicalKept : Obligations.CanonicalKept :=
  fun _ _ h => ⟨(step_keeps h).mem, (step_keeps h).cores⟩

/-- Settles O57: at reset the queue is empty and no byte and no core is listed. -/
theorem resetCanonical : Obligations.ResetCanonical := ⟨rfl, rfl, rfl, rfl⟩

/-! ### What reset leaves -/

theorem core_reset (n : Nat) : core State.reset n = {} := rfl

theorem regRaw_reset (r : Reg) : regRaw State.reset r = regReset r := rfl

/-- Settles O56: no core and no register is listed at reset, so each holds its reset value. -/
theorem resetValues : Obligations.ResetValues := by
  refine ⟨fun c => ?_, regRaw_reset, rfl, rfl, rfl, rfl, ⟨rfl, rfl, rfl, rfl⟩, rfl, rfl⟩
  dsimp only
  rw [core_reset]
  refine ⟨?_, rfl, rfl, rfl, rfl, fun r => ?_, fun r => ?_⟩
  · intro r hr
    simp only [List.mem_cons, List.not_mem_nil, or_false] at hr
    rcases hr with rfl | rfl | rfl | rfl | rfl | rfl | rfl | rfl | rfl | rfl | rfl
    all_goals rfl
  · unfold gGet; split <;> rfl
  · rfl

end Sys2Proof.Machine.Whole
end

section
/-!
PROOFS. Registers of the porter cores: the ALU functions, immediates, branches and G0 (R217, R223 to R225).
-/
namespace Sys2Proof.Machine.Claims

/-! ### Instructions that write one register -/

/-- An ALU instruction whose function gives `v` on the operands writes `v`. -/
theorem alu_writes {s : State} {c : Fin 25600} (h : Runs s c) (d a b : Fin 32) {f : BitVec 64 → BitVec 64 → BitVec 64} {v : BitVec 64}
    (hv : f (gNow s c a) (gNow s c b) = v) :
    alu c d a b s f = .next (wroteG s c d v) := by
  rw [alu_runs d a b f h, hv]


/-- Settles O3: each function of the model is the one that Lean's library names. -/
theorem aluResults : Obligations.AluResults := by
  intro s c d a b h p q sh
  have writes := fun (f : BitVec 64 → BitVec 64 → BitVec 64) (v : BitVec 64) (hv : f p q = v) => alu_writes h d a b hv
  simp only [exec_add, exec_sub, exec_andC, exec_orC, exec_xorC, exec_sll, exec_srl, exec_sra, exec_slt, exec_sltu, exec_mul, exec_mulhs,
    exec_mulhu, exec_divs, exec_divu, exec_rems, exec_remu, exec_clz, exec_popc, exec_min, exec_max]
  have hdivs : execDivs c d a b s = .next (wroteG s c d (p.sdiv q)) := writes divs _ (divs_eq p q)
  have hdivu : execDivu c d a b s = .next (wroteG s c d (p / q)) := writes divu _ (divu_eq p q)
  have hrems : execRems c d a b s = .next (wroteG s c d (p.srem q)) := writes rems _ (rems_eq p q)
  have hremu : execRemu c d a b s = .next (wroteG s c d (p % q)) := writes remu _ (remu_eq p q)
  refine ⟨writes _ _ rfl, writes _ _ rfl, writes _ _ rfl, writes _ _ rfl, writes _ _ rfl, ?_, ?_, ?_,
    writes _ _ (slt_eq p q), writes _ _ (sltu_eq p q), writes _ _ rfl, writes mulhs _ (mulhs_eq p q), writes mulhu _ (mulhu_eq p q),
    hdivs, hdivu, hrems, hremu, writes _ _ (clz_eq p), writes _ _ (popc_eq p), writes _ _ (min_eq p q), writes _ _ (max_eq p q),
    fun hq => ?_, fun hp hq => ?_⟩
  · exact writes (fun p q => p <<< shAmt q) _ (by rw [sh_eq])
  · exact writes (fun p q => p >>> shAmt q) _ (by rw [sh_eq])
  · exact writes (fun p q => p.sshiftRight (shAmt q)) _ (by rw [sh_eq])
  · have hq : q = 0#64 := hq
    rw [hdivs, hdivu, hrems, hremu, hq, BitVec.sdiv_zero, BitVec.udiv_zero, BitVec.srem_zero, BitVec.umod_zero]
    exact ⟨rfl, rfl, rfl, rfl⟩
  · rw [hdivs, hrems, hp, hq]
    exact ⟨rfl, rfl⟩

/-- The same of an instruction with an immediate. -/
theorem imm_writes {s : State} {c : Fin 25600} (h : Runs s c) (d a : Fin 32) {f : BitVec 64 → BitVec 64} {v : BitVec 64} (hv : f (gNow s c a) = v) :
    aluImm c d a s f = .next (wroteG s c d v) := by
  rw [aluImm_runs d a f h, hv]

/-- An instruction that is ILLEGAL is a trap with its word. -/
theorem illegal_runs (s c) (word : Nat) : illegal (during s c) c word = .next (trapped s c 1 (BitVec.ofNat 64 word)) := by
  rw [illegal, ok, raise_runs]

/-- SHI (R224): bits 7:6 of its immediate choose the shift, bits 5:0 are the amount. -/
theorem exec_shi {s : State} {c : Fin 25600} (h : Runs s c) (d a : Fin 32) (sh : BitVec 8) :
    exec (.shi c d a sh) s =
      match sh.toNat / 64 with
      | 0 => .next (wroteG s c d (gNow s c a <<< (sh.toNat % 64)))
      | 1 => .next (wroteG s c d (gNow s c a >>> (sh.toNat % 64)))
      | 2 => .next (wroteG s c d ((gNow s c a).sshiftRight (sh.toNat % 64)))
      | _ => .next (trapped s c 1 (BitVec.ofNat 64 (wordRI 6 d a sh.toNat))) := by
  show execShi c d a sh s = _
  unfold execShi
  rw [coreDo_runs _ h]
  dsimp only
  rw [gGet_begun, illegal_runs]
  rfl

theorem extract_amount (sh : BitVec 8) : (sh.extractLsb' 0 6).toNat = sh.toNat % 64 := by
  rw [BitVec.extractLsb'_toNat]; rfl

theorem extract_kind (sh : BitVec 8) : (sh.extractLsb' 6 2).toNat = sh.toNat / 64 := by
  rw [BitVec.extractLsb'_toNat, Nat.shiftRight_eq_div_pow]; omega

/-- Settles O4, by the function of each instruction and the kinds of SHI. -/
theorem immediateResults : Obligations.ImmediateResults := by
  intro s c d a imm sh up h p n
  have writes := fun (f : BitVec 64 → BitVec 64) (v : BitVec 64) (hv : f p = v) => imm_writes h d a hv
  simp only [exec_addi, exec_andi, exec_ori, exec_xori, exec_slti, exec_ldhi, exec_pcadd]
  have hshi := exec_shi h d a sh
  rw [← extract_amount, ← extract_kind] at hshi
  refine ⟨writes _ _ rfl, writes _ _ rfl, writes _ _ rfl, writes _ _ rfl, writes _ _ ?_, coreRegs_runs _ h, ?_, ?_, ?_, ?_, ?_⟩
  · rw [slt_eq, BitVec.toInt_signExtend_of_le (by decide)]
  · refine (coreRegs_runs (fun x => gSet x d (x.pc + (up.signExtend 64 <<< 13))) h).trans ?_
    rw [pc_begun]
    rfl
  all_goals
    intro hk
    rw [hshi, hk]
    rfl

/-! ### Branches -/

/-- The offset of a branch counts instructions of 4 bytes (R223). -/
theorem shift_eq_mul (x : BitVec 64) : x <<< 2 = 4 * x := by
  rw [BitVec.shiftLeft_eq_mul_twoPow, BitVec.mul_comm]
  rfl

theorem branch_runs {s : State} {c : Fin 25600} (h : Runs s c) (a b : Fin 32) (off : BitVec 14) {f : BitVec 64 → BitVec 64 → Bool} {taken : Bool}
    (ht : f (gNow s c a) (gNow s c b) = taken) :
    branch c a b off s f = .next (became s c { begun s c with pc := if taken then pcNow s c + 4 * off.signExtend 64 else pcNow s c + 4 }) := by
  unfold branch
  rw [coreDo_runs _ h, gGet_begun, gGet_begun, pc_begun, ht, shift_eq_mul]
  rfl

/-- Settles O5: a branch asks what its condition says of the two operands. -/
theorem branchTargets : Obligations.BranchTargets := by
  intro s c d a b off imm far h p q pc goto choose
  have chooses := fun (f : BitVec 64 → BitVec 64 → Bool) (taken : Bool) (ht : f p q = taken) => branch_runs h a b off ht
  simp only [exec_beq, exec_bne, exec_blt, exec_bge, exec_bltu, exec_bgeu, exec_jlk, exec_jlkr]
  refine ⟨chooses _ _ ?_, chooses _ _ ?_, chooses _ _ ?_, chooses _ _ ?_, chooses _ _ ?_, chooses _ _ ?_, ?_, ?_⟩
  · rfl
  · simp [bne, beq_eq_decide]
  · rfl
  · exact (decide_not ..).symm.trans (decide_eq_decide.mpr Int.not_lt)
  · rfl
  · exact (decide_not ..).symm.trans (decide_eq_decide.mpr Nat.not_lt)
  · unfold execJlk
    rw [coreDo_runs _ h, pc_begun, shift_eq_mul]
    rfl
  · unfold execJlkr
    rw [coreDo_runs _ h, gGet_begun, pc_begun]
    rfl

/-- Settles O6, by the two accesses of G0. -/
theorem gZeroStaysZero : Obligations.GZeroStaysZero := by
  refine ⟨fun x v => ⟨rfl, rfl, rfl⟩, fun s c a b imm h => ?_⟩
  rw [exec_add, exec_addi]
  exact ⟨alu_writes h 0 a b rfl, imm_writes h 0 a rfl⟩

end Sys2Proof.Machine.Claims
end

section
/-!
PROOFS. VOP of the porter cores (R217, R226): lanes, FP32, lane moves and conversions, FMIN and FMAX.
-/
namespace Sys2Proof.Machine.Claims

section
variable {s : State} {c : Fin 25600} (h : Runs s c)
include h

theorem vWrites_runs (vd : Fin 16) (f : Core → BitVec 128) : coreRegs c s (fun x => vSet x vd (f x)) = .next (wroteV s c vd (f (begun s c))) :=
  coreRegs_runs _ h

theorem vop2_runs (vd va vb : Fin 16) (f : Nat → Nat → Nat) :
    vop2 c vd va vb s f = .next (wroteV s c vd (ofLanes (fun j => f (lane (vNow s c va) j) (lane (vNow s c vb) j)))) := by
  unfold vop2
  rw [vWrites_runs h, vGet_begun, vGet_begun]
end

theorem lane_lt (v : BitVec 128) (j : Nat) : lane v j < 2 ^ 32 := (v.extractLsb' (32 * j) 32).isLt

/-- The signed integer of a lane is that of its 32 bits. -/
theorem laneInt_lane (v : BitVec 128) (j : Nat) : laneInt (lane v j) = (BitVec.ofNat 32 (lane v j)).toInt := by
  have h := lane_lt v j
  rw [BitVec.toInt_eq_toNat_cond, BitVec.toNat_ofNat, Nat.mod_eq_of_lt h]
  unfold laneInt
  split <;> split <;> omega

/-- Settles O7: each lane is the function of the lanes that the instruction reads. -/
theorem vectorResults : Obligations.VectorResults := by
  refine ⟨lane_ofLanes, ofLanes_lane, ?_⟩
  intro s c vd va vb g h p q acc lanes
  simp only [exec_vadd32, exec_vsub32, exec_vmul32, exec_fadd, exec_fsub, exec_fmul, exec_fma, exec_vand, exec_vor, exec_vxor, exec_vins, exec_vext,
    exec_vsplat, exec_cvtI2f, exec_cvtF2i]
  refine ⟨vop2_runs h .., vop2_runs h .., vop2_runs h .., vop2_runs h .., vop2_runs h .., vop2_runs h .., ?_, ?_, ?_, ?_, ?_, ?_, ?_, ?_, ?_⟩
  · unfold execFma
    rw [vWrites_runs h, vGet_begun, vGet_begun, vGet_begun]
  · unfold execVand
    rw [vWrites_runs h, vGet_begun, vGet_begun]
  · unfold execVor
    rw [vWrites_runs h, vGet_begun, vGet_begun]
  · unfold execVxor
    rw [vWrites_runs h, vGet_begun, vGet_begun]
  · unfold execVins
    rw [vWrites_runs h, gGet_begun, vGet_begun]
    refine congrArg (fun v => Host.Outcome.next (wroteV s c vd v)) (ofLanes_congr fun j _ => ?_)
    rw [apply_ite (· % 2 ^ 32), apply_ite (· % 2 ^ 32), Nat.mod_mod]
  · unfold execVext
    rw [coreRegs_runs _ h, vGet_begun]
    rfl
  · unfold execVsplat
    rw [vWrites_runs h, gGet_begun]
    exact congrArg (fun v => Host.Outcome.next (wroteV s c vd v)) (ofLanes_congr fun j _ => (Nat.mod_mod ..).symm)
  · unfold execCvtI2f
    rw [vWrites_runs h, vGet_begun]
    simp only [laneInt_lane]
    rfl
  · unfold execCvtF2i
    rw [vWrites_runs h, vGet_begun]

/-- FMIN and FMAX: a free value is drawn, and the lanes that the manual leaves open take it. -/
theorem minMax_runs {s : State} {c : Fin 25600} (h : Runs s c) (vd va vb : Fin 16) (lower : Bool) :
    minMax c vd va vb lower s = .next (putCore (draw (during s c)).2 c.val (past (vSet (begun s c) vd (ofLanes (fun j =>
      if minOpen (lane (vNow s c va) j) (lane (vNow s c vb) j) then (Config.undefWord (4 * (draw (during s c)).1 + j)).toNat
      else if (fpVal (lane (vNow s c va) j)).lt (fpVal (lane (vNow s c vb) j)) == lower then lane (vNow s c va) j else lane (vNow s c vb) j))))) := by
  unfold minMax
  rw [coreDo_runs _ h, vGet_begun, vGet_begun]
  rfl

/-- Settles O8: a lane that is not left open is the operand that the comparison of R226 chooses. -/
theorem vectorMinMax : Obligations.VectorMinMax := by
  intro s c vd va vb h p q s1 done
  rw [exec_fmin, exec_fmax]
  refine ⟨⟨_, minMax_runs h vd va vb true, fun j _ hopen => ?_⟩, ⟨_, minMax_runs h vd va vb false, fun j _ hopen => ?_⟩⟩
  · rw [if_neg (by rw [hopen]; decide), beq_true]
  · rw [if_neg (by rw [hopen]; decide)]
    cases (fpVal (p j)).lt (fpVal (q j)) <;> rfl

end Sys2Proof.Machine.Claims
end

section
/-!
PROOFS. Narrow SIMD of the porter cores: NDOT, NCVT and NEXP (R233 to R236).
-/
namespace Sys2Proof.Machine.Claims

/-! ### NDOT -/

/-- What NDOT asks of its formats and groups (R233, R234). -/
def dotFits (f k : Fmt) (wg ag : Nat) : Prop :=
  f.elem.isWeight = true ∧ k.elem.isAct = true ∧ 16 * wg + 16 ≤ vElems f.elem ∧ 16 * ag + 16 ≤ vElems k.elem

theorem not_dotFits_iff (f k : Fmt) (wg ag : Nat) :
    (!f.elem.isWeight || !k.elem.isAct || decide (vElems f.elem < 16 * wg + 16) || decide (vElems k.elem < 16 * ag + 16)) = true ↔
      ¬ dotFits f k wg ag := by
  unfold dotFits
  simp only [Bool.or_eq_true, Bool.not_eq_true', decide_eq_true_eq, ← Bool.not_eq_true, ← Nat.not_le]
  tauto

/-- The sum of four products that a lane of NDOT adds. -/
theorem foldl_products (w a : Nat → Int) (j : Nat) (t : Int) :
    t + (span (4 * j) 4).foldl (fun t i => t + w i * a i) 0 =
      t + w (4 * j) * a (4 * j) + w (4 * j + 1) * a (4 * j + 1) + w (4 * j + 2) * a (4 * j + 2) + w (4 * j + 3) * a (4 * j + 3) := by
  simp only [span, List.foldl_cons, List.foldl_nil]
  ring

section
variable {s : State} {c : Fin 25600} (h : Runs s c) (vd va vb : Fin 16) (g : Fin 32)
include h

theorem ndot_illegal (hn : fmtOf (bitsOf (gNow s c g).toNat 15 0) = none ∨ fmtOf (bitsOf (gNow s c g).toNat 31 16) = none) :
    exec (.ndot c vd va vb g) s = .next (trapped s c 1 (BitVec.ofNat 64 (wordVR 0x31 vd va vb g 1))) := by
  rw [exec_ndot, execNdot, coreDo_runs _ h]
  dsimp only
  rw [gGet_begun, illegal_runs]
  split
  · next f k hf hk => simp [hf, hk] at hn
  · rfl

theorem ndot_formats {f k : Fmt} (hf : fmtOf (bitsOf (gNow s c g).toNat 15 0) = some f) (hk : fmtOf (bitsOf (gNow s c g).toNat 31 16) = some k) :
    let wg := bitsOf (gNow s c g).toNat 35 32
    let ag := bitsOf (gNow s c g).toNat 39 36
    let w (i : Nat) : Int := elemImage f.elem (elemCode f.elem (vByte (vNow s c va)) (16 * wg + i))
    let a (i : Nat) : Int := elemImage k.elem (elemCode k.elem (vByte (vNow s c vb)) (16 * ag + i))
    (¬ dotFits f k wg ag → exec (.ndot c vd va vb g) s = .next (trapped s c 1 (BitVec.ofNat 64 (wordVR 0x31 vd va vb g 1)))) ∧
    (dotFits f k wg ag → exec (.ndot c vd va vb g) s = .next (wroteV s c vd (ofLanes (fun j => (BitVec.ofInt 32
      ((lane (vNow s c vd) j : Int) + (span (4 * j) 4).foldl (fun t i => t + w i * a i) 0)).toNat)))) := by
  intro wg ag w a
  rw [exec_ndot, execNdot, coreDo_runs _ h]
  dsimp only
  rw [gGet_begun, vGet_begun, vGet_begun, vGet_begun, illegal_runs, hf, hk]
  exact ⟨fun hn => if_pos ((not_dotFits_iff f k wg ag).mpr hn), fun hy => if_neg (fun e => (not_dotFits_iff f k wg ag).mp e hy)⟩
end

/-- Settles O9, by the format words and then by what NDOT asks of them. -/
theorem narrowDot : Obligations.NarrowDot := by
  intro s c vd va vb g h w wg ag bad
  refine ⟨ndot_illegal h vd va vb g, fun f k hf hk => ?_⟩
  obtain ⟨hbad, hgood⟩ := ndot_formats h vd va vb g hf hk
  refine ⟨hbad, fun hfits => (hgood hfits).trans ?_⟩
  simp only [foldl_products]
  rfl

/-! ### NCVT and NEXP -/

/-- The exception of an NCVT or NEXP that is ILLEGAL. -/
theorem narrow_word (s : State) (c : Fin 25600) (vd va : Fin 16) (g : Fin 32) (fn : Nat) : illegal (during s c) c (wordVR 0x31 vd va 0 g fn) =
    .next (trapped s c 1 (BitVec.ofNat 64 (0x31 * 2 ^ 24 + vd.val * 2 ^ 20 + va.val * 2 ^ 16 + g.val * 2 ^ 7 + fn))) := by
  rw [illegal_runs, wordVR, Nat.zero_mul, Nat.add_zero]

section
variable {s : State} {c : Fin 25600} (h : Runs s c) (vd va : Fin 16) (g : Fin 32)
include h

theorem ncvt_no_format (hf : fmtOf (bitsOf (gNow s c g).toNat 15 0) = none) :
    exec (.ncvt c vd va g) s = illegal (during s c) c (wordVR 0x31 vd va 0 g 2) := by
  rw [exec_ncvt, execNcvt, coreDo_runs _ h]
  dsimp only
  rw [gGet_begun, hf]

theorem nexp_no_format (hf : fmtOf (bitsOf (gNow s c g).toNat 15 0) = none) :
    exec (.nexp c vd va g) s = illegal (during s c) c (wordVR 0x31 vd va 0 g 3) := by
  rw [exec_nexp, execNexp, coreDo_runs _ h]
  dsimp only
  rw [gGet_begun, hf]

theorem ncvt_refused {f : Fmt} (hf : fmtOf (bitsOf (gNow s c g).toNat 15 0) = some f)
    (hbad : f.scale ≠ 0 ∨ f.mx = true ∨ vElems f.elem < 4 * bitsOf (gNow s c g).toNat 23 16 + 4) :
    exec (.ncvt c vd va g) s = illegal (during s c) c (wordVR 0x31 vd va 0 g 2) := by
  rw [exec_ncvt, execNcvt, coreDo_runs _ h]
  dsimp only
  rw [gGet_begun, hf]
  refine if_pos ?_
  simpa [groupFits, or_assoc] using hbad

theorem nexp_refused {f : Fmt} (hf : fmtOf (bitsOf (gNow s c g).toNat 15 0) = some f)
    (hbad : vElems f.elem < 4 * bitsOf (gNow s c g).toNat 23 16 + 4) :
    exec (.nexp c vd va g) s = illegal (during s c) c (wordVR 0x31 vd va 0 g 3) := by
  rw [exec_nexp, execNexp, coreDo_runs _ h]
  dsimp only
  rw [gGet_begun, hf]
  exact if_pos (by simpa [groupFits] using hbad)
end

/-- Settles O10, by the format word and then by the checks of R235. -/
theorem narrowConvert : Obligations.NarrowConvert := by
  intro s c vd va g h w p bad
  have hbad : ∀ fn, illegal (during s c) c (wordVR 0x31 vd va 0 g fn) = bad fn := narrow_word s c vd va g
  refine ⟨fun hf => ⟨(ncvt_no_format h vd va g hf).trans (hbad 2), (nexp_no_format h vd va g hf).trans (hbad 3)⟩, fun f hf => ⟨fun hg =>
    ⟨(ncvt_refused h vd va g hf (.inr (.inr hg))).trans (hbad 2), (nexp_refused h vd va g hf hg).trans (hbad 3)⟩,
    fun hs => (ncvt_refused h vd va g hf (hs.imp_right .inl)).trans (hbad 2), ?_, ?_⟩⟩
  · intro hg hs hm x lanes outs exc
    rw [exec_ncvt, execNcvt, coreDo_runs _ h]
    dsimp only
    rw [gGet_begun, vGet_begun, vGet_begun, hf]
    refine if_neg ?_
    simpa [groupFits, hs, hm] using hg
  · intro hg
    rw [exec_nexp, execNexp, coreDo_runs _ h]
    dsimp only
    rw [gGet_begun, vGet_begun, hf]
    exact if_neg (by simpa [groupFits] using hg)

end Sys2Proof.Machine.Claims
end

section
/-!
PROOFS. The cluster store, the SYS functions and the control registers of the porter cores (R218, R222, R225, R242, R265 to R267).
-/
namespace Sys2Proof.Machine.Claims

/-! ### The cluster store -/

/-- The bytes of a store, one after the other, from number `i` of them on. -/
def putBytes (off : Nat) (b : List Byte) (i n : Nat) (m : SMap Byte) : SMap Byte :=
  (span i n).foldl (fun m i => smSet 0 m (off + i) (listGet 0 b i)) m

theorem smWf_putBytes (off : Nat) (b : List Byte) (i n : Nat) {m : SMap Byte} (h : smWf 0 m = true) : smWf 0 (putBytes off b i n m) = true := by
  induction n generalizing i m with
  | zero => exact h
  | succ n ih => exact ih (i + 1) (smWf_smSet h _ _)

/-- Bytes put at consecutive places are read back there, and every other byte is as it was. -/
theorem smGet_putBytes (off : Nat) (b : List Byte) (i n : Nat) {m : SMap Byte} (h : smWf 0 m = true) (o : Nat) :
    smGet 0 (putBytes off b i n m) o = if off + i ≤ o ∧ o < off + i + n then listGet 0 b (o - off) else smGet 0 m o := by
  induction n generalizing i m with
  | zero => exact (if_neg (by omega)).symm
  | succ n ih =>
    refine (ih (i + 1) (smWf_smSet h _ _)).trans ?_
    rw [smGet_smSet h]
    by_cases hi : o = off + i
    · rw [if_neg (by omega), if_pos hi, if_pos (by omega), hi, Nat.add_sub_cancel_left]
    · rw [if_neg hi]
      exact if_congr (by omega) rfl rfl

/-- In a canonical map of clusters a change of one is read back. -/
theorem cluster_modCluster {s : State} (h : smWf {} s.prt.clusters = true) (k : Nat) (f : Cluster → Cluster) :
    cluster (modCluster s k f) k = f (cluster s k) := by
  unfold modCluster putCluster cluster
  dsimp only
  rw [smGet_smSet h, if_pos rfl]

/-- Settles O16, by induction on the bytes of the store. -/
theorem storeThenLoad : Obligations.StoreThenLoad := by
  intro s k off b o hc hs
  rw [storePut, cluster_modCluster hc]
  exact smGet_putBytes off b 0 b.length hs o

/-! ### SYS -/

section
variable {s : State} {c : Fin 25600} (h : Runs s c)
include h

theorem rcall_runs : exec (.rcall c) s = .next (trapped s c (if (begun s c).user then 8 else 9) 0) := by
  rw [exec_rcall, execRcall, coreDo_runs _ h, ok, raise_runs]

theorem dbgstop_runs : exec (.dbgstop c) s = .next (trapped s c 10 0) := by
  rw [exec_dbgstop, execDbgstop, coreDo_runs _ h, ok, raise_runs]

theorem tret_user (hu : (begun s c).user = true) : exec (.tret c) s = .next (trapped s c 1 (BitVec.ofNat 64 (0x28 * 2 ^ 24 + 1))) := by
  rw [exec_tret, execTret, coreDo_runs _ h]
  rw [if_pos hu, illegal_runs]
  rfl

theorem tret_runtime (hu : (begun s c).user = false) : exec (.tret c) s = .next (became s c
    (jumpTo { begun s c with user := (begun s c).priorUser, ie := (begun s c).priorIe } (begun s c).retpc)) := by
  rw [exec_tret, execTret, coreDo_runs _ h, if_neg (by simp [hu])]
  rfl

theorem sleep_user (hu : (begun s c).user = true) : exec (.sleep c) s = .next (trapped s c 1 (BitVec.ofNat 64 (0x28 * 2 ^ 24 + 2))) := by
  rw [exec_sleep, execSleep, coreDo_runs _ h]
  rw [if_pos hu, illegal_runs]
  rfl

theorem sleep_runtime (hu : (begun s c).user = false) : exec (.sleep c) s =
    if coreReady (during s c) (begun s c) ≠ 0#5 then .next (became s c (past (begun s c))) else .next (waits s c .sleep) := by
  rw [exec_sleep, execSleep, coreDo_runs _ h, if_neg (by simp [hu])]
  simp only [bne_iff_ne]
  rfl
end

theorem jumpTo_aligned {x : Core} {goal : BitVec 64} (h : goal.toNat % 4 = 0) : jumpTo x goal = { x with pc := goal } := if_pos h

theorem jumpTo_misaligned {x : Core} {goal : BitVec 64} (h : goal.toNat % 4 ≠ 0) : jumpTo x goal = trap x false 0 2 goal goal 0 := if_neg h

/-- Settles O18, by the mode of the core and by what each function asks beside it. -/
theorem systemFunctions : Obligations.SystemFunctions := by
  intro s c h x word
  refine ⟨rcall_runs h, dbgstop_runs h, ?_, fun hu => ⟨tret_user h hu, sleep_user h hu⟩, fun hu ha => ?_, fun hu ha => ?_, fun hu hr => ?_, fun hu hr => ?_⟩
  · rw [exec_iclr]
    exact coreRegs_runs _ h
  · rw [tret_runtime h hu, jumpTo_aligned ha]
  · rw [tret_runtime h hu, jumpTo_misaligned ha]
  · rw [sleep_runtime h hu, if_neg (not_not.mpr hr)]
  · rw [sleep_runtime h hu, if_pos hr]

/-! ### Control registers -/

section
variable {s : State} {c : Fin 25600} (h : Runs s c) (d a : Fin 32) (imm : BitVec 14)
include h

theorem ccrr_runs : exec (.ccrr c d imm) s =
    match ccVal (during s c) c.val (begun s c) imm.toNat with
    | some v => if ccAllowed (begun s c) imm.toNat false then .next (wroteG s c d v) else illegal (during s c) c (wordRI 0x29 d 0 imm.toNat)
    | none => illegal (during s c) c (wordRI 0x29 d 0 imm.toNat) := by
  rw [exec_ccrr, execCcrr, coreDo_runs _ h]
  rfl

theorem ccrw_runs : exec (.ccrw c d a imm) s =
    match ccVal (during s c) c.val (begun s c) imm.toNat with
    | some v =>
      if ccAllowed (begun s c) imm.toNat true then
        .next (became s c (past (ccSet (during s c) c.val (gSet (begun s c) d v) imm.toNat (gNow s c a))))
      else illegal (during s c) c (wordRI 0x2A d a imm.toNat)
    | none => illegal (during s c) c (wordRI 0x2A d a imm.toNat) := by
  rw [exec_ccrw, execCcrw, coreDo_runs _ h, gGet_begun]
  rfl
end

/-- Settles O19, by the two instructions and what the register and the mode allow. -/
theorem controlRegisters : Obligations.ControlRegisters := by
  intro s c d a imm h x u r wordR wordW
  rw [ccrr_runs h, ccrw_runs h, illegal_runs, illegal_runs]
  have hR : BitVec.ofNat 64 (wordRI 0x29 d 0 imm.toNat) = wordR := by simp [wordRI, wordR, r]
  have hW : BitVec.ofNat 64 (wordRI 0x2A d a imm.toNat) = wordW := rfl
  refine ⟨fun v hv => ?_, fun hv => ?_, ⟨rfl, rfl, rfl, rfl, rfl⟩, fun v => ⟨rfl, rfl, rfl, rfl, rfl, rfl⟩, ?_⟩
  · rw [hv, hR, hW]
    exact ⟨fun ha => if_pos ha, fun ha => if_neg (by simp [ha, x, r]), fun ha => if_pos ha, fun ha => if_neg (by simp [x,r,ha])⟩
  · rw [hv, hR, hW]
    exact ⟨rfl, rfl⟩
  · refine ⟨by simp [ccAllowed], fun hu => ?_⟩
    simp [ccAllowed, hu]

end Sys2Proof.Machine.Claims
end

section
/-!
PROOFS. FLUSH, ACQ, STEP_DONE, TALLY and the CMA instructions of the porter cores (R237 to R239, R247, R254, R255).
-/
namespace Sys2Proof.Machine.Claims

/-! ### Instructions that drain -/

@[simp] theorem gSet_pc (x : Core) (r : Nat) (v : BitVec 64) : (gSet x r v).pc = x.pc := by
  unfold gSet
  split <;> rfl

@[simp] theorem gSet_wait (x : Core) (r : Nat) (v : BitVec 64) : (gSet x r v).wait = x.wait := by
  unfold gSet
  split <;> rfl

theorem drain_ne (x : Core) (todo : List Nat) (g : AfterDrain) : { x with wait := CoreWait.drain todo g } ≠ ({} : Core) :=
  fun e => nomatch congrArg Core.wait e

/-- The core that an instruction finds drained. -/
def drainingCore (s : State) (c : Fin 25600) (g : AfterDrain) : Core := { begun s c with wait := .drain [] g }

theorem core_draining (s : State) (c : Fin 25600) (g : AfterDrain) : Machine.core (draining s c g) c.val = drainingCore s c g :=
  core_putCore_self _ (drain_ne _ _ _)

/-- A core with no dirty line in the range of its instruction has nothing to write back (R231). -/
theorem drainStart_clean {s : State} {c : Fin 25600} {lo len : Nat} {all : Bool} (g : AfterDrain) (h : clean s c lo len all) :
    drainStart (during s c) c.val lo len all g =
      if !drained (drainingCore s c g) [] g then draining s c g
      else match g with
        | .flush lo len all inv =>
          putCore (draining s c g) c.val
            { (if inv then l0Invalidate (drainingCore s c g) lo len all else drainingCore s c g) with pc := (begun s c).pc + 4, wait := .none }
        | .tally op slot rd value acq _ => tallyDo (draining s c g) c.val op slot rd value acq
        | .stepDone a => coreReport (draining s c g) c.val a
        | .again => putCore (draining s c g) c.val { drainingCore s c g with wait := .none } := by
  have htodo : ((l0In (begun s c) lo len all).filter (fun l => l.dirty != 0)).map L0Line.line = [] := by
    rw [List.map_eq_nil_iff, List.filter_eq_nil_iff]
    intro l hl
    have := List.all_eq_true.mp h l hl
    simpa using this
  unfold drainStart
  dsimp only
  rw [core_during, htodo]
  unfold drainCore
  rw [core_putCore_self _ (drain_ne _ _ _)]
  cases g with
  | flush lo len all inv => cases inv <;> rfl
  | tally | stepDone | again => rfl

/-! ### FLUSH, ACQ and STEP_DONE -/

section
variable {s : State} {c : Fin 25600} (h : Runs s c) (d a b : Fin 32) (fn : BitVec 9)
include h

theorem flush_runs : exec (.flush c d a b fn) s =
    if d ≠ 0 ∨ 4 ≤ fn.toNat then .next (trapped s c 1 (BitVec.ofNat 64 (wordRR 0x3A d a b fn.toNat)))
    else .next (drainStart (during s c) c.val (gNow s c a).toNat (gNow s c b).toNat (bitOf fn.toNat 1)
      (.flush (gNow s c a).toNat (gNow s c b).toNat (bitOf fn.toNat 1) (bitOf fn.toNat 0))) := by
  rw [exec_flush, execFlush, coreDo_runs _ h, gGet_begun, gGet_begun, illegal_runs]

theorem acq_runs : exec (.acq c d a b fn) s =
    if d ≠ 0 ∨ (fn ≠ 0 ∧ fn ≠ 2) then .next (trapped s c 1 (BitVec.ofNat 64 (wordRR 0x3B d a b fn.toNat)))
    else .next (drainStart (during s c) c.val (gNow s c a).toNat (gNow s c b).toNat (fn == 2)
      (.flush (gNow s c a).toNat (gNow s c b).toNat (fn == 2) true)) := by
  rw [exec_acq, execAcq, coreDo_runs _ h, gGet_begun, gGet_begun, illegal_runs]

theorem stepDone_runs : exec (.stepDone c a) s =
    if (begun s c).user then .next (trapped s c 1 (BitVec.ofNat 64 (wordRR 0x28 0 a 0 3)))
    else .next (drainStart (during s c) c.val 0 0 true (.stepDone ((gNow s c a).toNat % 256 != 0))) := by
  rw [exec_stepDone, execStepDone, coreDo_runs _ h, gGet_begun, illegal_runs]
end

theorem drained_flush (s : State) (c : Fin 25600) (lo len : Nat) (all inv : Bool) :
    drained (drainingCore s c (.flush lo len all inv)) [] (.flush lo len all inv) =
      if all then (begun s c).tracker.isEmpty else !trackedAt (begun s c) lo len := rfl

theorem flagsOf (all inv : Bool) :
    (BitVec.ofNat 9 (2 * b2n all + b2n inv)).toNat < 4 ∧ bitOf (BitVec.ofNat 9 (2 * b2n all + b2n inv)).toNat 1 = all ∧
      bitOf (BitVec.ofNat 9 (2 * b2n all + b2n inv)).toNat 0 = inv := by
  cases all <;> cases inv <;> decide

theorem acqFlag (all : Bool) : (BitVec.ofNat 9 (2 * b2n all) = 0 ∨ BitVec.ofNat 9 (2 * b2n all) = 2) ∧ (BitVec.ofNat 9 (2 * b2n all) == 2) = all := by
  cases all <;> decide

/-- Settles O20: an instruction that is allowed drains, and with nothing to write back or to await ends at once. -/
theorem flushAcqStepDone : Obligations.FlushAcqStepDone := by
  intro s c d a b fn h x u lo len word
  refine ⟨?_, ?_, ?_, ?_, ?_, ?_⟩
  · rintro all inv rfl
    obtain ⟨hlt, hall, hinv⟩ := flagsOf all inv
    dsimp only
    rw [flush_runs h, if_neg (by simpa using hlt), hall, hinv]
    refine ⟨rfl, fun hc hd => ?_⟩
    rw [drainStart_clean _ hc, drained_flush, hd]
    rfl
  · rintro all rfl
    obtain ⟨hok, hall⟩ := acqFlag all
    dsimp only
    rw [acq_runs h, if_neg (by simp; tauto), hall]
    refine ⟨rfl, fun hc hd => ?_⟩
    rw [drainStart_clean _ hc, drained_flush, hd]
    rfl
  · exact fun hbad => (flush_runs h ..).trans (if_pos hbad)
  · exact fun hbad => (acq_runs h ..).trans (if_pos hbad)
  · intro hu
    rw [stepDone_runs h, if_pos hu]
    simp [wordRR]
  · intro hu
    dsimp only
    rw [stepDone_runs h, if_neg (Bool.eq_false_iff.mp hu)]
    refine ⟨rfl, fun hc ht htags => ?_⟩
    have hd : drained (drainingCore s c (.stepDone ((gNow s c a).toNat % 256 != 0))) [] (.stepDone ((gNow s c a).toNat % 256 != 0)) = true := by
      show ((begun s c).tracker.isEmpty && !(begun s c).tags.contains .pending) = true
      rw [ht, htags]; rfl
    rw [drainStart_clean _ hc, hd]
    rfl

/-! ### TALLY -/

/-- The signed difference of two counts is not negative (R237). -/
theorem tallyGe_iff (a b : Nat) : tallyGe a b = true ↔ (BitVec.ofNat 32 a - BitVec.ofNat 32 b).toInt ≥ 0 := by
  unfold tallyGe
  rw [decide_eq_true_eq, BitVec.toInt_eq_toNat_cond, BitVec.toNat_sub, BitVec.toNat_ofNat, BitVec.toNat_ofNat]
  split <;> omega

/-- The core whose TALLY has its old value. -/
def tallyGot (x : Core) (rd old : Nat) (acq : Bool) : Core :=
  { past (gSet (if acq then l0Invalidate x 0 0 true else x) rd (BitVec.ofNat 64 old)) with wait := .none }

theorem tallyDo_eq (s : State) (n : Nat) (op : TallyOp) (slot rd v : Nat) (acq : Bool) :
    tallyDo s n op slot rd v acq = match op with
      | .read => putCore s n (tallyGot (Machine.core s n) rd (tallyValue s slot) acq)
      | .add => putCore (tallyAdd s slot v) n (tallyGot (Machine.core s n) rd (tallyValue s slot) acq)
      | .waitGe => putCore s n (if tallyGe (tallyValue s slot) v then tallyGot (Machine.core s n) rd (tallyValue s slot) acq
          else { Machine.core s n with wait := .tally slot rd v acq }) := by
  unfold tallyDo tallyGot past
  cases op with
  | read | add => simp only [gSet_pc]
  | waitGe =>
    simp only [gSet_pc]
    split <;> rfl

section
variable {s : State} {c : Fin 25600} (h : Runs s c) (op : TallyOp) (code : Nat) (d a b : Fin 32) (fl : BitVec 7)
include h

theorem tally_runs : tally c op code d a b fl s =
    if 4 ≤ fl.toNat then .next (trapped s c 1 (BitVec.ofNat 64 (wordRR 0x39 d a b (4 * fl.toNat + code))))
    else if 65536 ≤ (gNow s c a).toNat ∨ (begun s c).ctxPart = 0xF ∨ !isTally (during s c) (begun s c).ctxPart (gNow s c a).toNat then
      .next (trapped s c 11 (gNow s c a))
    else if bitOf fl.toNat 0 || bitOf fl.toNat 1 then
      .next (drainStart (during s c) c.val 0 0 true
        (.tally op (gNow s c a).toNat d ((gNow s c b).toNat % 2 ^ 32) (bitOf fl.toNat 1) (bitOf fl.toNat 0)))
    else .next (tallyDo (during s c) c.val op (gNow s c a).toNat d ((gNow s c b).toNat % 2 ^ 32) (bitOf fl.toNat 1)) := by
  rw [tally, coreDo_runs _ h]
  dsimp only
  rw [gGet_begun, gGet_begun, illegal_runs, raise_runs]

/-- The slot is a tally of the partition of the step that runs. -/
def isOwnTally (s : State) (c : Fin 25600) (slot : Nat) : Prop :=
  slot < 65536 ∧ (begun s c).ctxPart ≠ 0xF ∧ isTally (during s c) (begun s c).ctxPart slot = true

omit h in
theorem not_isOwnTally_iff (s : State) (c : Fin 25600) (slot : Nat) :
    (65536 ≤ slot ∨ (begun s c).ctxPart = 0xF ∨ (!isTally (during s c) (begun s c).ctxPart slot) = true) ↔ ¬ isOwnTally s c slot := by
  unfold isOwnTally
  rw [Bool.not_eq_true', ← Bool.not_eq_true, ← Nat.not_lt]
  tauto

theorem tally_illegal (hfl : 4 ≤ fl.toNat) :
    tally c op code d a b fl s = .next (trapped s c 1 (BitVec.ofNat 64 (wordRR 0x39 d a b (4 * fl.toNat + code)))) := by
  rw [tally_runs h, if_pos hfl]

theorem tally_faults (hfl : fl.toNat < 4) (hno : ¬ isOwnTally s c (gNow s c a).toNat) :
    tally c op code d a b fl s = .next (trapped s c 11 (gNow s c a)) := by
  rw [tally_runs h, if_neg (Nat.not_le.mpr hfl), if_pos ((not_isOwnTally_iff ..).mpr hno)]

theorem tally_plain (ho : isOwnTally s c (gNow s c a).toNat) :
    tally c op code d a b 0 s = .next (tallyDo (during s c) c.val op (gNow s c a).toNat d ((gNow s c b).toNat % 2 ^ 32) false) := by
  rw [tally_runs h, if_neg (by decide), if_neg (fun e => (not_isOwnTally_iff ..).mp e ho)]
  rfl

omit h in
theorem tallyFlags (rel acq : Bool) :
    (BitVec.ofNat 7 (2 * b2n acq + b2n rel)).toNat < 4 ∧ bitOf (BitVec.ofNat 7 (2 * b2n acq + b2n rel)).toNat 0 = rel ∧
      bitOf (BitVec.ofNat 7 (2 * b2n acq + b2n rel)).toNat 1 = acq := by
  cases rel <;> cases acq <;> decide

/-- With REL or ACQ the core drains first; with nothing to write back and, for REL, no write under way, the operation follows at once. -/
theorem tally_drains (ho : isOwnTally s c (gNow s c a).toNat) {rel acq : Bool} (hany : (rel || acq) = true) :
    let g := AfterDrain.tally op (gNow s c a).toNat d ((gNow s c b).toNat % 2 ^ 32) acq rel
    tally c op code d a b (BitVec.ofNat 7 (2 * b2n acq + b2n rel)) s = .next (drainStart (during s c) c.val 0 0 true g) ∧
    (clean s c 0 0 true → (rel = true → (begun s c).tracker = []) → tally c op code d a b (BitVec.ofNat 7 (2 * b2n acq + b2n rel)) s =
      .next (tallyDo (draining s c g) c.val op (gNow s c a).toNat d ((gNow s c b).toNat % 2 ^ 32) acq)) := by
  intro g
  obtain ⟨hlt, hrel, hacq⟩ := tallyFlags rel acq
  rw [tally_runs h, if_neg (Nat.not_le.mpr hlt), if_neg (fun e => (not_isOwnTally_iff ..).mp e ho), hrel, hacq, if_pos hany]
  refine ⟨rfl, fun hc ht => ?_⟩
  have hd : drained (drainingCore s c g) [] g = true := by
    show (!rel || (begun s c).tracker.isEmpty) = true
    cases rel with
    | false => rfl
    | true => rw [ht rfl]; rfl
  rw [drainStart_clean _ hc, hd]
  rfl
end

/-- TALLY_WAIT_RELEASE ends a wait whose tally has come up to its operand. -/
theorem tallyWaitRelease_ends {s : State} {c : Fin 25600} {slot rd v : Nat} {acq : Bool} (hw : (Machine.core s c.val).wait = .tally slot rd v acq)
    (hge : tallyGe (tallyValue s slot) v = true) :
    exec (.tallyWaitRelease c) s = .next (putCore s c.val (tallyGot (Machine.core s c.val) rd (tallyValue s slot) acq)) := by
  rw [exec_tallyWaitRelease, execTallyWaitRelease, hw]
  dsimp only
  rw [if_pos hge, tallyDo_eq]
  dsimp only
  rw [if_pos hge]

/-- Settles O21: the flags of the instruction say whether it drains first, its operation what follows. -/
theorem tallyOperations : Obligations.TallyOperations := by
  refine ⟨?_, fun s n slot rd v acq => ⟨tallyDo_eq .., tallyDo_eq .., tallyDo_eq ..⟩, fun s c slot rd v acq hw hge => tallyWaitRelease_ends hw hge⟩
  intro s c d a b fl h x u slot v old got ge isOne
  have clauses := fun op code =>
    And.intro (tally_illegal h op code d a b fl) (And.intro (tally_faults h op code d a b fl)
      (fun (ho : isOne) (rel acq : Bool) (hfl : fl = BitVec.ofNat 7 (2 * b2n acq + b2n rel)) hany => hfl ▸ tally_drains h op code d a b ho hany))
  have hcore : Machine.core u c.val = x := core_during s c
  simp only [List.forall_mem_cons, exec_tallyRead, exec_tallyAdd, exec_tallyWaitGe]
  refine ⟨⟨clauses .read 0, clauses .add 1, clauses .waitGe 2, fun _ hx => absurd hx List.not_mem_nil⟩, ?_⟩
  rintro ho rfl
  refine ⟨?_, ?_, fun hge => ?_, fun hlt => ?_⟩
  · refine (tally_plain h .read 0 d a b ho).trans ?_
    rw [tallyDo_eq, hcore]
    rfl
  · refine (tally_plain h .add 1 d a b ho).trans ?_
    rw [tallyDo_eq, hcore]
    rfl
  · refine (tally_plain h .waitGe 2 d a b ho).trans ?_
    rw [tallyDo_eq, hcore]
    dsimp only
    rw [if_pos ((tallyGe_iff _ _).mpr hge)]
    rfl
  · refine (tally_plain h .waitGe 2 d a b ho).trans ?_
    rw [tallyDo_eq, hcore]
    dsimp only
    rw [if_neg (fun e => hlt ((tallyGe_iff _ _).mp e))]
    rfl

/-! ### CMA instructions -/

/-- Settles O23, by the offset, the free buffer and the status of the tag. -/
theorem cmaInstructions : Obligations.CmaInstructions := by
  intro s c d a h x off st
  rw [exec_cmaIssue, execCmaIssue, exec_cmaWait, execCmaWait, exec_cmaPoll, execCmaPoll, coreDo_runs _ h, coreDo_runs _ h, coreRegs_runs _ h]
  dsimp only
  rw [gGet_begun, raise_runs]
  refine ⟨fun hbad => if_pos hbad, fun h1 h2 hn => ?_, fun h1 h2 n hn => ?_, fun hst => ?_, fun hst => ?_, rfl⟩
  · rw [if_neg (by omega), show freeBuffer (begun s c) = none from hn]
    rfl
  · rw [if_neg (by omega), show freeBuffer (begun s c) = some n from hn]
    rfl
  · split
    · next hp => exact absurd hp hst
    · rfl
  · rw [show tagStatus (begun s c) (c.val % 16) (gNow s c a).toNat = .pending from hst]
    rfl

end Sys2Proof.Machine.Claims
end

section
/-!
PROOFS. Loads and stores of the porter cores (R219 to R224, R231, R245): what a load takes, the table of forms, and one access in each region.
-/
namespace Sys2Proof.Machine.Claims

/-! ### What a load takes -/

theorem span_length (a n : Nat) : (span a n).length = n := by
  induction n generalizing a with
  | zero => rfl
  | succ n ih => rw [span, List.length_cons, ih]

theorem toBytes_length (n v : Nat) : (toBytes n v).length = n := by
  induction n generalizing v with
  | zero => rfl
  | succ n ih => rw [toBytes, List.length_cons, ih]

theorem ofBytes_lt (b : List Byte) : ofBytes b < 2 ^ (8 * b.length) := by
  induction b with
  | nil => decide
  | cons b l ih =>
    have hb := b.isLt
    rw [ofBytes, List.length_cons, Nat.mul_add, Nat.pow_add]
    omega

/-- A number of `8 * n` bits, sign-extended to 64 bits, as the model computes it. -/
theorem signExtend_ofNat {n v : Nat} (h1 : 1 ≤ n) (h8 : n ≤ 8) (hv : v < 2 ^ (8 * n)) :
    (BitVec.ofNat (8 * n) v).signExtend 64 = if 2 ^ (8 * n - 1) ≤ v then BitVec.ofNat 64 (2 ^ 64 + v - 2 ^ (8 * n)) else BitVec.ofNat 64 v := by
  have hmsb : (BitVec.ofNat (8 * n) v).msb = decide (2 ^ (8 * n - 1) ≤ v) := by
    rw [BitVec.msb_eq_decide, BitVec.toNat_ofNat, Nat.mod_eq_of_lt hv]
  have hle : 2 ^ (8 * n) ≤ 2 ^ 64 := Nat.pow_le_pow_right (by decide) (by omega)
  apply BitVec.eq_of_toNat_eq
  rw [BitVec.toNat_signExtend, hmsb, BitVec.toNat_setWidth, BitVec.toNat_ofNat, Nat.mod_eq_of_lt hv]
  split_ifs with hd hb hb <;> simp only [decide_eq_true_eq] at hd
  · rw [BitVec.toNat_ofNat]; omega
  · exact absurd hd hb
  · exact absurd hb hd
  · rw [BitVec.toNat_ofNat]; omega

/-- The sizes of the loads and stores that name a G register. -/
def sizeOk (op : MemOp) : Prop := op.vec = false → 1 ≤ op.size ∧ op.size ≤ 8

theorem loadDone_eq_took {op : MemOp} (hop : sizeOk op) (x : Core) {b : List Byte} (hb : b.length = op.size) : loadDone x op b = took x op b := by
  unfold loadDone took
  cases hv : op.vec with
  | true => rfl
  | false =>
    obtain ⟨h1, h8⟩ := hop hv
    have hlt : ofBytes b < 2 ^ (8 * op.size) := hb ▸ ofBytes_lt b
    have hz : (BitVec.ofNat (8 * op.size) (ofBytes b)).zeroExtend 64 = BitVec.ofNat 64 (ofBytes b) := by
      apply BitVec.eq_of_toNat_eq
      simp [Nat.mod_eq_of_lt hlt]
    dsimp only
    rw [signExtend_ofNat h1 h8 hlt, hz]
    cases op.signed with
    | false => rfl
    | true =>
      simp only [Bool.true_and, decide_eq_true_eq, if_true, Bool.false_eq_true, if_false]
      split <;> rfl

/-! ### The table of loads and stores -/

section
variable {s : State} {c : Fin 25600} (h : Runs s c) (d a : Fin 32) (imm : BitVec 14)

theorem vGet_begun_nat (s : State) (c : Fin 25600) (r : Nat) : vGet (begun s c) r = vGet (Machine.core s c.val) r := by
  unfold begun
  rw [fetched_eq]
  rfl

include h

theorem load_runs (size : Nat) (sg : Bool) :
    load c d a imm size sg s = access c (gNow s c a + imm.signExtend 64)
      { reg := d, addr := (gNow s c a + imm.signExtend 64).toNat, size := size, signed := sg, vec := false, store := none } (begun s c) (during s c) := by
  rw [load, coreDo_runs _ h, effAddr, gGet_begun]

theorem store_runs (size : Nat) :
    store c d a imm size s = access c (gNow s c a + imm.signExtend 64)
      { reg := d, addr := (gNow s c a + imm.signExtend 64).toNat, size := size, signed := false, vec := false,
        store := some (toBytes size (gNow s c d).toNat) } (begun s c) (during s c) := by
  rw [store, coreDo_runs _ h, effAddr, gGet_begun, gGet_begun]

/-- A load or store of the table makes the access that stands with it. -/
theorem memTable_accesses (e : Instr × MemOp) (he : e ∈ memTable s c d a imm) (hv : e.2.vec = true → d.val < 16) :
    e.2.addr = (gNow s c a + imm.signExtend 64).toNat ∧ sizeOk e.2 ∧
      exec e.1 s = access c (gNow s c a + imm.signExtend 64) e.2 (begun s c) (during s c) := by
  simp only [memTable, List.mem_cons, List.not_mem_nil, or_false] at he
  rcases he with rfl | rfl | rfl | rfl | rfl | rfl | rfl | rfl | rfl | rfl | rfl | rfl | rfl
  · exact ⟨rfl, fun _ => by simp, (exec_ld8u ..).trans (load_runs h ..)⟩
  · exact ⟨rfl, fun _ => by simp, (exec_ld16u ..).trans (load_runs h ..)⟩
  · exact ⟨rfl, fun _ => by simp, (exec_ld32u ..).trans (load_runs h ..)⟩
  · exact ⟨rfl, fun _ => by simp, (exec_ld64 ..).trans (load_runs h ..)⟩
  · exact ⟨rfl, fun _ => by simp, (exec_ld8s ..).trans (load_runs h ..)⟩
  · exact ⟨rfl, fun _ => by simp, (exec_ld16s ..).trans (load_runs h ..)⟩
  · exact ⟨rfl, fun _ => by simp, (exec_ld32s ..).trans (load_runs h ..)⟩
  · exact ⟨rfl, fun _ => by simp, (exec_st8 ..).trans (store_runs h ..)⟩
  · exact ⟨rfl, fun _ => by simp, (exec_st16 ..).trans (store_runs h ..)⟩
  · exact ⟨rfl, fun _ => by simp, (exec_st32 ..).trans (store_runs h ..)⟩
  · exact ⟨rfl, fun _ => by simp, (exec_st64 ..).trans (store_runs h ..)⟩
  · have hd := Nat.not_le.mpr (hv rfl)
    refine ⟨rfl, fun e => (nomatch e), (exec_vld ..).trans ?_⟩
    rw [execVld, coreDo_runs _ h, if_neg hd, effAddr, gGet_begun]
  · have hd := Nat.not_le.mpr (hv rfl)
    refine ⟨rfl, fun e => (nomatch e), (exec_vst ..).trans ?_⟩
    rw [execVst, coreDo_runs _ h, if_neg hd, effAddr, gGet_begun, vGet_begun_nat]

end

theorem vector_register_illegal {s : State} {c : Fin 25600} (h : Runs s c) (d a : Fin 32) (imm : BitVec 14) (hd : 16 ≤ d.val) :
    exec (.vld c d a imm) s = .next (trapped s c 1 (BitVec.ofNat 64 (wordRI 0x1C d a imm.toNat))) ∧
    exec (.vst c d a imm) s = .next (trapped s c 1 (BitVec.ofNat 64 (wordRI 0x1D d a imm.toNat))) := by
  rw [exec_vld, exec_vst, execVld, execVst, coreDo_runs _ h, coreDo_runs _ h, if_pos hd, if_pos hd, illegal_runs, illegal_runs]
  exact ⟨rfl, rfl⟩

/-! ### The regions of the core address map -/

theorem placeOf_ha {ea : BitVec 64} {a : Nat} (h : placeOf ea = .ha a) : a = ea.toNat := by
  unfold placeOf at h
  dsimp only at h
  split_ifs at h
  cases h
  rfl

section
variable {s : State} {c : Fin 25600} {op : MemOp} {ea : BitVec 64}

/-- The fault of a region (R240). -/
theorem fault_code (s : State) (c : Fin 25600) (op : MemOp) (ea : BitVec 64) :
    (ok (raise (during s c) c.val ((if op.store.isSome then 6 else 4) + 1) ea) : Res) =
      .next (trapped s c (if op.store.isSome then 7 else 5) ea) := by
  rw [ok, raise_runs]
  cases op.store.isSome <;> rfl

theorem access_misaligned (hal : ea.toNat % op.size ≠ 0) :
    access c ea op (begun s c) (during s c) = .next (trapped s c (if op.store.isSome then 6 else 4) ea) := by
  unfold access
  rw [if_pos hal, ok, raise_runs]

variable (hal : ea.toNat % op.size = 0)
include hal

theorem access_nothing (hp : placeOf ea = .nothing) :
    access c ea op (begun s c) (during s c) = .next (trapped s c (if op.store.isSome then 7 else 5) ea) := by
  unfold access
  rw [if_neg (not_not.mpr hal), hp, ← fault_code]

theorem access_store {o : Nat} (hp : placeOf ea = .store o) :
    access c ea op (begun s c) (during s c) =
      if !storeOk (begun s c) o op.size then .next (trapped s c (if op.store.isSome then 7 else 5) ea)
      else match op.store with
        | some b => .next (putCore (storePut (during s c) (c.val / 16) o b) c.val (past (begun s c)))
        | none => .next (became s c (past (loadDone (begun s c) op (storeBytes (during s c) (c.val / 16) o op.size)))) := by
  unfold access
  rw [if_neg (not_not.mpr hal), hp, ← fault_code]
  rfl

theorem access_regs {o : Nat} (hp : placeOf ea = .regs o) :
    access c ea op (begun s c) (during s c) =
      if (begun s c).user then .next (trapped s c (if op.store.isSome then 7 else 5) ea)
      else match op.store with
        | some b =>
          if o = 0x38 ∧ op.size = 4 then .next (softRaise (became s c (past (begun s c))) (c.val / 16) (ofBytes b % 65536) (c.val % 16))
          else .next (became s c (past (begun s c)))
        | none => .next (putCore (clRead (during s c) (c.val / 16) o op.size).2 c.val
            (past (loadDone (begun s c) op (clRead (during s c) (c.val / 16) o op.size).1))) := by
  unfold access
  rw [if_neg (not_not.mpr hal), hp, ← fault_code]
  rfl

theorem access_rom {o : Nat} (hp : placeOf ea = .rom o) :
    access c ea op (begun s c) (during s c) =
      if (begun s c).user || op.store.isSome then .next (trapped s c (if op.store.isSome then 7 else 5) ea)
      else .next (became s c (past (loadDone (begun s c) op ((span o op.size).map Config.romByte)))) := by
  unfold access
  rw [if_neg (not_not.mpr hal), hp, ← fault_code]
  rfl

theorem access_ha {o : Nat} (hp : placeOf ea = .ha o) :
    access c ea op (begun s c) (during s c) =
      if !(if op.store.isSome then windowOk (during s c) (begun s c) o op.size else readOk (during s c) (begun s c) o op.size) then
        .next (raise (haFault (during s c) c.val o) c.val (if op.store.isSome then 7 else 5) ea)
      else if trackedAt (begun s c) o op.size then .next (waits s c (.tracked o op.size))
      else match l0Find (begun s c) (o / 64) with
        | some (p, l) => .next (became s c (lineAccess (begun s c) op p l))
        | none => .next (became s c { begun s c with wait := .fill op, sent := false }) := by
  have hcode : (if op.store.isSome then 6 else 4) + 1 = if op.store.isSome then 7 else 5 := by
    cases op.store.isSome <;> rfl
  unfold access
  rw [if_neg (not_not.mpr hal), hp]
  dsimp only
  rw [hcode]
  rfl
end

theorem lineAccess_eq {op : MemOp} (hop : sizeOk op) (x : Core) (k : Nat) (l : L0Line) : lineAccess x op k l =
    match op.store with
    | none => { past (took x op (l0Bytes l (op.addr % 64) op.size)) with wait := .none, sent := false }
    | some b => { past (l0Put x k (some (l0Store l (op.addr % 64) b x.user))) with wait := .none, sent := false } := by
  rw [← loadDone_eq_took hop x (b := l0Bytes l (op.addr % 64) op.size) (toBytes_length _ _)]
  unfold lineAccess
  cases op.store <;> rfl

/-- Settles O14: each load and store makes an access, and the region of its address says what comes of it. -/
theorem loadStoreForms : Obligations.LoadStoreForms := by
  intro s c d a imm h
  refine ⟨vector_register_illegal h d a imm, fun e he hv => ?_⟩
  obtain ⟨haddr, hsz, hexec⟩ := memTable_accesses h d a imm e he hv
  dsimp only
  rw [hexec, haddr]
  refine ⟨access_misaligned, fun hal => ⟨access_nothing hal, fun o hp => ?_, fun o hp => ?_, fun o hp => ?_, fun o hp => ?_⟩⟩
  · rw [access_store hal hp]
    refine ⟨fun hno => if_pos (by rw [hno]; rfl), fun hok hst => ?_, fun hok b hst => ?_⟩
    · rw [if_neg (by simp [hok]), hst, loadDone_eq_took hsz _ (by rw [storeBytes, List.length_map, span_length])]
    · rw [if_neg (by simp [hok]), hst]
  · rw [access_regs hal hp]
    refine ⟨fun hu => if_pos hu, fun hu hst => ?_, fun hu hst hno => ?_, fun hu b hst ho hs => ?_⟩
    · rw [if_neg (Bool.eq_false_iff.mp hu), hst, loadDone_eq_took hsz _ (by rw [clRead, List.length_map, span_length])]
    · obtain ⟨b, hb⟩ := Option.isSome_iff_exists.mp hst
      rw [if_neg (Bool.eq_false_iff.mp hu), hb]
      exact if_neg hno
    · rw [if_neg (Bool.eq_false_iff.mp hu), hst]
      exact if_pos ⟨ho, hs⟩
  · rw [access_rom hal hp]
    refine ⟨fun hbad => if_pos ((Bool.or_eq_true ..).mpr hbad), fun hu hst => ?_⟩
    rw [if_neg (by rw [hst, hu]; simp), loadDone_eq_took hsz _ (by rw [List.length_map, span_length])]
  · rw [access_ha hal hp]
    refine ⟨fun hno => if_pos (by rw [hno]; rfl), fun hyes ht => ?_, fun hyes ht hl => ?_, fun hyes ht k l hl => ?_⟩
    · rw [hyes, if_neg (by decide), if_pos ht]
    · rw [hyes, if_neg (by decide), if_neg (Bool.eq_false_iff.mp ht), hl]
    · rw [hyes, if_neg (by decide), if_neg (Bool.eq_false_iff.mp ht), hl]
      dsimp only
      rw [lineAccess_eq hsz, haddr, ← placeOf_ha hp] <;> rfl

end Sys2Proof.Machine.Claims
end

section
/-!
PROOFS. BMOVE (R228 to R232), and the traps of the porter cores (R240 to R244).
-/
namespace Sys2Proof.Machine.Claims

/-! ### BMOVE -/

/-- The move that a BMOVE begins. -/
def moveOf (s : State) (c : Fin 25600) (d a b : Fin 32) (fn : BitVec 9) : Move :=
  { d := d, a := a, b := b, src := (gNow s c a).toNat, dst := (gNow s c d).toNat, len := (gNow s c b).toNat, moved := 0,
    srcHint := fn.toNat % 4, dstHint := fn.toNat / 4, piece := [] }

/-- What BMOVE asks of its operands: multiples of 256, and ranges that do not overlap (R229). -/
def moveShape (src dst len : Nat) : Prop :=
  src % 256 = 0 ∧ dst % 256 = 0 ∧ len % 256 = 0 ∧ rangesMeet src len dst len = false

theorem not_moveShape_iff (src dst len : Nat) :
    (src % 256 ≠ 0 ∨ dst % 256 ≠ 0 ∨ len % 256 ≠ 0 ∨ rangesMeet src len dst len = true) ↔ ¬ moveShape src dst len := by
  unfold moveShape
  rw [← Bool.not_eq_true]
  tauto

/-- The core that begins a move into cluster store, or into HA space, which takes an entry of the tracker (R231). -/
def moveCore (x : Core) (m : Move) (far : Bool) : Core :=
  let y := l0Invalidate x m.dst m.len false
  { (if far then { y with tracker := y.tracker ++ [{ lo := m.dst, len := m.len, writes := [], more := true }] } else y) with
    wait := .move m, sent := false }

theorem bmove_runs {s : State} {c : Fin 25600} (h : Runs s c) (d a b : Fin 32) (fn : BitVec 9) :
    let x := begun s c
    let src := gNow s c a
    let dst := gNow s c d
    let len := (gNow s c b).toNat
    exec (.bmove c d a b fn) s =
      if 16 ≤ fn.toNat then .next (trapped s c 1 (BitVec.ofNat 64 (wordRR 0x38 d a b fn.toNat)))
      else if len = 0 then .next (became s c (past x))
      else if src.toNat % 256 ≠ 0 ∨ dst.toNat % 256 ≠ 0 ∨ len % 256 ≠ 0 ∨ rangesMeet src.toNat len dst.toNat len then .next (trapped s c 12 src)
      else if !moveReach (during s c) x src len false ∨ !moveReach (during s c) x dst len true then
        .next (raise (moveFault (moveFault (during s c) x c.val src len false) x c.val dst len true) c.val 12 src)
      else if trackedAt x src.toNat len then .next (waits s c (.tracked src.toNat len))
      else if trackedAt x dst.toNat len then .next (waits s c (.tracked dst.toNat len))
      else if (l0In x src.toNat len false).any (fun l => l.dirty != 0) then .next (drainStart (during s c) c.val src.toNat len false .again)
      else if decide (dst.toNat < 2 ^ 52) && decide (8 ≤ x.tracker.length) then .next (waits s c .trackRoom)
      else match placeOf src with
        | .store o => .next (movePiece (became s c (moveCore x (moveOf s c d a b fn) (decide (dst.toNat < 2 ^ 52)))) c.val (moveOf s c d a b fn)
            (storeBytes (became s c (moveCore x (moveOf s c d a b fn) (decide (dst.toNat < 2 ^ 52)))) (c.val / 16) o len))
        | _ => .next (became s c (moveCore x (moveOf s c d a b fn) (decide (dst.toNat < 2 ^ 52)))) := by
  intro x src dst len
  rw [exec_bmove, execBmove, coreDo_runs _ h]
  dsimp only
  rw [gGet_begun, gGet_begun, gGet_begun, illegal_runs, raise_runs]
  rfl

/-- Settles O22, by the checks of BMOVE in their order. -/
theorem baleMoves : Obligations.BaleMoves := by
  intro s c d a b fn h x u src dst len m shape reach dirty far y z w
  have hrun := bmove_runs h d a b fn
  dsimp only at hrun
  have hreach : reach → ¬ ((!moveReach u x src len false) = true ∨ (!moveReach u x dst len true) = true) := by
    rintro ⟨h1, h2⟩
    simp [h1, h2]
  rw [hrun]
  refine ⟨fun hfn => if_pos hfn, fun hfn hl => ?_, fun hfn hl hs => ?_, fun hfn hl hs hr => ?_, fun hfn hl hs hr => ?_⟩ <;> rw [if_neg (Nat.not_le.mpr hfn)]
  · exact if_pos hl
  · rw [if_neg hl]
    exact if_pos ((not_moveShape_iff ..).mpr hs)
  · rw [if_neg hl, if_neg (fun e => (not_moveShape_iff ..).mp e hs)]
    refine if_pos ?_
    by_contra hno
    simp at hno
    exact hr hno
  · rw [if_neg hl, if_neg (fun e => (not_moveShape_iff ..).mp e hs), if_neg (hreach hr)]
    refine ⟨fun ht => if_pos ht, fun ht1 ht2 => ?_, fun ht1 ht2 => ?_⟩ <;> rw [if_neg (Bool.eq_false_iff.mp ht1)]
    · exact if_pos ht2
    · rw [if_neg (Bool.eq_false_iff.mp ht2)]
      refine ⟨fun hd => if_pos hd, fun hd hf h8 => ?_, fun hd hf => ?_, fun hd hf h8 => ?_⟩ <;> rw [if_neg (Bool.eq_false_iff.mp hd)]
      · exact if_pos (by rw [decide_eq_true hf, decide_eq_true h8]; rfl)
      · have hz : moveCore x m (decide (dst.toNat < 2 ^ 52)) = z := by rw [decide_eq_false hf]; rfl
        rw [if_neg (by rw [decide_eq_false hf]; simp), ← hz]
        exact ⟨fun o ho => by rw [ho]; rfl, fun o ho => by rw [ho]; rfl⟩
      · have hz : moveCore x m (decide (dst.toNat < 2 ^ 52)) = w := by rw [decide_eq_true hf]; rfl
        rw [if_neg (by rw [decide_eq_false (Nat.not_le.mpr h8)]; simp), ← hz]
        exact ⟨fun o ho => by rw [ho]; rfl, fun o ho => by rw [ho]; rfl⟩

/-! ### Traps -/

/-- A core that takes an exception shows it, as no core without one has a cause other than 0. -/
theorem raise_core (s : State) (n code : Nat) (info : BitVec 64) (hc : code ≠ 0) :
    Machine.core (raise s n code info) n = trap (Machine.core s n) false 0 code info (Machine.core s n).pc 0 :=
  core_putCore_self _ fun e => hc (congrArg Core.causeCode e)

/-- Each instruction runs through the checks that all share. -/
theorem exec_of_word {i : Instr} {c : Fin 25600} {w : CoreWord} (h : coreWordOf i = some (c, w)) (s : State) : ∃ f, exec i s = coreDo c s f := by
  cases i <;> simp only [coreWordOf, Option.some.injEq, Prod.mk.injEq, reduceCtorEq] at h
  all_goals
    obtain ⟨rfl, rfl⟩ := h
    exact ⟨_, rfl⟩

section
variable {s : State} {c : Fin 25600} (hact : coreActive s c.val = true) (hwait : (Machine.core s c.val).wait = .none)
    (hcan : cancelDue s (Machine.core s c.val) = false)
include hact hwait hcan

/-- An exception of the instruction comes before every interrupt but CANCEL (R244). -/
theorem coreDo_raised {f : Core → State → Res} (h : raised c (Machine.core s c.val) (fetchDo c s f) = true) : coreDo c s f = fetchDo c s f := by
  unfold coreDo
  dsimp only
  rw [hact, hwait, hcan, h]
  simp

end

theorem trap_raised {c : Fin 25600} {x y : Core} {t : State} (hx : y = { x with l0i := y.l0i }) {code : Nat} {info : BitVec 64}
    (ht : Machine.core t c.val = trap y false 0 code info y.pc 0) : raised c x (.next t) = true := by
  unfold raised
  dsimp only
  rw [ht, hx]
  exact beq_self_eq_true _

theorem core_haFault (s : State) (n a m : Nat) : Machine.core (haFault s n a) m = Machine.core s m := by
  unfold haFault
  split <;> rfl

/-- What a faulting fetch logs and latches. -/
def fetchLogged (s : State) (c : Fin 25600) : State :=
  match placeOf (pcNow s c) with
  | .ha h => haFault s c.val h
  | _ => s

theorem core_fetchLogged (s : State) (c : Fin 25600) (m : Nat) : Machine.core (fetchLogged s c) m = Machine.core s m := by
  unfold fetchLogged
  split
  · exact core_haFault ..
  · rfl

theorem fetchDo_fault {s : State} {c : Fin 25600} (h : fetchOk s (Machine.core s c.val) = false) (f : Core → State → Res) :
    fetchDo c s f = .next (raise (fetchLogged s c) c.val 3 (pcNow s c)) := by
  unfold fetchDo
  exact if_neg (Bool.eq_false_iff.mp h)

theorem fetchDo_allowed {s : State} {c : Fin 25600} (h : fetchOk s (Machine.core s c.val) = true) (f : Core → State → Res) :
    fetchDo c s f = f (begun s c) (during s c) := by
  unfold fetchDo
  exact if_pos h

/-- An instruction that only raises an exception does so before every interrupt but CANCEL. -/
theorem coreDo_trap {s : State} {c : Fin 25600} (hact : coreActive s c.val = true) (hwait : (Machine.core s c.val).wait = .none)
    (hcan : cancelDue s (Machine.core s c.val) = false) (hf : fetchOk s (Machine.core s c.val) = true) {f : Core → State → Res} {code : Nat}
    {info : BitVec 64} (hcode : code ≠ 0) (h : f (begun s c) (during s c) = ok (raise (during s c) c.val code info)) :
    coreDo c s f = .next (trapped s c code info) := by
  rw [coreDo_raised hact hwait hcan, fetchDo_allowed hf, h, ok, raise_runs]
  rw [fetchDo_allowed hf, h]
  have hcore : Machine.core (raise (during s c) c.val code info) c.val = trap (begun s c) false 0 code info (begun s c).pc 0 := by
    rw [raise_core _ _ _ _ hcode, core_during]
  exact trap_raised (fetched_eq _) hcore

theorem firstIrq_first (s : State) (x : Core) (j : Nat) (hj : j < 5) (hset : (coreReady s x).getLsbD j = true)
    (hlow : ∀ i, i < j → (coreReady s x).getLsbD i = false) : (firstIrq s x).1 = j := by
  unfold firstIrq
  dsimp only
  interval_cases j
  · rw [if_pos hset]
  · rw [hlow 0 (by decide), if_neg (by decide), if_pos hset]
  · rw [hlow 0 (by decide), hlow 1 (by decide), if_neg (by decide), if_neg (by decide), if_pos hset]
  · rw [hlow 0 (by decide), hlow 1 (by decide), hlow 2 (by decide), if_neg (by decide), if_neg (by decide), if_neg (by decide), if_pos hset]
  · rw [hlow 0 (by decide), hlow 1 (by decide), hlow 2 (by decide), hlow 3 (by decide), if_neg (by decide), if_neg (by decide), if_neg (by decide),
      if_neg (by decide)]

theorem takeInterrupt_runs {s : State} {c : Fin 25600} (hact : coreActive s c.val = true) (htake : coreTakes s (Machine.core s c.val) = true)
    (hbr : (Machine.core s c.val).wait.breaks (Machine.core s c.val).sent = true) :
    let x := match (Machine.core s c.val).wait with | .move m => moveStop (Machine.core s c.val) m | _ => Machine.core s c.val
    let code := (firstIrq s (Machine.core s c.val)).1
    let info := BitVec.ofNat 64 (firstIrq s (Machine.core s c.val)).2
    exec (.takeInterrupt c) s = .next (putCore s c.val (if code = 0
      then trap { x with pending := x.pending &&& 0b11110#5 } true 0 0 info x.pc 0x80
      else trap x true 0 code info x.pc 0)) := by
  intro x code info
  rw [exec_takeInterrupt, execTakeInterrupt]
  dsimp only
  rw [hact, htake, hbr, if_neg (by decide)]
  by_cases hc : code = 0
  · rw [if_pos hc, if_pos hc, if_pos hc, show (firstIrq s (Machine.core s c.val)).1 = 0 from hc] <;> rfl
  · rw [if_neg hc, if_neg hc, if_neg hc] <;> rfl

/-- Settles O17, from what a trap does, and from what comes first of an exception, CANCEL and the other interrupts. -/
theorem trapEntry : Obligations.TrapEntry := by
  refine ⟨fun x int st code info ret off => ?_, raise_core, fun s i c w hi hact hwait hcan hf => ?_, fun s c hact hwait hcan hf => ?_, ?_,
    firstIrq_first, fun s c hact htake hbr => takeInterrupt_runs hact htake hbr⟩
  · exact ⟨rfl, rfl, rfl, rfl, rfl, rfl, rfl, rfl, rfl, rfl, rfl, rfl, rfl, rfl, rfl, rfl, rfl, rfl, rfl⟩
  · obtain ⟨f, hexec⟩ := exec_of_word hi s
    rw [hexec, coreDo_raised hact hwait hcan, fetchDo_fault hf]
    · rfl
    · rw [fetchDo_fault hf]
      refine trap_raised (y := Machine.core s c.val) (code := 3) (info := pcNow s c) rfl ?_
      rw [raise_core _ _ _ _ (by decide), core_fetchLogged]
  · rw [exec_dbgstop, exec_rcall]
    refine ⟨coreDo_trap hact hwait hcan hf (by decide) rfl, coreDo_trap hact hwait hcan hf ?_ rfl⟩
    split <;> decide
  · intro s c h x back hu
    exact ⟨fun ha => by rw [tret_runtime h hu, jumpTo_aligned ha], fun ha => by rw [tret_runtime h hu, jumpTo_misaligned ha]⟩

end Sys2Proof.Machine.Claims
end

section
/-!
PROOFS. Events of the porter clusters: the ends of CMA commands, timer and soft interrupts, fills and accepted writes, core faults and waves (R228 to R232, R243 to R246, R254 to R263).
-/
namespace Sys2Proof.Machine.Claims

/-! ### CMA commands -/

/-- Settles O24: what comes of a command is what its 64 bytes spell. -/
theorem cmaEnds : Obligations.CmaEnds := by
  refine ⟨fun s k q rest hq => ?_, fun s c rd tag hw hst => ?_⟩
  · rw [exec_cmaCommandDone, execCmaCommandDone]
    dsimp only
    rw [hq]
    dsimp only
    exact ⟨fun hd => by rw [hd], fun m hd => by rw [hd]⟩
  · rw [exec_cmaWaitRelease, execCmaWaitRelease]
    dsimp only
    rw [hw]
    dsimp only
    split
    · next hp => exact absurd hp hst
    · rw [past, gSet_pc]

/-- Settles O25: both events pend a bit on the cores that they name. -/
theorem timerAndSoft : Obligations.TimerAndSoft := by
  refine ⟨fun s c hact hp => ?_, fun s k mask => ?_⟩
  · rw [exec_timerExpiry, execTimerExpiry]
    rw [hact, hp]
    rfl
  · rw [exec_softRaise]
    rfl

/-- Settles O26, by what the core waits for and by the status of the answer. -/
theorem fillsAndAcceptances : Obligations.FillsAndAcceptances := by
  refine ⟨fun s c line dl hint a hr ha => ?_, fun s n a st => ⟨if_pos rfl, fun hst => if_neg hst⟩, fun s c a ha => ?_⟩
  · rw [exec_l0FillReturn, execL0FillReturn]
    dsimp only
    rw [hr]
    dsimp only
    rw [ha]
    dsimp only
    refine ⟨fun op hw => ?_, fun m hw => ?_⟩
    · rw [hw]
      dsimp only
      refine ⟨fun hst => if_pos hst, fun hst t y k hl => ?_⟩
      rw [if_neg (not_not.mpr hst), hl]
    · rw [hw]
      dsimp only
      refine ⟨fun hst => if_pos hst, fun hst => ?_⟩
      rw [if_neg (not_not.mpr hst)]
      exact ⟨fun hlt => if_pos hlt, fun hge => if_neg (Nat.not_lt.mpr hge)⟩
  · rw [exec_writeAccepted, execWriteAccepted]
    dsimp only
    rw [ha]

theorem coreFault_runs {s : State} {c : Fin 25600} (hh : (Machine.core s c.val).halted = false) (t : CoreTrouble) :
    exec (.coreFault c t) s =
      let x := Machine.core s c.val
      match t with
      | .register => .next (Machine.coreFault s c.val)
      | .selfTest => if (Machine.cluster s (c.val / 16)).loaded then notDue s else .next (Machine.coreFault s c.val)
      | .line l => match l0Find x l with
        | none => notDue s
        | some (k, y) =>
          if y.dirty ≠ 0 then .next (Machine.coreFault s c.val)
          else .next (bump (putCore s c.val (l0Put x k none)) ⟨.prtClL0Parity, 0, c.val / 16⟩ 1)
      | .codeLine l =>
        if x.l0i.contains l then .next (bump (putCore s c.val { x with l0i := x.l0i.filter (fun k => k != l) }) ⟨.prtClL0Parity, 0, c.val / 16⟩ 1)
        else notDue s
      | .machineCheck w =>
        if (!x.user && !x.ie) || cancelDue s x then .next (Machine.coreFault s c.val)
        else .next (putCore (dropReads s c.val) c.val
          (trap (match x.wait with | .move m => moveStop x m | _ => x) false 0 16 w (match x.wait with | .move m => moveStop x m | _ => x).pc 0)) := by
  rw [exec_coreFault]
  unfold execCoreFault
  dsimp only
  rw [hh, if_neg (by decide)] <;> rfl

/-- Settles O27, by the kind of trouble and by what the release of a wave waits for. -/
theorem coreFaultsAndWaves : Obligations.CoreFaultsAndWaves := by
  refine ⟨fun s c hh => ?_, fun s w t hf hw hr => ?_⟩
  · intro x failed
    simp only [coreFault_runs hh]
    refine ⟨rfl, fun hl => ?_, fun l k y hl => ?_, fun l hl => if_pos hl, fun w => ⟨fun hno => if_pos ?_, fun hie hc => if_neg ?_⟩⟩
    · exact if_neg (Bool.eq_false_iff.mp hl)
    · rw [hl]
      exact ⟨fun hd => if_neg (not_not.mpr hd), fun hd => if_pos hd⟩
    · rw [← Bool.not_or, Bool.or_eq_true, Bool.not_eq_true']
      exact hno
    · rw [← Bool.not_or, Bool.or_eq_true, Bool.not_eq_true', hie, hc]
      decide
  · rw [exec_waveRelease, execWaveRelease, hf]
    dsimp only
    rw [if_neg (by rw [hr]; simpa using hw)]
    rfl

end Sys2Proof.Machine.Claims
end

section
/-!
PROOFS. The homes of lines and HBM: requests of the cores, events at a home, the HBM controllers, scrub and repair (R30, R39, R62 to R72, R325 to R371, R444, R452, R547, R663).
-/
namespace Sys2Proof.Machine.Claims

/-! ### Requests of the cores -/

theorem homeRead_runs {s : State} {c : Fin 25600} {line dl hint : Nat} (hr : awaitedRead (core s c.val) = some (line, dl, hint))
    (hs : (core s c.val).sent = false) : exec (.homeRead c) s = .next (settle (presentReq (putCore s c.val { core s c.val with sent := true })
      { who := .core c.val, op := .rdCur, line := line, hint := hint, deadline := deadlineAt s dl, init := initCluster (c.val / 16) }
      0 (match (core s c.val).wait with | .fill _ => 64 | _ => 128))) := by
  rw [exec_homeRead, execHomeRead]
  dsimp only
  rw [hr]
  dsimp only
  rw [if_neg (Bool.eq_false_iff.mp hs)]
  rfl

/-- Settles O28: a request goes home where nothing of its initiator waits and its toll admits it. -/
theorem coreRequests : Obligations.CoreRequests := by
  refine ⟨fun s c line dl hint hr hs => homeRead_runs hr hs, fun s c line w hw => ?_, fun s r cls bytes => ⟨fun hh ha => ?_, fun h => ?_⟩⟩
  · intro noted
    rw [exec_homeWrite, execHomeWrite]
    dsimp only
    rw [hw]
    rfl
  · rw [presentReq]
    exact if_neg (by simp [hh, ha])
  · rw [presentReq]
    refine if_pos ?_
    rcases h with hh | ha
    · simp [hh]
    · simp [ha]

/-! ### Events at a home -/

theorem missFillReturn_runs {s : State} {line : Nat} {t : Txn} (ht : txnFind s line = some t) (hm : t.missing = true) (hb : isHbm (lineHa line) = true) :
    exec (.missFillReturn line) s = match t.hbmDone with
      | none => notDue s
      | some .complete =>
        let (d, p) := lowerLine s line
        if p then okT (failTxn s t .uncorrectable)
        else match seraiAlloc s line ((t.req.map Req.hint).getD 0) d false false with
          | .way _ s => okT (serveMiss s line)
          | .bale v => okT (askLeave s v)
          | .noWay => if bypasses s line then okT (serveUnplaced s t d) else notDue s
          | .noBuffer => notDue s
      | some st => okT (failTxn s t st) := by
  rw [exec_missFillReturn, execMissFillReturn, ht]
  exact if_neg (by simp [hm, hb])

theorem missFillReturn_failed {s : State} {line : Nat} {t : Txn} {st : Status} (ht : txnFind s line = some t) (hm : t.missing = true)
    (hb : isHbm (lineHa line) = true) (hd : t.hbmDone = some st) (hst : st ≠ .complete) :
    exec (.missFillReturn line) s = .next (settle (failTxn s t st)) := by
  rw [missFillReturn_runs ht hm hb, hd]
  cases st <;> first | rfl | exact absurd rfl hst

theorem missFillReturn_good {s : State} {line : Nat} {t : Txn} (ht : txnFind s line = some t) (hm : t.missing = true)
    (hb : isHbm (lineHa line) = true) (hd : t.hbmDone = some .complete) (hp : (lowerLine s line).2 = false) :
    exec (.missFillReturn line) s = match seraiAlloc s line ((t.req.map Req.hint).getD 0) (lowerLine s line).1 false false with
      | .way _ s => okT (serveMiss s line)
      | .bale v => okT (askLeave s v)
      | .noWay => if bypasses s line then okT (serveUnplaced s t (lowerLine s line).1) else notDue s
      | .noBuffer => notDue s := by
  rw [missFillReturn_runs ht hm hb, hd]
  exact if_neg (Bool.eq_false_iff.mp hp)

/-- Settles O29: one clause for each event, by what waits at the home. -/
theorem homeEvents : Obligations.HomeEvents := by
  refine ⟨fun s u line hu => ?_, fun s line t ht hm hb => ⟨fun st hd hst => missFillReturn_failed ht hm hb hd hst, fun hd hp => ?_, fun hd hp => ?_⟩,
    fun s who line h hh => ?_, fun s who line hh => ⟨fun r hr => ?_, fun hi t ht => ⟨fun r hr => ?_, fun hn r hr hm hl => ?_⟩⟩,
    fun s crc site c line hsite => ?_, fun s u who line r hl => ?_, fun s n v => ?_, fun s hs => ?_, fun s g n hg => ?_⟩
  · rw [exec_lineUnbusy, execLineUnbusy, hu]
    rfl
  · rw [missFillReturn_runs ht hm hb, hd]
    exact if_pos hp
  · intro found
    refine ⟨fun w u hf => ?_, fun b hf => ?_, fun hf hby => ?_⟩
    · rw [missFillReturn_good ht hm hb hd hp, show seraiAlloc _ _ _ _ _ _ = _ from hf]
      rfl
    · rw [missFillReturn_good ht hm hb hd hp, show seraiAlloc _ _ _ _ _ _ = _ from hf]
      rfl
    · rw [missFillReturn_good ht hm hb hd hp, show seraiAlloc _ _ _ _ _ _ = _ from hf]
      exact if_pos hby
  · intro u
    rw [exec_deadlineExpiry, execDeadlineExpiry, hh]
  · intro u
    rw [exec_deadlineExpiry, execDeadlineExpiry, hh]
    dsimp only
    rw [hr]
  · rw [exec_deadlineExpiry, execDeadlineExpiry, hh]
    dsimp only
    rw [hi, ht]
    dsimp only
    rw [hr]
  · rw [exec_deadlineExpiry, execDeadlineExpiry, hh]
    dsimp only
    rw [hi, ht]
    dsimp only
    rw [hn, hr]
    exact if_pos (by simp [hm, hl])
  · intro log
    have hno : ¬ (!placeOccurs site) = true := by simp [hsite]
    refine ⟨fun u hu => ?_, fun u hu => ?_, ?_⟩
    · rw [exec_packetError, execPacketError]
      dsimp only
      rw [if_neg hno, hu]
    · rw [exec_packetError, execPacketError]
      dsimp only
      rw [if_neg hno, hu]
    · rw [exec_packetError, execPacketError]
      exact if_neg hno
  · intro v
    refine ⟨fun hw => ?_, fun hw => ?_⟩
    · rw [exec_responseTimeout, execResponseTimeout, hl]
      dsimp only
      rw [hw]
      rfl
    · rw [exec_responseTimeout, execResponseTimeout, hl]
      dsimp only
      rw [hw]
      split
      · next hd =>
        change okT (answerCmp (match applyWrite v r with | .done w => w | _ => v) r .aborted 0) = _ ∨ _
        cases applyWrite v r with
        | done w => exact .inr ⟨w, rfl, rfl⟩
        | _ => exact .inl rfl
      · exact .inl rfl
  · rw [exec_nocHistSelWrite, execNocHistSelWrite]
  · intro one u
    rw [exec_waySweepDone, execWaySweepDone, if_neg (by simpa using hs)]
    rfl
  · rw [exec_granuleZeroingDone, execGranuleZeroingDone, hg]
    rfl

/-! ### The HBM controllers -/

/-- No entry of the pseudo-channel waits for a place and one of its 32 places is free. -/
theorem pcFull_eq_false_iff (s : State) (h pc : Nat) : pcFull s h pc = false ↔
    (pcEntries s h pc).length < 32 ∧ s.mem.hbmHeld.any (fun x => x.stack == h && x.pc == pc) = false := by
  rw [pcFull]
  simp

theorem takeEntry_free {s : State} {e : HbmEntry} (h : pcFull s e.stack e.pc = false) :
    takeEntry s e = { s with mem := { s.mem with entries := s.mem.entries ++ [e] } } := if_neg (Bool.eq_false_iff.mp h)

theorem takeEntry_full {s : State} {e : HbmEntry} (h : ¬ pcFull s e.stack e.pc = false) :
    takeEntry s e = { s with mem := { s.mem with hbmHeld := s.mem.hbmHeld ++ [e] } } := if_pos (Bool.not_eq_false _ ▸ h)

theorem hbmRequest_write {s : State} {line h : Nat} {port : Fin 4} {p : HbmPlace} (hb : isHbm (lineHa line) = true)
    (hp : hbmPlace s (lineHa line) = some (h, p)) (hin : (stackOf s h).inService = true) (hsr : (stackOf s h).selfRefresh = false)
    (hw : writesSent s line = false) : exec (.hbmRequest ⟨line, port⟩ true) s = .next (takeEntry s
      { stack := h, pc := p.pc, bank := p.bank, row := p.row, line := line, isWrite := true, port := port, arrived := s.stage.hubTime }) := by
  rw [exec_hbmRequest, execHbmRequest]
  dsimp only
  rw [if_neg (by simp [hb]), hp]
  dsimp only
  rw [if_neg (by simp [hin, hsr]), if_pos rfl, if_neg (Bool.eq_false_iff.mp hw)]

theorem hbmRequest_read {s : State} {line h : Nat} {port : Fin 4} {p : HbmPlace} (hb : isHbm (lineHa line) = true)
    (hp : hbmPlace s (lineHa line) = some (h, p)) (hin : (stackOf s h).inService = true) (hsr : (stackOf s h).selfRefresh = false)
    {t : Txn} (ht : txnFind s line = some t) (hm : t.missing = true) (hs : t.hbmSent = false) :
    exec (.hbmRequest ⟨line, port⟩ false) s = .next (takeEntry (txnPut s { t with hbmSent := true })
      { stack := h, pc := p.pc, bank := p.bank, row := p.row, line := line, isWrite := false, port := port, arrived := s.stage.hubTime }) := by
  rw [exec_hbmRequest, execHbmRequest]
  dsimp only
  rw [if_neg (by simp [hb]), hp]
  dsimp only
  rw [if_neg (by simp [hin, hsr]), if_neg Bool.false_ne_true, ht]
  exact if_pos (by simp [hm, hs])

/-- Settles O30: an entry is taken, issued and freed as its pseudo-channel's batch and its requests have it. -/
theorem hbmController : Obligations.HbmController := by
  refine ⟨fun s line h port p hb hp hin hsr => ?_, fun s h pc e hw he => ?_, fun s h pc => ?_, fun s line a b n e t he ht => ?_,
    fun s line e b he hb => ?_, fun s h pc b hin hsr => ?_⟩
  · intro e room
    have hroom : room ↔ pcFull s h p.pc = false := (pcFull_eq_false_iff s h p.pc).symm
    refine ⟨fun t ht hm hs => ?_, fun hlt => ?_⟩
    · intro u
      rw [hbmRequest_read hb hp hin hsr ht hm hs]
      exact ⟨fun hr => congrArg _ (takeEntry_free (hroom.mp hr)), fun hr => congrArg _ (takeEntry_full (mt hroom.mpr hr))⟩
    · have hws : writesSent s line = false := decide_eq_false (not_le.mpr hlt)
      rw [hbmRequest_write hb hp hin hsr hws]
      exact ⟨fun hr => congrArg _ (takeEntry_free (hroom.mp hr)), fun hr => congrArg _ (takeEntry_full (mt hroom.mpr hr))⟩
  · intro v
    rw [exec_hbmReadIssue, execHbmReadIssue, if_neg (not_not.mpr hw), he]
    exact ⟨fun hd => if_pos hd, fun hd => if_neg (Bool.eq_false_iff.mp hd)⟩
  · intro writes reads n go
    rw [exec_hbmModeSwitch, execHbmModeSwitch]
    refine ⟨fun h0 hw => ?_, fun h0 hw => ?_⟩
    · exact (if_pos h0).trans (if_pos (hw.imp_right (fun ⟨hr, hn⟩ => ⟨by rw [List.isEmpty_iff]; exact hr, hn⟩)))
    · exact (if_neg h0).trans (if_pos hw)
  · intro x y st col sector
    rw [exec_hbmReadData, execHbmReadData, he, ht]
    exact ⟨rfl, fun _ => rfl⟩
  · intro n h0 h13 hbank v
    rw [exec_writebackBufferFree, execWritebackBufferFree, he, hb]
    exact if_neg (by rw [hbank]; simp only [Bool.false_eq_true, or_false, not_or, not_le]; exact ⟨h0, h13⟩)
  · rw [exec_hbmRefresh, execHbmRefresh]
    exact if_neg (by simp [hin, hsr])

/-! ### Patrol scrub and repair -/

theorem patrolScrubRead_runs {s : State} {h : Fin 8} {o : SectorRead} (hin : (stackOf s h).inService = true) (hsr : (stackOf s h).selfRefresh = false)
    (hctl : regBits s ⟨.hbcScrubCtrl, h, 0⟩ 31 31 = 1) (hcap : rowsOf (stackOf s h).cap ≠ 0) {r : HbmRow} {col k : Nat}
    (hpl : scrubPlace (stackOf s h).cap (stackOf s h).scrubPos = (r, col, k))
    (hrep : ∀ q, (stackOf s h).repairing = some q → ¬ (q.pc = r.pc ∧ q.bank = r.bank)) :
    exec (.patrolScrubRead h o) s = .next (execPatrolScrubRead.scrubEnd s h r col k o) := by
  rw [exec_patrolScrubRead, execPatrolScrubRead]
  dsimp only
  rw [if_neg (by simp [hin, hsr, hctl, hcap]), hpl]
  dsimp only
  split
  · next q hq => exact if_neg (hrep q hq)
  · rfl

/-- Settles O31, by the outcome of the sector and by what the bank of the row has left. -/
theorem hbmRepair : Obligations.HbmRepair := by
  refine ⟨fun s h o hin hsr hctl hcap r col k hpl hrep => ?_, fun s h r rest hdue hin hsr hrep hctl => ?_, fun s h r hrep => ?_⟩
  · rw [patrolScrubRead_runs hin hsr hctl hcap hpl hrep, execPatrolScrubRead.scrubEnd]
    dsimp only
    generalize (placeHa s h r col).map (fun a => a + 64 * k) = ha
    cases ha with
    | none =>
      dsimp only
      exact ⟨fun hg => by rw [hg], fun hg => by rw [hg], fun hg => ⟨fun _ => by rw [hg]; rfl, fun a ha => nomatch ha⟩⟩
    | some a =>
      dsimp only
      refine ⟨fun hg => by rw [hg], fun hg => by rw [hg], fun hg => ⟨fun ha => (nomatch ha), fun b hb => ?_⟩⟩
      cases hb
      rw [hg]
      rfl
  · intro x
    have hgo : ¬ (!(stackOf s h).inService || (stackOf s h).selfRefresh || (stackOf s h).repairing.isSome ||
        regBits s ⟨.hbcRepairCtrl, h, 0⟩ 8 8 == 0) = true := by simp [hin, hsr, hrep, hctl]
    refine ⟨?_, fun hl => ?_, fun hl => ?_⟩
    · rw [exec_rowRepair, execRowRepair]
      dsimp only
      rw [hdue]
      exact if_neg hgo
    · rw [exec_rowRepair, execRowRepair]
      dsimp only
      rw [hdue]
      exact (if_neg hgo).trans (if_pos hl)
    · rw [exec_rowRepair, execRowRepair]
      dsimp only
      rw [hdue]
      exact (if_neg hgo).trans (if_neg (not_lt.mpr hl))
  · intro u
    rw [exec_rowRepairDone, execRowRepairDone]
    dsimp only
    rw [hrep]

end Sys2Proof.Machine.Claims
end

section
/-!
PROOFS. The tier engines and the Serai's maintenance: tier commands, the ends of tier operations, maintenance commands and failing rows (R285 to R307, R331 to R337, R665).
-/
namespace Sys2Proof.Machine.Claims

/-! ### Tier commands -/

section
variable {s g u : State} {q cmds n : Nat} {x : Step} {c : Context} (op : Nat) (run : Context → Step → TierCmd → State → Res)
  (hx : tierStepOf s q = some x) (hb : x.body = .tier cmds n) (hc : context s x.ctx = some c)
include hx hb hc

/-- A command that does not lie in the step's windows stops the step, whatever it is. -/
theorem tierCommand_outside (hw : inWindows s x.part x.ctx (cmds + 32 * x.progress) 32 = false) : tierCommand op q s run =
    .next (stopTierStep (if mapped s (cmds + 32 * x.progress) then s else logUnmapped s (initTier 0) (cmds + 32 * x.progress)) x .translationFault) := by
  rw [tierCommand, hx]
  dsimp only
  rw [hb, hc]
  exact if_pos (by simp [hw])

variable (hw : inWindows s x.part x.ctx (cmds + 32 * x.progress) 32 = true) (hg : gate s (.tier 0) (listKey x.id) (initTier 0) 0 32 = (g, true))
include hw hg

theorem tierCommand_unread {st : Status} (hr : readNow g (cmds + 32 * x.progress) 32 0 = .bad u st) :
    tierCommand op q s run = .next (stopTierStep u x st) := by
  rw [tierCommand, hx]
  dsimp only
  rw [hb, hc]
  dsimp only
  rw [if_neg (by simp [hw]), hg]
  dsimp only
  rw [hr]

variable {b : List Byte} (hr : readNow g (cmds + 32 * x.progress) 32 0 = .done u b)
include hr

theorem tierCommand_malformed (hm : (tierCmdOf b).malformed u c = true) : tierCommand op q s run = .next (stopTierStep u x .aborted) := by
  rw [tierCommand, hx]
  dsimp only
  rw [hb, hc]
  dsimp only
  rw [if_neg (by simp [hw]), hg]
  dsimp only
  rw [hr]
  exact if_pos hm

theorem tierCommand_runs (hm : (tierCmdOf b).malformed u c = false) (hop : (tierCmdOf b).op = op) :
    tierCommand op q s run = run c x (tierCmdOf b) (modStep u x.id (fun x => { x with progress := x.progress + 1 })) := by
  rw [tierCommand, hx]
  dsimp only
  rw [hb, hc]
  dsimp only
  rw [if_neg (by simp [hw]), hg]
  dsimp only
  rw [hr]
  exact (if_neg (Bool.eq_false_iff.mp hm)).trans (if_pos hop)

end

/-- What holds of every tier command's run holds of the eight instructions. -/
theorem tier_instructions {P : Res → Prop} {q : Nat} {s : State} (h : ∀ op run, P (tierCommand op q s run)) :
    ∀ i ∈ [Instr.prefetch q, .writeback q, .tierEvict q, .tierDiscard q, .moveC q, .initC q, .advise q, .donate q], P (exec i s) := by
  simp only [List.forall_mem_cons, exec_prefetch, exec_writeback, exec_tierEvict, exec_tierDiscard, exec_moveC, exec_initC, exec_advise, exec_donate]
  exact ⟨h .., h .., h .., h .., h .., h .., h .., h .., fun _ hi => nomatch hi⟩

/-- Settles O32: the commands share their reading, and each queues its own operation. -/
theorem tierCommands : Obligations.TierCommands := by
  intro s q cmds n x c hx hb hc a all
  refine ⟨fun hw => tier_instructions (P := (· = _)) (fun op run => tierCommand_outside op run hx hb hc hw), fun hw g hg => ⟨fun u st hr => ?_, fun u b hr => ?_⟩⟩
  · exact tier_instructions (P := (· = _)) (fun op run => tierCommand_unread op run hx hb hc hw hg hr)
  · intro k v queued
    refine ⟨fun hm => tier_instructions (P := (· = _)) (fun op run => tierCommand_malformed op run hx hb hc hw hg hr hm), fun hm => ?_⟩
    have runs : ∀ {op : Nat} (run : Context → Step → TierCmd → State → Res), k.op = op → tierCommand op q s run = run c x k v :=
      fun run hop => tierCommand_runs _ run hx hb hc hw hg hr hm hop
    refine ⟨fun h => ?_, fun h => ?_, fun h => ?_, fun h => ?_, fun h => ?_, fun h => ?_, fun h => ?_, fun h hops => ?_⟩
    · rw [exec_prefetch, execPrefetch, runs _ h]
      rfl
    · rw [exec_writeback, execWriteback, runs _ h]
      rfl
    · rw [exec_tierEvict, execTierEvict, runs _ h]
      rfl
    · rw [exec_tierDiscard, execTierDiscard, runs _ h]
      rfl
    · rw [exec_moveC, execMoveC, runs _ h]
      rfl
    · rw [exec_initC, execInitC, runs _ h]
      rfl
    · rw [exec_advise, execAdvise, runs _ h]
      rfl
    · rw [exec_donate, execDonate, runs _ h]
      exact if_neg (Bool.eq_false_iff.mp hops)

/-! ### The ends of tier operations -/

section
variable {s : State} {fn bale : Nat} {o : TierOp} {x : Context} (ho : runningOp s fn bale = some o) (hx : context s o.ctx = some x)
include ho hx

theorem baleFillDone_runs {h : Nat} {p : Fetched} (hk : o.kind = .fill h) (hp : parkResult s o = some p) :
    exec (.baleFillDone fn bale) s = .next (settle (finishFill s x o h p)) := by
  rw [exec_baleFillDone, execBaleFillDone, ho]
  dsimp only
  rw [hk, hx]
  dsimp only
  rw [hp]
  rfl

variable (nib byt : List Nat)

theorem baleWritebackDone_writeback (hk : o.kind = .writeback) :
    exec (.baleWritebackDone fn bale nib byt) s = .next (settle (finishWriteback s x o nib byt false false)) := by
  rw [exec_baleWritebackDone, execBaleWritebackDone, ho]
  dsimp only
  rw [hk, hx]
  rfl

theorem baleWritebackDone_leaves (hk : o.kind = .evict ∨ o.kind = .replace) (hb : baleBusy s fn bale = false) :
    exec (.baleWritebackDone fn bale nib byt) s =
      .next (settle (finishWriteback (recallBale s fn bale true) x o nib byt true (o.kind = .replace))) := by
  rw [exec_baleWritebackDone, execBaleWritebackDone, ho]
  dsimp only
  rcases hk with hk | hk
  · rw [hk, hx]
    exact if_neg (Bool.eq_false_iff.mp hb)
  · rw [hk, hx]
    exact if_neg (Bool.eq_false_iff.mp hb)

theorem baleMoveDone_runs {slot tier : Nat} {p : Fetched} (hk : o.kind = .move slot tier) (hp : parkResult s o = some p) :
    exec (.baleMoveDone fn bale nib byt) s = .next (settle (finishMove s x o slot tier p nib byt)) := by
  rw [exec_baleMoveDone, execBaleMoveDone, ho]
  dsimp only
  rw [hk, hx]
  dsimp only
  rw [hp]
  rfl

end

theorem finishFill_good {s : State} {x : Context} {o : TierOp} {h : Nat} {p : Fetched} {r : Rec} (hr : readRec s x o.bale = .good r) :
    (r.poison = true → finishFill s x o h p = fillFails s o (poisonStatus r)) ∧
    (r.poison = false → r.tier = 1 → r.units = 0 → finishFill s x o h p = fillExpand s s x o h r []) ∧
    (r.poison = false → r.tier = 1 → r.units ≠ 0 → ∀ u b, slotBytes s x r.slot r.units = (u, some b) →
      finishFill s x o h p = fillExpand s u x o h r b) ∧
    (r.poison = false → r.tier = 2 → (x.parkRevoked = true ∨ (r.units ≠ 0 ∧ parkOpen s x = false)) →
      finishFill s x o h p = fillFails (tierError s o.fn 2 o.bale) o .tierError) := by
  unfold finishFill
  rw [hr]
  dsimp only
  refine ⟨fun hp => if_pos hp, fun hp ht hu => ?_, fun hp ht hu u b hb => ?_, fun hp ht hc => ?_⟩
  · rw [if_neg (Bool.eq_false_iff.mp hp), if_neg (by simp [ht]), if_pos hu]
  · rw [if_neg (Bool.eq_false_iff.mp hp), if_neg (by simp [ht]), if_neg hu, if_pos ht, hb]
  · rw [if_neg (Bool.eq_false_iff.mp hp), if_pos ⟨ht, hc.imp_right (fun ⟨hu, hc⟩ => ⟨hu, by simp [hc]⟩)⟩]

/-- Settles O33, by the operation's kind, then by the bale's record. -/
theorem tierEnds : Obligations.TierEnds := by
  refine ⟨fun s fn bale nib byt o x ho hx => ⟨fun h p hk hp => baleFillDone_runs ho hx hk hp, baleWritebackDone_writeback ho hx nib byt,
      baleWritebackDone_leaves ho hx nib byt, fun slot tier p hk hp => baleMoveDone_runs ho hx nib byt hk hp⟩,
    fun s x o h p => ⟨fun hr => by unfold finishFill; rw [hr], fun r hr => by unfold finishFill; rw [hr], fun r hr => finishFill_good hr⟩,
    fun s u x o nib byt leave lose r hr hopen => ?_, fun s q x hx => ?_⟩
  · intro bs k hw v w
    unfold finishWriteback
    rw [hr]
    dsimp only
    rw [if_neg (fun h => by simp [hopen h.1] at h), hw]
  · rw [exec_tierStepCommit, execTierStepCommit]
    split
    · next h => exact nomatch h.symm.trans hx
    · next y h =>
      cases h.symm.trans hx
      rfl

/-! ### Maintenance of the Serai -/

theorem maintGo_busy {s : State} {fn op : Nat} {w : Bool} {m : Maint} (hm : smGet none s.mem.maint fn = some m) : maintGo s fn op w =
    maintResult (regSetBits (regSetBits s ⟨.sriMaintCmd, 0, fn⟩ 4 4 (b2n w)) ⟨.sriMaintCmd, 0, fn⟩ 2 0 op) fn 3 := by
  rw [maintGo]
  exact if_pos (Option.isSome_iff_exists.mpr ⟨m, hm⟩)

theorem maintGo_refused {s : State} {fn op : Nat} {w : Bool} {r : Nat} (hm : smGet none s.mem.maint fn = none)
    (hr : maintRefusal (regSetBits (regSetBits s ⟨.sriMaintCmd, 0, fn⟩ 4 4 (b2n w)) ⟨.sriMaintCmd, 0, fn⟩ 2 0 op) fn op w = some r) : maintGo s fn op w =
    maintResult (regSetBits (regSetBits s ⟨.sriMaintCmd, 0, fn⟩ 4 4 (b2n w)) ⟨.sriMaintCmd, 0, fn⟩ 2 0 op) fn r := by
  rw [maintGo]
  exact (if_neg (Option.not_isSome_iff_eq_none.mpr hm)).trans (by rw [hr])

/-- Settles O34: GO, the end of a command and a failing row. -/
theorem maintenance : Obligations.Maintenance := by
  refine ⟨fun s fn w => ?_, fun s fn m hm hw u done missed hrun => ?_, fun s t w hh hoff => ?_⟩
  · rw [exec_clean, exec_inv, exec_cleanInv, exec_preloadLock, exec_unlock]
    refine ⟨rfl, rfl, rfl, rfl, rfl, fun op _ => ?_⟩
    intro u
    refine ⟨fun m hm => maintGo_busy hm, fun hm r hr => maintGo_refused hm hr, fun hm hr hbales => ?_⟩
    intro v
    have hnone : (if op = 1 ∨ op = 2 ∨ op = 3 then maintBales v (maintScope u fn op w) else []) = [] := by
      split
      · next h => exact hbales h
      · rfl
    rw [maintGo]
    dsimp only
    refine (if_neg (Option.not_isSome_iff_eq_none.mpr hm)).trans ?_
    rw [hr]
    dsimp only
    rw [hnone]
    rfl
  · rw [exec_maintDone, execMaintDone, hm]
    dsimp only
    rw [if_neg (Bool.eq_false_iff.mp hw), hrun]
    rfl
  · have hgo : exec (.seraiRowFail t w) s = .next (settle (rowFails s t w).1) := by
      rw [exec_seraiRowFail, execSeraiRowFail, if_neg (by simp [hh, hoff])]
      rfl
    rw [hgo, rowFails]
    exact ⟨fun h => by rw [if_pos h], fun h => by rw [if_neg (not_lt.mpr h)]⟩

end Sys2Proof.Machine.Claims
end

section
/-!
PROOFS. Chiplets: coherent requests and snoop responses, dead chiplets and their domains, the modules of a site, and the messages over the seam (R381 to R408, R453 to R490).
-/
namespace Sys2Proof.Machine.Claims

/-! ### The intake of a chiplet's request -/

section
variable {s : State} {k : Nat} {h : Header} {n align : Nat}

theorem takeIn_malformed (hm : malformedHdr (received s k) k h n align = true) :
    takeIn s k h n align = .refused (refuseMalformed (received s k) k h n) := if_pos hm

variable (hm : malformedHdr (received s k) k h n align = false)
include hm

theorem takeIn_noDomain (hd : siteDomain (received s k) k = none) :
    takeIn s k h n align = .refused (refuseAddress (received s k) k h n) := by
  rw [takeIn]
  rw [if_neg (Bool.eq_false_iff.mp hm), hd]

variable {q : Nat} (hd : siteDomain (received s k) k = some q)
include hd

theorem takeIn_down (hup : (domain (received s k) q).st ≠ .up) :
    takeIn s k h n align = .refused (refuseRequest (received s k) k h n .domainDown) := by
  rw [takeIn]
  rw [if_neg (Bool.eq_false_iff.mp hm), hd]
  exact if_pos hup

variable (hup : (domain (received s k) q).st = .up)
include hup

theorem takeIn_unreached (ha : domainHolds (received s k) q (hAddr h) = false ∨ mapped (received s k) (hAddr h) = false) :
    takeIn s k h n align = .refused (refuseAddress (received s k) k h n) := by
  rw [takeIn]
  rw [if_neg (Bool.eq_false_iff.mp hm), hd]
  exact (if_neg (not_not.mpr hup)).trans (if_pos (by rcases ha with ha | ha <;> simp [ha]))

theorem takeIn_taken (hh : domainHolds (received s k) q (hAddr h) = true) (ha : mapped (received s k) (hAddr h) = true) :
    takeIn s k h n align = .taken (takeRequest (received s k) h n) q := by
  rw [takeIn]
  rw [if_neg (Bool.eq_false_iff.mp hm), hd]
  exact (if_neg (not_not.mpr hup)).trans (if_neg (by simp [hh, ha]))

end

section
variable {s v : State} {k : Fin 8} {m : Fin 4} {h : Header} {op : ReqOp} {code bytes q : Nat} {data : Line} {mask : BitVec 128}
  (hm : isMessage h 0 code = true) (hc : canReceive s k m = true) (hcr : creditsFor s (chipSite s k) (dataSlots op) = true)
include hm hc hcr

theorem chipRequest_refused (ht : takeIn s k h (dataSlots op) 128 = .refused v) : chipRequest k m h op code data mask bytes s = .next (settle v) := by
  rw [chipRequest, if_neg (by simp [hm]), if_neg (by simp [hc, hcr]), ht]
  rfl

theorem chipRequest_taken (ht : takeIn s k h (dataSlots op) 128 = .taken v q) : chipRequest k m h op code data mask bytes s =
    .next (settle (presentReq v
      { who := .chiplet (chipSite v k) (hTag h), op := op, line := hAddr h / 128, data := data, mask := mask,
        hint := hHint h, deadline := deadlineAt v (hDeadline h), init := hInit h, via := k } (hToll h) bytes)) := by
  rw [chipRequest, if_neg (by simp [hm]), if_neg (by simp [hc, hcr]), ht]
  rfl

end

/-- What one coherent message does, `i` being the message with its opcode, code, data, byte mask and the bytes that its toll counts. -/
def ChipletRequestSpec (s : State) (k : Fin 8) (m : Fin 4) (h : BitVec 128) : Instr × ReqOp × Nat × Line × BitVec 128 × Nat → Prop :=
  fun (i, op, code, d, b, bytes) =>
      let n := dataSlots op
      let u := received s k
      (isMessage h 0 code = false → exec i s = .refused .illFormed) ∧
      (isMessage h 0 code = true → canReceive s k m = true → creditsFor s (chipSite s k) n = true →
        (malformedHdr u k h n 128 = true → exec i s = .next (settle (refuseMalformed u k h n))) ∧
        (malformedHdr u k h n 128 = false →
          (siteDomain u k = none → exec i s = .next (settle (refuseAddress u k h n))) ∧
          (∀ q, siteDomain u k = some q →
            ((domain u q).st ≠ .up → exec i s = .next (settle (refuseRequest u k h n .domainDown))) ∧
            ((domain u q).st = .up →
              (domainHolds u q (hAddr h) = false ∨ mapped u (hAddr h) = false → exec i s = .next (settle (refuseAddress u k h n))) ∧
              (domainHolds u q (hAddr h) = true → mapped u (hAddr h) = true →
                let v := takeRequest u h n
                let r : Req := { who := .chiplet (chipSite v k) (hTag h), op := op, line := hAddr h / 128, data := d, mask := b,
                                 hint := hHint h, deadline := deadlineAt v (hDeadline h), init := hInit h, via := k }
                exec i s = .next (settle (presentReq v r (hToll h) bytes)))))))

theorem chipletRequestSpec {s : State} {k : Fin 8} {m : Fin 4} {h : BitVec 128} {i : Instr} {op : ReqOp} {code bytes : Nat} {d : Line}
    {b : BitVec 128} (hi : exec i s = chipRequest k m h op code d b bytes s) : ChipletRequestSpec s k m h (i, op, code, d, b, bytes) := by
  refine ⟨fun hm => ?_, fun hm hc hcr => ⟨fun hbad => ?_, fun hok => ⟨fun hd => ?_, fun q hd => ⟨fun hup => ?_, fun hup => ⟨fun ha => ?_, fun hh ha => ?_⟩⟩⟩⟩⟩
  · exact hi.trans (if_pos (by simp [hm]))
  · exact hi.trans (chipRequest_refused hm hc hcr (takeIn_malformed hbad))
  · exact hi.trans (chipRequest_refused hm hc hcr (takeIn_noDomain hok hd))
  · exact hi.trans (chipRequest_refused hm hc hcr (takeIn_down hok hd hup))
  · exact hi.trans (chipRequest_refused hm hc hcr (takeIn_unreached hok hd hup ha))
  · exact hi.trans (chipRequest_taken hm hc hcr (takeIn_taken hok hd hup hh ha))

/-- Settles O35: the eight messages share their intake. -/
theorem chipletRequests : Obligations.ChipletRequests := by
  intro s k m h data mask
  suffices hall : ∀ e ∈ _, ChipletRequestSpec s k m h e from hall
  simp only [List.forall_mem_cons]
  refine ⟨chipletRequestSpec ?_, chipletRequestSpec ?_, chipletRequestSpec ?_, chipletRequestSpec ?_, chipletRequestSpec ?_, chipletRequestSpec ?_,
    chipletRequestSpec ?_, chipletRequestSpec ?_, fun _ he => nomatch he⟩
  · rw [exec_rdCur, execRdCur]
  · rw [exec_rdShared, execRdShared]
  · rw [exec_rdOwn, execRdOwn]
  · rw [exec_upgrade, execUpgrade]
  · rw [exec_wbDirty, execWbDirty]
  · rw [exec_evict, execEvict]
  · rw [exec_wrFull, execWrFull]
  · rw [exec_wrPart, execWrPart]

/-! ### Snoop responses -/

section
variable {s : State} {k : Fin 8} {line : Nat} (hp : (site s k).present = true) (hr : (site s k).inReset = false)
include hp hr

theorem respond_unawaited (fits : Snoop → Bool) (go : State → Txn → Nat → Snoop → State) (hn : txnFind (received s k) line = none ∨
    ∃ t, txnFind (received s k) line = some t ∧ t.snoopTo (chipSite s k) = none) :
    respond k line fits go s = .next (settle (chipletDead (received s k) k 3)) := by
  rw [respond]
  dsimp only
  rw [if_neg (by simp [hp, hr])]
  rcases hn with hn | ⟨t, ht, ho⟩
  · rw [hn]
    rfl
  · rw [ht]
    dsimp only
    rw [ho]
    rfl

theorem fwdAck_violates {t : Txn} (ht : txnFind (received s k) line = some t) (hq : t.fwdAck ≠ some (chipSite s k)) :
    exec (.fwdAck k line) s = .next (settle (chipletDead (received s k) k 3)) := by
  rw [exec_fwdAck, execFwdAck]
  dsimp only
  rw [if_neg (by simp [hp, hr]), ht]
  exact if_pos hq

theorem fwdAck_runs {t : Txn} {r : Req} (ht : txnFind (received s k) line = some t) (hq : t.fwdAck = some (chipSite s k)) (hreq : t.req = some r) :
    let v := startHold (received s k) line (chipSite s k)
    exec (.fwdAck k line) s = .next (settle (txnGoOn (txnPut (if passed v r.deadline then bump v ⟨.tolLateDelivered, 0, initPart v r.init⟩ 1 else v)
      { t with fwdAck := none }) line)) := by
  intro v
  rw [exec_fwdAck, execFwdAck]
  dsimp only
  rw [if_neg (by simp [hp, hr]), ht]
  dsimp only
  rw [if_neg (not_not.mpr hq), hreq]
  rfl

variable {t : Txn} {o : OpenSnoop} (ht : txnFind (received s k) line = some t) (ho : t.snoopTo (chipSite s k) = some o)
include ht ho

theorem respond_fits {fits : Snoop → Bool} (go : State → Txn → Nat → Snoop → State) (hf : fits o.kind = true) :
    let t' : Txn := { t with snoops := listDelFirst (fun x => x == o) t.snoops }
    respond k line fits go s = .next (settle (go (txnPut (received s k) t') t' (chipSite s k) o.kind)) := by
  intro t'
  rw [respond]
  dsimp only
  rw [if_neg (by simp [hp, hr]), ht]
  dsimp only
  rw [ho]
  exact if_pos hf

theorem respond_unfit {fits : Snoop → Bool} (go : State → Txn → Nat → Snoop → State) (hf : fits o.kind = false) :
    respond k line fits go s = .next (settle (chipletDead (received s k) k 3)) := by
  rw [respond]
  dsimp only
  rw [if_neg (by simp [hp, hr]), ht]
  dsimp only
  rw [ho]
  exact if_neg (Bool.eq_false_iff.mp hf)

end

/-- Settles O36: every response goes through `respond`, which an open snoop that it fits admits. -/
theorem snoopResponses : Obligations.SnoopResponses := by
  intro s k line st data p hp hr q u bad
  refine ⟨fun t o ht ho => ?_, fun t r ht hq hreq => fwdAck_runs hp hr ht hq hreq, fun t ht hq => fwdAck_violates hp hr ht hq, fun hn => ?_, fun hn => ?_⟩
  · rw [exec_rspI, exec_rspIData, exec_rspS, exec_rspSData, exec_rspFwd, exec_rspFwdData, exec_rspFwdMiss]
    exact ⟨fun hf => ⟨respond_fits hp hr ht ho _ hf, respond_fits hp hr ht ho _ hf⟩,
      fun hf => ⟨respond_unfit hp hr ht ho _ hf, respond_unfit hp hr ht ho _ hf⟩,
      fun hf => ⟨respond_fits hp hr ht ho _ (beq_iff_eq.mpr hf), respond_fits hp hr ht ho _ (beq_iff_eq.mpr hf)⟩,
      fun hf => ⟨respond_unfit hp hr ht ho _ (beq_eq_false_iff_ne.mpr hf), respond_unfit hp hr ht ho _ (beq_eq_false_iff_ne.mpr hf)⟩,
      fun hf => ⟨respond_fits hp hr ht ho _ hf, respond_fits hp hr ht ho _ hf⟩,
      fun hf => ⟨respond_unfit hp hr ht ho _ hf, respond_unfit hp hr ht ho _ hf⟩,
      fun hf => respond_fits hp hr ht ho _ hf, fun hf => respond_unfit hp hr ht ho _ hf⟩
  · have unawaited : ∀ f go, respond k line f go s = bad := fun f go => respond_unawaited hp hr f go hn
    simp only [List.forall_mem_cons, exec_rspI, exec_rspIData, exec_rspS, exec_rspSData, exec_rspFwd, exec_rspFwdData, exec_rspFwdMiss]
    exact ⟨unawaited .., unawaited .., unawaited .., unawaited .., unawaited .., unawaited .., unawaited .., fun _ hi => nomatch hi⟩
  · rw [exec_fwdAck, execFwdAck]
    dsimp only
    rw [if_neg (by simp [hp, hr]), show txnFind (received s k) line = none from hn]
    rfl

/-! ### Dead chiplets and their domains -/

section
variable {s : State} {k : Fin 8} {line : Nat} {t : Txn} {o : OpenSnoop} (ht : txnFind s line = some t)
  (ho : t.snoops.find? (fun o => o.site == k.val && !o.issued) = some o)
include ht ho

theorem holdExpiry_noRequest (hr : t.req = none) : exec (.holdExpiry k line) s =
    .next (txnPut (mkSnoop (advance s o.time) line k o.kind none).1
      { t with snoops := listModFirst (fun x => x == o) (fun _ => (mkSnoop (advance s o.time) line k o.kind none).2) t.snoops }) := by
  rw [exec_holdExpiry, execHoldExpiry, ht]
  dsimp only
  rw [ho]
  dsimp only
  rw [hr]

variable {r : Req} (hr : t.req = some r)
include hr

theorem holdExpiry_late (hl : (r.isRead && !r.dropped && passed (advance s o.time) r.deadline) = true) :
    exec (.holdExpiry k line) s = .next (settle (dropOnHold (advance s o.time) t r)) := by
  rw [exec_holdExpiry, execHoldExpiry, ht]
  dsimp only
  rw [ho]
  dsimp only
  rw [hr]
  exact if_pos hl

theorem holdExpiry_issues (hl : (r.isRead && !r.dropped && passed (advance s o.time) r.deadline) = false) : exec (.holdExpiry k line) s =
    .next (txnPut (mkSnoop (advance s o.time) line k o.kind (some r)).1
      { t with snoops := listModFirst (fun x => x == o) (fun _ => (mkSnoop (advance s o.time) line k o.kind (some r)).2) t.snoops }) := by
  rw [exec_holdExpiry, execHoldExpiry, ht]
  dsimp only
  rw [ho]
  dsimp only
  rw [hr]
  exact if_neg (Bool.eq_false_iff.mp hl)

end

/-- Settles O37, by the event. -/
theorem domainsGoDown : Obligations.DomainsGoDown := by
  refine ⟨fun s k line t o ht ho => ⟨fun hr => holdExpiry_noRequest ht ho hr, fun r hr => ⟨fun hrd hdr hp => ?_, fun hl => ?_⟩⟩,
    fun s k line t o ht ho hc => ?_, fun s k t hg => ?_, fun s k m c hc hm => ?_, fun s d => ⟨?_, fun hst c k => if_pos hst⟩, fun s k => ?_,
    fun s d hst hsw => ?_, fun s d hu hrec => ?_, fun s d hst hup => ?_⟩
  · exact holdExpiry_late ht ho hr (by simp [hrd, hdr, hp])
  · exact holdExpiry_issues ht ho hr (by rcases hl with hl | hl | hl <;> simp [hl])
  · rw [exec_snoopTimeout, execSnoopTimeout, ht]
    dsimp only
    rw [ho]
    exact if_pos hc
  · rw [exec_linkGraceExpiry, execLinkGraceExpiry, hg]
    rfl
  · rw [exec_fatal, execFatal, if_neg (by simp [hc, hm])]
    rfl
  · rw [exec_domainDownCommand]
    rfl
  · rw [exec_siteReset]
    rfl
  · rw [exec_domainSweepDone]
    exact if_pos ⟨hst, by simp [hsw]⟩
  · rw [exec_domainReset, execDomainReset]
    split
    · next h => exact absurd h hu
    · next h => exact absurd h hrec
    · rfl
  · rw [exec_domainResetCompare, execDomainResetCompare]
    refine (if_neg (by simp [hst, hup])).trans ?_
    exact (apply_ite Host.Outcome.next _ _ _).symm

/-! ### Modules of a site -/

section
variable {s : State} {k : Fin 8} {m : Fin 4} {w : Fin 3} {rate : Fin 4} (rep : Fin 8) (half : Fin 2)
  (hen : regBits s ⟨.ucsCtrl, k, 0⟩ 0 0 ≠ 0) (hw : (moduleOf s k m).width = 0) (hrate : rate.val ≤ maxRate s k m)
include hen hw hrate

theorem moduleTrainingDone_failed (hf : w = 0 ∨ (w = 2 ∧ regBits (modSite s k (fun t => { t with inReset := false })) ⟨.ucsCtrl, k, 0⟩ 1 1 = 0)) :
    exec (.moduleTrainingDone k m w rate rep half) s =
      .next (settle (identifyAll (moduleOut (modSite s k (fun t => { t with inReset := false })) k m) k)) := by
  rw [exec_moduleTrainingDone]
  unfold execModuleTrainingDone
  dsimp only
  rw [if_neg (by simp [hen, hw, hrate])]
  exact if_pos (hf.imp (congrArg Fin.val) (And.imp_left (congrArg Fin.val)))

theorem moduleTrainingDone_trained
    (ht : w = 1 ∨ (w = 2 ∧ regBits (modSite s k (fun t => { t with inReset := false })) ⟨.ucsCtrl, k, 0⟩ 1 1 ≠ 0)) :
    let u := modSite s k (fun t => { t with inReset := false })
    let v := putModule u k m { width := w, rate := rate, repaired := rep, half := half, asked := !(site u k).present }
    let v := if rep.val ≠ 0 then siteStatus v k 0 else v
    let v := if w.val = 2 then siteStatus v k 1 else v
    exec (.moduleTrainingDone k m w rate rep half) s = if (site v k).present then .next (settle (graceCheck v k))
      else .next (settle (sendEhp (if (!siteTrained s k && !(site s k).present) = true then grantCredits v k else v) k 3 2 0 0 0 0 (m.val + 16 * k.val) [])) := by
  intro u
  rw [exec_moduleTrainingDone]
  unfold execModuleTrainingDone
  dsimp only
  rw [if_neg (by simp [hen, hw, hrate])]
  refine if_neg ?_
  rcases ht with rfl | ⟨rfl, hx⟩
  · simp
  · exact fun h => h.elim (by decide) (fun h => hx h.2)

end

theorem moduleRetrain_runs {s : State} {k : Fin 8} {m : Fin 4} (n lanes : Nat) (half : Fin 2) (ht : (moduleOf s k m).trained = true)
    (hr : (site s k).inReset = false) :
    let x := moduleOf s k m
    let u := bump (bump s ⟨.ucsRetry, k, 0⟩ n) ⟨.ucsRetrain, k, 0⟩ 1
    exec (.moduleRetrain k m n lanes half) s =
      if lanes ≠ 0 then .next (siteStatus (putModule u k m { x with repaired := min 7 (x.repaired + lanes), rate := min x.rate (maxRate u k m) }) k 0)
      else if x.width = 1 ∧ regBits u ⟨.ucsCtrl, k, 0⟩ 1 1 = 1 then .next (siteStatus (putModule u k m { x with width := 2, half := half }) k 1)
      else .next (settle (moduleOut u k m)) := by
  intro x u
  rw [exec_moduleRetrain]
  exact if_neg (by simp [ht, hr])

/-- Settles O38, by the event of the module. -/
theorem siteModules : Obligations.SiteModules := by
  intro s k m x
  refine ⟨fun w rate rep half hen hw hrate => ?_, fun bytes hlen ht hr hmsg hdata => ?_, fun ha => ?_, fun n lanes half ht hr => ?_,
    fun part ht => ?_, fun a b ht hr => ?_, fun ht => ?_⟩
  · intro u
    refine ⟨fun hf => moduleTrainingDone_failed rep half hen hw hrate hf, fun ht => ?_⟩
    intro v v' v''
    have hrun := moduleTrainingDone_trained rep half hen hw hrate ht
    refine ⟨fun hp => hrun.trans (if_pos hp), fun hp => hrun.trans ((if_neg (Bool.eq_false_iff.mp hp)).trans ?_)⟩
    simp only [Bool.and_eq_true, Bool.not_eq_true']
    rfl
  · intro u
    rw [exec_descriptor]
    unfold execDescriptor
    dsimp only
    rw [if_neg (not_not.mpr hlen), if_neg (by simp [show (moduleOf s k m).trained = true from ht, hr, hmsg, hdata])]
    exact ⟨fun h => if_pos h, fun h => if_neg (Bool.eq_false_iff.mp h)⟩
  · rw [exec_identifyTimeout]
    exact if_neg (by simp [show (moduleOf s k m).asked = true from ha])
  · intro u
    have hrun := moduleRetrain_runs n lanes half ht hr
    refine ⟨fun hl => hrun.trans (if_pos hl), fun hl hw hc => hrun.trans ((if_neg (not_not.mpr hl)).trans (if_pos ⟨hw, hc⟩)),
      fun hl hn => hrun.trans ((if_neg (not_not.mpr hl)).trans (if_neg (fun ⟨hw, hc⟩ => hn.elim (· hw) (· hc))))⟩
  · intro u
    rw [exec_moduleLinkDown]
    refine (if_neg (by simp [show (moduleOf s k m).trained = true from ht])).trans ?_
    cases part with
    | none => rfl
    | some h =>
      have hreq : ((hClass h == 0 && decide (hOp h < 0x20)) || hClass h == 1 || (hClass h == 2 && decide (hOp h ≤ 2)) || isMessage h 3 6) = true ↔
          (hClass h = 0 ∧ hOp h < 0x20) ∨ hClass h = 1 ∨ (hClass h = 2 ∧ hOp h ≤ 2) ∨ (hClass h = 3 ∧ hOp h = 6) := by
        simp [isMessage, or_assoc]
      dsimp only
      simp only [hreq]
      rfl
  · rw [exec_credit]
    exact if_neg (by simp [show (moduleOf s k m).trained = true from ht, hr])
  · rw [exec_ucieLowPowerRequest]
    exact if_pos ht

/-! ### Bales over the seam -/

section
variable {s : State} {k : Fin 8} {m : Fin 4} {h : BitVec 128} (hc : canReceive s k m = true) (hcr : creditsFor s (chipSite s k) 0 = true)
include hc hcr

theorem baleRd_refused (hm : isMessage h 2 1 = true) {u : State} (ht : takeIn s k h 0 65536 = .refused u) :
    exec (.baleRd k m h) s = .next (settle u) := by
  rw [exec_baleRd]
  unfold execBaleRd
  rw [if_neg (by simp [hm]), if_neg (by simp [hc, hcr]), ht]
  rfl

theorem baleRd_waits (hm : isMessage h 2 1 = true) {u g : State} {n : Nat} (ht : takeIn s k h 0 65536 = .taken u n)
    (hg : gateCls s (.chiplet (chipSite s k) (hTag h)) (hAddr h / 128) (hInit h) (initPart s (hInit h)) (hToll h) 65536 = (g, false)) :
    exec (.baleRd k m h) s = .next g := by
  rw [exec_baleRd]
  unfold execBaleRd
  rw [if_neg (by simp [hm]), if_neg (by simp [hc, hcr]), ht]
  dsimp only
  rw [hg]

/-- What a bale read that has sent its lines does next. -/
def baleRdEnd (s : State) (k : Fin 8) (h : BitVec 128) : Now (Option Status) → State
  | .done v none => freeTag v (hInit h) (hTag h)
  | .done v (some st) => sendReply v k 2 0x61 (hTag h) (hInit h) st.code 0 0 []
  | .bad v _ => v
  | .wait v => waitFor s v

theorem baleRd_sends (hm : isMessage h 2 1 = true) {u g : State} {n : Nat} (ht : takeIn s k h 0 65536 = .taken u n)
    (hg : gateCls s (.chiplet (chipSite s k) (hTag h)) (hAddr h / 128) (hInit h) (initPart s (hInit h)) (hToll h) 65536 = (g, true)) :
    exec (.baleRd k m h) s =
      .next (settle (baleRdEnd s k h (sendBale k h (hAddr h / 128) (span 0 512) { u with stage := g.stage } none))) := by
  rw [exec_baleRd]
  unfold execBaleRd
  rw [if_neg (by simp [hm]), if_neg (by simp [hc, hcr]), ht]
  dsimp only
  rw [hg]
  dsimp only
  cases sendBale k h (hAddr h / 128) (span 0 512) { u with stage := g.stage } none with
  | done v st => cases st <;> rfl
  | bad => rfl
  | wait => rfl

theorem baleWr_refused (hm : isMessage h 2 2 = true) {u : State} (ht : takeIn s k h 0 65536 = .refused u) :
    exec (.baleWr k m h) s = .next (settle u) := by
  rw [exec_baleWr, execBaleWr, if_neg (by simp [hm]), if_neg (by simp [hc, hcr]), ht]
  rfl

theorem baleWr_taken (hm : isMessage h 2 2 = true) {u : State} {n : Nat} (ht : takeIn s k h 0 65536 = .taken u n) : exec (.baleWr k m h) s =
    .next (modSite u (hInit h / 64) (fun x => { x with bales := x.bales ++
      [{ tag := hTag h, init := hInit h, ha := hAddr h, got := [], endAt := u.stage.hubTime + 1000 * baleTo u k, hint := hHint h, cls := hToll h }] })) := by
  rw [exec_baleWr, execBaleWr, if_neg (by simp [hm]), if_neg (by simp [hc, hcr]), ht]

end

/-! ### Tally messages -/

/-- The answer of a tally message that is well formed and has taken its credits. -/
def ehpTallyAnswer (k : Fin 8) (h : BitVec 128) (v : State) : Res :=
  let reply (v : State) (st : Status) (x : Nat) : Res := .next (settle (sendReply v k 3 0x61 (hTag h) (hInit h) st.code 0 x []))
  match siteDomain v k with
  | none => reply v .aborted 0
  | some d =>
    if (domain v d).st ≠ .up then reply v .domainDown 0
    else match slotPart v (hBits h 56 41) with
      | none => reply v .aborted 0
      | some p =>
        if bitOf (domain v d).parts p && isTally v p (hBits h 56 41) then
          reply (if hBits h 17 16 = 1 then tallyAdd v (hBits h 56 41) (hBits h 111 80) else v) .complete (tallyValue v (hBits h 56 41))
        else reply v .aborted 0

/-- The header of a tally message is malformed (R471, R478). -/
def EhpTallyWrong (u : State) (k : Fin 8) (h : BitVec 128) : Prop :=
  2 ≤ hBits h 17 16 ∨ hSlots h ≠ 0 ∨ hBits h 19 18 ≠ 0 ∨ hBits h 79 57 ≠ 0 ∨ hBits h 127 112 ≠ 0 ∨ tagOpen u (hInit h) (hTag h) = true ∨
    initFits u k h = false

section
variable {s : State} {k : Fin 8} {m : Fin 4} {h : BitVec 128} (hc : canReceive s k m = true) (hcr : creditsFor s (chipSite s k) 0 = true)
  (hm : isMessage h 3 6 = true)
include hc hcr hm

theorem ehpTally_malformed (hw : EhpTallyWrong (received s k) k h) :
    exec (.ehpTally k m h) s = .next (settle (refuseMalformed (received s k) k h 0)) := by
  rw [exec_ehpTally]
  unfold execEhpTally
  dsimp only
  rw [if_neg (by simp [hm]), if_neg (by simp [hc, hcr])]
  exact if_pos (by simpa [EhpTallyWrong] using hw)

theorem ehpTally_answers (hw : ¬ EhpTallyWrong (received s k) k h) :
    exec (.ehpTally k m h) s = ehpTallyAnswer k h (takeRequest (received s k) h 0) := by
  rw [exec_ehpTally]
  unfold execEhpTally
  dsimp only
  rw [if_neg (by simp [hm]), if_neg (by simp [hc, hcr])]
  exact if_neg (by simpa [EhpTallyWrong] using hw)

end

/-! ### Lines of a bale write -/

section
variable {s : State} {k : Fin 8} {m : Fin 4} {tag : Fin 4096} {init : Fin 512} (line : Fin 512) (data : BitVec 1024) (p : Bool)
  (hc : canReceive s k m = true) (hcr : 8 ≤ (site s (init.val / 64)).dataCr)
include hc hcr

theorem baleData_stray (hb : (site s (init.val / 64)).bales.find? (fun b => b.tag == tag.val && b.init == init.val) = none) :
    exec (.baleData k m tag init line data p) s = .next (discardBaleData (bump (ucsLastErr (received (modSite s (init.val / 64) (fun x => { x with dataCr := x.dataCr - 8 })) k) k 3 m 2 3 tag)
      ⟨.ucsDiscard, k, 0⟩ 1) (init.val / 64)) := by
  rw [exec_baleData]
  unfold execBaleData
  dsimp only
  rw [if_neg (by simp [hc, hcr]), hb]

variable {b : BaleWrite} (hb : (site s (init.val / 64)).bales.find? (fun b => b.tag == tag.val && b.init == init.val) = some b)
include hb

theorem baleData_again (hg : b.got.contains line.val = true) : exec (.baleData k m tag init line data p) s =
    .next (discardBaleData (protoErr (received (modSite s (init.val / 64) (fun x => { x with dataCr := x.dataCr - 8 })) k) k 2 3 tag) (init.val / 64)) := by
  rw [exec_baleData]
  unfold execBaleData
  dsimp only
  rw [if_neg (by simp [hc, hcr]), hb]
  exact if_pos hg

variable (hg : b.got.contains line.val = false)
include hg

theorem baleData_waits {g : State} (hgate : gateCls s (.chiplet (chipSite s k) tag) (b.ha / 128 + line.val) init (initPart s init) b.cls 128 = (g, false)) :
    exec (.baleData k m tag init line data p) s = .next g := by
  rw [exec_baleData]
  unfold execBaleData
  dsimp only
  rw [if_neg (by simp [hc, hcr]), hb]
  dsimp only
  rw [if_neg (Bool.eq_false_iff.mp hg), hgate]

variable {g : State} (hgate : gateCls s (.chiplet (chipSite s k) tag) (b.ha / 128 + line.val) init (initPart s init) b.cls 128 = (g, true))
include hgate

/-- What comes of a line that its toll admits. -/
theorem baleData_written {v : State}
    (hw : lineWriteNow { received (modSite s (init.val / 64) (fun x => { x with dataCr := x.dataCr - 8 })) k with stage := g.stage } (b.ha / 128 + line.val) b.hint data (BitVec.allOnes 128) = .done v ()) :
    let x := if p then poisonLine v (b.ha / 128 + line.val) else v
    exec (.baleData k m tag init line data p) s = .next (settle (if (setAdd b.got line.val).length = 512 then
        sendReply (modSite (discardBaleData x (init.val / 64)) (init.val / 64) (fun x => { x with bales := listDelFirst (fun y => y == b) x.bales }))
          k 2 0x61 tag init 0 0 0 []
      else modSite (discardBaleData x (init.val / 64)) (init.val / 64)
        (fun x => { x with bales := listModFirst (fun y => y == b) (fun _ => { b with got := setAdd b.got line.val }) x.bales }))) := by
  intro x
  rw [exec_baleData]
  unfold execBaleData
  dsimp only
  rw [if_neg (by simp [hc, hcr]), hb]
  dsimp only
  rw [if_neg (Bool.eq_false_iff.mp hg), hgate]
  dsimp only
  dsimp only at hw
  rw [hw]
  rfl

theorem baleData_fails {v : State} {st : Status}
    (hw : lineWriteNow { received (modSite s (init.val / 64) (fun x => { x with dataCr := x.dataCr - 8 })) k with stage := g.stage } (b.ha / 128 + line.val) b.hint data (BitVec.allOnes 128) = .bad v st) :
    exec (.baleData k m tag init line data p) s = .next (settle (sendReply (discardBaleData (modSite v (init.val / 64) (fun x =>
      { x with bales := listDelFirst (fun y => y == b) x.bales })) (init.val / 64)) k 2 0x61 tag init st.code 0 0 [])) := by
  rw [exec_baleData]
  unfold execBaleData
  dsimp only
  rw [if_neg (by simp [hc, hcr]), hb]
  dsimp only
  rw [if_neg (Bool.eq_false_iff.mp hg), hgate]
  dsimp only
  dsimp only at hw
  rw [hw]
  rfl

theorem baleData_held {v : State}
    (hw : lineWriteNow { received (modSite s (init.val / 64) (fun x => { x with dataCr := x.dataCr - 8 })) k with stage := g.stage } (b.ha / 128 + line.val) b.hint data (BitVec.allOnes 128) = .wait v) :
    exec (.baleData k m tag init line data p) s = .next (settle (waitFor s v)) := by
  rw [exec_baleData]
  unfold execBaleData
  dsimp only
  rw [if_neg (by simp [hc, hcr]), hb]
  dsimp only
  rw [if_neg (Bool.eq_false_iff.mp hg), hgate]
  dsimp only
  dsimp only at hw
  rw [hw]
  rfl

end

/-! ### IO reads and writes -/

section
variable {s : State} {k : Fin 8} {m : Fin 4} {h : BitVec 128} {op z : Nat} (go : State → Nat → Nat → Res) (hc : canReceive s k m = true)
  (hm : isMessage h 1 op = true) (hcr : creditsFor s (chipSite s k) z = true)
include hc hm hcr

theorem ioRequest_malformed (hb : malformedHdr (received s k) k h z (ioBytes (hSize h)) = true) :
    ioRequest k m h op z go s = .next (settle (refuseMalformed (received s k) k h z)) := by
  unfold ioRequest
  dsimp only
  rw [if_neg (by simp [hm]), if_neg (by simp [hc, hcr])]
  exact if_pos hb

variable (hb : malformedHdr (received s k) k h z (ioBytes (hSize h)) = false)
include hb

theorem ioRequest_fault (hp : ioPlace (received s k) (chipSite s k) (hAddr h) (ioBytes (hSize h)) = .fault) :
    ioRequest k m h op z go s = .next (settle (refuseAddress (received s k) k h z)) := by
  unfold ioRequest
  dsimp only
  rw [if_neg (by simp [hm]), if_neg (by simp [hc, hcr]), if_neg (Bool.eq_false_iff.mp hb)]
  exact if_pos hp

variable (hp : ioPlace (received s k) (chipSite s k) (hAddr h) (ioBytes (hSize h)) ≠ .fault) {g : State}
include hp

theorem ioRequest_waits (hg : gateCls s (.chiplet (chipSite s k) (hTag h)) (hAddr h / 128) (hInit h) (initPart s (hInit h)) (hToll h) (ioBytes (hSize h)) =
    (g, false)) : ioRequest k m h op z go s = .next g := by
  unfold ioRequest
  dsimp only
  rw [if_neg (by simp [hm]), if_neg (by simp [hc, hcr]), if_neg (Bool.eq_false_iff.mp hb), if_neg hp, hg]

theorem ioRequest_runs (hg : gateCls s (.chiplet (chipSite s k) (hTag h)) (hAddr h / 128) (hInit h) (initPart s (hInit h)) (hToll h) (ioBytes (hSize h)) =
    (g, true)) : ioRequest k m h op z go s = go (takeRequest { received s k with stage := g.stage } h z) (chipSite s k) (ioBytes (hSize h)) := by
  unfold ioRequest
  dsimp only
  rw [if_neg (by simp [hm]), if_neg (by simp [hc, hcr]), if_neg (Bool.eq_false_iff.mp hb), if_neg hp, hg]

end

/-- Settles O39: bales, tallies and the blocks of a processor chiplet, each by what its message is. -/
theorem seamTransfers : Obligations.SeamTransfers := by
  refine ⟨fun s k m h hc hcr => ⟨fun hm => ⟨fun u ht => baleRd_refused hc hcr hm ht, fun u n g done ht hg => ?_⟩,
      fun hm => ⟨fun u ht => baleWr_refused hc hcr hm ht, fun u n ht => baleWr_taken hc hcr hm ht⟩, fun hm => ?_⟩,
    fun s k m tag init line data p hc => ?_, fun s k tag b hb => ?_, fun s k m h b wr hc => ?_⟩
  · cases done with
    | false => exact baleRd_waits hc hcr hm ht hg
    | true =>
      rw [baleRd_sends hc hcr hm ht hg, if_neg (by decide)]
      cases sendBale k h (hAddr h / 128) (span 0 512) { u with stage := g.stage } none with
      | done v st => cases st <;> rfl
      | bad => rfl
      | wait => rfl
  · intro u op slot wrong
    refine ⟨fun hw => ehpTally_malformed hc hcr hm hw, fun hw => ?_⟩
    intro v reply
    rw [ehpTally_answers hc hcr hm hw]
    unfold ehpTallyAnswer
    dsimp only
    refine ⟨fun hd => by rw [hd], fun d hd => ⟨fun hup => ?_, fun hup => ⟨fun hs => ?_, fun p hs => ⟨fun hb ht => ?_, fun hn => ?_⟩⟩⟩⟩
    · rw [hd]
      exact if_pos hup
    · rw [hd]
      refine (if_neg (not_not.mpr hup)).trans ?_
      rw [hs]
    · rw [hd]
      refine (if_neg (not_not.mpr hup)).trans ?_
      rw [hs]
      exact if_pos (Bool.and_eq_true_iff.mpr ⟨hb, ht⟩)
    · rw [hd]
      refine (if_neg (not_not.mpr hup)).trans ?_
      rw [hs]
      exact if_neg (Bool.eq_false_iff.mp (Bool.and_eq_false_iff.mpr hn))
  · intro n hcr u
    refine ⟨fun hb => baleData_stray line data p hc hcr hb, fun b hb => ⟨fun hg => baleData_again line data p hc hcr hb hg, fun hg => ?_⟩⟩
    intro l ends wrote
    refine ⟨fun g hgate => baleData_waits line data p hc hcr hb hg hgate, fun g hgate => ⟨fun v hw => ?_,
      fun v st hw => baleData_fails line data p hc hcr hb hg hgate hw, fun v hw => baleData_held line data p hc hcr hb hg hgate hw⟩⟩
    rw [baleData_written line data p hc hcr hb hg hgate hw]
    exact ⟨fun hn => by rw [if_neg hn], fun hy => by rw [if_pos hy]⟩
  · intro u
    rw [exec_baleTimeout, execBaleTimeout, hb]
  · intro n z dz u q i hm hlen hcr
    cases wr with
    | false =>
      refine ⟨fun hb => (exec_ioRd k m h s).trans (ioRequest_malformed _ hc hm hcr hb), fun hb =>
        ⟨fun hp => (exec_ioRd k m h s).trans (ioRequest_fault _ hc hm hcr hb hp), fun hp =>
          ⟨fun g hg => (exec_ioRd k m h s).trans (ioRequest_waits _ hc hm hcr hb hp hg), fun g hg => ?_⟩⟩⟩
      intro v w data done
      have hrun := (exec_ioRd k m h s).trans (ioRequest_runs _ hc hm hcr hb hp hg)
      refine ⟨fun _ o ho => hrun.trans ?_, fun _ fn o ho => hrun.trans ?_, fun _ o ho => hrun.trans ?_, fun hw => (nomatch hw), fun hw => (nomatch hw),
        fun hw => (nomatch hw)⟩
      · rw [show ioPlace _ _ _ _ = _ from ho]
        rfl
      · rw [show ioPlace _ _ _ _ = _ from ho]
        rfl
      · rw [show ioPlace _ _ _ _ = _ from ho]
        rfl
    | true =>
      have hwr : exec (.ioWr k m h b) s = _ := (exec_ioWr k m h b s).trans (if_neg (not_not.mpr (hlen rfl)))
      refine ⟨fun hb => hwr.trans (ioRequest_malformed _ hc hm hcr hb), fun hb =>
        ⟨fun hp => hwr.trans (ioRequest_fault _ hc hm hcr hb hp), fun hp =>
          ⟨fun g hg => hwr.trans (ioRequest_waits _ hc hm hcr hb hp hg), fun g hg => ?_⟩⟩⟩
      intro v w data done
      have hrun : exec (.ioWr k m h b) s = match ioPlace w q (hAddr h) n with
        | .waybill _ => done w
        | .copy fn off => done (bar0Write w fn true off (b.take n))
        | .block o => done (writeAperture w 0 o (b.take n))
        | .fault => .next (settle (sendReply w k 1 0x61 (hTag h) (hInit h) Status.translationFault.code 0 0 [])) :=
        hwr.trans (ioRequest_runs _ hc hm hcr hb hp hg)
      refine ⟨fun hw => (nomatch hw), fun hw => (nomatch hw), fun hw => (nomatch hw), fun _ o ho => ?_, fun _ fn o ho => ?_, fun _ o ho => ?_⟩
      · exact hrun.trans (by rw [ho])
      · exact hrun.trans (by rw [ho])
      · exact hrun.trans (by rw [ho])

/-! ### Translation over the seam -/

/-- Settles O40, by the message and by what waits for it. -/
theorem seamTranslation : Obligations.SeamTranslation := by
  refine ⟨fun s k m tag st es hne hlen hall hc => ?_, fun s k tag r hr => ?_, fun s k m tag all pasid va log2 hp hlo hhi hc hm => ?_,
    fun s u k tag fns hfns hne hu => ?_⟩
  · intro u
    have hok : ¬ (es.isEmpty || decide (8 < es.length) || es.any (fun e => e.length != 16)) = true := by
      simpa [hne, hlen] using hall
    rw [exec_trCpl]
    unfold execTrCpl
    dsimp only
    rw [if_neg hok, if_neg (by simp [hc])]
    exact ⟨fun hn => by rw [show List.find? _ _ = _ from hn], fun r hr => by rw [show List.find? _ _ = _ from hr]; rfl⟩
  · intro u
    rw [exec_trReqTimeout, execTrReqTimeout, hr]
    rfl
  · intro u q
    rw [exec_invReq]
    unfold execInvReq
    dsimp only
    rw [if_neg (by omega), if_neg (by simp [hc, hm])]
    exact (apply_ite Host.Outcome.next _ _ _).symm
  · rw [exec_invCpl]
    unfold execInvCpl
    dsimp only
    rw [← hfns, if_neg (by simpa using hne), hu]

end Sys2Proof.Machine.Claims
end

section
/-!
PROOFS. The host ports: windows and blocks, registers and configuration space, links and functions, translation (R429 to R437, R497 to R541).
-/
namespace Sys2Proof.Machine.Claims

/-! ### What a function's host reads and writes -/

section
variable {s : State} {fn : Fin 13} (hup : fnUp s fn = true)
include hup

section
variable {bar off : Nat} {b : List Byte} (ro : Bool) (hwin : windowReq bar off b.length = true) (hlen : b.length ≤ 512)
  (hbuf : postedBytes s (fnPort s fn) + b.length ≤ 2 ^ 21)
include hwin hlen hbuf

theorem hostWrite_runs : exec (.hostWrite fn bar off b ro) s =
    if !fnOpen s fn || decide (9 ≤ fn.val) then .next s
    else if !(hostFn s fn).ready then .next (bump s ⟨.hpfWrDrop, fn, 0⟩ 1)
    else if ro then
      if Config.freeNat (draw s).1 % 2 = 1 then
        .next (modFn (draw s).2 fn (fun h => { h with posted := h.posted ++ [{ op := .window bar off b, ro := ro }] }))
      else .next (settle (post (draw s).2 fn { op := .window bar off b, ro := ro }))
    else .next (settle (post s fn { op := .window bar off b, ro := ro })) := by
  have hform : ¬ (13 ≤ fn.val ∨ !windowReq bar off b.length ∨ 512 < b.length) := by simp [hwin, hlen, fn.isLt]
  have hroom : ¬ (!fnUp s fn || decide (2 ^ 21 < postedBytes s (fnPort s fn) + b.length)) = true := by
    simp only [hup, Bool.not_true, Bool.false_or, decide_eq_true_eq]
    omega
  rw [exec_hostWrite]
  exact (if_neg hform).trans (if_neg hroom)

end

section
variable {bar off len : Nat} (hwin : windowReq bar off len = true)
include hwin

theorem hostRead_closed (hc : fnOpen s fn = false ∨ 9 ≤ fn.val) : exec (.hostRead fn bar off len) s = .next (emit s (.hostUnsupported fn)) := by
  rw [exec_hostRead]
  refine (if_neg (by simp [hwin, fn.isLt])).trans ((if_neg (by simp [hup])).trans (if_pos ?_))
  rcases hc with hc | hc <;> simp [hc]

variable (ho : fnOpen s fn = true) (h9 : fn.val < 9)
include ho h9

theorem hostRead_notReady (hr : (hostFn s fn).ready = false) :
    exec (.hostRead fn bar off len) s = .next (emit s (.hostData fn (List.replicate len 0xFF))) := by
  rw [exec_hostRead]
  exact (if_neg (by simp [hwin, fn.isLt])).trans ((if_neg (by simp [hup])).trans ((if_neg (by simp [ho, h9])).trans (if_pos (by simp [hr]))))

variable (hr : (hostFn s fn).ready = true)
include hr

theorem hostRead_behind (hp : (hostFn (runPosted s fn) fn).posted.any (fun p => !p.ro) = true) :
    exec (.hostRead fn bar off len) s = .next (settle (runPosted s fn)) := by
  rw [exec_hostRead]
  refine (if_neg (by simp [hwin, fn.isLt])).trans ((if_neg (by simp [hup])).trans ((if_neg (by simp [ho, h9])).trans ((if_neg (by simp [hr])).trans ?_)))
  exact if_pos hp

variable (hp : (hostFn (runPosted s fn) fn).posted.any (fun p => !p.ro) = false)
include hp

theorem hostRead_noHa (hb : barHa (runPosted s fn) fn bar off = none) : exec (.hostRead fn bar off len) s =
    .next (emit (logUnmapped (runPosted s fn) (initHost (fnPort (runPosted s fn) fn) fn) off) (.hostUnsupported fn)) := by
  rw [exec_hostRead]
  refine (if_neg (by simp [hwin, fn.isLt])).trans ((if_neg (by simp [hup])).trans ((if_neg (by simp [ho, h9])).trans ((if_neg (by simp [hr])).trans ?_)))
  refine (if_neg (Bool.eq_false_iff.mp hp)).trans ?_
  rw [hb]

variable {ha : Nat} (hb : barHa (runPosted s fn) fn bar off = some ha)
include hb

theorem hostRead_unmapped (hm : mapped (runPosted s fn) ha = false) : exec (.hostRead fn bar off len) s =
    .next (emit (logUnmapped (runPosted s fn) (initHost (fnPort (runPosted s fn) fn) fn) ha) (.hostUnsupported fn)) := by
  rw [exec_hostRead]
  refine (if_neg (by simp [hwin, fn.isLt])).trans ((if_neg (by simp [hup])).trans ((if_neg (by simp [ho, h9])).trans ((if_neg (by simp [hr])).trans ?_)))
  refine (if_neg (Bool.eq_false_iff.mp hp)).trans ?_
  rw [hb]
  exact if_pos (by simp [hm])

variable (hm : mapped (runPosted s fn) ha = true)
include hm

theorem hostRead_gated {v : State} {go : Bool}
    (hg : gate (runPosted s fn) (.host fn) (2 ^ 50 + 2 * off + bar / 4) (initHost (fnPort (runPosted s fn) fn) fn) fn len = (v, go)) :
    exec (.hostRead fn bar off len) s = if go = false then .next (settle v)
      else match readNow v ha len 0 with
        | .done w d => .next (settle (emit w (.hostData fn d)))
        | .bad w _ => .next (settle (emit (logEvent (bump w ⟨.hpfRdPoisoned, fn, 0⟩ 1) 0x0AE0 fn 1 ha) (.hostPoisoned fn)))
        | .wait w => .next (settle (waitFor (runPosted s fn) w)) := by
  rw [exec_hostRead]
  refine (if_neg (by simp [hwin, fn.isLt])).trans ((if_neg (by simp [hup])).trans ((if_neg (by simp [ho, h9])).trans ((if_neg (by simp [hr])).trans ?_)))
  refine (if_neg (Bool.eq_false_iff.mp hp)).trans ?_
  rw [hb]
  refine (if_neg (by simp [hm])).trans ?_
  rw [hg]
  cases go with
  | false => rfl
  | true =>
    rw [if_neg (by decide)]
    dsimp only
    cases readNow v ha len 0 <;> rfl

end

theorem postOwn_closed {p : PostedOp} (h : fnOpen s fn = false ∨ (hostFn s fn).ready = false) : postOwn s fn p = .next s :=
  (if_neg (not_le.mpr fn.isLt)).trans ((if_neg (by simp [hup])).trans (if_pos (by rcases h with h | h <;> simp [h])))

theorem postOwn_open {p : PostedOp} (ho : fnOpen s fn = true) (hr : (hostFn s fn).ready = true) :
    postOwn s fn p = .next (settle (post s fn { op := p, ro := false })) :=
  (if_neg (not_le.mpr fn.isLt)).trans ((if_neg (by simp [hup])).trans (if_neg (by simp [ho, hr])))

theorem fenceRead_closed (ho : fnOpen s fn = false) : exec (.fenceRead fn) s = .next (emit s (.hostUnsupported fn)) := by
  rw [exec_fenceRead]
  exact (if_neg (not_le.mpr fn.isLt)).trans ((if_neg (by simp [hup])).trans (if_pos (by simp [ho])))

theorem fenceRead_open (ho : fnOpen s fn = true) :
    let u := runPosted s fn
    exec (.fenceRead fn) s = .next (settle (if (hostFn u fn).posted.isEmpty then emit u (.regData (regRaw u ⟨.hpfFence, fn, 0⟩)) else u)) := by
  intro u
  rw [exec_fenceRead]
  refine (if_neg (not_le.mpr fn.isLt)).trans ((if_neg (by simp [hup])).trans ((if_neg (by simp [ho])).trans ?_))
  exact (apply_ite (fun v => Host.Outcome.next (settle v)) _ _ _).symm

end

/-- Settles O41: a function that is not open or not ready, then what is posted, then what a read finds. -/
theorem hostAccesses : Obligations.HostAccesses := by
  intro s fn
  refine ⟨fun hup => ⟨fun bar off b ro hwin hlen hbuf => ?_, fun bar off len hwin => ⟨fun hc => hostRead_closed hup hwin hc,
      fun ho h9 hr => hostRead_notReady hup hwin ho h9 hr, fun ho h9 hr => ⟨fun hp => hostRead_behind hup hwin ho h9 hr hp,
        fun hp => ⟨fun hb => hostRead_noHa hup hwin ho h9 hr hp hb, fun ha hb => ⟨fun hm => hostRead_unmapped hup hwin ho h9 hr hp hb hm,
          fun hm v go hg => ?_⟩⟩⟩⟩,
      fun n m v hn hm hv => ?_, fun ho => fenceRead_closed hup ho, fun ho => fenceRead_open hup ho⟩, fun hp => ?_⟩
  · have hrun := hostWrite_runs hup ro hwin hlen hbuf
    refine ⟨fun hc => ?_, fun ho h9 hr => ?_, fun ho h9 hr => ⟨fun hro => ?_, fun hro => ?_⟩⟩
    · exact hrun.trans (if_pos (by rcases hc with hc | hc <;> simp [hc]))
    · exact hrun.trans ((if_neg (by simp [ho, h9])).trans (if_pos (by simp [hr])))
    · exact hrun.trans ((if_neg (by simp [ho, h9])).trans ((if_neg (by simp [hr])).trans (if_neg (Bool.eq_false_iff.mp hro))))
    · refine hrun.trans ((if_neg (by simp [ho, h9])).trans ((if_neg (by simp [hr])).trans ((if_pos hro).trans ?_)))
      exact (apply_ite Host.Outcome.next _ _ _).symm
  · have hrun := hostRead_gated hup hwin ho h9 hr hp hb hm hg
    refine ⟨fun hgo => ?_, fun hgo => ⟨fun w d hd => ?_, fun w st hd => ?_, fun w hd => ?_⟩⟩ <;> subst hgo
    · exact hrun
    · exact hrun.trans ((if_neg (by decide)).trans (by rw [hd]))
    · exact hrun.trans ((if_neg (by decide)).trans (by rw [hd]))
    · exact hrun.trans ((if_neg (by decide)).trans (by rw [hd]))
  · simp only [List.forall_mem_cons, exec_fenceWrite, exec_doorbellTailWrite, exec_evtHeadWrite, exec_tallyWindowAdd]
    rw [execFenceWrite, if_neg (not_le.mpr hv), execDoorbellTailWrite, if_neg (by omega), execEvtHeadWrite, if_neg (by omega),
      execTallyWindowAdd, if_neg (by omega)]
    exact ⟨⟨postOwn_closed hup, postOwn_open hup⟩, ⟨postOwn_closed hup, postOwn_open hup⟩, ⟨postOwn_closed hup, postOwn_open hup⟩,
      ⟨postOwn_closed hup, postOwn_open hup⟩, fun _ he => nomatch he⟩
  · rw [exec_pull]
    exact (if_neg (not_le.mpr fn.isLt)).trans (if_neg (by simpa using hp))

/-! ### Registers and configuration space through the host -/

/-- What a host's write in its ranges does. -/
def hostChangeDone (s : State) (fn : Fin 13) : HostChange → Res
  | .bar0 off b => if !fnOpen s fn then ok s else okT (bar0Write s fn false off b)
  | .command mse serr => ok (modFn s fn (fun h => { h with mse := mse, serr := serr }))
  | .barBase bar base =>
    match bar with
    | 0 => ok (modFn s fn (fun h => { h with bar0 := base % 2 ^ 64 }))
    | 2 => ok (modFn s fn (fun h => { h with bar2 := base % 2 ^ 64 }))
    | _ => ok (modFn s fn (fun h => { h with bar4 := base % 2 ^ 64 }))
  | .barSize bar log2 => ok (modFn s fn (fun h => if bar = 2 then { h with bar2Log2 := log2 } else { h with bar4Log2 := log2 }))
  | .msixControl enable mask => ok (sendPending (modFn s fn (fun h => { h with msixEnable := enable, msixMask := mask })) fn)
  | .atsOn => okT (pumpHost (modFn s fn (fun h => { h with atsEnable := true })))
  | .pasidOn => okT (pumpHost (modFn s fn (fun h => { h with pasidEnable := true })))

section
variable {s : State} {fn : Fin 13} (hup : fnUp s fn = true)
include hup

theorem rcRead_config {off len : Nat} (h0 : len ≠ 0) (hle : off + len ≤ 4096) :
    exec (.rcRead fn (.config off len)) s = .next (emit s (.hostData fn ((span off len).map (configByteOf s fn)))) := by
  rw [exec_rcRead]
  exact (if_neg (by omega)).trans (if_neg (by simp [hup]))

theorem rcRead_bar0 {off len : Nat} (h0 : len ≠ 0) (h64 : len ≤ 64) (hle : off + len ≤ 0x1000000) (hpage : off % 4096 + len ≤ 4096) :
    exec (.rcRead fn (.bar0 off len)) s = if fnOpen s fn = false then .next (emit s (.hostUnsupported fn))
      else .next (settle (emit (bar0Read s fn false off len).2 (.hostData fn (bar0Read s fn false off len).1))) := by
  rw [exec_rcRead]
  refine (if_neg (by omega)).trans ((if_neg (by simp [hup])).trans ?_)
  cases fnOpen s fn <;> rfl

theorem registerWrite_runs {c : HostChange} (hc : hostChangeOk c = true) : exec (.registerWrite fn c) s = hostChangeDone s fn c := by
  rw [exec_registerWrite]
  refine (if_neg (by simp [hc])).trans ((if_neg (by simp [hup])).trans ?_)
  cases c <;> rfl

theorem registerWrite_bar0 {off : Nat} {b : List (BitVec 8)} (h0 : b.length ≠ 0) (h64 : b.length ≤ 64) (hle : off + b.length ≤ 0x1000000)
    (hpage : off % 4096 + b.length ≤ 4096) : exec (.registerWrite fn (.bar0 off b)) s =
      if fnOpen s fn = false then .next s else .next (settle (bar0Write s fn false off b)) := by
  have hok : hostChangeOk (.bar0 off b) = true := decide_eq_true ⟨h0, h64, hle, hpage⟩
  refine (registerWrite_runs hup hok).trans ?_
  unfold hostChangeDone
  cases fnOpen s fn <;> rfl

end

section
variable {s : State} {fn : Fin 13} {k n : Nat} {d : List (BitVec 8)} (hk : k + n ≤ 0x300000) (h0 : n ≠ 0) (h64 : n ≤ 64)
include hk h0 h64

theorem apertureRead_runs : exec (.apertureAccess fn k n none) s = if fnOpen s fn = false then .next (emit s (.hostUnsupported fn))
    else if 9 ≤ fn.val ∨ (hostFn s fn).ready = false then .next (emit s (.hostData fn (zeroBytes n)))
    else .next (emit (readAperture s fn k n).2 (.hostData fn (readAperture s fn k n).1)) := by
  have hform : ¬ (13 ≤ fn.val ∨ 0x300000 < k + n ∨ n = 0 ∨ 64 < n) := by omega
  rw [exec_apertureAccess]
  refine (if_neg hform).trans ?_
  simp only [Bool.not_eq_true']

theorem apertureWrite_runs (hd : d.length = n) : exec (.apertureAccess fn k n (some d)) s = if fnOpen s fn = false then .next s
    else if 9 ≤ fn.val ∨ (hostFn s fn).ready = false then .next s
    else .next (settle (writeAperture s fn k d)) := by
  have hform : ¬ (13 ≤ fn.val ∨ 0x300000 < k + d.length ∨ d.length = 0 ∨ 64 < d.length) := by omega
  rw [exec_apertureAccess]
  refine (if_neg hform).trans ?_
  simp only [Bool.not_eq_true']
  rfl

end

/-- Settles O42: what a read brings and what a write changes, by the place that it names. -/
theorem hostRegisters : Obligations.HostRegisters := by
  intro s fn
  refine ⟨fun hl he hh off len h0 hle => ?_, fun hup => ⟨fun off len h0 hle => rcRead_config hup h0 hle, fun off len h0 h64 hle hpage => ?_,
    fun off b h0 h64 hle hpage => ?_, fun a b => ⟨registerWrite_runs hup rfl, registerWrite_runs hup rfl⟩,
    fun n => ⟨registerWrite_runs hup rfl, registerWrite_runs hup rfl, registerWrite_runs hup rfl, fun hlo hhi => ?_, fun hlo hhi => ?_⟩,
    registerWrite_runs hup rfl, registerWrite_runs hup rfl⟩, fun k n d hk h0 h64 hd => ⟨fun hc => ?_, fun ho hn => ?_, fun ho hr h9 => ?_⟩⟩
  · rw [exec_rcRead]
    exact (if_neg (by omega)).trans (if_neg (by simp [hl, he, hh]))
  · have hrun := rcRead_bar0 (s := s) hup h0 h64 hle hpage
    exact ⟨fun hc => hrun.trans (if_pos hc), fun ho => hrun.trans (if_neg (by simp [ho]))⟩
  · have hrun := registerWrite_bar0 (s := s) hup h0 h64 hle hpage
    exact ⟨fun hc => hrun.trans (if_pos hc), fun ho => hrun.trans (if_neg (by simp [ho]))⟩
  · have hok : hostChangeOk (.barSize 2 n) = true := decide_eq_true (.inl ⟨rfl, hlo, hhi⟩)
    exact registerWrite_runs hup hok
  · have hok : hostChangeOk (.barSize 4 n) = true := decide_eq_true (.inr ⟨rfl, hlo, hhi⟩)
    exact registerWrite_runs hup hok
  · exact ⟨(apertureRead_runs hk h0 h64).trans (if_pos hc), (apertureWrite_runs hk h0 h64 hd).trans (if_pos hc)⟩
  · exact ⟨(apertureWrite_runs hk h0 h64 hd).trans ((if_neg (by simp [ho])).trans (if_pos hn.symm)),
      (apertureRead_runs hk h0 h64).trans ((if_neg (by simp [ho])).trans (if_pos hn.symm))⟩
  · exact ⟨(apertureWrite_runs hk h0 h64 hd).trans ((if_neg (by simp [ho])).trans (if_neg (by simp [hr, h9]))),
      (apertureRead_runs hk h0 h64).trans ((if_neg (by simp [ho])).trans (if_neg (by simp [hr, h9])))⟩

/-! ### Links and functions of the host ports -/

/-- What an event of a function does whose host can send to it. -/
theorem function_event {s : State} {fn : Fin 13} {r : Res} (hup : fnUp s fn = true) :
    (if 13 ≤ fn.val then illFormed else if !fnUp s fn then notDue s else r) = r :=
  (if_neg (not_le.mpr fn.isLt)).trans (if_neg (by simp [hup]))

/-- What a change of a function's MSI-X masks does. -/
def msixUnmaskDone (s : State) (fn : Fin 13) : MsixChange → Res
  | .enable => ok (sendPending (modFn s fn (fun h => { h with msixEnable := true })) fn)
  | .function => ok (sendPending (modFn s fn (fun h => { h with msixMask := false })) fn)
  | .vector v => ok (sendPending (modFn s fn (fun h =>
      { h with msixTable := smSet {} h.msixTable v { smGet {} h.msixTable v with masked := false } })) fn)

theorem msixUnmask_runs {s : State} {fn : Fin 13} {c : MsixChange} (hup : fnUp s fn = true) (hc : ∀ v, c = .vector v → v < 2048) :
    exec (.msixUnmask fn c) s = msixUnmaskDone s fn c := by
  rw [exec_msixUnmask]
  cases c with
  | vector v => exact (if_neg (by simpa using hc v rfl)).trans (if_neg (by simp [hup]))
  | enable => exact (if_neg (by simp)).trans (if_neg (by simp [hup]))
  | function => exact (if_neg (by simp)).trans (if_neg (by simp [hup]))

theorem adopt_runs (s : State) (fn : Fin 13) : exec (.adopt fn) s = if (hostFn s fn).detached = true ∨ (hostFn s fn).preserved = true then
    .next (settle (pumpHost (deliverBacklog (putFn s fn { hostFn s fn with detached := false, preserved := false }) fn))) else .next s := by
  rw [exec_adopt]
  refine (if_neg (not_le.mpr fn.isLt)).trans ?_
  simp only [Bool.or_eq_true]
  rfl

theorem attachDiscard_runs (s : State) (fn : Fin 13) : exec (.attachDiscard fn) s =
    if ((hostFn s fn).detached = true ∨ (hostFn s fn).preserved = true) ∧ fn.val < 9 ∧ (part s fn).phase ≠ .resetting then
      .next (settle (partitionReset s fn)) else .next s := by
  rw [exec_attachDiscard]
  refine (if_neg (not_le.mpr fn.isLt)).trans ?_
  simp only [Bool.and_eq_true, Bool.or_eq_true, decide_eq_true_eq, bne_iff_ne, and_assoc]
  rfl

/-- Settles O43, by the event of a port, a link or a function. -/
theorem hostFunctions : Obligations.HostFunctions := by
  refine ⟨fun s p => ⟨fun hp => ?_, fun hp => ?_, fun hr => ?_⟩, fun s l hl => ⟨fun ht => ?_, fun ht hp => ?_⟩, fun s fn hup => ?_,
    fun s fn hf => ⟨fun h9 => ?_, fun h9 hph => ?_⟩, fun s fn => ?_⟩
  · rw [exec_perstAssert]
    exact (if_neg (not_le.mpr p.isLt)).trans (if_neg (Bool.eq_false_iff.mp hp))
  · rw [exec_perstDeassert]
    exact (if_neg (not_le.mpr p.isLt)).trans (if_pos hp)
  · rw [exec_hostRefclkLoss]
    exact (if_neg (not_le.mpr p.isLt)).trans (if_neg (by simp [hr]))
  · rw [exec_hotReset]
    exact (if_neg (not_le.mpr l.isLt)).trans (if_neg (by simp [hl, ht]))
  · rw [exec_hostLinkUp]
    exact (if_neg (not_le.mpr l.isLt)).trans (if_neg (by simp [hl, ht, hp]))
  · rw [exec_bmeClear, exec_bmeSet, exec_d3hotEntry, exec_d0Entry]
    refine ⟨function_event hup, function_event hup, fun hd => ?_, fun hd => ?_, msixUnmask_runs hup nofun, msixUnmask_runs hup nofun,
      fun v hv => msixUnmask_runs hup (fun w hw => by cases hw; exact hv), fun hf h9 => ?_, fun hf h9 => ?_⟩
    · exact (if_neg (not_le.mpr fn.isLt)).trans (if_neg (by simp [hup, hd]))
    · exact (if_neg (not_le.mpr fn.isLt)).trans (if_neg (by simp [hup, hd]))
    · rw [exec_flr]
      exact (if_neg (not_le.mpr fn.isLt)).trans ((if_neg (by simp [hup, hf])).trans (if_pos h9))
    · intro u
      rw [exec_flr]
      exact (if_neg (not_le.mpr fn.isLt)).trans ((if_neg (by simp [hup, hf])).trans (if_neg (not_le.mpr h9)))
  · rw [exec_flrComplete]
    exact (if_neg (not_le.mpr fn.isLt)).trans ((if_neg (by simp [hf])).trans (if_pos h9))
  · rw [exec_flrComplete]
    exact (if_neg (not_le.mpr fn.isLt)).trans ((if_neg (by simp [hf])).trans ((if_neg (not_le.mpr h9)).trans (if_neg hph)))
  · intro held
    refine ⟨fun hn => ⟨(adopt_runs s fn).trans (if_neg hn), (attachDiscard_runs s fn).trans (if_neg (fun h => hn h.1))⟩,
      fun hy => (adopt_runs s fn).trans (if_pos hy), fun hy h9 hph => (attachDiscard_runs s fn).trans (if_pos ⟨hy, h9, hph⟩),
      fun hn => (attachDiscard_runs s fn).trans (if_neg (fun h => hn.elim (not_le.mpr h.2.1) h.2.2))⟩

/-! ### Address translation for the host -/

/-- Settles O44, by the request or its end. -/
theorem hostTranslation : Obligations.HostTranslation := by
  refine ⟨fun s fn => ⟨fun itag all pasid va log2 hp hlo hhi hup hinv => ?_, fun itag u hu => ?_, fun p hup => ?_, fun pasid va ans hp ha => ?_⟩,
    fun s fn => ⟨fun all pasid hp => ?_, fun u hu => ?_⟩⟩
  · rw [exec_atsInvalidationRequest]
    exact (if_neg (by omega)).trans (if_neg (by simp [hup, hinv]))
  · rw [exec_atsInvalidationCompletion]
    refine (if_neg (by omega)).trans ?_
    rw [hu]
  · intro u
    rw [exec_atsEnableClear]
    exact (if_neg (not_le.mpr fn.isLt)).trans (if_neg (by simp [hup]))
  · intro mine hm
    rw [exec_translationCompletion]
    refine (if_neg ?_).trans (if_pos hm)
    cases ans with
    | none => simpa using hp
    | some a => simpa [show pasid < 1048576 from hp] using ha a rfl
  · rw [exec_tcInv]
    refine ⟨fun hb => (if_neg (by omega)).trans (if_pos hb), fun hb => (if_neg (by omega)).trans (if_neg (Bool.eq_false_iff.mp hb))⟩
  · rw [exec_tcInvComplete]
    refine (if_neg (not_le.mpr fn.isLt)).trans ?_
    rw [hu]

end Sys2Proof.Machine.Claims
end

section
/-!
PROOFS. Queues and their steps, and what the host returns (R497, R522, R554 to R564).
-/
namespace Sys2Proof.Machine.Claims

/-! ### Reading steps -/

/-- `r` is what becomes of the step in hand of a queue `y`. -/
def StepInHand (r : Res) (u : State) (q : Nat) (y : Queue) (rec : Fetched) : Prop :=
  let a := y.manBase + 64 * y.nextStep
  (∀ v c, readQueue u q y a 64 rec = .halt v c → r = .next (settle (haltQueue v q c))) ∧
  (∀ v, readQueue u q y a 64 rec = .wait v → r = .next (settle v)) ∧
  (∀ v b, readQueue u q y a 64 rec = .got v b →
    let x := stepOf v q y a b
    (x.sealEn = false → r = .next (settle (joinStep v q y x))) ∧
    (x.sealEn = true → (isSeal v y.fn x.sealSlot = false → r = .next (settle (haltQueue v q 2))) ∧
      (isSeal v y.fn x.sealSlot = true → sealFull v x.sealSlot = false → r = .next (settle (joinStep v q y x)))))

theorem stepInHand_readStep (u : State) (q : Nat) (y : Queue) (rec : Fetched) : StepInHand (readStep u q y rec) u q y rec := by
  unfold StepInHand readStep
  dsimp only
  refine ⟨fun v c hr => by rw [hr]; rfl, fun v hr => by rw [hr]; rfl, fun v b hr => ?_⟩
  rw [hr]
  refine ⟨fun hs => ?_, fun hs => ⟨fun hn => ?_, fun hy hf => ?_⟩⟩
  · exact (if_neg (by simp [hs])).trans (if_neg (by simp [hs]))
  · exact if_pos (by simp [hs, hn])
  · exact (if_neg (by simp [hy])).trans (if_neg (by simp [hf]))

theorem queueStepRead_runs {s : State} {q : Nat} {y : Queue} (entry rec : Fetched) (hq : queueOf s q = some y) (hh : y.halted = false) (hc : y.closed = false)
    (hne : y.head ≠ y.tail) (ha : aheadOf s q < 16) (hr : roleNow s ≠ .fenced) (hf : s.flt.halted = false) :
    exec (.queueStepRead q entry rec) s = if y.manCount ≠ 0 then readStep s q y rec
      else match readQueue s q y (y.ringBase + 16 * (y.head % 2 ^ y.ringLog2)) 16 entry with
        | .bad => notDue s
        | .wait s => okT s
        | .halt s c => okT (haltQueue s q c)
        | .got s b =>
          if fieldOf b 0 8 % 64 ≠ 0 ∨ fieldOf b 8 2 = 0 ∨ fieldOf b 0xA 6 ≠ 0 then okT (haltQueue s q 1)
          else readStep (putQueue s q (some { y with manBase := fieldOf b 0 8, manCount := fieldOf b 8 2, nextStep := 0 })) q
            { y with manBase := fieldOf b 0 8, manCount := fieldOf b 8 2, nextStep := 0 } rec := by
  rw [exec_queueStepRead, execQueueStepRead, hq]
  exact if_neg (by simp [hh, hc, hne, ha, hr, hf])

/-! ### Dispatch -/

section
variable {s : State} {q : Nat} {y : Queue} {x : Step} (hq : queueOf s q = some y)
  (hx : s.work.steps.find? (fun x => x.queue == q && x.phase == .waiting) = some x) (hh : y.halted = false) (hp : prevDone s x = true)
include hq hx hh hp

theorem stepDispatch_malformed (hb : x.body = .malformed) : exec (.stepDispatch q) s = .next (settle (breakStep s x .aborted)) := by
  rw [exec_stepDispatch, execStepDispatch, hq, hx]
  exact (if_neg (by simp [hh, hp])).trans (if_pos hb)

variable (hb : x.body ≠ .malformed)
include hb

theorem stepDispatch_denied (hl : licensed s = false ∨ maskDenied s x = true) :
    exec (.stepDispatch q) s = .next (settle (breakStep s x .licenceDenied)) := by
  rw [exec_stepDispatch, execStepDispatch, hq, hx]
  exact (if_neg (by simp [hh, hp])).trans ((if_neg hb).trans (if_pos (by rcases hl with hl | hl <;> simp [hl])))

theorem stepDispatch_sends (hl : licensed s = true) (hm : maskDenied s x = false) (hd : domainUp s x.part = true) (ho : dispatchOpen s = true)
    (hw : x.waitEn = false ∨ tallyGe (tallyValue s x.wait) x.waitValue = true) : exec (.stepDispatch q) s = sendStep s x := by
  rw [exec_stepDispatch, execStepDispatch, hq, hx]
  exact (if_neg (by simp [hh, hp])).trans ((if_neg hb).trans ((if_neg (by simp [hl, hm])).trans ((if_neg (by simp [hd, ho])).trans
    (if_neg (by rcases hw with hw | hw <;> simp [hw])))))

end

/-! ### What the host returns -/

section
variable {u : State} {p : Fin 2} {tag : Nat}

theorem readEnds_parkError {fn bale off len : Nat} {st : Status} (ht : smGet none (hostPort u p).tags tag = some (.parkRead fn bale off len)) :
    readEnds u p tag (.error st) = .next (settle (pumpHost (modOp (dropTag u p tag) fn bale (fun o => { o with parkErr := true })))) := by
  rw [readEnds, ht]
  rfl

theorem readEnds_parkData {fn bale off : Nat} {b : List Byte} (ht : smGet none (hostPort u p).tags tag = some (.parkRead fn bale off b.length)) :
    readEnds u p tag (.data b) = .next (settle (pumpHost (modOp (dropTag u p tag) fn bale (fun o => { o with got := smInsert o.got off b })))) := by
  rw [readEnds, ht]
  exact if_neg (not_not.mpr rfl)

variable {fn id dst len : Nat} {d : Fetched} (ht : smGet none (hostPort u p).tags tag = some (.stepRead fn id dst len))
include ht

theorem readEnds_noStep (hx : stepFind (dropTag u p tag) id = none) : readEnds u p tag d = .next (settle (pumpHost (dropTag u p tag))) := by
  rw [readEnds, ht]
  dsimp only
  rw [hx]
  rfl

variable {x : Step} (hx : stepFind (dropTag u p tag) id = some x)
include hx

theorem readEnds_notBegun (hp : x.phase ≠ .begun) : readEnds u p tag d = .next (settle (pumpHost (dropTag u p tag))) := by
  rw [readEnds, ht]
  dsimp only
  rw [hx]
  dsimp only
  split
  · next h => exact absurd h hp
  · next h => exact absurd h hp
  · rfl

theorem readEnds_stepError {st : Status} (hp : x.phase = .begun) : readEnds u p tag (.error st) =
    .next (settle (pumpHost (copySettle (stepErr (countFault (dropTag u p tag) fn st) id st) id))) := by
  rw [readEnds, ht]
  dsimp only
  rw [hx]
  dsimp only
  rw [hp]
  rfl

theorem readEnds_stepData {b : List Byte} (hl : b.length = len) (hp : x.phase = .begun) : readEnds u p tag (.data b) =
    match copyIn (dropTag u p tag) x dst b with
    | (v, true) => okT (pumpHost (copySettle (copyMoved v x.ctx len) id))
    | (w, false) => okT (waitFor u w) := by
  rw [readEnds, ht]
  dsimp only
  rw [hx]
  dsimp only
  rw [hp]
  exact if_neg (not_not.mpr hl)

end

/-- The end of a host read with an error, as every command brings it that comes to `readEnds`. -/
theorem readEnds_failed {s u : State} {i : Instr} {p : Fin 2} {tag : Nat} {st : Status} (hi : exec i s = readEnds u p tag (.error st)) :
    (∀ fn bale off len, smGet none (hostPort u p).tags tag = some (.parkRead fn bale off len) →
      exec i s = .next (settle (pumpHost (modOp (dropTag u p tag) fn bale (fun o => { o with parkErr := true }))))) ∧
    (∀ fn id dst len, smGet none (hostPort u p).tags tag = some (.stepRead fn id dst len) →
      let v := dropTag u p tag
      (stepFind v id = none → exec i s = .next (settle (pumpHost v))) ∧
      (∀ x, stepFind v id = some x → (x.phase ≠ .begun → exec i s = .next (settle (pumpHost v))) ∧
        (x.phase = .begun → exec i s = .next (settle (pumpHost (copySettle (stepErr (countFault v fn st) id st) id)))))) :=
  ⟨fun _ _ _ _ ht => hi.trans (readEnds_parkError ht), fun _ _ _ _ ht => ⟨fun hx => hi.trans (readEnds_noStep ht hx),
    fun _ hx => ⟨fun hp => hi.trans (readEnds_notBegun ht hx hp), fun hp => hi.trans (readEnds_stepError ht hx hp)⟩⟩⟩

theorem hostReadCompletion_runs {s : State} {p : Fin 2} {tag : Nat} (d : Fetched) (ht : tag < 4096) :
    exec (.hostReadCompletion p tag d) s = readEnds s p tag d := by
  rw [exec_hostReadCompletion]
  exact if_neg (by omega)

theorem hostCompletionTimeout_runs {s : State} {p : Fin 2} {tag : Nat} (ht : tag < 4096) (hs : (smGet none (hostPort s p).tags tag).isSome = true) :
    let st := Config.freeStatus (draw s).1
    exec (.hostCompletionTimeout p tag) s = readEnds (draw s).2 p tag (.error (if st = .complete then .aborted else st)) := by
  intro st
  rw [exec_hostCompletionTimeout]
  refine (if_neg (by omega)).trans (if_neg ?_)
  rw [Option.isNone_iff_eq_none]
  exact Option.isSome_iff_ne_none.mp hs

/-- Settles O45: reading, dispatch, the end of a COPY step and of a host read. -/
theorem queueSteps : Obligations.QueueSteps := by
  refine ⟨fun s q y entry rec hq hh hc hne ha hr hf => ?_, fun s q y x hq hx hh hp => ?_, fun s q x hx => ?_, fun s p tag htag => ?_⟩
  · intro answers inHand
    have hrun := queueStepRead_runs entry rec hq hh hc hne ha hr hf
    refine ⟨fun hm => ?_, fun hm => ?_⟩
    · have hstep := stepInHand_readStep s q y rec
      rw [← hrun.trans (if_pos hm)] at hstep
      exact hstep
    · replace hrun := hrun.trans (if_neg (not_not.mpr hm))
      intro a
      refine ⟨fun u c hread => ?_, fun u hread => ?_, fun u b hread => ⟨fun hbad => ?_, fun h0 h1 h2 => ?_⟩⟩
      · exact hrun.trans (by rw [hread]; rfl)
      · exact hrun.trans (by rw [hread]; rfl)
      · exact hrun.trans (by rw [hread]; exact if_pos (by simpa using hbad))
      · intro y'
        have hstep := stepInHand_readStep (putQueue u q (some y')) q y' rec
        have hgo : exec (.queueStepRead q entry rec) s = readStep (putQueue u q (some y')) q y' rec :=
          hrun.trans (by rw [hread]; exact if_neg (by simp [h0, h1, h2]))
        rw [← hgo] at hstep
        exact hstep
  · intro answers
    refine ⟨fun hb => stepDispatch_malformed hq hx hh hp hb, fun hb hl => stepDispatch_denied hq hx hh hp hb hl, fun hb hl hm hd ho hw => ?_⟩
    have hrun := stepDispatch_sends hq hx hh hp hb hl hm hd ho hw
    unfold sendStep at hrun
    refine ⟨fun a n hbody => ?_, fun a b n d hbody => ?_, fun e n m hbody => ⟨fun st he => ?_, fun k he => ?_⟩,
      fun c a b n hbody => ⟨fun st he => ?_, fun k he => ?_⟩, fun hbody z hz => ?_⟩
    · exact hrun.trans (by rw [hbody]; rfl)
    · exact hrun.trans (by rw [hbody]; rfl)
    · exact hrun.trans (by rw [hbody]; dsimp only; rw [he]; rfl)
    · exact hrun.trans (by rw [hbody]; dsimp only; rw [he]; rfl)
    · exact hrun.trans (by rw [hbody]; dsimp only; rw [he]; rfl)
    · exact hrun.trans (by rw [hbody]; dsimp only; rw [he]; rfl)
    · exact hrun.trans (by rw [hbody]; dsimp only; rw [hz]; rfl)
  · intro u
    rw [exec_copyStepCommit, execCopyStepCommit, hx]
    refine ⟨fun hn => ?_, fun y a b len c hy hbody => ?_⟩
    · dsimp only
      rw [show stepFind _ _ = _ from hn]
      rfl
    · dsimp only
      rw [show stepFind _ _ = _ from hy]
      dsimp only
      rw [hbody]
      exact (apply_ite (fun v => Host.Outcome.next (settle v)) _ _ _).symm
  · intro failed
    refine ⟨fun st => readEnds_failed (hostReadCompletion_runs _ htag), fun hs => ?_, fun b fn bale off ht => ?_, fun b fn id dst ht => ⟨fun hx => ?_,
      fun x hx => ⟨fun hp => ?_, fun hp => ⟨fun w hw => ?_, fun w hw => ?_⟩⟩⟩⟩
    · intro st
      exact readEnds_failed (hostCompletionTimeout_runs htag hs)
    · exact (hostReadCompletion_runs _ htag).trans (readEnds_parkData ht)
    · exact (hostReadCompletion_runs _ htag).trans (readEnds_noStep ht hx)
    · exact (hostReadCompletion_runs _ htag).trans (readEnds_notBegun ht hx hp)
    · exact (hostReadCompletion_runs _ htag).trans ((readEnds_stepData ht hx rfl hp).trans (by rw [hw]; rfl))
    · exact (hostReadCompletion_runs _ htag).trans ((readEnds_stepData ht hx rfl hp).trans (by rw [hw]; rfl))

end Sys2Proof.Machine.Claims
end

section
/-!
PROOFS. The relay and the pair (R533, R536, R543, R667 to R674).
-/
namespace Sys2Proof.Machine.Claims

/-! ### The relay and the pair -/

theorem relayWrite_dropped {s : State} {off : Nat} {p : Bool} (hl : s.host.relay.linkUp = true) (hh : s.flt.halted = false) :
    exec (.relayWrite off none p) s =
      .next (if p then bump s ⟨.hpfRelayDrop, 0, 0⟩ 1 else emit (bump s ⟨.hpfRelayDrop, 0, 0⟩ 1) .relayUnsupported) := by
  have hup : ¬ (!s.host.relay.linkUp || s.flt.halted) = true := by simp [hl, hh]
  rw [exec_relayWrite]
  exact if_neg hup

section
variable {s g : State} {off : Nat} {b : List (BitVec 8)} (hl : s.host.relay.linkUp = true) (hh : s.flt.halted = false) (hb : b ≠ [])
  (hlen : b.length ≤ 4096) (hoff : off + b.length ≤ 2 ^ 32)
include hl hh hb hlen hoff

theorem relayWrite_waits (hg : gate s .relay (2 ^ 32 + off) 0x85A 0 b.length = (g, false)) :
    exec (.relayWrite off (some b) true) s = .next g := by
  rw [exec_relayWrite]
  refine (if_neg (by simp [hb, hlen]; omega)).trans ((if_neg (by simp [hl, hh])).trans ?_)
  dsimp only
  rw [hg]

theorem relayWrite_performed (hg : gate s .relay (2 ^ 32 + off) 0x85A 0 b.length = (g, true)) :
    let covers (at' n : Nat) : Prop := off ≤ at' ∧ at' + n ≤ off + b.length
    let u := bump (homePut g (mirrorBase g + off) b) ⟨.hpfRelayRxBytes, 0, 0⟩ b.length
    let u := putPair u { u.pair with lastWrite := u.stage.hubTime }
    let u := if covers hdrEpoch 4 then putPair u { u.pair with partner := u.pair.partner.map (fun p => (fieldOf b (hdrEpoch - off) 4, p.2)) } else u
    let u := if covers hdrAckSeq 4 ∧ roleNow u = .active then ackArrives u (fieldOf b (hdrAckSeq - off) 4) else u
    exec (.relayWrite off (some b) true) s =
      .next (if covers hdrRole 4 then roleArrives u (fieldOf b (hdrRole - off) 1) (fieldOf b (hdrRole - off + 1) 1) else u) := by
  rw [exec_relayWrite]
  refine (if_neg (by simp [hb, hlen]; omega)).trans ((if_neg (by simp [hl, hh])).trans ?_)
  dsimp only
  rw [hg]
  simp only [Bool.and_eq_true, decide_eq_true_eq, beq_iff_eq]

end

section
variable {s : State} {w : Fin 9} {r : Fin 4} {e : Nat} (role : Fin 5) (sy : Fin 3) (hlic : licRelay s = true) (hh : s.flt.halted = false)
  (hl : s.host.relay.linkUp = false) (hw : w ≠ 0) (hr : r ≠ 0) (he : e < 2 ^ 32)
include hlic hh hl hw hr he

/-- The relay link trains: the hub yields, becomes active again, or goes on in its role. -/
theorem relayLinkUp_runs :
    let u := { s with host := { s.host with relay := { s.host.relay with linkUp := true, width := w, rate := r } } }
    let u := putPair u { u.pair with partner := some (e, role.val, sy.val) }
    exec (.relayLinkUp w r e role sy) s =
      if (u.pair.role = .active ∨ u.pair.role = .solo) ∧ (role.val = 1 ∨ role.val = 3) ∧
        (u.pair.epoch < e ∨ (u.pair.epoch = e ∧ u.host.relay.endpoint)) then .next (settle (becomeFenced u))
      else if u.pair.role = .solo ∧ role.val = 2 then .next (settle (resyncStart (becomeActive u)))
      else if (sendRole u).pair.role = .active ∧ role.val = 2 ∧ sy.val = 0 then .next (settle (resyncStart (sendRole u)))
      else .next (settle (resyncGo (sendRole u))) := by
  have hw' : w.val ≠ 0 := fun h => hw (Fin.ext h)
  have hr' : r.val ≠ 0 := fun h => hr (Fin.ext h)
  rw [exec_relayLinkUp]
  refine if_neg ?_
  simp only [hlic, hh, hl, Bool.not_true, Bool.false_or, Bool.or_eq_true, beq_iff_eq, decide_eq_true_eq, hw', hr', false_or]
  omega

end

section
variable {s g : State} {d : DeltaOut} (hd : s.pair.sending = some d) (hl : s.host.relay.linkUp = true) (hh : s.flt.halted = false)
include hd hl hh

theorem deltaSent_waits (hg : gate s .relay d.seq 0x85A 0 d.len = (g, false)) : exec .deltaSent s = .next g := by
  rw [exec_deltaSent, execDeltaSent, hd]
  refine (if_neg (by simp [hl, hh])).trans ?_
  rw [hg]

theorem deltaSent_runs (hg : gate s .relay d.seq 0x85A 0 d.len = (g, true)) :
    let u := bump g ⟨.hpfRelayTxBytes, 0, 0⟩ d.len
    let u := putPair u { u.pair with sending := none, unacked := u.pair.unacked ++ [d] }
    exec .deltaSent s = .next (resyncGo (relaySend u hdrDoneSeq (toBytes 4 d.seq))) := by
  rw [exec_deltaSent, execDeltaSent, hd]
  refine (if_neg (by simp [hl, hh])).trans ?_
  rw [hg]

end

/-- A delta follows the one applied last, or is the first of a copy (R670). -/
def DeltaFollows (s : State) (b : List Byte) : Prop :=
  (s.pair.lastSeq = none ∧ fieldOf b 4 1 = 1) ∨ ∃ n, s.pair.lastSeq = some n ∧ fieldOf b 0x0C 4 = (n + 1) % 2 ^ 32

/-- The test that the model makes of it. -/
theorem deltaFollows_iff (s : State) (b : List Byte) : DeltaFollows s b ↔
    (match s.pair.lastSeq with | some n => decide (fieldOf b 0x0C 4 = (n + 1) % 2 ^ 32) | none => fieldOf b 4 1 == 1) = true := by
  unfold DeltaFollows
  cases s.pair.lastSeq <;> simp

section
variable {s : State} {off : Nat} (i : Snapshot) (hrole : roleNow s = .standby) (hh : s.flt.halted = false) (hal : off % 64 = 0) (hin : off + 64 ≤ ringSize)
include hrole hh hal hin

theorem deltaApply_bad (hd : deltaAt s off = none) : exec (.deltaApply off i) s = .next (askResync s) := by
  rw [exec_deltaApply]
  refine (if_neg (by simp [hrole, hh, hal, hin])).trans ?_
  rw [hd]

variable {b : List Byte} (hd : deltaAt s off = some b) (hdone : (homeBytes s (mirrorBase s + hdrDoneSeq) 4).map ofBytes = some (fieldOf b 0x0C 4))
include hd hdone

theorem deltaApply_stray (hf : ¬ DeltaFollows s b ∨ s.pair.lossSeen < mirrorLosses s) :
    exec (.deltaApply off i) s = .next (askResync (putPair s { s.pair with lossSeen := mirrorLosses s })) := by
  rw [exec_deltaApply]
  refine (if_neg (by simp [hrole, hh, hal, hin])).trans ?_
  rw [hd]
  refine (if_neg (not_not.mpr hdone)).trans (if_pos ?_)
  rw [Bool.or_eq_true, Bool.not_eq_true']
  exact hf.imp (fun hf => Bool.eq_false_iff.mpr (mt (deltaFollows_iff s b).mpr hf)) decide_eq_true

theorem deltaApply_follows (hf : DeltaFollows s b) (hloss : mirrorLosses s ≤ s.pair.lossSeen) :
    let u := applyRecords (b.length / 64) s (b.drop 64)
    let x : PairState :=
      { u.pair with lastSeq := some (fieldOf b 0x0C 4), image := some i, lastApplied := fieldOf b 0x10 8, lossSeen := mirrorLosses u,
                    sync := if fieldOf b 4 1 = 1 then .resyncing else u.pair.sync }
    exec (.deltaApply off i) s = .next (relaySend (putPair u x) hdrAckSeq (toBytes 4 (fieldOf b 0x0C 4 % 2 ^ 31))) := by
  rw [exec_deltaApply]
  refine (if_neg (by simp [hrole, hh, hal, hin])).trans ?_
  rw [hd]
  refine (if_neg (not_not.mpr hdone)).trans (if_neg ?_)
  rw [Bool.or_eq_true, Bool.not_eq_true', not_or]
  exact ⟨fun h => absurd ((deltaFollows_iff s b).mp hf) (Bool.eq_false_iff.mp h), by simpa using hloss⟩

end

/-- Settles O46, by the event of the relay or of the hub's role. -/
theorem relayAndPair : Obligations.RelayAndPair := by
  refine ⟨fun s => ⟨fun hl => ?_, fun hl => ?_, fun hl => ?_, fun hr hs hq => ?_⟩, fun s off p hl hh => relayWrite_dropped hl hh,
    fun s g off b go hl hh hb hlen hoff hg => ⟨fun hgo => ?_, fun hgo => ?_⟩, fun s w r e role sy hlic hh hl hw hr he => ?_,
    fun s g d go hd hl hh hg => ⟨fun hgo => ?_, fun hgo => ?_⟩, fun s off i hrole hh hal hin => ⟨fun hd => deltaApply_bad i hrole hh hal hin hd,
      fun b hd hdone => ⟨fun hf => deltaApply_stray i hrole hh hal hin hd hdone hf,
        fun hf hloss => deltaApply_follows i hrole hh hal hin hd hdone hf hloss⟩⟩,
    fun s i hi hr hn hh => ?_⟩
  · rw [exec_requestActive, exec_requestStandby, execRequestActive, execRequestStandby, pairRequest, pairRequest, if_pos hl, if_pos hl]
    exact ⟨rfl, rfl⟩
  · rw [exec_requestActive, exec_requestStandby, execRequestActive, execRequestStandby, pairRequest, pairRequest,
      if_neg (Bool.eq_false_iff.mp hl), if_neg (Bool.eq_false_iff.mp hl)]
    exact ⟨rfl, rfl⟩
  · rw [exec_relayLinkDown]
    exact if_pos hl
  · rw [exec_resyncDone]
    exact if_neg (by simp [hr, hs, hq])
  · subst hgo
    exact relayWrite_waits hl hh hb hlen hoff hg
  · subst hgo
    exact relayWrite_performed hl hh hb hlen hoff hg
  · intro u u' yields
    have hrun := relayLinkUp_runs role sy hlic hh hl hw hr he
    have hone : role = 1 ↔ role.val = 1 := Fin.ext_iff
    have htwo : role = 2 ↔ role.val = 2 := Fin.ext_iff
    have hthree : role = 3 ↔ role.val = 3 := Fin.ext_iff
    have hsy : sy = 0 ↔ sy.val = 0 := Fin.ext_iff
    have hyields : yields ↔ (u'.pair.role = .active ∨ u'.pair.role = .solo) ∧ (role.val = 1 ∨ role.val = 3) ∧
        (u'.pair.epoch < e ∨ (u'.pair.epoch = e ∧ u'.host.relay.endpoint)) := by
      unfold yields
      rw [hone, hthree]
    refine ⟨fun hy => hrun.trans (if_pos (hyields.mp hy)), fun hs h2 => ?_, fun hny hn => ?_⟩
    · have hny : ¬ yields := fun hy => by
        rcases hy.2.1 with h | h <;> exact absurd (h2.symm.trans h) (by decide)
      exact hrun.trans ((if_neg (mt hyields.mpr hny)).trans (if_pos ⟨hs, htwo.mp h2⟩))
    · refine hrun.trans ((if_neg (mt hyields.mpr hny)).trans ((if_neg (fun ⟨hs, h2⟩ => hn.elim (· hs) (· (htwo.mpr h2)))).trans ?_))
      simp only [htwo, hsy]
      exact (apply_ite (fun v => Host.Outcome.next (settle v)) _ _ _).symm
  · subst hgo
    exact deltaSent_waits hd hl hh hg
  · subst hgo
    exact deltaSent_runs hd hl hh hg
  · intro fresh u u' u''
    rw [exec_promotionRestoreDone, execPromotionRestoreDone, hi]
    exact if_neg (by simp [hr, hn, hh])

end Sys2Proof.Machine.Claims
end

section
/-!
PROOFS. The object dictionary, events and Customs: requests of Pelxel, staged sets, what the collector takes, tokens, fuses, flash and SPDM (R55, R576 to R633, R664).
-/
namespace Sys2Proof.Machine.Claims

/-! ### Requests of Pelxel -/

/-- A message that is a request of Pelxel (R582, R583). -/
def PelxelMessage (m : List Byte) : Prop :=
  8 ≤ m.length ∧ fieldOf m 0 1 = 0x7E ∧ fieldOf m 1 1 = 0x1F ∧ fieldOf m 2 1 = 0x7A ∧ 128 ≤ fieldOf m 5 1

theorem pelxelMessage_iff (m : List Byte) : PelxelMessage m ↔
    ¬ (m.length < 8 ∨ fieldOf m 0 1 ≠ 0x7E ∨ fieldOf m 1 1 ≠ 0x1F ∨ fieldOf m 2 1 ≠ 0x7A ∨ fieldOf m 5 1 < 128) := by
  unfold PelxelMessage
  omega

section
variable {s : State} {m : List (BitVec 8)} {pcie : Bool} (sec : Bool) (hlen : m.length ≤ 1088) (hsup : s.bring.supply = .released)
  (hl : pcie = true → linkTrained s s.host.controlLink = true)
include hlen hsup hl

theorem mctp_arrives : ¬ (1088 < m.length) ∧ ¬ (s.bring.supply ≠ .released ∨ (pcie ∧ !linkTrained s s.host.controlLink)) :=
  ⟨not_lt.mpr hlen, fun h => h.elim (· hsup) (fun ⟨hp, hn⟩ => by simp [hl hp] at hn)⟩

theorem mctpMessage_discarded (hn : ¬ PelxelMessage m) : exec (.mctpMessage pcie m sec) s = .next s := by
  obtain ⟨hlong, hdown⟩ := mctp_arrives hlen hsup hl
  rw [exec_mctpMessage]
  exact (if_neg hlong).trans ((if_neg hdown).trans (if_pos (not_not.mp (mt (pelxelMessage_iff m).mpr hn))))

variable (hy : PelxelMessage m)
include hy

theorem mctpMessage_busy : let a : Accessor := if pcie then .mPcie else .mI3c
    let u := putColl s { coll s with lastBinding := some a }
    8 ≤ (requests u a).length →
      exec (.mctpMessage pcie m sec) s = .next (emit u (.pelxel a.num (fieldOf m 5 1 % 32) (fieldOf m 4 1) cBusy [])) := by
  intro a u hfull
  obtain ⟨hlong, hdown⟩ := mctp_arrives hlen hsup hl
  rw [exec_mctpMessage]
  exact (if_neg hlong).trans ((if_neg hdown).trans ((if_neg ((pelxelMessage_iff m).mp hy)).trans (if_pos hfull)))

theorem mctpMessage_queued : let a : Accessor := if pcie then .mPcie else .mI3c
    let u := putColl s { coll s with lastBinding := some a }
    (requests u a).length < 8 → exec (.mctpMessage pcie m sec) s = .next (settle (answerUnknown (putRequests u a (requests u a ++
        [{ cmd := fieldOf m 4 1, inst := fieldOf m 5 1 % 32, payload := m.drop 8, secured := sec,
           bad := fieldOf m 3 1 != 1 || fieldOf m 5 1 / 32 % 4 != 0 || fieldOf m 6 1 != 0 || fieldOf m 7 1 != 0 }])) a 1)) := by
  intro a u hroom
  obtain ⟨hlong, hdown⟩ := mctp_arrives hlen hsup hl
  rw [exec_mctpMessage]
  exact (if_neg hlong).trans ((if_neg hdown).trans ((if_neg ((pelxelMessage_iff m).mp hy)).trans (if_neg (not_le.mpr hroom))))

end

section
variable {s : State} {a : Accessor} {cmd : Nat} {n : Fin 32} {p : List (BitVec 8)} {sec : Bool} (hsup : s.bring.supply = .released)
  (hlen : p.length ≤ roomOf a)
include hsup hlen

theorem runRequest_driver (hm : isMgmt a = false) :
    runRequest a cmd n p sec s = .next (settle (pxlAnswer a cmd n (pelxel s a cmd p false false (roomOf a)))) := by
  rw [runRequest]
  exact (if_neg (not_lt.mpr hlen)).trans ((if_neg (not_not.mpr hsup)).trans (if_neg (Bool.eq_false_iff.mp hm)))

theorem runRequest_binding (hm : isMgmt a = true) {l : List PxlReq} {bad : Bool}
    (hq : requests s a = { cmd := cmd, inst := n, payload := p, secured := sec, bad := bad } :: l) : runRequest a cmd n p sec s =
      .next (settle (answerUnknown (pxlAnswer a cmd n (pelxel (putRequests s a l) a cmd p sec bad (roomOf a))) a 8)) := by
  rw [runRequest]
  refine (if_neg (not_lt.mpr hlen)).trans ((if_neg (not_not.mpr hsup)).trans ((if_pos hm).trans ?_))
  rw [hq]
  exact if_pos ⟨rfl, rfl, rfl, rfl⟩

end

/-- What a request does, `e` being its instruction with its CMD. -/
def RequestSpec (s : State) (a : Accessor) (n : Fin 32) (p : List (BitVec 8)) (sec : Bool) (e : Instr × Nat) : Prop :=
  (isMgmt a = false → exec e.1 s = .next (settle (pxlAnswer a e.2 n (pelxel s a e.2 p false false (roomOf a))))) ∧
  (isMgmt a = true → ∀ l bad, requests s a = { cmd := e.2, inst := n, payload := p, secured := sec, bad := bad } :: l →
    exec e.1 s = .next (settle (answerUnknown (pxlAnswer a e.2 n (pelxel (putRequests s a l) a e.2 p sec bad (roomOf a))) a 8)))

theorem requestSpec {s : State} {a : Accessor} {n : Fin 32} {p : List (BitVec 8)} {sec : Bool} (hsup : s.bring.supply = .released)
    (hlen : p.length ≤ roomOf a) {i : Instr} {cmd : Nat} (hi : exec i s = runRequest a cmd n p sec s) : RequestSpec s a n p sec (i, cmd) :=
  ⟨fun hm => hi.trans (runRequest_driver hsup hlen hm), fun hm _ _ hq => hi.trans (runRequest_binding hsup hlen hm hq)⟩

/-- Settles O48: messages over MCTP, the requests' turns, the mailbox. -/
theorem pelxelRequests : Obligations.PelxelRequests := by
  refine ⟨fun s m pcie sec hlen hsup hl => ?_, fun s a n p sec hsup hlen => ?_, fun s fn => ⟨fun hp ho => ?_, fun hn => ?_⟩⟩
  · intro a ours
    exact ⟨fun hn => mctpMessage_discarded sec hlen hsup hl hn, fun hy => ⟨mctpMessage_busy sec hlen hsup hl hy, mctpMessage_queued sec hlen hsup hl hy⟩⟩
  · suffices hall : ∀ e ∈ _, RequestSpec s a n p sec e from hall
    simp only [List.forall_mem_cons]
    exact ⟨requestSpec hsup hlen (exec_read ..), requestSpec hsup hlen (exec_write ..), requestSpec hsup hlen (exec_commit ..),
      requestSpec hsup hlen (exec_info ..), requestSpec hsup hlen (exec_eventGet ..), requestSpec hsup hlen (exec_regRead ..),
      requestSpec hsup hlen (exec_regWrite ..), fun _ he => nomatch he⟩
  · rw [exec_mailboxGo]
    exact if_pos (by simp [hp, ho])
  · rw [exec_mailboxGo]
    exact if_neg (by rcases hn with hn | hn <;> simp [hn])

/-! ### Staged sets and events -/

theorem actionCommit_busy {s : State} {a : Accessor} (hb : s.dict.checks.any (fun c => c.acc == a.num) = true) :
    exec (.actionCommit a) s = .next s := by
  rw [exec_actionCommit, execActionCommit, commitSet, if_pos hb]
  rfl

theorem actionCommit_begins {s : State} {a : Accessor} (hb : s.dict.checks.any (fun c => c.acc == a.num) = false) :
    let x := accOf s a.num
    let u := putAcc s a.num { x with result := { res := .checking, tag := x.tag } }
    exec (.actionCommit a) s = .next { u with dict := { u.dict with checks := u.dict.checks ++ [{ acc := a.num, tag := x.tag, set := x.staged }] } } := by
  rw [exec_actionCommit, execActionCommit, commitSet, if_neg (Bool.eq_false_iff.mp hb)]
  rfl

/-- Settles O49: a set's commit and check, what the collector takes, the notice. -/
theorem dictionaryEvents : Obligations.DictionaryEvents := by
  refine ⟨fun s a on => ⟨actionCommit_busy, actionCommit_begins, ?_, ?_, ?_, ?_, ?_⟩, fun s c rest hc hh => ?_, fun s o rest ho => ?_,
    fun s code n r hr => ?_, fun s a ha hm => ?_⟩
  · rw [exec_actionDiscard]
    rfl
  · rw [exec_hostEnableWrite]
    rfl
  · rw [exec_logDropsClear]
    rfl
  · rw [exec_blackBoxClear]
    rfl
  · rw [exec_scrubLossClear]
    rfl
  · intro u x named found
    rw [exec_commitCheck, execCommitCheck, hc]
    refine ⟨fun f hf => (if_neg (Bool.eq_false_iff.mp hh)).trans ?_, fun hf => (if_neg (Bool.eq_false_iff.mp hh)).trans ?_⟩
    · dsimp only
      rw [show worst _ = _ from hf]
    · dsimp only
      rw [show worst _ = _ from hf]
  · rw [exec_eventOccurrence, execEventOccurrence, ho]
  · intro u
    rw [exec_coalesceWindowEnd, execCoalesceWindowEnd, hr]
    refine ⟨fun hf => ?_, fun f hf => ?_⟩
    · dsimp only
      rw [hf]
    · intro v
      dsimp only
      rw [hf]
      exact (apply_ite (fun c => Host.Outcome.next (putColl v c)) _ _ _).symm
  · rw [exec_notifyRepeat, execNotifyRepeat, ha]
    exact if_neg (by simpa using hm)

/-! ### Tokens, enrolment and SVN -/

/-- Customs takes no writes of its objects (R606, R608). -/
def CustomsShut (s : State) : Prop := romOnly s = true ∨ s.cus.recovery = true ∨ s.flt.halted = true

theorem customsShut_iff (s : State) : CustomsShut s ↔ (romOnly s || s.cus.recovery || s.flt.halted) = true := by
  simp [CustomsShut, or_assoc]

section
variable {s : State} {v : List (BitVec 8)} {ok : Bool}

theorem token_shut (h : CustomsShut s) : exec (.token v ok) s = .next s := by
  rw [exec_token, execToken, submitToken, if_pos ((customsShut_iff s).mp h)]

variable (h : ¬ CustomsShut s)
include h

theorem token_again (hb : (burns s).any Burn.byToken = true) : exec (.token v ok) s = .next (newNonce (refuseToken s 5)) := by
  rw [exec_token, execToken, submitToken, if_neg (mt (customsShut_iff s).mpr h), if_pos hb]

variable (hb : (burns s).any Burn.byToken = false)
include hb

theorem token_refused {r : Nat} (hr : tokenRefusal s v ok = some r) : exec (.token v ok) s = .next (newNonce (refuseToken s r)) := by
  rw [exec_token, execToken, submitToken, if_neg (mt (customsShut_iff s).mpr h), if_neg (Bool.eq_false_iff.mp hb), hr]

theorem token_burns {x : Burn} (hr : tokenRefusal s v ok = none) (hx : tokenBurn v = some x) :
    exec (.token v ok) s = .next (newNonce (burnStart (putCus s { s.cus with result := 1 }) x)) := by
  rw [exec_token, execToken, submitToken, if_neg (mt (customsShut_iff s).mpr h), if_neg (Bool.eq_false_iff.mp hb), hr]
  dsimp only
  rw [hx]

theorem token_consents (hr : tokenRefusal s v ok = none) (hx : tokenBurn v = none) :
    exec (.token v ok) s = .next (newNonce (putCus s { s.cus with result := 2, consent := true })) := by
  rw [exec_token, execToken, submitToken, if_neg (mt (customsShut_iff s).mpr h), if_neg (Bool.eq_false_iff.mp hb), hr]
  dsimp only
  rw [hx]

end

theorem enrolAllowed_eq_false {s : State} {h : List (BitVec 8)} (hn : CustomsShut s ∨ h.length ≠ 48 ∨ s.cus.lc ≠ 2 ∨ ownerFull s 1 = true) :
    enrolAllowed s h = false := by
  unfold enrolAllowed
  rcases hn with (hn | hn | hn) | hn | hn | hn <;> simp [hn]

/-- The write of 0x6020:08 for a kind, with its running and its minimum SVN. -/
theorem svnAdvance_eq (s : State) (k : Fin 2) :
    let run := if k = 0 then s.cus.cfwSvn else s.cus.pplSvn
    let low := if k = 0 then s.cus.minCfw else s.cus.minPpl
    exec (.svnAdvance k) s = .next (if romOnly s || s.cus.recovery || s.flt.halted || decide (run ≤ low) || (burns s).contains (.svn (k + 1) run) then s
      else burnStart s (.svn (k + 1) run)) := by
  intro run low
  have hpair : (if k.val + 1 = 1 then (s.cus.cfwSvn, s.cus.minCfw) else (s.cus.pplSvn, s.cus.minPpl)) = (run, low) := by
    unfold run low
    fin_cases k <;> rfl
  rw [exec_svnAdvance, execSvnAdvance, svnAdvance]
  rw [hpair]

/-! ### Burns and flash commands -/

theorem fuseBurnDone_runs {s : State} {b : Burn} (worked : Bool) (hb : s.cus.burn = some b) :
    let tok : Prop := s.cus.result = 1 ∧ b.byToken = true
    let x := draw (if worked then burnDone s b else cutBurn s)
    let u := x.2
    let v := putCus u { u.cus with burn := u.cus.burnNext.head?, burnNext := u.cus.burnNext.tail,
                                   result := if ¬ tok then u.cus.result else if worked then 2 else Config.freeNat x.1 % 9 }
    exec (.fuseBurnDone worked) s = .next (if v.cus.resetDue = true ∧ v.cus.burn = none then
      warmNow (putCus v { v.cus with resetDue := false }) v.bring.lostStack else v) := by
  intro tok x u v
  have htok : (!(s.cus.result == 1 && b.byToken)) = true ↔ ¬ tok := by
    simp only [tok, Bool.not_eq_true', ← Bool.not_eq_true, Bool.and_eq_true, beq_iff_eq]
  rw [exec_fuseBurnDone, execFuseBurnDone, hb]
  dsimp only
  simp only [htok, Bool.and_eq_true, Option.isNone_iff_eq_none]
  rfl

theorem flashRow_shut {s : State} {op : Nat} (h : romOnly s = true ∨ s.flt.halted = true ∨ s.cus.cmd.isSome = true) : flashRow s op = .next s := by
  by_cases hs : (romOnly s || s.flt.halted) = true
  · exact if_pos hs
  · rw [flashRow, if_neg hs, flashStart, if_pos]
    · rfl
    · simp only [Bool.or_eq_true, not_or] at hs
      exact (h.resolve_left hs.1).resolve_left hs.2

theorem flashRow_starts {s : State} {op : Nat} (hr : romOnly s = false) (hh : s.flt.halted = false) (hc : s.cus.cmd = none) : flashRow s op =
    .next (putCus s { s.cus with cmd := some { op := op, addr := s.cus.addr, data := s.cus.data }, flashRes := 1 }) := by
  rw [flashRow, if_neg (by simp [hr, hh]), flashStart, if_neg (by simp [hc])]
  rfl

section
variable {s : State} {c : FlashCmd} {device : Bool} (hc : s.cus.cmd = some c)
include hc

/-- The end of an erase of `n` bytes. -/
theorem flashCommandDone_erase {n : Nat} (hop : (c.op = 1 ∧ n = 4096) ∨ (c.op = 2 ∧ n = 65536)) : exec (.flashCommandDone device) s =
    .next (if c.addr % n ≠ 0 then flashEnd s c.addr 5 else if flashProtected s c.addr n then flashEnd s c.addr 4
      else if device then flashEnd (flashPut s c.addr (List.replicate n 0xFF)) c.addr 2 else flashFails s c.addr n) := by
  rw [exec_flashCommandDone, execFlashCommandDone, hc]
  dsimp only
  rcases hop with ⟨hop, rfl⟩ | ⟨hop, rfl⟩
  · rw [hop]
    rfl
  · rw [hop]
    rfl

theorem flashCommandDone_program (hop : c.op = 3) : exec (.flashCommandDone device) s =
    .next (if c.data.length = 0 ∨ 256 < c.data.length ∨ c.addr / 256 ≠ (c.addr + c.data.length - 1) / 256 then flashEnd s c.addr 5
      else if flashProtected s c.addr c.data.length then flashEnd s c.addr 4
      else if (flashBytes s c.addr c.data.length).any (fun b => b != 0xFF) then flashEnd s c.addr 3
      else if device then flashEnd (flashPut s c.addr c.data) c.addr 2 else flashFails s c.addr c.data.length) := by
  rw [exec_flashCommandDone, execFlashCommandDone, hc]
  dsimp only
  rw [hop]
  rfl

theorem flashCommandDone_read (hop : c.op = 4) : exec (.flashCommandDone device) s =
    .next (if 256 < ofBytes c.data then flashEnd s c.addr 5
      else if device then flashEnd (putCus s { s.cus with data := flashBytes s c.addr (ofBytes c.data) }) c.addr 2 else flashEnd s c.addr 6) := by
  rw [exec_flashCommandDone, execFlashCommandDone, hc]
  dsimp only
  rw [hop]
  rfl

theorem flashCommandDone_activate (hop : c.op = 5) : exec (.flashCommandDone device) s =
    .next (if c.addr ≠ 1 ∧ c.addr ≠ 2 then flashEnd s c.addr 5
      else if slotCheck s c.addr (1 - selected s c.addr) ≠ 0 then flashEnd s c.addr 7
      else if device then flashEnd (select s c.addr (1 - selected s c.addr)) c.addr 2 else flashEnd s c.addr 6) := by
  rw [exec_flashCommandDone, execFlashCommandDone, hc]
  dsimp only
  rw [hop]
  rfl

end

/-! ### SPDM -/

section
variable {s : State} {p : SpdmPath} (ho : spdmOpen s p = true) (hh : s.flt.halted = false)
include ho hh

theorem spdmRequest_rom {r : SpdmReq} (hr : r ≠ .getVersion) (hrom : romOnly (draw s).2 = true) :
    exec (.spdmRequest p r) s = .next (emit (draw s).2 (.spdm (spdmNum p) [])) := by
  rw [exec_spdmRequest]
  refine (if_neg (by simp [ho, hh])).trans ?_
  cases r with
  | getVersion => exact absurd rfl hr
  | _ => exact if_pos hrom

theorem spdmRequest_version :
    exec (.spdmRequest p .getVersion) s = .next (emit (draw s).2 (.spdm (spdmNum p) (Config.spdmBytes (16 + (draw s).1)))) := by
  rw [exec_spdmRequest]
  exact if_neg (by simp [ho, hh])

variable (hrom : romOnly (draw s).2 = false)
include hrom

theorem spdmRequest_measures {i : Nat} (h1 : 1 ≤ i) (h6 : i ≤ 6) :
    exec (.spdmRequest p (.measurement i)) s = .next (emit (draw s).2 (.spdm (spdmNum p) (measure (draw s).2 i))) := by
  rw [exec_spdmRequest]
  exact (if_neg (by simp [ho, hh])).trans ((if_neg (Bool.eq_false_iff.mp hrom)).trans (if_pos ⟨h1, h6⟩))

theorem spdmRequest_fifth (h4 : 4 ≤ (draw s).2.cus.sessions.length) :
    exec (.spdmRequest p .openSession) s = .next (emit (draw s).2 (.spdm (spdmNum p) [])) := by
  rw [exec_spdmRequest]
  exact (if_neg (by simp [ho, hh])).trans ((if_neg (Bool.eq_false_iff.mp hrom)).trans (if_pos h4))

theorem spdmRequest_opens (h4 : (draw s).2.cus.sessions.length < 4) : exec (.spdmRequest p .openSession) s =
    .next (emit (putCus (draw s).2 { (draw s).2.cus with sessions := (draw s).2.cus.sessions ++ [p] })
      (.spdm (spdmNum p) (Config.spdmBytes (16 + (draw s).1)))) := by
  rw [exec_spdmRequest]
  exact (if_neg (by simp [ho, hh])).trans ((if_neg (Bool.eq_false_iff.mp hrom)).trans (if_neg (not_le.mpr h4)))

theorem spdmRequest_ends (hp : (draw s).2.cus.sessions.contains p = true) : exec (.spdmRequest p .endSession) s =
    .next (emit (putCus (draw s).2 { (draw s).2.cus with sessions := listDelFirst (fun q => q == p) (draw s).2.cus.sessions })
      (.spdm (spdmNum p) (Config.spdmBytes (16 + (draw s).1)))) := by
  rw [exec_spdmRequest]
  exact (if_neg (by simp [ho, hh])).trans ((if_neg (Bool.eq_false_iff.mp hrom)).trans (if_pos hp))

end

/-- Settles O50: the burns' queue, what starts a burn and what it leaves, flash commands and SPDM. -/
theorem customsCommands : Obligations.CustomsCommands := by
  refine ⟨fun s b => ⟨fun hn => by rw [burnStart, hn], fun x hx => by rw [burnStart, hx]⟩, fun s => ?_, fun s b worked hb => fuseBurnDone_runs worked hb,
    fun s => ?_, fun s c device hc => ?_, fun s p ho hh => ?_⟩
  · intro shut
    refine ⟨fun v ok => ⟨token_shut, fun hn => ⟨token_again hn, fun hb => ⟨fun r hr => token_refused hn hb hr,
      fun x hr hx => token_burns hn hb hr hx, fun hr hx => token_consents hn hb hr hx⟩⟩⟩,
      fun h => ⟨fun hy => ?_, fun hn => ?_, enrolAllowed_eq_false⟩, fun k => ?_⟩
    · rw [exec_ownerEnrol, execOwnerEnrol, enrol, if_pos hy]
    · rw [exec_ownerEnrol, execOwnerEnrol, enrol, if_neg (Bool.eq_false_iff.mp hn)]
    · intro run low
      have hrun := svnAdvance_eq s k
      refine ⟨fun hn => hrun.trans (congrArg _ (if_pos ?_)), fun hs hlt hb => hrun.trans (congrArg _ (if_neg ?_))⟩
      · rw [Bool.or_eq_true, Bool.or_eq_true, decide_eq_true_eq, ← customsShut_iff, or_assoc]
        exact hn
      · rw [Bool.or_eq_true, Bool.or_eq_true, decide_eq_true_eq, ← customsShut_iff]
        exact fun h => h.elim (fun h => h.elim hs (not_le.mpr hlt)) (Bool.eq_false_iff.mp hb)
  · have row : ∀ op i, exec i s = flashRow s op →
        (romOnly s = true ∨ s.flt.halted = true ∨ s.cus.cmd.isSome = true → exec i s = .next s) ∧
        (romOnly s = false → s.flt.halted = false → s.cus.cmd = none → exec i s =
          .next (putCus s { s.cus with cmd := some { op := op, addr := s.cus.addr, data := s.cus.data }, flashRes := 1 })) :=
      fun op i hi => ⟨fun h => hi.trans (flashRow_shut h), fun hr hh hc => hi.trans (flashRow_starts hr hh hc)⟩
    simp only [List.forall_mem_cons]
    exact ⟨row 1 _ (exec_erase4k s), row 2 _ (exec_erase64k s), row 3 _ (exec_program s), row 4 _ (exec_flashRead s), row 5 _ (exec_activate s),
      fun _ he => nomatch he⟩
  · intro ends
    refine ⟨fun n hop => ?_, fun hop => ?_, fun hop => flashCommandDone_read hc hop, fun hop => ?_⟩
    · have hrun := flashCommandDone_erase (device := device) hc hop
      exact ⟨fun h => hrun.trans (congrArg _ (if_pos h)), fun h hp => hrun.trans (congrArg _ ((if_neg (not_not.mpr h)).trans (if_pos hp))),
        fun h hp => hrun.trans (congrArg _ ((if_neg (not_not.mpr h)).trans (if_neg (Bool.eq_false_iff.mp hp))))⟩
    · intro n fits blank
      have hrun := flashCommandDone_program (device := device) hc hop
      have hfits : fits ↔ ¬ (c.data.length = 0 ∨ 256 < c.data.length ∨ c.addr / 256 ≠ (c.addr + c.data.length - 1) / 256) := by
        unfold fits n
        omega
      have hblank : blank = !(flashBytes s c.addr c.data.length).any (fun b => b != 0xFF) := by
        unfold blank n
        simp [List.not_any_eq_all_not, bne]
      refine ⟨fun h => hrun.trans (congrArg _ (if_pos (not_not.mp (mt hfits.mpr h)))),
        fun h hp => hrun.trans (congrArg _ ((if_neg (hfits.mp h)).trans (if_pos hp))), fun h hp hb => ?_, fun h hp hb => ?_⟩
      · exact hrun.trans (congrArg _ ((if_neg (hfits.mp h)).trans ((if_neg (Bool.eq_false_iff.mp hp)).trans (if_pos (by simpa [hblank] using hb)))))
      · exact hrun.trans (congrArg _ ((if_neg (hfits.mp h)).trans ((if_neg (Bool.eq_false_iff.mp hp)).trans (if_neg (by simpa [hblank] using hb)))))
    · intro other
      have hrun := flashCommandDone_activate (device := device) hc hop
      exact ⟨fun h1 h2 => hrun.trans (congrArg _ (if_pos ⟨h1, h2⟩)),
        fun h hs => hrun.trans (congrArg _ ((if_neg (by omega)).trans (if_pos hs))),
        fun h hs => hrun.trans (congrArg _ ((if_neg (by omega)).trans (if_neg (not_not.mpr hs))))⟩
  · intro u answered bytes
    exact ⟨spdmRequest_version ho hh, fun r hr hrom => spdmRequest_rom ho hh hr hrom, fun hrom => ⟨fun i h1 h6 => spdmRequest_measures ho hh hrom h1 h6,
      fun h4 => spdmRequest_fifth ho hh hrom h4, fun h4 => spdmRequest_opens ho hh hrom h4, fun hp => spdmRequest_ends ho hh hrom hp⟩⟩

end Sys2Proof.Machine.Claims
end

section
/-!
PROOFS. Bring-up: the supplies and the release of reset, the stages with their ends, mark 0 (R5 to R7, R337 to R372, R608 to R661).
-/
namespace Sys2Proof.Machine.Claims

/-! ### Supplies -/

theorem supplyGood_holds {s : State} (h : s.bring.supply = .bad) : exec .supplyGood s =
    .next (putBring s { s.bring with supply := .hold, recs := [(1, { res := .running, start := s.stage.hubTime })] }) := by
  rw [exec_supplyGood]
  exact if_pos h

theorem supplyOutOfBand_resets {s : State} (h : s.bring.supply ≠ .bad) : exec .supplyOutOfBand s = .next (powerOn s) := by
  rw [exec_supplyOutOfBand]
  exact if_neg h

theorem powerOnResetRelease_starts {s : State} (q e a b : Bool) (h : s.bring.supply = .hold) :
    let n := s.stage.hubTime
    let l : SMap StageRec := [(1, { res := .pass, start := n, finish := n }), (2, { res := .running, start := n })]
    ∃ t, exec (.powerOnResetRelease q e a b) s = .next t ∧
      t.bring = { s.bring with supply := .released, path := 1, boots := 1, start := n, bootQuick := q, recs := l } ∧
      t.host.relay = { s.host.relay with endpoint := e } := by
  rw [exec_powerOnResetRelease]
  exact ⟨_, if_pos h, rfl, rfl⟩

/-! ### The stages -/

/-- The gate of a stage that runs is passed. -/
theorem not_stageClosed {s : State} {id : Nat} (h : stageOpen s id = true) : ¬ (!stageOpen s id) = true := by
  simp [h]

/-- The life cycle that ROM reads from the fuses (R612). -/
def romLc (s : State) : Nat :=
  let w := lcOf s.cus.lcWord
  if s.bring.path = 2 ∧ (w = 4 ∨ w = 5) ∧ w ≠ s.cus.lc then s.cus.lc else w

/-- ROM has read the life cycle. -/
def romRead (s : State) (n : Nat) : State := putCus (advance s n) { s.cus with lc := romLc s }

section
variable {s : State} (n : Nat) (ho : stageOpen s 2 = true)
include ho

theorem rom_void (h : romLc s = 15) : exec (.rom n) s = .next (stageFatal (romRead s n) 2 0x0201 0) := by
  rw [exec_rom]
  exact (if_neg (not_stageClosed ho)).trans (if_pos h)

theorem rom_scrapped (h : romLc s = 5) : exec (.rom n) s = .next (stageFatal (romRead s n) 2 0x0202 0) := by
  have h' : romLc s ≠ 15 := by omega
  rw [exec_rom]
  exact (if_neg (not_stageClosed ho)).trans ((if_neg h').trans (if_pos h))

theorem rom_passes (h15 : romLc s ≠ 15) (h5 : romLc s ≠ 5) :
    let v := newNonce (romRead s n)
    exec (.rom n) s = .next (stageEnd (if v.bring.path = 1 then
      emit { v with age := { v.age with target := v.age.vbase } } (.avsTarget v.age.vbase) else v) 2 []) := by
  rw [exec_rom]
  exact (if_neg (not_stageClosed ho)).trans ((if_neg h15).trans (if_neg h5))

end

section
variable {s : State} (n : Nat) {pll router : Option Nat} {d sl : List Nat} (hd : d.length = 184)
  (hsl : sl.any (fun k => decide (184 ≤ k)) = false) (hpll : pll.any (fun u => decide (188 ≤ u)) = false)
  (hrt : router.any (fun r => decide (160 ≤ r)) = false) (ho : stageOpen s 3 = true)
include hd hsl hpll hrt ho

theorem clocks_runs : exec (.clocks n pll router d sl) s = match pll, router with
    | some u, _ => .next (stageFatal (advance s n) 3 0x0301 u)
    | none, some r => .next (stageFatal (advance s n) 3 0x0302 r)
    | none, none =>
      let u := measureSites (advance s n) d sl
      .next (stageEnd (if u.bring.path = 1 then sendTarget u (vddTarget u) else u) 3 []) := by
  have hwf : ¬ (d.length ≠ 184 ∨ sl.any (fun k => decide (184 ≤ k)) ∨ pll.any (fun u => decide (188 ≤ u)) ∨
      router.any (fun r => decide (160 ≤ r))) := by simp only [hd, hsl, hpll, hrt]; simp
  rw [exec_clocks]
  refine (if_neg hwf).trans ((if_neg (not_stageClosed ho)).trans ?_)
  rcases pll with _ | u
  · cases router <;> rfl
  · rfl

end

theorem firmware_noFlash {s : State} (n : Nat) (ho : stageOpen s 4 = true) :
    exec (.firmware n false) s = .next (stageFatal (advance s n) 4 0x0401 0) := by
  rw [exec_firmware]
  exact (if_neg (not_stageClosed ho)).trans (if_pos rfl)

theorem firmware_flash {s : State} (n : Nat) (ho : stageOpen s 4 = true) :
    exec (.firmware n true) s = .next (match chooseImage (advance s n) 1 with
      | (u, none, c) => stageFatal (putCus u { u.cus with recovery := true }) 4 0x0402 c
      | (u, some k, _) =>
        let w := checkLicences (putCus u { u.cus with cfwSlot := k, cfwSvn := imageSvn u 1 k, digCfw := imageDigest u 1 k })
        stageEnd (rewriteWaybill ((span 0 8).foldl (fun s k => modSite s k (fun x => { x with inReset := false })) w)) 4 []) := by
  rw [exec_firmware]
  refine (if_neg (not_stageClosed ho)).trans ((if_neg (by simp)).trans ?_)
  generalize chooseImage (advance s n) 1 = r
  rcases r with ⟨u, _ | k, c⟩ <;> rfl

section
variable {s u : State} (n : Nat) {rows : List (Nat × Nat)}
  (hr : rows.any (fun r => decide (160 ≤ r.1) || decide (16 ≤ r.2)) = false) (ho : stageOpen s 5 = true)
include hr ho

theorem serai_waysLost {k : Nat} (hb : bringRows rows (advance s n) = (u, some k)) :
    exec (.serai n rows) s = .next (stageFatal u 5 0x0502 k) := by
  rw [exec_serai]
  refine (if_neg (by simp only [hr]; simp)).trans ((if_neg (not_stageClosed ho)).trans ?_)
  simp only [hb]

theorem serai_halted (hb : bringRows rows (advance s n) = (u, none)) (hh : u.flt.halted = true) :
    exec (.serai n rows) s = .next (settle u) := by
  rw [exec_serai]
  refine (if_neg (by simp only [hr]; simp)).trans ((if_neg (not_stageClosed ho)).trans ?_)
  simp only [hb]
  exact if_pos hh

theorem serai_runs (hb : bringRows rows (advance s n) = (u, none)) (hh : u.flt.halted = false) :
    exec (.serai n rows) s = .next (settle (match chooseImage u 2 with
      | (v, none, c) => stageFatal v 5 0x0501 c
      | (v, some k, _) =>
        let p := (slotImage v 2 k).2
        let x : CustomsState := { v.cus with
          pplSlot := k, pplSvn := imageSvn v 2 k, digPpl := imageDigest v 2 k, payloadId := fieldOf p 0 4, pplReady := true }
        let w := startFetch (loadImage (putCus v x) p)
        let w := { w with mem := { w.mem with customsReady := true } }
        stageEnd w 5 (if waysDisabled w = 0 then [] else [(0x0503, waysDisabled w)]))) := by
  rw [exec_serai]
  refine (if_neg (by simp only [hr]; simp)).trans ((if_neg (not_stageClosed ho)).trans ?_)
  simp only [hb]
  refine (if_neg (by simp [hh])).trans ?_
  generalize chooseImage u 2 = r
  rcases r with ⟨v, _ | k, c⟩ <;> rfl

end

theorem porter_ends {s : State} (n : Nat) (ho : stageOpen s 8 = true) (he : stageEnded s 5 = true) :
    let u := advance ((span 0 s.prt.waves).foldl (fun s w => match exec (.waveRelease w) s with | .next v => v | _ => s) s) n
    let failed := (u.prt.clusters.filter (fun p => p.2.bootFail || p.2.exhausted)).length
    exec (.porter n) s = .next (stageEnd u 8 (if failed = 0 then [] else [(0x0801, failed)])) := by
  rw [exec_porter]
  exact if_neg (by simp [ho, he])

/-- A column that fails is remapped, or its engine leaves service (R176). -/
def columnFails (s : State) (c : Nat × Nat) : State :=
  if (engine s c.1).outOfService then s else (remapColumn s c.1 c.2).getD (engineOut s c.1)

/-- Stage 0x09 ends with the engines that are out of service. -/
def enginesEnd (u : State) : State :=
  let out := maskOf 8 (fun e => (engine u e).outOfService)
  stageEnd u 9 (if out = 0 then [] else [(0x0901, out)])

theorem columnFails_eq (s : State) (c : Nat × Nat) :
    (if (engine s c.1).outOfService then s else match remapColumn s c.1 c.2 with
      | some s => s
      | none => engineOut s c.1) = columnFails s c := by
  unfold columnFails
  cases remapColumn s c.1 c.2 <;> rfl

theorem engines_end {s : State} (n : Nat) {cols : List (Nat × Nat)}
    (hc : cols.any (fun c => decide (8 ≤ c.1) || decide (512 ≤ c.2)) = false) (ho : stageOpen s 9 = true) :
    exec (.engines n cols) s = .next (settle (enginesEnd (cols.foldl columnFails (advance s n)))) := by
  rw [exec_engines]
  refine (if_neg (by rw [hc]; exact Bool.false_ne_true)).trans ((if_neg (not_stageClosed ho)).trans ?_)
  exact congrArg (fun f => Host.Outcome.next (settle (enginesEnd (cols.foldl f (advance s n))))) (funext₂ columnFails_eq)

theorem sites_end {s : State} (n : Nat) (ho : stageOpen s 10 = true)
    (ha : (span 0 8).any (fun k => (span 0 4).any (fun m => (moduleOf s k m).asked)) = false) :
    let u := advance s n
    let u := recordMap (if u.bring.path = 2 then
      putBring u { u.bring with restored := (span 0 8).map (fun k => (site u k).ref) } else u)
    let bad := maskOf 8 (fun k => (site u k).refused || (site u k).identFail)
    exec (.sites n) s = .next (stageEnd u 10 (if bad = 0 then [] else [(0x0A01, bad)])) := by
  rw [exec_sites]
  exact if_neg (by simp only [ho, ha]; simp)

/-! ### Mark 0 -/

theorem start_sets {s : State} (ho : stageOpen s 11 = true) (hm : s.stage.nextMark = 0) :
    exec .start s = .next { s with stage := { s.stage with nextMark := (stageRec s 11).start + 100000 } } := by
  rw [exec_start]
  exact if_neg (by simp [ho, hm])

theorem markZero_fires {s : State} (k : Nat) {eyes : List Nat} (ho : stageOpen s 11 = true) (hm : s.stage.nextMark ≠ 0)
    (he : eyes.length = 32) :
    exec (.markZero k eyes) s = .next (settle (markZero (advance s s.stage.nextMark) k eyes)) := by
  rw [exec_markZero]
  exact (if_neg (not_not.mpr he)).trans (if_neg (by simp [ho, hm]))

theorem hpfBringupUpdate_reports {s : State} {p e : Nat} (hp : p ≤ 1000) (he : e < 16384) (hs : s.bring.supply = .released)
    (hd : s.bring.done = false) (hh : s.flt.halted = false) :
    exec (.hpfBringupUpdate p e) s = .next (putBring s { s.bring with progress := p, eta := e }) := by
  rw [exec_hpfBringupUpdate]
  exact (if_neg (by omega)).trans (if_neg (by simp [hs, hd, hh]))

/-! ### HBM -/

section
variable (caps : List Nat) (failed late : BitVec 8) (s : State)

/-- The stacks that a licence enables (R346). -/
def hbmOn : List Nat := (span 0 8).filter (stackLicensed s)

/-- The stacks that report a capacity. -/
def hbmThere : List Nat := (span 0 8).filter (fun h => caps[h]?.getD 0 != 0)

/-- A licensed stack reports no capacity. -/
def hbmSilent : Bool := (hbmOn s).any (fun h => caps[h]?.getD 0 == 0)

/-- The start is a full one, after power-on reset (R644). -/
def fullStart : Bool := s.bring.path == 1

/-- The capacity of a stack: at a full start the one that it reports, else the one that it has. -/
def hbmCap (h : Nat) : Nat := if fullStart s then caps[h]?.getD 0 else (stackOf s h).cap

/-- The stacks whose capacity is not the first one's (R346). -/
def hbmDiffer : Nat :=
  let first := match hbmThere caps with | h :: _ => hbmCap caps s h | [] => 0
  maskOf 8 (fun h => (hbmThere caps).contains h && hbmCap caps s h != first)

/-- The licensed stacks that leave service: those that failed, with their partners (R347). -/
def hbmOut : Nat := maskOf 8 (fun h => (hbmOn s).contains h && bitOf (pairMask failed.toNat) h)

/-- The licensed stacks enter service with their capacities, those that failed leave it, and a full start fuses repaired rows. -/
def hbmEntered : State :=
  let v := if fullStart s then (hbmThere caps).foldl (fun v h => putStack v h { stackOf v h with cap := hbmCap caps s h }) s else s
  let v := (hbmOn s).foldl (fun v h => putStack v h { stackOf v h with
    cap := hbmCap caps s h, inService := true, selfRefresh := false,
    retained := !fullStart s && (stackOf v h).selfRefresh && !bitOf late.toNat h && v.bring.interrupted.isNone }) v
  let v := stacksOut v (hbmOut failed s)
  if fullStart s then (hbmOn s).foldl hardRepair v else v

/-- The granule map and content that the start leaves (R353, R661). -/
def hbmMapped (v : State) : State :=
  if fullStart s then hbmUndefined (firstMap v)
  else if serviceMask v ≠ maskOf 8 (fun h => (stackOf s h).selfRefresh) ∨ v.bring.lostStack = true then dropConfig v
  else v

/-- Stage 0x06 ends with the level of the memory test to come. -/
def hbmEnd : State :=
  let w := hbmMapped s (hbmEntered caps failed late s)
  let out := hbmOut failed s
  stageEnd (putBring w { w.bring with level := (testLevel w).1 }) 6 (if out ≠ 0 then [(0x0602, out)] else [])

end

section
variable {s : State} (n : Nat) {caps : List Nat} (failed late : BitVec 8) (hl : caps.length = 8)
  (hc : caps.any (fun c => decide (4 < c)) = false) (ho : stageOpen s 6 = true)
include hl hc ho

theorem hbmInit_differs (hf : fullStart (advance s n) = true) (hs : hbmSilent caps (advance s n) = false)
    (hd : hbmDiffer caps (advance s n) ≠ 0) :
    exec (.hbmInit n caps failed late) s = .next (stageFatal (advance s n) 6 0x0601 (hbmDiffer caps (advance s n))) := by
  have hsil : ¬ (fullStart (advance s n) = true ∧ hbmSilent caps (advance s n) = true) := by simp [hs]
  rw [exec_hbmInit]
  exact (if_neg (by rw [hl, hc]; simp)).trans ((if_neg (not_stageClosed ho)).trans ((if_neg hsil).trans (if_pos ⟨hf, hd⟩)))

variable (hk : fullStart (advance s n) = false ∨ hbmSilent caps (advance s n) = false ∧ hbmDiffer caps (advance s n) = 0)
include hk

theorem hbmInit_runs : exec (.hbmInit n caps failed late) s = match emptyHalf (hbmEntered caps failed late (advance s n)) with
    | some k => .next (stageFatal (hbmEntered caps failed late (advance s n)) 6 0x0603 k)
    | none => .next (hbmEnd caps failed late (advance s n)) := by
  have hsil : ¬ (fullStart (advance s n) = true ∧ hbmSilent caps (advance s n) = true) := by
    rcases hk with h | ⟨h, -⟩ <;> simp [h]
  have hdiff : ¬ (fullStart (advance s n) = true ∧ hbmDiffer caps (advance s n) ≠ 0) := by
    rcases hk with h | ⟨-, h⟩ <;> simp [h]
  rw [exec_hbmInit]
  exact (if_neg (by rw [hl, hc]; simp)).trans ((if_neg (not_stageClosed ho)).trans ((if_neg hsil).trans (if_neg hdiff)))

theorem hbmInit_halfEmpty {k : Nat} (he : emptyHalf (hbmEntered caps failed late (advance s n)) = some k) :
    exec (.hbmInit n caps failed late) s = .next (stageFatal (hbmEntered caps failed late (advance s n)) 6 0x0603 k) := by
  rw [hbmInit_runs n failed late hl hc ho hk, he]

theorem hbmInit_ends (he : emptyHalf (hbmEntered caps failed late (advance s n)) = none) :
    exec (.hbmInit n caps failed late) s = .next (hbmEnd caps failed late (advance s n)) := by
  rw [hbmInit_runs n failed late hl hc ho hk, he]

end

/-! ### The memory test -/

section
variable (s : State)

/-- A stack runs the test (R644). -/
def testRuns (h : Nat) : Bool :=
  (stackOf s h).inService && (testLevel s).1 != 0 && ((testLevel s).2 || !(stackOf s h).retained)

/-- A row of a stack that runs the test. -/
def testRowThere (e : Nat × Nat × Nat × Nat × Bool) : Bool :=
  testRuns s e.1 && decide (e.2.2.2.1 < rowsOf (stackOf s e.1).cap)

variable (n : Nat) (rows : List (Nat × Nat × Nat × Nat × Bool))

/-- The rows are retired or repaired, and zeros stand in what was tested. -/
def testCleared : State := clearStacks (testRows (advance s n) rows).1 (maskOf 8 (testRuns s))

/-- The stacks whose record filled, with their partners. -/
def testOut : Nat := Nat.land (pairMask (testRows (advance s n) rows).2.2) (serviceMask (testCleared s n rows))

/-- Those stacks have left service. -/
def tested : State :=
  if testOut s n rows = 0 then testCleared s n rows else stacksOut (testCleared s n rows) (testOut s n rows)

/-- Stage 0x07 ends. -/
def memtestEnd : State :=
  let lost := (testRows (advance s n) rows).2.1
  let out := testOut s n rows
  let u := tested s n rows
  let v := if out = 0 then u else if u.bring.path = 1 then firstMap u else putHbm (dropConfig u) {}
  stageEnd (putBring v { v.bring with
    lastTest := if (testLevel s).1 = 0 then v.bring.lastTest else (testLevel s).1, level := 0, interrupted := none }) 7
    ((if lost = 0 then [] else [(0x0701, lost)]) ++ (if out = 0 then [] else [(0x0702, out)]) ++
      (if (testLevel s).2 || maskOf 8 (testRuns s) == 0 then [] else [(0x0703, maskOf 8 (testRuns s))]))

end

theorem testRowsGone_iff {s : State} {rows : List (Nat × Nat × Nat × Nat × Bool)} (h : rows.all (testRowThere s) = true) :
    rows.any (fun e => !testRuns s e.1 || decide (rowsOf (stackOf s e.1).cap ≤ e.2.2.2.1)) = false := by
  rw [List.any_eq_false]
  intro e he
  have hthere := List.all_eq_true.mp h e he
  simp only [testRowThere, Bool.and_eq_true, decide_eq_true_eq] at hthere
  simp [hthere.1, hthere.2]

section
variable {s : State} (n : Nat) {rows : List (Nat × Nat × Nat × Nat × Bool)} (hb : rows.any testRowBad = false)
  (ho : stageOpen s 7 = true) (hr : rows.all (testRowThere s) = true)
include hb ho hr

theorem memtest_runs : exec (.memtest n rows) s = match emptyHalf (tested s n rows) with
    | some k => .next (stageFatal (tested s n rows) 7 0x0603 k)
    | none => .next (memtestEnd s n rows) := by
  have hgate : ¬ (!stageOpen s 7 || rows.any (fun e => !testRuns s e.1 || decide (rowsOf (stackOf s e.1).cap ≤ e.2.2.2.1))) = true := by
    simp only [ho, testRowsGone_iff hr]; simp
  rw [exec_memtest]
  exact (if_neg (by rw [hb]; exact Bool.false_ne_true)).trans (if_neg hgate)

theorem memtest_halfEmpty {k : Nat} (he : emptyHalf (tested s n rows) = some k) :
    exec (.memtest n rows) s = .next (stageFatal (tested s n rows) 7 0x0603 k) := by
  rw [memtest_runs n hb ho hr, he]

theorem memtest_ends (he : emptyHalf (tested s n rows) = none) : exec (.memtest n rows) s = .next (memtestEnd s n rows) := by
  rw [memtest_runs n hb ho hr, he]

end

/-- Settles O51, stage by stage: the gate of an open stage is passed, and what follows is the command's own function. -/
theorem bringUpStages : Obligations.BringUpStages := by
  unfold Obligations.BringUpStages
  refine ⟨fun s => ⟨supplyGood_holds, supplyOutOfBand_resets⟩, fun s q e a b h => powerOnResetRelease_starts q e a b h,
    fun s n ho => ⟨rom_void n ho, rom_scrapped n ho, rom_passes n ho⟩, ?_,
    fun s n ho => ⟨firmware_noFlash n ho, (firmware_flash n ho).trans ?_⟩, ?_, ?_, ?_,
    fun s n ho he => porter_ends n ho he, fun s n cols hc ho => engines_end n hc ho, fun s n ho ha => sites_end n ho ha,
    fun s ho => ⟨start_sets ho, fun k eyes hm he => markZero_fires k ho hm he⟩,
    fun s p e hp he hs hd hh => hpfBringupUpdate_reports hp he hs hd hh⟩
  · intro s n pll router d sl hd hsl hpll hrt ho
    have hruns := clocks_runs n hd hsl hpll hrt ho
    refine ⟨?_, ?_, ?_⟩
    · rintro u rfl; exact hruns
    · rintro r rfl rfl; exact hruns
    · rintro rfl rfl; exact hruns
  · rfl
  · exact fun s u n rows hr ho => ⟨fun k => serai_waysLost n hr ho, serai_halted n hr ho,
      fun hb hh => (serai_runs n hr ho hb hh).trans rfl⟩
  · exact fun s n caps failed late hl hc ho => ⟨hbmInit_differs n failed late hl hc ho, fun hk =>
      ⟨fun k => hbmInit_halfEmpty n failed late hl hc ho hk, hbmInit_ends n failed late hl hc ho hk⟩⟩
  · exact fun s n rows hb ho hr => ⟨fun k => memtest_halfEmpty n hb ho hr, memtest_ends n hb ho hr⟩

end Sys2Proof.Machine.Claims
end

section
/-!
PROOFS. Hub warm resets and faults, ageing and sensors, and the stage: arm messages, toll windows, marks (R41 to R73, R613, R648, R656 to R692).
-/
namespace Sys2Proof.Machine.Claims

/-! ### Resets and hub faults -/

theorem warmReset_halted {s : State} (hh : s.flt.halted = true) : exec .warmReset s = .next s := by
  rw [exec_warmReset, execWarmReset, warmReset, if_pos hh]

theorem warmReset_now {s : State} (hh : s.flt.halted = false) (hb : s.cus.burn = none) :
    exec .warmReset s = .next (warmNow s false) := by
  rw [exec_warmReset, execWarmReset, warmReset, if_neg (by simp [hh]), if_neg (by simp [hb])]

theorem warmReset_deferred {s : State} (hh : s.flt.halted = false) {b : Burn} (hb : s.cus.burn = some b) : exec .warmReset s =
    .next { s with cus := { s.cus with resetDue := true }, bring := { s.bring with lostStack := s.bring.lostStack || false } } := by
  rw [exec_warmReset, execWarmReset, warmReset, if_neg (by simp [hh]), if_pos (by simp [hb])]

theorem hubFault_taken {s : State} (c : Fin 8) (hh : s.flt.halted = false) (h1 : 1 ≤ c.val) (h4 : c.val < 4) :
    exec (.hubFault c) s = .next (Machine.hubFault s c) := by
  rw [exec_hubFault, execHubFault, if_neg]
  rintro (h | h | h)
  · simp [hh] at h
  · omega
  · omega

/-! ### Ageing -/

section
variable {s : State} (hh : s.flt.halted = false)
include hh

theorem replanInterval_due (hr : s.stage.running = true)
    (hd : s.age.lastReplan + objVal s 0x5041 1 24 * 3600000000000 ≤ s.stage.nextMark) :
    exec .replanInterval s = .next (advance { s with age := { s.age with replanDue := true } }
      (s.age.lastReplan + objVal s 0x5041 1 24 * 3600000000000)) := by
  rw [exec_replanInterval]
  exact if_neg (by simp only [hh, hr]; simpa using hd)

theorem ageingMeasure_measures {d sl : List Nat} (hd : d.length = 184) (hs : sl.any (fun k => decide (184 ≤ k)) = false) :
    exec (.ageingMeasure d sl) s = .next (measureSites s d sl) := by
  rw [exec_ageingMeasure]
  exact (if_neg (by simp only [hd, hs]; simp)).trans (if_neg (by simp [hh]))

theorem avsCurrentRead_reads {a : Nat} (ha : a < 2 ^ 16) :
    exec (.avsCurrentRead a) s = .next { s with age := { s.age with current := a, avsSilent := false } } := by
  rw [exec_avsCurrentRead]
  exact (if_neg (not_le.mpr ha)).trans (if_neg (by simp [hh]))

theorem avsTimeout_reported (hv : s.age.avsSilent = false) :
    exec .avsTimeout s = .next (logEvent { s with age := { s.age with avsSilent := true } } 0x0FEF 0 1 0) := by
  rw [exec_avsTimeout]
  exact if_neg (by simp [hh, hv])

theorem tempSample_taken {d h : List Nat} (hd : d.length = 160) (hl : h.length = 8) :
    let trips := (span 0 160).filter (fun t => decide (110 ≤ d[t]?.getD 0))
    let fill (l : List Nat) : SMap Nat := ((span 0 l.length).zip l).foldl (fun m p => smSet 0 m p.1 p.2) []
    let u := (span 0 8).foldl (fun s k =>
        if (stackOf s k).inService then putStack s k { stackOf s k with hot := decide (85 < h[k]?.getD 0) } else s)
      { s with age := { s.age with tileTemp := fill d, stackTemp := fill h, tripping := trips } }
    exec (.tempSample d h) s = .next (if trips.any (fun t => s.age.tripping.contains t) then Machine.hubFault u 7 else u) := by
  rw [exec_tempSample]
  exact (if_neg (by simp [hd, hl])).trans (if_neg (by simp [hh]))

end

/-- Settles O52, command by command. -/
theorem resetsAndAgeing : Obligations.ResetsAndAgeing := by
  unfold Obligations.ResetsAndAgeing
  exact ⟨fun s => ⟨warmReset_halted, warmReset_now, fun hh b hb => warmReset_deferred hh hb⟩,
    fun s c hh h1 h4 => hubFault_taken c hh h1 h4, exec_replanNow,
    fun s hh => ⟨replanInterval_due hh, fun d sl hd hs => ageingMeasure_measures hh hd hs, fun a ha => avsCurrentRead_reads hh ha,
      avsTimeout_reported hh, fun d h hd hl => tempSample_taken hh hd hl⟩⟩

/-! ### The stage -/

section
variable {s : State} (hh : s.flt.halted = false)
include hh

theorem armSend_sends (ha : s.stage.arm = none) (hm : s.stage.nextMark ≠ 0) :
    let u := advance s (s.stage.nextMark - 4000)
    exec .armSend s = .next { u with stage :=
      { u.stage with arm := some { stage := nextMarkNo u, time := s.stage.nextMark }, armed := [] } } := by
  rw [exec_armSend]
  exact if_neg (by simp [hh, ha, hm])

theorem armReceive_receives {x : HubUnit} {a : ArmMsg} (ha : s.stage.arm = some a) (hx : s.stage.armed.contains x.num = false) :
    exec (.armReceive x) s = .next { s with stage := { s.stage with armed := setAdd s.stage.armed x.num } } := by
  rw [exec_armReceive]
  exact if_neg (by simp only [hh, ha, hx]; simp)

theorem tollWindow_ends (est : Nat) (hr : s.stage.running = true) (hw : s.stage.window < 15) :
    exec (.tollWindow est) s = .next (settle (windowStep s est)) := by
  rw [exec_tollWindow]
  exact if_neg (by simpa [hh, hr] using hw)

/-- The state after the marks' windows have ended and the next mark has fired. -/
def markFired (s : State) (k est : Nat) (eyes : List Nat) : State :=
  let v := finishWindows s est
  fireMark (advance v v.stage.nextMark) (v.stage.number + 1) k eyes

section
variable (k est : Nat) {eyes : List Nat} (hr : s.stage.running = true) (he : eyes.length = 32)
include hr he

theorem stageMark_runs : exec (.stageMark k eyes est) s =
    if 3 ≤ (markFired s k est eyes).flt.skewRun then .next (Machine.hubFault (markFired s k est eyes) 4)
    else .next (settle (markFired s k est eyes)) := by
  rw [exec_stageMark]
  exact (if_neg (not_not.mpr he)).trans (if_neg (by simp [hh, hr]))

theorem stageMark_fires (hs : (markFired s k est eyes).flt.skewRun < 3) :
    exec (.stageMark k eyes est) s = .next (settle (markFired s k est eyes)) := by
  rw [stageMark_runs hh k est hr he, if_neg (not_le.mpr hs)]

theorem stageMark_skewed (hs : 3 ≤ (markFired s k est eyes).flt.skewRun) :
    exec (.stageMark k eyes est) s = .next (Machine.hubFault (markFired s k est eyes) 4) := by
  rw [stageMark_runs hh k est hr he, if_pos hs]

end
end

/-- Settles O53, command by command. -/
theorem stageCommands : Obligations.StageCommands := by
  unfold Obligations.StageCommands
  exact fun s hh => ⟨armSend_sends hh, fun x a ha hx => armReceive_receives hh ha hx, tollWindow_ends hh,
    fun k est eyes hr he => ⟨stageMark_fires hh k est hr he, stageMark_skewed hh k est hr he⟩⟩

end Sys2Proof.Machine.Claims
end

section
/-!
PROOFS. The matrix engines: descriptors and planes, guard tiles, the fault ladder, the ends of descriptors and steps (R134 to R213).
-/
namespace Sys2Proof.Machine.Claims

/-! ### Fetching descriptors -/

section
variable {s u : State} {e : Nat} {r : EngRun} {b : List Byte} {x : EngDesc}

/-- What a descriptor's bytes bring about, with its check (R158 to R162). -/
def fetched (u : State) (e : Nat) (r : EngRun) (b : List Byte) : State :=
  match engDescOf b, checkDesc u r.part r.ctx e r.ha b with
  | some x, .complete => engStart (wantPlane (modEngine u e (fun z => { z with next := some { r with bytes := b } })) e (x.tag r.part r.ctx)) e true
  | some x, st => fetchFails (logOutside u r.part r.ctx (initEngine e) x.ranges) e { r with bytes := b } st
  | none, st => fetchFails u e { r with bytes := b } (if st = .complete then .aborted else st)

theorem fetched_none (h : engDescOf b = none) : fetched u e r b = fetchFails u e { r with bytes := b }
    (if checkDesc u r.part r.ctx e r.ha b = .complete then .aborted else checkDesc u r.part r.ctx e r.ha b) := by
  simp only [fetched, h]

theorem fetched_complete (h : engDescOf b = some x) (hst : checkDesc u r.part r.ctx e r.ha b = .complete) : fetched u e r b =
    engStart (wantPlane (modEngine u e (fun z => { z with next := some { r with bytes := b } })) e (x.tag r.part r.ctx)) e true := by
  simp only [fetched, h, hst]

theorem fetched_bad (h : engDescOf b = some x) (hst : checkDesc u r.part r.ctx e r.ha b ≠ .complete) : fetched u e r b =
    fetchFails (logOutside u r.part r.ctx (initEngine e) x.ranges) e { r with bytes := b } (checkDesc u r.part r.ctx e r.ha b) := by
  simp only [fetched, h]

end

/-- The descriptor that is fetched, before its bytes are there. -/
def fetchRun (w : EngStep) (y : Step) (d ix : Nat) : EngRun :=
  { step := w.step, part := w.part, ctx := y.ctx, index := ix, ha := d + 128 * ix, bytes := [] }

section
variable {s : State} {e : Fin 8} {w : EngStep} {ix d n m : Nat} {y : Step} (hn : (engine s e).next = none)
  (ho : engineOpen s e = true) (hf : fetchNext s e = some (w, ix)) (hs : stepFind s w.step = some y) (hb : y.body = .engine d n m)
include hn ho hf hs hb

theorem descriptorFetch_outside (hw : inWindows s w.part y.ctx (d + 128 * ix) 128 = false) : exec (.descriptorFetch e) s =
    .next (settle (fetchFails (logOutside s w.part y.ctx (initEngine e) [(d + 128 * ix, 128)]) e (fetchRun w y d ix) .translationFault)) := by
  rw [exec_descriptorFetch, execDescriptorFetch, if_neg (by simp [hn, ho])]
  simp only [hf, hs, hb]
  rw [if_pos (by simp [hw])]
  rfl

variable (hw : inWindows s w.part y.ctx (d + 128 * ix) 128 = true)
include hw

theorem descriptorFetch_gate : exec (.descriptorFetch e) s = match gate s (.engine e) 0 (initEngine e) w.part 128 with
    | (g, false) => .next (settle g)
    | (g, true) => match readNow g (d + 128 * ix) 128 0 with
      | .wait u => .next (settle (waitFor s u))
      | .bad u st => .next (settle (fetchFails u e (fetchRun w y d ix) st))
      | .done u b => .next (settle (fetched u e (fetchRun w y d ix) b)) := by
  rw [exec_descriptorFetch, execDescriptorFetch, if_neg (by simp [hn, ho])]
  simp only [hf, hs, hb]
  rw [if_neg (by simp [hw])]
  rcases gate s (.engine e) 0 (initEngine e) w.part 128 with ⟨g, _ | _⟩
  · rfl
  · rcases hr : readNow g (d + 128 * ix) 128 0 with ⟨u, b⟩ | ⟨u, st⟩ | u
    · simp only [hr, fetched, fetchRun]
      rcases engDescOf b with _ | x
      · rfl
      · cases checkDesc u w.part y.ctx e (d + 128 * ix) b <;> rfl
    · simp only [hr]; rfl
    · simp only [hr]; rfl

theorem descriptorFetch_held {g : State} (hg : gate s (.engine e) 0 (initEngine e) w.part 128 = (g, false)) :
    exec (.descriptorFetch e) s = .next (settle g) := by
  rw [descriptorFetch_gate hn ho hf hs hb hw, hg]

variable {g u : State} (hg : gate s (.engine e) 0 (initEngine e) w.part 128 = (g, true))
include hg

theorem descriptorFetch_waits (hr : readNow g (d + 128 * ix) 128 0 = .wait u) :
    exec (.descriptorFetch e) s = .next (settle (waitFor s u)) := by
  rw [descriptorFetch_gate hn ho hf hs hb hw, hg]; simp only [hr]

theorem descriptorFetch_fails {st : Status} (hr : readNow g (d + 128 * ix) 128 0 = .bad u st) :
    exec (.descriptorFetch e) s = .next (settle (fetchFails u e (fetchRun w y d ix) st)) := by
  rw [descriptorFetch_gate hn ho hf hs hb hw, hg]; simp only [hr]

theorem descriptorFetch_fetched {b : List Byte} (hr : readNow g (d + 128 * ix) 128 0 = .done u b) :
    exec (.descriptorFetch e) s = .next (settle (fetched u e (fetchRun w y d ix) b)) := by
  rw [descriptorFetch_gate hn ho hf hs hb hw, hg]; simp only [hr]

end

/-! ### Planes -/

/-- What a plane load that has ended leaves: the shadow plane, a broken step, or a wait. -/
def planeLoaded (s : State) (e : Nat) (r : EngRun) : Now Plane → State
  | .done u p =>
    let v := if (engine s e).run.isSome then u else bump u ⟨.mecLoadStallClk, e, 0⟩ ((u.stage.hubTime - (engine s e).idleAt) * 3 / 2)
    engStart (modEngine v e (fun x => { x with shadow := p, loading := none })) e true
  | .bad u st => fetchFails (modEngine u e (fun x => { x with loading := none })) e r st
  | .wait u => waitFor s u

section
variable {s : State} {e : Fin 8} (t : Nat) {r : EngRun} {d : EngDesc} (hn : (engine s e).next = some r)
  (hl : (engine s e).loading.isSome = true) (hd : r.desc = some d)
include hn hl hd

theorem planeLoadDone_gate : exec (.planeLoadDone e t) s =
    match gate s (.engine e) 1 (initEngine e) r.part (rangeBytes (planeRanges d)) with
    | (g, false) => .next (settle g)
    | (g, true) => .next (settle (planeLoaded s e r (planeLoad (advance g t) e r d))) := by
  obtain ⟨l, hl⟩ := Option.isSome_iff_exists.mp hl
  rw [exec_planeLoadDone, execPlaneLoadDone]
  simp only [hn, hl, hd]
  rcases gate s (.engine e) 1 (initEngine e) r.part (rangeBytes (planeRanges d)) with ⟨g, _ | _⟩
  · rfl
  · simp only
    rcases planeLoad (advance g t) e r d with ⟨u, p⟩ | ⟨u, st⟩ | u
    · cases hrun : (engine s e).run <;> simp only [planeLoaded, hrun] <;> rfl
    · rfl
    · rfl

theorem planeLoadDone_held {g : State} (hg : gate s (.engine e) 1 (initEngine e) r.part (rangeBytes (planeRanges d)) = (g, false)) :
    exec (.planeLoadDone e t) s = .next (settle g) := by
  rw [planeLoadDone_gate t hn hl hd, hg]

theorem planeLoadDone_loaded {g : State} (hg : gate s (.engine e) 1 (initEngine e) r.part (rangeBytes (planeRanges d)) = (g, true)) :
    exec (.planeLoadDone e t) s = .next (settle (planeLoaded s e r (planeLoad (advance g t) e r d))) := by
  rw [planeLoadDone_gate t hn hl hd, hg]

end

/-! ### Guard tiles -/

/-- A tile that ran without a trip is released, or waits; an error of a write is the step's. -/
def released (s : State) (clean : State → State) : Now Unit → State
  | .done v _ => clean v
  | .bad v _ => v
  | .wait v => waitFor s v

/-- The state after a guard tile has run and its work has been counted. -/
def guardRan (s u : State) (e : Nat) (r : EngRun) (d : EngDesc) (t : TileRun) (i : List Byte × List ActRow) : State :=
  let w := tileRan u e r d t (i.2.length * vectorClocks d (d.narrow && !t.escalated)) (checksRun s e d)
  if !d.narrow then w else bump w ⟨if t.escalated then .mecWbEscalated else .mecWbNarrowTiles, e, 0⟩ 1

section
variable {s : State} {e : Fin 8} {r : EngRun} {d : EngDesc} {flaws : List Flaw} (hr : (engine s e).run = some r)
  (hd : r.desc = some d) (hl : r.ladder = none) (ht : r.tile < d.tiles) (hf : flaws.all flawOk = true)
include hr hd hl ht hf

theorem guardCheckDone_gate : exec (.guardCheckDone e flaws) s =
    match gate s (.engine e) (2 + r.tile) (initEngine e) r.part (tileBytes (engine s e).active d r.tile) with
    | (g, false) => .next (settle g)
    | (g, true) => match tileInputs g e d r.tile with
      | .wait u => .next (settle (waitFor s u))
      | .bad u st => .next (settle (runFails u e r st))
      | .done u i =>
        let t := tileRun u e d flaws i
        if checksRun s e d && t.tripped then .next (settle (setLadder (guardRan s u e r d t i) e { rung := 1, column := none }))
        else .next (settle (released s id (releaseTile (guardRan s u e r d t i) e r d t))) := by
  rw [exec_guardCheckDone, execGuardCheckDone, if_neg (by simp [hf])]
  simp only [hr, hd]
  rw [if_neg (by simpa [hl] using ht)]
  rcases gate s (.engine e) (2 + r.tile) (initEngine e) r.part (tileBytes (engine s e).active d r.tile) with ⟨g, _ | _⟩
  · rfl
  · rcases hi : tileInputs g e d r.tile with ⟨u, i⟩ | ⟨u, st⟩ | u
    · simp only [hi]
      refine ite_congr rfl (fun _ => rfl) (fun _ => ?_)
      unfold guardRan
      cases releaseTile _ e r d (tileRun u e d flaws i) <;> rfl
    · simp only [hi]; rfl
    · simp only [hi]; rfl

theorem guardCheckDone_held {g : State}
    (hg : gate s (.engine e) (2 + r.tile) (initEngine e) r.part (tileBytes (engine s e).active d r.tile) = (g, false)) :
    exec (.guardCheckDone e flaws) s = .next (settle g) := by
  rw [guardCheckDone_gate hr hd hl ht hf, hg]

variable {g : State} (hg : gate s (.engine e) (2 + r.tile) (initEngine e) r.part (tileBytes (engine s e).active d r.tile) = (g, true))
include hg

theorem guardCheckDone_waits {u : State} (hi : tileInputs g e d r.tile = .wait u) :
    exec (.guardCheckDone e flaws) s = .next (settle (waitFor s u)) := by
  rw [guardCheckDone_gate hr hd hl ht hf, hg]; simp only [hi]

theorem guardCheckDone_fails {u : State} {st : Status} (hi : tileInputs g e d r.tile = .bad u st) :
    exec (.guardCheckDone e flaws) s = .next (settle (runFails u e r st)) := by
  rw [guardCheckDone_gate hr hd hl ht hf, hg]; simp only [hi]

variable {u : State} {i : List Byte × List ActRow} (hi : tileInputs g e d r.tile = .done u i)
include hi

theorem guardCheckDone_trips (htr : (checksRun s e d && (tileRun u e d flaws i).tripped) = true) : exec (.guardCheckDone e flaws) s =
    .next (settle (setLadder (guardRan s u e r d (tileRun u e d flaws i) i) e { rung := 1, column := none })) := by
  rw [guardCheckDone_gate hr hd hl ht hf, hg]; simp only [hi]
  exact if_pos htr

theorem guardCheckDone_releases (htr : (checksRun s e d && (tileRun u e d flaws i).tripped) = false) {n : Now Unit}
    (hn : releaseTile (guardRan s u e r d (tileRun u e d flaws i) i) e r d (tileRun u e d flaws i) = n) :
    exec (.guardCheckDone e flaws) s = .next (settle (released s id n)) := by
  rw [guardCheckDone_gate hr hd hl ht hf, hg]; simp only [hi, ← hn]
  exact if_neg (by simp [htr])

end

/-! ### The fault ladder -/

section
variable (s : State) (e : Nat) (r : EngRun) (d : EngDesc) (reload : Bool)

/-- The plane that a rerun begins with. -/
def rerunFrom : Plane := if reload then {} else (engine s e).active

/-- The bytes that a rerun moves. -/
def rerunBytes : Nat :=
  if reload then rangeBytes (planeRanges d) + tileBytes { rerunFrom s e reload with scales := List.replicate d.wScales 0 } d r.tile
  else tileBytes (rerunFrom s e reload) d r.tile

/-- The plane of a rerun, read again where it is reloaded. -/
def rerunPlane (g : State) : Now Plane := if reload then planeLoad g e r d else .done g (rerunFrom s e reload)

/-- The state after a rerun has run and its work has been counted. -/
def rerunRan (v : State) (extra : Nat) (t : TileRun) (i : List Byte × List ActRow) : State :=
  let load := if reload then planeClocks d else 0
  tileRan (bump v ⟨.mecLoadStallClk, e, 0⟩ load) e r d t (i.2.length * vectorClocks d false + load + extra) true

end

section
variable {s : State} {e : Fin 8} {r : EngRun} {d : EngDesc} {flaws : List Flaw} {reload : Bool} {extra : Nat}
  {again : State → TileRun → List ActRow → Option State} {clean : State → State}

theorem released_eq (s : State) (clean : State → State) (n : Now Unit) :
    (match n with
      | .wait v => okT (waitFor s v)
      | .bad v _ => okT v
      | .done v _ => okT (clean v)) = .next (settle (released s clean n)) := by
  cases n <;> rfl

theorem rerunTile_gate : rerunTile s e r d flaws reload extra again clean =
    match gate s (.engine e) (2 + r.tile) (initEngine e) r.part (rerunBytes s e r d reload) with
    | (g, false) => .next (settle g)
    | (g, true) => match rerunPlane s e r d reload g with
      | .wait u => .next (settle (waitFor s u))
      | .bad u st => .next (settle (runFails u e r st))
      | .done u p => match tileInputs (modEngine u e (fun x => { x with active := p })) e d r.tile with
        | .wait v => .next (settle (waitFor s v))
        | .bad v st => .next (settle (runFails v e r st))
        | .done v i =>
          let t := tileRun v e d flaws i
          let w := rerunRan e r d reload v extra t i
          match again w t i.2 with
          | some w => .next (settle w)
          | none => .next (settle (released s clean (releaseTile w e r d t))) := by
  unfold rerunTile
  change (match gate s (.engine e) (2 + r.tile) (initEngine e) r.part (rerunBytes s e r d reload) with
    | (s', false) => okT s'
    | (s', true) => _) = _
  rcases gate s (.engine e) (2 + r.tile) (initEngine e) r.part (rerunBytes s e r d reload) with ⟨g, _ | _⟩
  · rfl
  · dsimp only
    change (match rerunPlane s e r d reload g with
      | .wait u => okT (waitFor s u)
      | .bad u st => okT (runFails u e r st)
      | .done u p => _) = _
    rcases rerunPlane s e r d reload g with ⟨u, p⟩ | ⟨u, st⟩ | u
    · dsimp only
      rcases tileInputs (modEngine u e (fun x => { x with active := p })) e d r.tile with ⟨v, i⟩ | ⟨v, st⟩ | v
      · dsimp only
        change (match again (rerunRan e r d reload v extra (tileRun v e d flaws i) i) (tileRun v e d flaws i) i.2 with
          | some w => okT w
          | none => _) = _
        rcases again _ (tileRun v e d flaws i) i.2 with _ | w
        · exact released_eq s clean _
        · rfl
      · rfl
      · rfl
    · rfl
    · rfl

theorem rerunTile_held {g : State} (hg : gate s (.engine e) (2 + r.tile) (initEngine e) r.part (rerunBytes s e r d reload) = (g, false)) :
    rerunTile s e r d flaws reload extra again clean = .next (settle g) := by
  rw [rerunTile_gate, hg]

variable {g : State} (hg : gate s (.engine e) (2 + r.tile) (initEngine e) r.part (rerunBytes s e r d reload) = (g, true))
include hg

theorem rerunTile_planeWaits {u : State} (hp : rerunPlane s e r d reload g = .wait u) :
    rerunTile s e r d flaws reload extra again clean = .next (settle (waitFor s u)) := by
  rw [rerunTile_gate, hg]; simp only [hp]

theorem rerunTile_planeFails {u : State} {st : Status} (hp : rerunPlane s e r d reload g = .bad u st) :
    rerunTile s e r d flaws reload extra again clean = .next (settle (runFails u e r st)) := by
  rw [rerunTile_gate, hg]; simp only [hp]

variable {u : State} {p : Plane} (hp : rerunPlane s e r d reload g = .done u p)
include hp

theorem rerunTile_waits {v : State} (hi : tileInputs (modEngine u e (fun x => { x with active := p })) e d r.tile = .wait v) :
    rerunTile s e r d flaws reload extra again clean = .next (settle (waitFor s v)) := by
  rw [rerunTile_gate, hg]; simp only [hp, hi]

theorem rerunTile_fails {v : State} {st : Status}
    (hi : tileInputs (modEngine u e (fun x => { x with active := p })) e d r.tile = .bad v st) :
    rerunTile s e r d flaws reload extra again clean = .next (settle (runFails v e r st)) := by
  rw [rerunTile_gate, hg]; simp only [hp, hi]

variable {v : State} {i : List Byte × List ActRow}
  (hi : tileInputs (modEngine u e (fun x => { x with active := p })) e d r.tile = .done v i)
include hi

theorem rerunTile_again {z : State}
    (ha : again (rerunRan e r d reload v extra (tileRun v e d flaws i) i) (tileRun v e d flaws i) i.2 = some z) :
    rerunTile s e r d flaws reload extra again clean = .next (settle z) := by
  rw [rerunTile_gate, hg]; simp only [hp, hi, ha]

variable (ha : again (rerunRan e r d reload v extra (tileRun v e d flaws i) i) (tileRun v e d flaws i) i.2 = none) {z : State}
include ha

theorem rerunTile_released {x : Unit}
    (hn : releaseTile (rerunRan e r d reload v extra (tileRun v e d flaws i) i) e r d (tileRun v e d flaws i) = .done z x) :
    rerunTile s e r d flaws reload extra again clean = .next (settle (clean z)) := by
  rw [rerunTile_gate, hg]; simp only [hp, hi, ha, hn]; rfl

theorem rerunTile_writeFails {st : Status}
    (hn : releaseTile (rerunRan e r d reload v extra (tileRun v e d flaws i) i) e r d (tileRun v e d flaws i) = .bad z st) :
    rerunTile s e r d flaws reload extra again clean = .next (settle z) := by
  rw [rerunTile_gate, hg]; simp only [hp, hi, ha, hn]; rfl

theorem rerunTile_releaseWaits
    (hn : releaseTile (rerunRan e r d reload v extra (tileRun v e d flaws i) i) e r d (tileRun v e d flaws i) = .wait z) :
    rerunTile s e r d flaws reload extra again clean = .next (settle (waitFor s z)) := by
  rw [rerunTile_gate, hg]; simp only [hp, hi, ha, hn]; rfl

end

/-- What follows the rerun of a rung, where the tile is not released (R195 to R198). -/
def rungAgain (e : Nat) (r : EngRun) (d : EngDesc) (l : Ladder) (flaws : List Flaw) (feed : List FeedFlaw) (w : State) (t : TileRun)
    (acts : List ActRow) : Option State :=
  if l.rung = 1 then afterRung1 e r d w t
  else if l.rung = 2 then some (rung3 w e r d (namedColumns d (engine w e).active flaws feed acts))
  else if t.tripped then some (unresolved w e r l.column) else none

/-- What a release after a rerun counts (R212). -/
def rungClean (e : Nat) (r : EngRun) (l : Ladder) (s : State) : State :=
  setStatus (bump s ⟨if l.rung = 1 then .mecWbTransient else .mecWbRemap, e, 0⟩ 1) ⟨.mecWbIntStatus, e, 0⟩ (if l.rung = 1 then 0 else 1) e r.ha

section
variable {s : State} {e : Fin 8} {r : EngRun} {d : EngDesc} {l : Ladder} {flaws : List Flaw} {feed : List FeedFlaw}
  (hr : (engine s e).run = some r) (hd : r.desc = some d) (hl : r.ladder = some l) (hf : flaws.all flawOk = true)
  (hq : feed.all feedFlawOk = true)
include hr hd hl hf hq

/-- The rerun of any rung, as one command. -/
theorem ladderRerunDone_runs : exec (.ladderRerunDone e flaws feed) s =
    rerunTile s e r d flaws (l.rung != 2) (if l.rung = 2 then 12 else 0) (rungAgain e r d l flaws feed)
      (if l.rung = 2 then id else rungClean e r l) := by
  rw [exec_ladderRerunDone, execLadderRerunDone, if_neg (by simp [hf, hq])]
  simp only [hr, hd, hl]
  by_cases h1 : l.rung = 1
  · have hagain : rungAgain e r d l flaws feed = fun w t _ => afterRung1 e r d w t := by funext w t acts; exact if_pos h1
    have hclean : rungClean e r l = fun s => setStatus (bump s ⟨.mecWbTransient, e, 0⟩ 1) ⟨.mecWbIntStatus, e, 0⟩ 0 e r.ha := by
      funext s; simp only [rungClean, h1]; rfl
    rw [hagain, hclean]
    simp [h1]
  · by_cases h2 : l.rung = 2
    · have hagain : rungAgain e r d l flaws feed =
          fun w _ acts => some (rung3 w e r d (namedColumns d (engine w e).active flaws feed acts)) := by
        funext w t acts; exact (if_neg h1).trans (if_pos h2)
      rw [hagain]
      simp [h2]
    · have hagain : rungAgain e r d l flaws feed = fun w t _ => if t.tripped then some (unresolved w e r l.column) else none := by
        funext w t acts; exact (if_neg h1).trans (if_neg h2)
      have hclean : rungClean e r l = fun s => setStatus (bump s ⟨.mecWbRemap, e, 0⟩ 1) ⟨.mecWbIntStatus, e, 0⟩ 1 e r.ha := by
        funext s; simp only [rungClean, if_neg h1]
      have hreload : (l.rung != 2) = true := by simpa using h2
      rw [hagain, hclean, hreload, if_neg h1, if_neg h2, if_neg h2, if_neg h2]

end

theorem rungAgain_tripped1 {e : Nat} {r : EngRun} {d : EngDesc} {l : Ladder} (flaws : List Flaw) (feed : List FeedFlaw) (w : State) {t : TileRun}
    (acts : List ActRow) (h1 : l.rung = 1) (ht : t.tripped = true) : rungAgain e r d l flaws feed w t acts =
      some (if t.rowTrips.isEmpty then setLadder w e { rung := 2, column := none } else rung3 w e r d t.rowTrips) := by
  rw [rungAgain, if_pos h1, afterRung1, if_neg (by simp [ht])]

theorem rungAgain_rung2 {e : Nat} {r : EngRun} {d : EngDesc} {l : Ladder} (flaws : List Flaw) (feed : List FeedFlaw) (w : State) (t : TileRun)
    (acts : List ActRow) (h2 : l.rung = 2) : rungAgain e r d l flaws feed w t acts =
      some (rung3 w e r d (namedColumns d (engine w e).active flaws feed acts)) := by
  rw [rungAgain, if_neg (by omega), if_pos h2]

theorem rungAgain_tripped3 {e : Nat} {r : EngRun} {d : EngDesc} {l : Ladder} (flaws : List Flaw) (feed : List FeedFlaw) (w : State) {t : TileRun}
    (acts : List ActRow) (h3 : l.rung = 3) (ht : t.tripped = true) :
    rungAgain e r d l flaws feed w t acts = some (unresolved w e r l.column) := by
  rw [rungAgain, if_neg (by omega), if_neg (by omega), if_pos ht]

theorem rungAgain_clean {e : Nat} {r : EngRun} {d : EngDesc} {l : Ladder} (flaws : List Flaw) (feed : List FeedFlaw) (w : State) {t : TileRun}
    (acts : List ActRow) (h : l.rung = 1 ∨ l.rung = 3) (ht : t.tripped = false) : rungAgain e r d l flaws feed w t acts = none := by
  rcases h with h1 | h3
  · rw [rungAgain, if_pos h1, afterRung1, if_pos (by simp [ht])]
  · rw [rungAgain, if_neg (by omega), if_neg (by omega), if_neg (by simp [ht])]

/-! ### Rung 3 -/

section
variable (s : State) (e : Nat) (r : EngRun) (d : EngDesc)

theorem rung3_manyColumns {columns : List Nat} (h : ∀ p, (columns.map (engine s e).active.phys).eraseDups ≠ [p]) :
    rung3 s e r d columns = unresolved s e r none := by
  unfold rung3
  split
  · next p c l hp => exact absurd hp (h p)
  · rfl

variable {s e d} {p c : Nat} {l : List Nat} (h : ((c :: l).map (engine s e).active.phys).eraseDups = [p])
include h

theorem rung3_forbidden (hn : d.noRemap = true) : rung3 s e r d (c :: l) = unresolved s e r (some c) := by
  unfold rung3
  rw [h]
  exact if_pos hn

theorem rung3_noSpare (hn : d.noRemap = false) (hf : freeSpare s e = none) :
    rung3 s e r d (c :: l) = engineOut (bump s ⟨.mecWbUnresolved, e, 0⟩ 1) e := by
  have hremap : remapColumn s e (c % 512) = none := by simp only [remapColumn, hf]
  unfold rung3
  rw [h]
  simp only [hremap]
  exact if_neg (by simp [hn])

theorem rung3_remaps (hn : d.noRemap = false) {u : State} (hu : remapColumn s e (c % 512) = some u) :
    rung3 s e r d (c :: l) = setLadder u e { rung := 3, column := some c } := by
  unfold rung3
  rw [h]
  simp only [hu]
  exact if_neg (by simp [hn])

end

/-! ### The ends of descriptors and steps -/

section
variable {s : State} {e : Fin 8} {t : Nat} {r : EngRun} {d : EngDesc} (hr : (engine s e).run = some r) (hd : r.desc = some d)
  (hl : r.ladder = none) (ht : d.tiles ≤ r.tile) (hc : 3 * r.start + 2 * r.clocks ≤ 3 * t)

/-- The descriptor in the array has ended. -/
def descEnded (s : State) (e t : Nat) : State := endRun (bump (advance s t) ⟨.mecDescDone, e, 0⟩ 1) e

include hr hd hl ht hc

theorem descriptorEnd_runs : exec (.descriptorEnd e t) s = match (engine (descEnded s e t) e).next with
    | some n => if n.bad = .complete then .next (settle (engStart (descEnded s e t) e false))
        else if n.step = r.step then .next (settle (engineBreak (descEnded s e t) e n.step n.bad)) else .next (settle (descEnded s e t))
    | none => .next (settle (descEnded s e t)) := by
  rw [exec_descriptorEnd, execDescriptorEnd]
  simp only [hr, hd]
  rw [if_neg (by simp [hl, ht, hc])]
  rfl

theorem descriptorEnd_noNext (hn : (engine (descEnded s e t) e).next = none) :
    exec (.descriptorEnd e t) s = .next (settle (descEnded s e t)) := by
  rw [descriptorEnd_runs hr hd hl ht hc, hn]

variable {n : EngRun} (hn : (engine (descEnded s e t) e).next = some n)
include hn

theorem descriptorEnd_starts (hb : n.bad = .complete) :
    exec (.descriptorEnd e t) s = .next (settle (engStart (descEnded s e t) e false)) := by
  rw [descriptorEnd_runs hr hd hl ht hc, hn]
  exact if_pos hb

theorem descriptorEnd_breaks (hb : n.bad ≠ .complete) : exec (.descriptorEnd e t) s =
    .next (settle (if n.step = r.step then engineBreak (descEnded s e t) e n.step n.bad else descEnded s e t)) := by
  rw [descriptorEnd_runs hr hd hl ht hc, hn]
  exact (if_neg hb).trans (apply_ite (fun v => Host.Outcome.next (settle v)) _ _ _).symm

end

theorem engineStepCommit_commits {s : State} {e : Fin 8} {p : Fin 9} {w : EngStep} {y : Step}
    (hw : (engine s e).intake.find? (fun w => w.part == p.val) = some w) (hb : w.begun = true)
    (hr : ∀ r, (engine s e).run = some r → r.step ≠ w.step) (hn : descCount s w.step ≤ w.next) (hs : stepFind s w.step = some y) :
    exec (.engineStepCommit e p) s = .next (settle (engStart (commitStep (putEngine s e { engine s e with
      intake := listDelFirst (fun v => v.step == w.step) (engine s e).intake }) y
      (if y.err ≠ .complete then y.err else if w.strict then .guardUnresolved else .complete)) e true)) := by
  rw [exec_engineStepCommit, execEngineStepCommit]
  simp only [hw, hs]
  cases hrun : (engine s e).run with
  | none => exact if_neg (by simp [hb, hn])
  | some r => exact if_neg (by simp [hb, hn, hr r hrun])

/-! ### Cancelled steps -/

/-- The steps of a unit that are being cancelled. -/
def stepsDue (s : State) (u : CancelUnit) : List Step := s.work.steps.filter (fun x => x.ofUnit u && x.cancelling)

/-- Those steps have ended, each with its status. -/
def dueEnded (s : State) (u : CancelUnit) : State :=
  (stepsDue s u).foldl (fun s x => match x.phase with | .cancelling st => breakStep s x st | _ => s) s

theorem stepCancelDone_engine {s : State} {e : Nat} (h : stepsDue s (.engine e) ≠ [] ∨ (engine s e).cancelling = true) :
    exec (.stepCancelDone (.engine e)) s =
      .next (settle (engStart (modEngine (dueEnded s (.engine e)) e (fun x => { x with cancelling := false })) e true)) := by
  rw [exec_stepCancelDone]
  exact if_neg (by simp only [Bool.and_eq_true, List.isEmpty_iff, Bool.not_eq_true', not_and_or, Bool.not_eq_false]; exact h)

theorem stepCancelDone_cluster {s : State} {k : Nat} (h : stepsDue s (.cluster k) ≠ [] ∨ (cluster s k).cancelling = true) :
    exec (.stepCancelDone (.cluster k)) s =
      .next (settle (clusterNext (modCluster (dueEnded s (.cluster k)) k (fun c => { c with cancelling := false })) k)) := by
  rw [exec_stepCancelDone]
  exact if_neg (by simp only [Bool.and_eq_true, List.isEmpty_iff, Bool.not_eq_true', not_and_or, Bool.not_eq_false]; exact h)

theorem stepCancelDone_queue {s : State} {q : Nat} (h : stepsDue s (.queue q) ≠ []) :
    exec (.stepCancelDone (.queue q)) s = .next (settle (dueEnded s (.queue q))) := by
  rw [exec_stepCancelDone]
  exact if_neg (by simp only [Bool.and_eq_true, List.isEmpty_iff, not_and]; exact fun hn => absurd hn h)

/-- Settles O54: the state before each command decides which of its branches is taken, and the gate, the read and the release what it
leaves. -/
theorem engineCommands : Obligations.EngineCommands := by
  unfold Obligations.EngineCommands
  refine ⟨fun s e v => ⟨exec_mecDrain e v s, exec_mecEnable e v s⟩, ?_, ?_, ?_, ?_, ?_, ?_, ?_, ?_⟩
  · intro s e w ix d n m y hn ho hf hs hb
    refine ⟨descriptorFetch_outside hn ho hf hs hb, fun hw => ⟨fun g => descriptorFetch_held hn ho hf hs hb hw, fun g hg =>
      ⟨fun u => descriptorFetch_waits hn ho hf hs hb hw hg, fun u st => descriptorFetch_fails hn ho hf hs hb hw hg, fun u b hr => ?_⟩⟩⟩
    have hrun := descriptorFetch_fetched hn ho hf hs hb hw hg hr
    exact ⟨fun hx => hrun.trans (congrArg _ (congrArg settle (fetched_none hx))), fun x hx =>
      ⟨fun hst => hrun.trans (congrArg _ (congrArg settle (fetched_complete hx hst))),
        fun hst => hrun.trans (congrArg _ (congrArg settle (fetched_bad hx hst)))⟩⟩
  · intro s e t r d hn hl hd
    refine ⟨fun g => planeLoadDone_held t hn hl hd, fun g hg => (planeLoadDone_loaded t hn hl hd hg).trans ?_⟩
    generalize planeLoad (advance g t) e r d = q
    cases q <;> rfl
  · intro s e r d flaws hr hd hl ht hf
    exact ⟨fun g => guardCheckDone_held hr hd hl ht hf, fun g hg =>
      ⟨fun u => guardCheckDone_waits hr hd hl ht hf hg, fun u st => guardCheckDone_fails hr hd hl ht hf hg, fun u i hi =>
        ⟨guardCheckDone_trips hr hd hl ht hf hg hi, fun htr =>
          ⟨fun v x => guardCheckDone_releases hr hd hl ht hf hg hi htr, fun v st => guardCheckDone_releases hr hd hl ht hf hg hi htr,
            fun v => guardCheckDone_releases hr hd hl ht hf hg hi htr⟩⟩⟩⟩
  · intro s e r d l flaws feed hr hd hl hf hq
    have hrun := ladderRerunDone_runs hr hd hl hf hq
    refine ⟨fun g hg => hrun.trans (rerunTile_held hg), fun g hg => ⟨fun u hp => hrun.trans (rerunTile_planeWaits hg hp),
      fun u st hp => hrun.trans (rerunTile_planeFails hg hp), fun u p hp => ⟨fun v hi => hrun.trans (rerunTile_waits hg hp hi),
        fun v st hi => hrun.trans (rerunTile_fails hg hp hi), fun v i hi => ⟨fun h1 ht => ?_, fun h2 => ?_, fun h3 ht => ?_, fun h ht => ?_⟩⟩⟩⟩
    · exact hrun.trans (rerunTile_again hg hp hi (rungAgain_tripped1 flaws feed _ i.2 h1 ht))
    · exact hrun.trans (rerunTile_again hg hp hi (rungAgain_rung2 flaws feed _ _ i.2 h2))
    · exact hrun.trans (rerunTile_again hg hp hi (rungAgain_tripped3 flaws feed _ i.2 h3 ht))
    · have hclean : (if l.rung = 2 then id else rungClean e r l) = rungClean e r l := if_neg (by omega)
      have hagain := rungAgain_clean (e := e) (r := r) (d := d) flaws feed (rerunRan e r d (l.rung != 2) v (if l.rung = 2 then 12 else 0) (tileRun v e d flaws i) i) i.2 h ht
      rw [hclean] at hrun
      exact ⟨fun z x hz => hrun.trans (rerunTile_released hg hp hi hagain hz),
        fun z st hz => hrun.trans (rerunTile_writeFails hg hp hi hagain hz),
        fun z hz => hrun.trans (rerunTile_releaseWaits hg hp hi hagain hz)⟩
  · intro s e r d columns
    refine ⟨rung3_manyColumns s e r d, ?_⟩
    rintro p c l hp rfl
    exact ⟨rung3_forbidden r hp, rung3_noSpare r hp, fun hn u => rung3_remaps r hp hn⟩
  · intro s e t r d hr hd hl ht hc
    exact ⟨descriptorEnd_noNext hr hd hl ht hc, fun n hn => ⟨descriptorEnd_starts hr hd hl ht hc hn, descriptorEnd_breaks hr hd hl ht hc hn⟩⟩
  · exact fun s e p w y hw hb hr hn hs => engineStepCommit_commits hw hb hr hn hs
  · intro s u
    refine ⟨?_, ?_, ?_⟩
    · rintro e rfl h; exact (stepCancelDone_engine h).trans rfl
    · rintro k rfl h; exact (stepCancelDone_cluster h).trans rfl
    · rintro q rfl h; exact (stepCancelDone_queue h).trans rfl

end Sys2Proof.Machine.Claims
end

section
/-!
PROOFS. Every command: its ranges refuse it, or it has a next state (log entries 4 and 5).
-/
namespace Sys2Proof.Machine.Claims

/-! ### Outcomes -/

/-- The outcome is a next state. -/
def Total (r : Res) : Prop := ∃ t, r = .next t

@[simp] theorem Total.next (t : State) : Total (.next t) := ⟨t, rfl⟩

@[simp] theorem Total.nextSettled (t : State) : Total (okT t) := ⟨settle t, rfl⟩

theorem Total.ite {c : Prop} [Decidable c] {a b : Res} (ha : Total a) (hb : Total b) : Total (if c then a else b) := by
  split
  · exact ha
  · exact hb

/-- A command whose operands keep their ranges, as `wf` says, has a next state, and any other is refused. -/
def Settled (wf : Bool) (r : Res) : Prop := (wf = false → r = .refused .illFormed) ∧ (wf = true → Total r)

theorem Settled.of_total {r : Res} (h : Total r) : Settled true r := ⟨fun hf => (nomatch hf), fun _ => h⟩

/-- A command that first tests its ranges. -/
theorem Settled.gate {wf : Bool} {bad : Prop} [Decidable bad] {r : Res} (hw : wf = false ↔ bad) (h : Total r) :
    Settled wf (if bad then illFormed else r) := by
  by_cases hb : bad
  · exact ⟨fun _ => if_pos hb, fun hwf => absurd (hw.mpr hb) (by simp [hwf])⟩
  · exact ⟨fun hwf => absurd (hw.mp hwf) hb, fun _ => by rwa [if_neg hb]⟩

theorem Settled.gate_not {wf : Bool} {r : Res} (h : Total r) : Settled wf (if !wf then illFormed else r) :=
  .gate (by cases wf <;> simp) h

theorem Settled.lt {n m : Nat} {r : Res} (h : Total r) : Settled (decide (n < m)) (if m ≤ n then illFormed else r) :=
  .gate (by simp) h

/-- A command that tests some ranges, and leaves the rest to what it goes on to. -/
theorem Settled.gate_and {wf w : Bool} {bad : Prop} [Decidable bad] {r : Res} (hw : wf = (!decide bad && w)) (h : Settled w r) :
    Settled wf (if bad then illFormed else r) := by
  obtain ⟨href, htot⟩ := h
  by_cases hb : bad
  · exact ⟨fun _ => if_pos hb, fun hwf => by simp [hw, hb] at hwf⟩
  · rw [if_neg hb]
    simp only [hw, hb, decide_false, Bool.not_false, Bool.true_and]
    exact ⟨href, htot⟩

/-- A test of every operand of a list, as its one failure. -/
theorem all_eq_false_iff {α : Type} {l : List α} {p q : α → Bool} (h : ∀ x, q x = !p x) : l.all p = false ↔ l.any q = true := by
  rw [funext h, ← List.not_all_eq_any_not, Bool.not_eq_true']

/-! ### The instructions of the cores -/

theorem total_coreDo {c : Fin 25600} {s : State} {f : Core → State → Res} (h : ∀ x t, Total (f x t)) : Total (coreDo c s f) := by
  have hfetch : Total (fetchDo c s f) := .ite (h _ _) (.next _)
  exact .ite (.next _) (.ite hfetch (.next _))

@[simp] theorem total_retire (s : State) (c : Fin 25600) (x : Core) : Total (retire s c x) := .next _

@[simp] theorem total_illegal (s : State) (c : Fin 25600) (word : Nat) : Total (illegal s c word) := .next _

theorem total_coreRegs (c : Fin 25600) (s : State) (f : Core → Core) : Total (coreRegs c s f) := total_coreDo fun _ _ => .next _

theorem total_access (c : Fin 25600) (ea : BitVec 64) (op : MemOp) (x : Core) (s : State) : Total (access c ea op x s) := by
  unfold access
  dsimp only
  repeat' split
  all_goals simp

theorem total_load (c : Fin 25600) (d a : Fin 32) (imm : BitVec 14) (size : Nat) (signed : Bool) (s : State) :
    Total (load c d a imm size signed s) := total_coreDo fun _ _ => total_access ..

theorem total_store (c : Fin 25600) (d a : Fin 32) (imm : BitVec 14) (size : Nat) (s : State) : Total (store c d a imm size s) :=
  total_coreDo fun _ _ => total_access ..

theorem total_tally (c : Fin 25600) (op : TallyOp) (code : Nat) (d a b : Fin 32) (fl : BitVec 7) (s : State) :
    Total (tally c op code d a b fl s) :=
  total_coreDo fun _ _ => .ite (.next _) (.ite (.next _) (.ite (.next _) (.next _)))

/-! ### Steps, tier commands and messages -/

theorem total_tierCommand {op q : Nat} {s : State} {run : Context → Step → TierCmd → State → Res}
    (h : ∀ c x k t, Total (run c x k t)) : Total (tierCommand op q s run) := by
  fun_cases tierCommand op q s run <;> simp [h]

theorem total_readStep (s : State) (n : Nat) (q : Queue) (rec : Fetched) : Total (readStep s n q rec) := by
  fun_cases readStep s n q rec <;> simp

theorem total_readEnds (s : State) (port tag : Nat) (d : Fetched) : Total (readEnds s port tag d) := by
  unfold readEnds
  dsimp only
  repeat' split
  all_goals simp

theorem total_sendStep (s : State) (x : Step) : Total (sendStep s x) := by
  fun_cases sendStep s x <;> simp

theorem total_respond (k : Fin 8) (line : Nat) (fits : Snoop → Bool) (go : State → Txn → Nat → Snoop → State) (s : State) :
    Total (respond k line fits go s) := by
  fun_cases respond k line fits go s <;> simp

theorem total_rerunTile (s : State) (e : Fin 8) (r : EngRun) (d : EngDesc) (fl : List Flaw) (reload : Bool) (extra : Nat)
    (again : State → TileRun → List ActRow → Option State) (clean : State → State) :
    Total (rerunTile s e r d fl reload extra again clean) := by
  unfold rerunTile
  dsimp only
  repeat' split
  all_goals simp

theorem settled_startCmd (s : State) (fn op : Nat) (run : State → State) : Settled (decide (fn < 13)) (startCmd s fn op run) :=
  .lt (.ite (.next _) (.ite (.next _) (.ite (.next _) (.ite (.next _) (.ite (.next _) (.next _))))))

theorem settled_postOwn (s : State) (fn : Nat) (p : PostedOp) : Settled (decide (fn < 13)) (postOwn s fn p) :=
  .lt (.ite (.next _) (.ite (.next _) (.next _)))

theorem settled_chipRequest (k : Fin 8) (m : Fin 4) (h : Header) (op : ReqOp) (code : Nat) (data : Line) (mask : BitVec 128)
    (bytes : Nat) (s : State) : Settled (isMessage h 0 code) (chipRequest k m h op code data mask bytes s) := by
  refine .gate_not ?_
  repeat' split
  all_goals simp

theorem settled_ioRequest {k : Fin 8} {m : Fin 4} {h : Header} {op slots : Nat} {go : State → Nat → Nat → Res} {s : State}
    (hgo : ∀ t q n, Total (go t q n)) : Settled (isMessage h 1 op) (ioRequest k m h op slots go s) := by
  refine .gate_not ?_
  dsimp only
  repeat' split
  all_goals simp [hgo]

theorem settled_runRequest (a : Accessor) (cmd : Nat) (inst : Fin 32) (payload : List Byte) (secured : Bool) (s : State) :
    Settled (decide (payload.length ≤ roomOf a)) (runRequest a cmd inst payload secured s) := by
  refine .gate (by simp) ?_
  repeat' split
  all_goals simp

/-! ### Instructions whose result turns on what they find -/

theorem total_shi c d a imm (s : State) : Total (execShi c d a imm s) := by
  refine total_coreDo fun x t => ?_
  dsimp only
  split <;> simp

theorem total_vld c d a imm (s : State) : Total (execVld c d a imm s) :=
  total_coreDo fun _ _ => .ite (.next _) (total_access ..)

theorem total_vst c d a imm (s : State) : Total (execVst c d a imm s) :=
  total_coreDo fun _ _ => .ite (.next _) (total_access ..)

theorem total_ccrr c d imm (s : State) : Total (execCcrr c d imm s) := by
  refine total_coreDo fun x t => ?_
  split
  · exact .ite (.next _) (.next _)
  · exact .next _

theorem total_ccrw c d a imm (s : State) : Total (execCcrw c d a imm s) := by
  refine total_coreDo fun x t => ?_
  split
  · exact .ite (.next _) (.next _)
  · exact .next _

theorem total_ndot c vd va vb g (s : State) : Total (execNdot c vd va vb g s) := by
  refine total_coreDo fun x t => ?_
  dsimp only
  split
  · exact .ite (.next _) (.next _)
  · exact .next _

theorem total_ncvt c vd va g (s : State) : Total (execNcvt c vd va g s) := by
  refine total_coreDo fun x t => ?_
  dsimp only
  split
  · exact .ite (.next _) (.next _)
  · exact .next _

theorem total_nexp c vd va g (s : State) : Total (execNexp c vd va g s) := by
  refine total_coreDo fun x t => ?_
  dsimp only
  split
  · exact .ite (.next _) (.next _)
  · exact .next _

theorem total_bmove c d a b fn (s : State) : Total (execBmove c d a b fn s) := by
  refine total_coreDo fun x t => ?_
  refine .ite (.next _) (.ite (.next _) (.ite (.next _) (.ite (.next _) (.ite (.next _) (.ite (.next _) (.ite (.next _)
    (.ite (.next _) ?_)))))))
  dsimp only
  split <;> simp

theorem total_cmaIssue c d a (s : State) : Total (execCmaIssue c d a s) := by
  refine total_coreDo fun x t => .ite (.next _) ?_
  split <;> simp

theorem total_cmaWait c d a (s : State) : Total (execCmaWait c d a s) := by
  refine total_coreDo fun x t => ?_
  dsimp only
  split <;> simp

/-! ### Commands whose effect turns on what the state holds -/

theorem total_granuleZeroingDone g (s : State) : Total (execGranuleZeroingDone g s) := by
  fun_cases execGranuleZeroingDone g s <;> simp

theorem total_deadlineExpiry who line (s : State) : Total (execDeadlineExpiry who line s) := by
  fun_cases execDeadlineExpiry who line s <;> simp

theorem total_descriptorFetch e (s : State) : Total (execDescriptorFetch e s) := by
  fun_cases execDescriptorFetch e s <;> simp

theorem total_planeLoadDone e t (s : State) : Total (execPlaneLoadDone e t s) := by
  fun_cases execPlaneLoadDone e t s <;> simp

theorem total_descriptorEnd e t (s : State) : Total (execDescriptorEnd e t s) := by
  fun_cases execDescriptorEnd e t s <;> simp

theorem total_engineStepCommit e part (s : State) : Total (execEngineStepCommit e part s) := by
  fun_cases execEngineStepCommit e part s <;> simp

theorem total_tallyWaitRelease c (s : State) : Total (execTallyWaitRelease c s) := by
  fun_cases execTallyWaitRelease c s <;> simp

theorem total_cmaWaitRelease c (s : State) : Total (execCmaWaitRelease c s) := by
  fun_cases execCmaWaitRelease c s <;> simp

theorem total_cmaCommandDone k (s : State) : Total (execCmaCommandDone k s) := by
  fun_cases execCmaCommandDone k s <;> simp

theorem total_l0FillReturn c (s : State) : Total (execL0FillReturn c s) := by
  fun_cases execL0FillReturn c s <;> simp

theorem total_writeAccepted c (s : State) : Total (execWriteAccepted c s) := by
  fun_cases execWriteAccepted c s <;> simp

theorem total_coreFault c t (s : State) : Total (execCoreFault c t s) := by
  fun_cases execCoreFault c t s <;> simp

theorem total_waveRelease w (s : State) : Total (execWaveRelease w s) := by
  fun_cases execWaveRelease w s <;> simp

theorem total_homeRead c (s : State) : Total (execHomeRead c s) := by
  fun_cases execHomeRead c s <;> simp

theorem total_homeWrite c line (s : State) : Total (execHomeWrite c line s) := by
  fun_cases execHomeWrite c line s <;> simp

theorem total_lineUnbusy line (s : State) : Total (execLineUnbusy line s) := by
  fun_cases execLineUnbusy line s <;> simp

theorem total_missFillReturn line (s : State) : Total (execMissFillReturn line s) := by
  fun_cases execMissFillReturn line s <;> simp

theorem total_writebackBufferFree line (s : State) : Total (execWritebackBufferFree line s) := by
  fun_cases execWritebackBufferFree line s <;> simp

theorem total_baleFillDone fn bale (s : State) : Total (execBaleFillDone fn bale s) := by
  fun_cases execBaleFillDone fn bale s <;> simp

theorem total_baleWritebackDone fn bale nib byt (s : State) : Total (execBaleWritebackDone fn bale nib byt s) := by
  fun_cases execBaleWritebackDone fn bale nib byt s <;> simp

theorem total_baleMoveDone fn bale nib byt (s : State) : Total (execBaleMoveDone fn bale nib byt s) := by
  fun_cases execBaleMoveDone fn bale nib byt s <;> simp

theorem total_tierStepCommit q (s : State) : Total (execTierStepCommit q s) := by
  fun_cases execTierStepCommit q s <;> simp

theorem total_maintDone fn (s : State) : Total (execMaintDone fn s) := by
  fun_cases execMaintDone fn s <;> simp

theorem total_hbmReadIssue h pc (s : State) : Total (execHbmReadIssue h pc s) := by
  fun_cases execHbmReadIssue h pc s <;> simp

theorem total_hbmReadData line a b ondie (s : State) : Total (execHbmReadData line a b ondie s) := by
  fun_cases execHbmReadData line a b ondie s <;> simp

theorem total_patrolScrubRead h o (s : State) : Total (execPatrolScrubRead h o s) := by
  fun_cases execPatrolScrubRead h o s <;> simp

theorem total_rowRepair h spare (s : State) : Total (execRowRepair h spare s) := by
  fun_cases execRowRepair h spare s <;> simp

theorem total_rowRepairDone h (s : State) : Total (execRowRepairDone h s) := by
  fun_cases execRowRepairDone h s <;> simp

theorem total_fwdAck k line (s : State) : Total (execFwdAck k line s) := by
  fun_cases execFwdAck k line s <;> simp

theorem total_holdExpiry k line (s : State) : Total (execHoldExpiry k line s) := by
  fun_cases execHoldExpiry k line s <;> simp

theorem total_snoopTimeout k line (s : State) : Total (execSnoopTimeout k line s) := by
  fun_cases execSnoopTimeout k line s <;> simp

theorem total_linkGraceExpiry k (s : State) : Total (execLinkGraceExpiry k s) := by
  fun_cases execLinkGraceExpiry k s <;> simp

theorem total_domainReset d (s : State) : Total (execDomainReset d s) := by
  fun_cases execDomainReset d s <;> simp

theorem total_responseTimeout who line (s : State) : Total (execResponseTimeout who line s) := by
  fun_cases execResponseTimeout who line s <;> simp

theorem total_baleData k m tag init line data poison (s : State) : Total (execBaleData k m tag init line data poison s) := by
  fun_cases execBaleData k m tag init line data poison s <;> simp

theorem total_baleTimeout k tag (s : State) : Total (execBaleTimeout k tag s) := by
  fun_cases execBaleTimeout k tag s <;> simp

theorem total_trReqTimeout k tag (s : State) : Total (execTrReqTimeout k tag s) := by
  fun_cases execTrReqTimeout k tag s <;> simp

theorem total_invCpl k tag (s : State) : Total (execInvCpl k tag s) := by
  fun_cases execInvCpl k tag s <;> simp

theorem total_deltaSent (s : State) : Total (execDeltaSent s) := by
  fun_cases execDeltaSent s <;> simp

theorem total_deltaApply off image (s : State) : Total (execDeltaApply off image s) := by
  fun_cases execDeltaApply off image s <;> simp

theorem total_promotionRestoreDone (s : State) : Total (execPromotionRestoreDone s) := by
  fun_cases execPromotionRestoreDone s <;> simp

theorem total_ctxCreateDone fn (s : State) : Total (execCtxCreateDone fn s) := by
  fun_cases execCtxCreateDone fn s <;> simp

theorem total_ctxTeardownDone fn (s : State) : Total (execCtxTeardownDone fn s) := by
  fun_cases execCtxTeardownDone fn s <;> simp

theorem total_abortDone fn (s : State) : Total (execAbortDone fn s) := by
  fun_cases execAbortDone fn s <;> simp

theorem total_queueStepRead q entry rec (s : State) : Total (execQueueStepRead q entry rec s) := by
  fun_cases execQueueStepRead q entry rec s <;> simp [total_readStep]

theorem total_stepDispatch q (s : State) : Total (execStepDispatch q s) := by
  fun_cases execStepDispatch q s <;> simp [total_sendStep]

theorem total_copyStepCommit q (s : State) : Total (execCopyStepCommit q s) := by
  fun_cases execCopyStepCommit q s <;> simp

theorem total_commitCheck (s : State) : Total (execCommitCheck s) := by
  fun_cases execCommitCheck s <;> simp

theorem total_eventOccurrence (s : State) : Total (execEventOccurrence s) := by
  fun_cases execEventOccurrence s <;> simp

theorem total_coalesceWindowEnd code inst (s : State) : Total (execCoalesceWindowEnd code inst s) := by
  fun_cases execCoalesceWindowEnd code inst s <;> simp

theorem total_notifyRepeat (s : State) : Total (execNotifyRepeat s) := by
  fun_cases execNotifyRepeat s <;> simp

theorem total_fuseBurnDone worked (s : State) : Total (execFuseBurnDone worked s) := by
  fun_cases execFuseBurnDone worked s <;> simp

theorem total_flashCommandDone device (s : State) : Total (execFlashCommandDone device s) := by
  fun_cases execFlashCommandDone device s <;> simp

theorem total_spdmRequest path req (s : State) : Total (execSpdmRequest path req s) := by
  unfold execSpdmRequest
  repeat' split
  all_goals simp

theorem total_firmware t flash (s : State) : Total (execFirmware t flash s) := by
  fun_cases execFirmware t flash s <;> simp

theorem total_hbmModeSwitch h pc (s : State) : Total (execHbmModeSwitch h pc s) :=
  .ite (.ite (.next _) (.next _)) (.ite (.next _) (.next _))

theorem total_moduleTrainingDone k m width rate repaired half (s : State) :
    Total (execModuleTrainingDone k m width rate repaired half s) :=
  .ite (.next _) (.ite (.next _) (.ite (.next _) (.next _)))

theorem total_moduleRetrain k m retries lanes half (s : State) : Total (execModuleRetrain k m retries lanes half s) :=
  .ite (.next _) (.ite (.next _) (.ite (.next _) (.next _)))

theorem total_relayLinkUp width rate epoch role sync (s : State) : Total (execRelayLinkUp width rate epoch role sync s) :=
  .ite (.next _) (.ite (.next _) (.ite (.next _) (.ite (.next _) (.next _))))

theorem total_rom t (s : State) : Total (execRom t s) := .ite (.next _) (.ite (.next _) (.ite (.next _) (.next _)))

/-! ### Commands that test their ranges -/

theorem settled_tcInvComplete fn (s : State) : Settled (decide (fn < 13)) (execTcInvComplete fn s) := by
  refine .lt ?_
  split <;> simp

theorem settled_msixUnmask fn (c : MsixChange) (s : State) : Settled (decide (fn < 13) && c.wellFormed) (execMsixUnmask fn c s) := by
  refine .gate ?_ (.ite (.next _) ?_)
  · cases c <;> simp [MsixChange.wellFormed]; omega
  · cases c <;> simp

theorem settled_tcInv fn all pasid (s : State) : Settled (decide (fn < 13 ∧ pasid < 2 ^ 20)) (execTcInv fn all pasid s) :=
  .gate (by simp; omega) (.ite (.next _) (.next _))

theorem settled_hostRead fn bar off len (s : State) :
    Settled (decide (fn < 13) && windowReq bar off len) (execHostRead fn bar off len s) := by
  refine .gate (by simp; grind) ?_
  dsimp only
  repeat' split
  all_goals simp

theorem settled_hostWrite fn bar off (b : List Byte) ro (s : State) :
    Settled (decide (fn < 13) && windowReq bar off b.length && decide (b.length ≤ 512)) (execHostWrite fn bar off b ro s) := by
  refine .gate (by simp; grind) ?_
  dsimp only
  repeat' split
  all_goals simp

theorem settled_fenceWrite fn seq (s : State) : Settled (decide (fn < 13 ∧ seq < 2 ^ 32)) (execFenceWrite fn seq s) :=
  .gate_and (by simp; grind) (settled_postOwn ..)

theorem settled_doorbellTailWrite fn page v (s : State) :
    Settled (decide (fn < 13 ∧ page < 1024 ∧ v < 2 ^ 32)) (execDoorbellTailWrite fn page v s) :=
  .gate_and (by simp; grind) (settled_postOwn ..)

theorem settled_evtHeadWrite fn page v (s : State) :
    Settled (decide (fn < 13 ∧ page < 1024 ∧ v < 2 ^ 32)) (execEvtHeadWrite fn page v s) :=
  .gate_and (by simp; grind) (settled_postOwn ..)

theorem settled_tallyWindowAdd fn slot v (s : State) :
    Settled (decide (fn < 13 ∧ slot < 65536 ∧ v < 2 ^ 32)) (execTallyWindowAdd fn slot v s) :=
  .gate_and (by simp; grind) (settled_postOwn ..)

theorem settled_apertureAccess fn k n data (s : State) :
    Settled (Instr.apertureAccess fn k n data).wellFormed (execApertureAccess fn k n data s) := by
  cases data with
  | none => exact .gate (by simp [Instr.wellFormed]; omega) (.ite (.next _) (.ite (.next _) (.next _)))
  | some b => exact .gate (by simp [Instr.wellFormed, -List.length_eq_zero_iff]; omega) (.ite (.next _) (.ite (.next _) (.next _)))

theorem settled_atsInvalidationRequest fn itag all pasid va log2 (s : State) :
    Settled (decide (fn < 9 ∧ itag < 32 ∧ pasid < 2 ^ 20 ∧ 12 ≤ log2 ∧ log2 ≤ 64))
      (execAtsInvalidationRequest fn itag all pasid va log2 s) :=
  .gate (by simp; omega) (.ite (.next _) (.next _))

theorem settled_atsInvalidationCompletion fn itag (s : State) :
    Settled (decide (fn < 9 ∧ itag < 32)) (execAtsInvalidationCompletion fn itag s) := by
  refine .gate (by simp; omega) ?_
  split <;> simp

theorem settled_translationCompletion fn pasid va ans (s : State) :
    Settled (Instr.translationCompletion fn pasid va ans).wellFormed (execTranslationCompletion fn pasid va ans s) := by
  refine .gate ?_ (.ite (.next _) (.next _))
  cases ans <;> simp [Instr.wellFormed] <;> omega

theorem settled_hostReadCompletion port tag d (s : State) :
    Settled (decide (port < 2 ∧ tag < 4096)) (execHostReadCompletion port tag d s) :=
  .gate (by simp; omega) (total_readEnds ..)

theorem settled_hostCompletionTimeout port tag (s : State) :
    Settled (decide (port < 2 ∧ tag < 4096)) (execHostCompletionTimeout port tag s) :=
  .gate (by simp; omega) (.ite (.next _) (total_readEnds ..))

theorem settled_relayWrite off data posted (s : State) :
    Settled (Instr.relayWrite off data posted).wellFormed (execRelayWrite off data posted s) := by
  refine .gate ?_ (.ite (.next _) ?_)
  · cases data <;> cases posted <;> simp [Instr.wellFormed, ← List.length_eq_zero_iff]; omega
  · repeat' split
    all_goals simp

theorem settled_ageingMeasure d sl (s : State) : Settled (decide (d.length = 184) && sl.all (fun k => decide (k < 184)))
    (execAgeingMeasure d sl s) :=
  .gate (by simp; grind) (.ite (.next _) (.next _))

theorem settled_clocks t pll router d sl (s : State) :
    Settled (Instr.clocks t pll router d sl).wellFormed (execClocks t pll router d sl s) := by
  refine .gate ?_ (.ite (.next _) ?_)
  · cases pll <;> cases router <;> simp [Instr.wellFormed] <;> grind
  · dsimp only
    split <;> simp

theorem settled_serai t rows (s : State) : Settled (rows.all (fun r => decide (r.1 < 160 ∧ r.2 < 16))) (execSerai t rows s) := by
  refine .gate (by simp; grind) (.ite (.next _) ?_)
  dsimp only
  repeat' split
  all_goals simp

theorem settled_hbmInit t caps a b (s : State) :
    Settled (decide (caps.length = 8) && caps.all (fun c => decide (c ≤ 4))) (execHbmInit t caps a b s) := by
  refine .gate (by simp; grind) (.ite (.next _) (.ite (.next _) (.ite (.next _) ?_)))
  dsimp only
  split <;> simp

theorem settled_memtest t rows (s : State) :
    Settled (rows.all (fun r => decide (r.1 < 8 ∧ r.2.1 < 64 ∧ r.2.2.1 < 16))) (execMemtest t rows s) := by
  unfold execMemtest
  rcases testLevel s with ⟨level, all⟩
  refine .gate (all_eq_false_iff fun r => ?_) (.ite (.next _) ?_)
  · simp [testRowBad]; grind
  · dsimp only
    split <;> simp

theorem settled_engines t cols (s : State) : Settled (cols.all (fun c => decide (c.1 < 8 ∧ c.2 < 512))) (execEngines t cols s) :=
  .gate (by simp; grind) (.ite (.next _) (.next _))

theorem settled_hbmRequest x w (s : State) : Settled (isHbm (128 * x.line)) (execHbmRequest x w s) := by
  refine .gate (by simp [lineHa, Nat.mul_comm]) ?_
  dsimp only
  repeat' split
  all_goals simp

theorem settled_guardCheckDone e fl (s : State) : Settled (fl.all flawOk) (execGuardCheckDone e fl s) := by
  refine .gate_not ?_
  dsimp only
  repeat' split
  all_goals simp

theorem settled_ladderRerunDone e fl feed (s : State) :
    Settled (fl.all flawOk && feed.all feedFlawOk) (execLadderRerunDone e fl feed s) := by
  refine .gate_not ?_
  repeat' split
  all_goals simp [total_rerunTile]

theorem settled_packetError crc x what (s : State) : Settled (placeOccurs x) (execPacketError crc x what s) := by
  refine .gate_not ?_
  dsimp only
  repeat' split
  all_goals simp

theorem settled_ioRd k m h (s : State) : Settled (isMessage h 1 1) (execIoRd k m h s) := by
  refine settled_ioRequest fun t q n => ?_
  dsimp only
  split <;> simp

theorem settled_ioWr k m h (data : List (BitVec 8)) (s : State) :
    Settled (isMessage h 1 2 && decide (data.length = 16 * ioSlots (hSize h))) (execIoWr k m h data s) := by
  refine .gate_and (by simp [Bool.and_comm]) (settled_ioRequest fun t q n => ?_)
  dsimp only
  split <;> simp

theorem settled_baleRd k m h (s : State) : Settled (isMessage h 2 1) (execBaleRd k m h s) := by
  refine .gate_not ?_
  dsimp only
  repeat' split
  all_goals simp

theorem settled_baleWr k m h (s : State) : Settled (isMessage h 2 2) (execBaleWr k m h s) := by
  refine .gate_not ?_
  repeat' split
  all_goals simp

theorem settled_ehpTally k m h (s : State) : Settled (isMessage h 3 6) (execEhpTally k m h s) := by
  refine .gate_not ?_
  dsimp only
  repeat' split
  all_goals simp

theorem settled_trCpl k m tag st (es : List (List (BitVec 8))) (s : State) :
    Settled (decide (es.length ≠ 0 ∧ es.length ≤ 8) && es.all (fun e => decide (e.length = 16))) (execTrCpl k m tag st es s) := by
  refine .gate (by simp; grind) (.ite (.next _) ?_)
  dsimp only
  split <;> simp

theorem settled_invReq k m tag all pasid va log2 (s : State) :
    Settled (decide (pasid < 2 ^ 20 ∧ 12 ≤ log2 ∧ log2 ≤ 52)) (execInvReq k m tag all pasid va log2 s) :=
  .gate (by simp; omega) (.ite (.next _) (.ite (.next _) (.next _)))

theorem settled_rcRead fn (p : HostProbe) (s : State) : Settled p.wellFormed (execRcRead fn p s) := by
  cases p with
  | config off len => exact .gate (by simp [HostProbe.wellFormed]; omega) (.ite (.next _) (.next _))
  | relay off len => exact .gate (by simp [HostProbe.wellFormed]; omega) (.ite (.next _) (.next _))
  | bar0 off len => exact .gate (by simp [HostProbe.wellFormed]; omega) (.ite (.next _) (.ite (.next _) (.next _)))

theorem settled_registerWrite fn (c : HostChange) (s : State) : Settled c.wellFormed (execRegisterWrite fn c s) := by
  refine .gate_not (.ite (.next _) ?_)
  repeat' split
  all_goals simp

theorem settled_stageMark skew (eyes : List Nat) est (s : State) :
    Settled (decide (eyes.length = 32)) (execStageMark skew eyes est s) :=
  .gate (by simp) (.ite (.next _) (.ite (.next _) (.next _)))

theorem settled_markZero skew (eyes : List Nat) (s : State) : Settled (decide (eyes.length = 32)) (execMarkZero skew eyes s) :=
  .gate (by simp) (.ite (.next _) (.next _))

theorem settled_tempSample (d h : List Nat) (s : State) :
    Settled (decide (d.length = 160 ∧ h.length = 8)) (execTempSample d h s) :=
  .gate (by simp; omega) (.ite (.next _) (.next _))

theorem settled_avsCurrentRead a (s : State) : Settled (decide (a < 2 ^ 16)) (execAvsCurrentRead a s) :=
  .gate (by simp) (.ite (.next _) (.next _))

theorem settled_hpfBringupUpdate p e (s : State) :
    Settled (decide (p ≤ 1000 ∧ e ≤ 16383)) (execHpfBringupUpdate p e s) :=
  .gate (by simp; omega) (.ite (.next _) (.next _))

theorem settled_descriptor k m (b : List (BitVec 8)) (s : State) : Settled (decide (b.length = 64)) (execDescriptor k m b s) :=
  .gate (by simp) (.ite (.next _) (.ite (.next _) (.next _)))

theorem settled_mctpMessage pcie (m : List (BitVec 8)) sec (s : State) :
    Settled (decide (m.length ≤ 1088)) (execMctpMessage pcie m sec s) :=
  .gate (by simp) (.ite (.next _) (.ite (.next _) (.ite (.next _) (.next _))))

/-! ### Every command -/

/-- Settles O55, family by family: a command tests its ranges first, or has none, and its meaning is total. -/
theorem illFormedStops : Obligations.IllFormedStops := by
  unfold Obligations.IllFormedStops
  intro c s
  change Settled c.wellFormed (exec c s)
  cases c
  case add | sub | andC | orC | xorC | sll | srl | sra | slt | sltu | mul | mulhs | mulhu | divs | divu | rems | remu | clz | popc | min |
      max | addi | andi | ori | xori | slti | ldhi | pcadd | iclr | vadd32 | vsub32 | vmul32 | fadd | fsub | fmul | fma | vand | vor | vxor
      | vins | vext | vsplat | cvtI2f | cvtF2i | cmaPoll => exact .of_total (total_coreRegs ..)
  case jlk | jlkr | rcall | dbgstop | fmin | fmax => exact .of_total (total_coreDo fun _ _ => .next _)
  case tret | stepDone | flush | acq => exact .of_total (total_coreDo fun _ _ => .ite (.next _) (.next _))
  case sleep => exact .of_total (total_coreDo fun _ _ => .ite (.next _) (.ite (.next _) (.next _)))
  case ld8u | ld16u | ld32u | ld64 | ld8s | ld16s | ld32s => exact .of_total (total_load ..)
  case st8 | st16 | st32 | st64 => exact .of_total (total_store ..)
  case tallyRead | tallyAdd | tallyWaitGe => exact .of_total (total_tally ..)
  case beq | bne | blt | bge | bltu | bgeu => exact .of_total (total_coreDo fun _ _ => .next _)
  case rspI | rspS | rspIData | rspSData | rspFwd | rspFwdData | rspFwdMiss =>
    simp only [exec_rspI, exec_rspS, exec_rspIData, exec_rspSData, exec_rspFwd, exec_rspFwdData, exec_rspFwdMiss]
    exact .of_total (total_respond ..)
  case prefetch | writeback | tierEvict | tierDiscard | moveC | initC | advise =>
    simp only [exec_prefetch, exec_writeback, exec_tierEvict, exec_tierDiscard, exec_moveC, exec_initC, exec_advise]
    exact .of_total (total_tierCommand fun _ _ _ _ => .nextSettled _)
  case donate =>
    rw [exec_donate]
    exact .of_total (total_tierCommand fun _ _ _ _ => .ite (.next _) (.next _))
  case shi => exact .of_total (total_shi ..)
  case vld => exact .of_total (total_vld ..)
  case vst => exact .of_total (total_vst ..)
  case ccrr => exact .of_total (total_ccrr ..)
  case ccrw => exact .of_total (total_ccrw ..)
  case ndot => exact .of_total (total_ndot ..)
  case ncvt => exact .of_total (total_ncvt ..)
  case nexp => exact .of_total (total_nexp ..)
  case bmove => exact .of_total (total_bmove ..)
  case cmaIssue => exact .of_total (total_cmaIssue ..)
  case cmaWait => exact .of_total (total_cmaWait ..)
  case granuleZeroingDone => exact .of_total (total_granuleZeroingDone ..)
  case deadlineExpiry => exact .of_total (total_deadlineExpiry ..)
  case descriptorFetch => exact .of_total (total_descriptorFetch ..)
  case planeLoadDone => exact .of_total (total_planeLoadDone ..)
  case descriptorEnd => exact .of_total (total_descriptorEnd ..)
  case engineStepCommit => exact .of_total (total_engineStepCommit ..)
  case tallyWaitRelease => exact .of_total (total_tallyWaitRelease ..)
  case cmaWaitRelease => exact .of_total (total_cmaWaitRelease ..)
  case cmaCommandDone => exact .of_total (total_cmaCommandDone ..)
  case l0FillReturn => exact .of_total (total_l0FillReturn ..)
  case writeAccepted => exact .of_total (total_writeAccepted ..)
  case coreFault => exact .of_total (total_coreFault ..)
  case waveRelease => exact .of_total (total_waveRelease ..)
  case homeRead => exact .of_total (total_homeRead ..)
  case homeWrite => exact .of_total (total_homeWrite ..)
  case lineUnbusy => exact .of_total (total_lineUnbusy ..)
  case missFillReturn => exact .of_total (total_missFillReturn ..)
  case writebackBufferFree => exact .of_total (total_writebackBufferFree ..)
  case baleFillDone => exact .of_total (total_baleFillDone ..)
  case baleWritebackDone => exact .of_total (total_baleWritebackDone ..)
  case baleMoveDone => exact .of_total (total_baleMoveDone ..)
  case tierStepCommit => exact .of_total (total_tierStepCommit ..)
  case maintDone => exact .of_total (total_maintDone ..)
  case hbmReadIssue => exact .of_total (total_hbmReadIssue ..)
  case hbmReadData => exact .of_total (total_hbmReadData ..)
  case patrolScrubRead => exact .of_total (total_patrolScrubRead ..)
  case rowRepair => exact .of_total (total_rowRepair ..)
  case rowRepairDone => exact .of_total (total_rowRepairDone ..)
  case fwdAck => exact .of_total (total_fwdAck ..)
  case holdExpiry => exact .of_total (total_holdExpiry ..)
  case snoopTimeout => exact .of_total (total_snoopTimeout ..)
  case linkGraceExpiry => exact .of_total (total_linkGraceExpiry ..)
  case domainReset => exact .of_total (total_domainReset ..)
  case responseTimeout => exact .of_total (total_responseTimeout ..)
  case baleData => exact .of_total (total_baleData ..)
  case baleTimeout => exact .of_total (total_baleTimeout ..)
  case trReqTimeout => exact .of_total (total_trReqTimeout ..)
  case invCpl => exact .of_total (total_invCpl ..)
  case deltaSent => exact .of_total (total_deltaSent ..)
  case deltaApply => exact .of_total (total_deltaApply ..)
  case promotionRestoreDone => exact .of_total (total_promotionRestoreDone ..)
  case ctxCreateDone => exact .of_total (total_ctxCreateDone ..)
  case ctxTeardownDone => exact .of_total (total_ctxTeardownDone ..)
  case abortDone => exact .of_total (total_abortDone ..)
  case queueStepRead => exact .of_total (total_queueStepRead ..)
  case stepDispatch => exact .of_total (total_stepDispatch ..)
  case copyStepCommit => exact .of_total (total_copyStepCommit ..)
  case commitCheck => exact .of_total (total_commitCheck ..)
  case eventOccurrence => exact .of_total (total_eventOccurrence ..)
  case coalesceWindowEnd => exact .of_total (total_coalesceWindowEnd ..)
  case notifyRepeat => exact .of_total (total_notifyRepeat ..)
  case fuseBurnDone => exact .of_total (total_fuseBurnDone ..)
  case flashCommandDone => exact .of_total (total_flashCommandDone ..)
  case spdmRequest => exact .of_total (total_spdmRequest ..)
  case firmware => exact .of_total (total_firmware ..)
  case rdCur | rdShared | rdOwn | upgrade | wbDirty | evict | wrFull | wrPart => exact settled_chipRequest ..
  case read | write | commit | info | eventGet | regRead | regWrite => exact settled_runRequest ..
  case ctxCreate | ctxTeardown | queueBind | queueUnbind | slotConfig | slotFree | abort | ctxQuery | partQuery | partReset =>
    simp only [exec_ctxCreate, exec_ctxTeardown, exec_queueBind, exec_queueUnbind, exec_slotConfig, exec_slotFree, exec_abort,
      exec_ctxQuery, exec_partQuery, exec_partReset]
    exact settled_startCmd ..
  case tcInvComplete => exact settled_tcInvComplete ..
  case msixUnmask => exact settled_msixUnmask ..
  case tcInv => exact settled_tcInv ..
  case hostRead => exact settled_hostRead ..
  case hostWrite => exact settled_hostWrite ..
  case fenceWrite => exact settled_fenceWrite ..
  case doorbellTailWrite => exact settled_doorbellTailWrite ..
  case evtHeadWrite => exact settled_evtHeadWrite ..
  case tallyWindowAdd => exact settled_tallyWindowAdd ..
  case apertureAccess => exact settled_apertureAccess ..
  case atsInvalidationRequest => exact settled_atsInvalidationRequest ..
  case atsInvalidationCompletion => exact settled_atsInvalidationCompletion ..
  case translationCompletion => exact settled_translationCompletion ..
  case hostReadCompletion => exact settled_hostReadCompletion ..
  case hostCompletionTimeout => exact settled_hostCompletionTimeout ..
  case relayWrite => exact settled_relayWrite ..
  case ageingMeasure => exact settled_ageingMeasure ..
  case clocks => exact settled_clocks ..
  case serai => exact settled_serai ..
  case hbmInit => exact settled_hbmInit ..
  case memtest => exact settled_memtest ..
  case engines => exact settled_engines ..
  case hbmRequest => exact settled_hbmRequest ..
  case guardCheckDone => exact settled_guardCheckDone ..
  case ladderRerunDone => exact settled_ladderRerunDone ..
  case packetError => exact settled_packetError ..
  case ioRd => exact settled_ioRd ..
  case ioWr => exact settled_ioWr ..
  case baleRd => exact settled_baleRd ..
  case baleWr => exact settled_baleWr ..
  case ehpTally => exact settled_ehpTally ..
  case trCpl => exact settled_trCpl ..
  case invReq => exact settled_invReq ..
  case rcRead => exact settled_rcRead ..
  case registerWrite => exact settled_registerWrite ..
  case perstDeassert | perstAssert | hostRefclkLoss | hotReset | hostLinkUp | d3hotEntry | d0Entry | bmeClear | bmeSet | adopt |
      attachDiscard | pull | atsEnableClear | partitionResetDone => exact .lt (.ite (.next _) (.next _))
  case flr => exact .lt (.ite (.next _) (.ite (.next _) (.next _)))
  case fenceRead | flrComplete => exact .lt (.ite (.next _) (.ite (.next _) (.ite (.next _) (.next _))))
  case mecDrain | mecEnable | clean | inv | cleanInv | preloadLock | unlock | domainDownCommand | requestActive | requestStandby |
      actionCommit | actionDiscard | hostEnableWrite | logDropsClear | blackBoxClear | scrubLossClear | token | ownerEnrol | svnAdvance |
      warmReset | replanNow | siteReset | softRaise | nocHistSelWrite =>
    exact .of_total (.next _)
  case supplyGood | powerOnResetRelease | supplyOutOfBand | armSend | armReceive | stepCancelDone | waySweepDone | tollWindow |
      takeInterrupt | timerExpiry | seraiRowFail | hbmRefresh | domainSweepDone | identifyTimeout | moduleLinkDown | fatal | credit |
      resyncDone | mailboxGo | erase4k | erase64k | program | flashRead | activate | porter | sites | start | hubFault | replanInterval |
      avsTimeout | relayLinkDown | ucieLowPowerRequest =>
    exact .of_total (.ite (.next _) (.next _))
  case domainResetCompare => exact .of_total (.ite (.next _) (.ite (.next _) (.next _)))
  case hbmModeSwitch => exact .of_total (total_hbmModeSwitch ..)
  case moduleTrainingDone => exact .of_total (total_moduleTrainingDone ..)
  case moduleRetrain => exact .of_total (total_moduleRetrain ..)
  case relayLinkUp => exact .of_total (total_relayLinkUp ..)
  case rom => exact .of_total (total_rom ..)
  case stageMark => exact settled_stageMark ..
  case markZero => exact settled_markZero ..
  case tempSample => exact settled_tempSample ..
  case avsCurrentRead => exact settled_avsCurrentRead ..
  case hpfBringupUpdate => exact settled_hpfBringupUpdate ..
  case descriptor => exact settled_descriptor ..
  case mctpMessage => exact settled_mctpMessage ..

end Sys2Proof.Machine.Claims
end
